-- ==== Sys2Proof/Word.lean ====
section
/-!
DEFINITION. The word types of the TG8512: a word is 36 bits (four nonets), an instruction byte 8 bits,
a stored granule 88 bits (72 data bits and 16 check bits), spec/00_scope.md and spec/08_tile_memory.md.
-/
namespace Sys2Proof

/-- A data word, 36 bits. -/
abbrev Word := BitVec 36

/-- A byte of instruction space, of flash or of a host frame. -/
abbrev Byte := BitVec 8

/-- The stored bits of one granule (Table 8.4). -/
abbrev Gran := BitVec 88

/-- A tick number, 48 bits (R53). -/
abbrev Tick := BitVec 48

end Sys2Proof
end

