-- ==== Sys2Proof/Syntax.lean ====
section
/-!
DEFINITION. The commands of the block: one constructor for each row of spec/opcode_table.json, in the table's order,
with the operands that say what the outside world, or an engine of the part, supplies. Each docstring names the rule
of spec/ and the row.
-/
namespace Sys2Proof

/-- The commands. -/
inductive Instr where
  /-- MARKER (R45): a marker on timing input inp, pos symbols after the previous milestone; codeErrs: code errors and disparity errors seen since the last marker; offset: its time against the part's milestone, in ps. -/
  | marker (inp pos codeErrs : Nat) (offset : Int)
  /-- MARKER_MISSING (R58): the expected marker position of input inp passes with no marker. -/
  | markerMissing (inp codeErrs : Nat)
  /-- TICKSET (R54): the bytes of a message with TYPE 0x01 that has ended (or, ended = false, has not) on an input. -/
  | tickset (inp : Nat) (bytes : List Byte) (ended : Bool)
  /-- ACCEPT (R50): the bytes of a message with TYPE 0x02. -/
  | accept (inp : Nat) (bytes : List Byte) (ended : Bool)
  /-- MILESTONE (R53): milestone M occurs. -/
  | milestone
  /-- REGISTER_WRITE (R1): master m writes the word at an address of region 0 or 1. -/
  | registerWrite (m addr : Nat) (w : Word)
  /-- PKG_TIM_COMMIT (R69): master m writes PKG_TIM_COMMIT. -/
  | pkgTimCommit (m : Nat) (w : Word)
  /-- TILE_COMMIT (R266): master m writes TILE_COMMIT of physical tile p of die d. -/
  | tileCommit (m d p : Nat) (w : Word)
  /-- DIE_NET_COMMIT (R401): master m writes DIE_NET_COMMIT of die d. -/
  | dieNetCommit (m d : Nat) (w : Word)
  /-- DRAM_COMMIT (R519): master m writes DRAM_COMMIT of stack d. -/
  | dramCommit (m d : Nat) (w : Word)
  /-- LINK_GCOMMIT (R477): master m writes LINK_GCOMMIT of group g of die d. -/
  | linkGcommit (m d g : Nat) (w : Word)
  /-- LINK_COMMIT (R478): master m writes LINK_COMMIT of link n. -/
  | linkCommit (m n : Nat) (w : Word)
  /-- PWR_COMMIT (R628): master m writes PWR_COMMIT. -/
  | pwrCommit (m : Nat) (w : Word)
  /-- TICK0_READ (R71): master m reads PKG_TIM_TICK0. -/
  | tick0Read (m : Nat)
  /-- PKG_TIM_CNTCLR (R72): master m writes PKG_TIM_CNTCLR. -/
  | pkgTimCntclr (m : Nat) (w : Word)
  /-- NET_DATA_ACCESS (R401): master m reads or writes DIE_NET_DATA of die d. -/
  | netDataAccess (m d : Nat) (write : Bool) (w : Word)
  /-- RPD_ACCESS (R496): master m reads or writes DRAM_RPD of stack d. -/
  | rpdAccess (m d : Nat) (write : Bool) (w : Word)
  /-- TILE_SP_DATA (R192): an access to TILE_SP_DATA. -/
  | tileSpData (m d p : Nat) (write : Bool) (w : Word)
  /-- DBELL_WRITE (R304): a write of TILE_DBELL. -/
  | dbellWrite (m d p : Nat) (w : Word)
  /-- DROPLK (R264): a write of TILE_POP.DROPLK. -/
  | droplk (m d p : Nat) (w : Word)
  /-- DROPIN (R281): a write of TILE_POP.DROPIN. -/
  | dropin (m d p : Nat) (w : Word)
  /-- TILE_TCR_WRITE (R292): a write of TILE_TCR from outside the tile. -/
  | tileTcrWrite (m d p : Nat) (w : Word)
  /-- POISON (R349): a write of TILE_POISON. -/
  | poison (m d p : Nat) (w : Word)
  /-- BUNDLE (R95): the tile issues one bundle; ext: extra cycles it waited on outside events. -/
  | bundle (d p ext : Nat)
  /-- REP_I (R147): the tile begins a REP.i prefix. -/
  | repI (d p : Nat)
  /-- REP_S (R149): the tile begins a REP.s prefix. -/
  | repS (d p : Nat)
  /-- LOOP_I (R152): the tile begins a LOOP.i prefix. -/
  | loopI (d p : Nat)
  /-- LOOP_S (R155): the tile begins a LOOP.s prefix. -/
  | loopS (d p ext : Nat)
  /-- SEAL (R160): the tile begins a SEAL prefix. -/
  | seal (d p : Nat)
  /-- SIGNPOST_MACRO (R184): the tile begins a macro opcode. -/
  | signpostMacro (d p : Nat)
  /-- TRAP_ENTRY (R311): the tile enters the handler of its raised trap. -/
  | trapEntry (d p : Nat)
  /-- LATEBUS (R307): pending failed window stores are taken at an open point. -/
  | latebus (d p : Nat)
  /-- TOLL (R306): a pending toll event is taken at an open point. -/
  | toll (d p : Nat)
  /-- DOORBELL (R308): a pending doorbell is taken. -/
  | doorbell (d p : Nat)
  /-- MIGRATE (R308): a pending detour request is taken. -/
  | migrate (d p : Nat)
  /-- ROUTINE_BEGIN (R120): a waiting tile begins its routine. -/
  | routineBegin (d p : Nat)
  /-- WAITM_RESUME (R126): a tile waiting at ctl.waitm at P0 continues. -/
  | waitmResume (d p : Nat)
  /-- OVERRUN (R418): the tile observes its next start milestone too late. -/
  | overrun (d p : Nat)
  /-- SKIP (R419): a tick whose routine has not begun is skipped. -/
  | skip (d p : Nat)
  /-- ABANDON (R421): an unfinished routine is abandoned. -/
  | abandon (d p : Nat)
  /-- TOLL_EVENT (R415): the warden takes the tile's next toll event. -/
  | tollEvent (d p : Nat)
  /-- STORE_RETIRE (R241): the head store-buffer entry retires. -/
  | storeRetire (d p : Nat)
  /-- WRITE_BACK (R345): the next queued correction is written back; coin: in the cycle of the tile's own write of that exchange granule. -/
  | writeBack (d p : Nat) (coin : Bool)
  /-- SCRUB_STEP (R351): patrol scrub reads its next granule. -/
  | scrubStep (d p : Nat)
  /-- DATA_SIDE_ACCESS (R329): a data-side access to a tile memory, addr the word within the tile block; coin: in the cycle of the tile's own write of the granule. -/
  | dataSideAccess (agent d p addr : Nat) (write : Bool) (w : Word) (coin : Bool)
  /-- DATA_SIDE_TIMEOUT (R330): a crossroads data-side access is abandoned. -/
  | dataSideTimeout (agent d p addr : Nat) (write : Bool)
  /-- VAULT_WIPE (R359): a wipe event of the vault of die d. -/
  | vaultWipe (d cause : Nat)
  /-- VAULT_WIPE_END (R360): the last granule of the wipe is written. -/
  | vaultWipeEnd (d : Nat)
  /-- FLIT_FORWARD (R371): junction j of die d forwards the head flit of input inp (0 to 3 the outbound channels of its tile, 4 N, 5 E, 6 S, 7 W) to output port out (0 L, 1 N, 2 E, 3 S, 4 W); flip: transmission errors in it. -/
  | flitForward (d j inp out : Nat) (flip : BitVec 72)
  /-- INBOUND_ARRIVE (R280): a flit leaves the mesh into inbound inb. -/
  | inboundArrive (d p inb : Nat)
  /-- IBRAK_BLOCK_RECEIVE (R383): the oldest block in flight of direction dir of link l arrives; flip: the bits of it that errors have changed on the way.. -/
  | ibrakBlockReceive (l dir : Nat) (flip : BitVec 1152)
  /-- RETRAIN (R386): link l begins to retrain. -/
  | retrain (l : Nat)
  /-- CROSSROADS_TRANSACTION (R393): master m issues a transaction; busy: its target port serves another one, so that it waits.. -/
  | crossroadsTransaction (m addr beats : Nat) (write : Bool) (data : List Word) (busy : Bool)
  /-- CROSSROADS_TIMEOUT (R395): a transaction of master m unanswered. -/
  | crossroadsTimeout (m addr : Nat) (write : Bool)
  /-- IO_WINDOW_ANSWER (R684): the answer of the oldest window request of the tile returns. -/
  | ioWindowAnswer (d p : Nat)
  /-- LOOKUP_ANSWER (R263): the next lookup word of a stream arrives. -/
  | lookupAnswer (d p st : Nat)
  /-- MASTER_RESET (R399): master m is reset; flight: its transactions in flight as (address, write, beats, 0 for one word, beats that their target has accepted, 1 for a word, data).. -/
  | masterReset (m : Nat) (flight : List (Nat × Bool × Nat × Nat × List Word))
  /-- XRDRAIN (R399): the drain of master m ends. -/
  | xrdrain (m : Nat)
  /-- LOAD (R642): PKG_IMG_CMD LOAD. -/
  | load (m : Nat)
  /-- LOAD_DONE (R422): loading ends. -/
  | loadDone
  /-- ARM (R57): PKG_IMG_CMD ARM. -/
  | arm (m : Nat)
  /-- SWAP (R426): PKG_IMG_CMD SWAP. -/
  | swap (m : Nat)
  /-- DISCARD (R424): PKG_IMG_CMD DISCARD. -/
  | discard (m : Nat)
  /-- DISARM (R425): PKG_IMG_CMD DISARM. -/
  | disarm (m : Nat)
  /-- ARM_AT (R644): milestone AT of an accepted ARM. -/
  | armAt
  /-- DISARM_AT (R646): milestone AT of an accepted DISARM. -/
  | disarmAt
  /-- TILE_SWITCH (R428): a tile switches to the new image. -/
  | tileSwitch (d p : Nat)
  /-- SWAP_COMPLETE (R430): the swap is complete. -/
  | swapComplete
  /-- DETOUR_CONVERGENT (R434): a convergent detour. -/
  | detourConvergent (d slot layby start w : Nat)
  /-- DETOUR_NONCONVERGENT (R435): a non-convergent detour. -/
  | detourNonconvergent (d slot layby freeze : Nat)
  /-- STATE_COPY_END (R435): the copy of a non-convergent detour ends. -/
  | stateCopyEnd (d slot : Nat)
  /-- INGRESS_FRAME (R457): line bits that have reached link n since the last ones, first bit first, up to the end of a frame; phase: quarter nanoseconds before the latest admissible phase of a tick at which the START bit found in them reached the land; coin: its deposit falls in the cycle of the tile's own write. -/
  | ingressFrame (n tick : Nat) (phase : Int) (line : List Bool) (coin : Bool)
  /-- ARRIVAL_WINDOW_CLOSE (R458): the arrival window of a tick closes on link n; coin: its deposit falls in the cycle of the tile's own write. -/
  | arrivalWindowClose (n tick : Nat) (coin : Bool)
  /-- EGRESS_WRITE_ARRIVE (R79): the oldest egress write or completion of a tile reaches its link. -/
  | egressWriteArrive (d p : Nat)
  /-- SLOT_CLOSE (R78): the egress island of link n observes the milestone that closes the slot of its oldest open tick. -/
  | slotClose (n : Nat)
  /-- EGRESS_FRAME_SEND (R38): the transmitter of link n sends. -/
  | egressFrameSend (n : Nat)
  /-- SLOT_TO_DELAY_AREA (R464): a slot of link n moves into the delay area. -/
  | slotToDelayArea (n : Nat)
  /-- LOCK_GAIN (R445): line bits that reach link n while it seeks lock. -/
  | lockGain (n : Nat) (line : List Bool)
  /-- LOCKLOSS (R445): line bits that reach link n until its lock is lost; gone: the signal is gone after them. -/
  | lockloss (n : Nat) (line : List Bool) (gone : Bool)
  /-- DATAGRAM_SEND (R474): link n sends a datagram. -/
  | datagramSend (n : Nat)
  /-- ETH_RX_DISCARD (R476): link n receives a frame. -/
  | ethRxDiscard (n : Nat)
  /-- HISTORY_WRITE (R489): one step of the history writer of group g of die d. -/
  | historyWrite (d g : Nat)
  /-- HISTORY_HOLD (R492): a tick is not committed in time. -/
  | historyHold (d : Nat)
  /-- READOUT_REQUEST (R494): the oldest readout request not yet seen by engine d reaches it. -/
  | readoutRequest (d : Nat)
  /-- READOUT_SERVE (R497): engine d serves one tick. -/
  | readoutServe (d : Nat)
  /-- DATAGRAM_HAND (R499): engine d hands a datagram. -/
  | datagramHand (d : Nat)
  /-- HOST_RING_ENTRY (R500): engine d writes a ring entry. -/
  | hostRingEntry (d : Nat)
  /-- REFRESH (R513): the controller refreshes the stack. -/
  | refresh (d : Nat)
  /-- DRAM_SCRUB_STEP (R514): patrol scrub of the stack. -/
  | dramScrubStep (d : Nat)
  /-- ROW_REPAIR (R515): the controller of stack d repairs the row that holds a parcel; spares: spare rows left in the bank of the row. -/
  | rowRepair (d parcel spares : Nat)
  /-- STACK_TOLL_OVER (R511): an activity goes beyond its charge. -/
  | stackTollOver (d row : Nat)
  /-- DRAM_RETIRE (R517): a write of DRAM_CTL. -/
  | dramRetire (m d : Nat) (w : Word)
  /-- STACKLOST (R517): a stack is lost. -/
  | stacklost (d cause : Nat)
  /-- STACK_RETURN (R518): a stack returns. -/
  | stackReturn (d : Nat)
  /-- REBUILD_END (R518): the last table is restored. -/
  | rebuildEnd (d : Nat)
  /-- PCIE_READ (R524): a PCI Express read of endpoint ep. -/
  | pcieRead (ep off len : Nat)
  /-- PCIE_WRITE (R525): a PCI Express write. -/
  | pcieWrite (ep off : Nat) (data : List (Option Byte))
  /-- OPEN (R533): a management Ethernet OPEN. -/
  | ethOpen (port : Nat) (frame : List Byte)
  /-- CLOSE (R535): CLOSE. -/
  | ethClose (port : Nat) (frame : List Byte)
  /-- KEEPALIVE (R532): KEEPALIVE. -/
  | ethKeepalive (port : Nat) (frame : List Byte)
  /-- READ (R532): READ. -/
  | ethRead (port : Nat) (frame : List Byte)
  /-- WRITE (R532): WRITE. -/
  | ethWrite (port : Nat) (frame : List Byte)
  /-- ETH_DISCARD (R529): a frame that is discarded. -/
  | ethDiscard (port : Nat) (frame : List Byte)
  /-- SESSION_TIMEOUT (R535): a session times out. -/
  | sessionTimeout (port : Nat)
  /-- CHAL (R545): OWN_MB_CHAL.GO. -/
  | chal (m : Nat)
  /-- CLAIM (R545): a write of OWN_MB_CLAIM. -/
  | claim (m : Nat) (w : Word)
  /-- CLAIM_RESULT (R546): the claim of master m is checked. -/
  | claimResult (m : Nat)
  /-- RENEW (R548): a write of OWN_LEASE. -/
  | renew (m : Nat) (w : Word)
  /-- LEASE_EXPIRY (R549): the lease reaches 0. -/
  | leaseExpiry
  /-- HANDOVER (R550): a write of OWN_HANDOVER. -/
  | handover (m : Nat) (w : Word)
  /-- HANDOVER_WINDOW_CLOSE (R550): the window closes. -/
  | handoverWindowClose
  /-- SET (R543): OWN_LCMD SET. -/
  | keySet (m : Nat) (w : Word)
  /-- REMOVE (R543): OWN_LCMD REMOVE. -/
  | keyRemove (m : Nat) (w : Word)
  /-- NONCE (R567): security command NONCE. -/
  | nonce (m : Nat)
  /-- ATTEST (R568): security command ATTEST. -/
  | attest (m : Nat)
  /-- LCREQ (R570): security command LCREQ. -/
  | lcreq (m : Nat)
  /-- SVN (R571): security command SVN. -/
  | svn (m : Nat)
  /-- ATTEST_KEY_BEGIN (R562): a new attestation key begins. -/
  | attestKeyBegin
  /-- ATTEST_KEY_READY (R562): it is ready. -/
  | attestKeyReady
  /-- TAMPER (R574): a tamper source asserts. -/
  | tamper (src : Nat)
  /-- WAYMARK (R582): the oldest raised record of die d arrives at its unit. -/
  | waymark (d : Nat)
  /-- RING_WRITE (R581): the unit writes its queue head into the ring. -/
  | ringWrite (d : Nat)
  /-- WIN0_READ (R586): master m reads LOG_WIN0. -/
  | win0Read (m : Nat)
  /-- WCHK_READ (R587): master m reads LOG_WCHK. -/
  | wchkRead (m : Nat)
  /-- OLDEST (R586): a write of LOG_CURD. -/
  | oldest (m : Nat) (w : Word)
  /-- FLUSH (R588): the lead warden flushes; ok: the flash programs succeed. -/
  | flush (ok : Bool)
  /-- SECTOR_ERASE (R589): the lead warden erases the next sector. -/
  | sectorErase (ok : Bool)
  /-- PFW (R590): PFW_N low for 1 us. -/
  | pfw
  /-- FLASHERR (R23): the flash controller cannot be reached. -/
  | flasherr
  /-- LEAD (R28): the lead warden is no longer healthy. -/
  | lead
  /-- CEILING_DOWN (R599): the thermal ceiling falls. -/
  | ceilingDown (d : Nat)
  /-- CEILING_UP (R599): the thermal ceiling rises. -/
  | ceilingUp
  /-- MODE_CHANGE (R595): the mode in force changes. -/
  | modeChange
  /-- VOUT_COMMAND (R665): VOUT_COMMAND is sent. -/
  | voutCommand (ack : Bool)
  /-- DOMAIN_READY (R609): a domain completes a step. -/
  | domainReady (d dom : Nat)
  /-- DOMAIN_TRIP (R611): a domain trips. -/
  | domainTrip (d dom : Nat)
  /-- PWR_IBKRET (R613): a write of PWR_IBKRET. -/
  | pwrIbkret (m : Nat) (w : Word)
  /-- LEDGER_ACCRUE (R614): one second of the ledger. -/
  | ledgerAccrue (d : Nat) (mean : Int)
  /-- LEDGER_WRITE (R615): the ledgers are written to flash. -/
  | ledgerWrite
  /-- MONITOR_READ (R617): the delay monitors are read. -/
  | monitorRead (d : Nat) (slacks : List Nat)
  /-- TILE_RETIRE (R618): a write of PWR_TDAT. -/
  | tileRetire (m : Nat) (w : Word)
  /-- RETIREMENT_DETOUR (R619): a due tile is detoured, from the milestone start that the warden names, or retired. -/
  | retirementDetour (d p start : Nat)
  /-- FW_UPDATE (R624): a write of PWR_FW_CMD. -/
  | fwUpdate (m : Nat) (w : Word)
  /-- FW_REJOIN_TIMEOUT (R626): a warden does not rejoin. -/
  | fwRejoinTimeout
  /-- PORST_N_RISE (R629): PORST_N rises. -/
  | porstNRise
  /-- PORST_N_PULSE (R629): PORST_N pulses low. -/
  | porstNPulse
  /-- STARTUP (R632): start-up runs its next phase; bad: what fails in it (phase 0 wardens, 2 links 0 to 9 and 16 + d warden firmware starts, 3 stacks, 4 tiles as 128 d + p). -/
  | startup (bad : List Nat)
  /-- AUTOARM (R643): the flash image is armed. -/
  | autoarm
  /-- PKG_BOOTCFG_WRITE (R647): a write of PKG_BOOTCFG. -/
  | pkgBootcfgWrite (m : Nat) (w : Word)
  /-- DIE_BIST (R639): a write of DIE_BIST. -/
  | dieBist (m d : Nat) (w : Word)
  /-- DIE_BIST_DONE (R639): the self-test ends. -/
  | dieBistDone (d : Nat) (pass : Bool)
  /-- HALTED_TILE_RESET (R640): a halted tile is reset. -/
  | haltedTileReset (d p : Nat)
  /-- EXTEST (R650): TAP EXTEST. -/
  | extest (tdi : List Bool)
  /-- SAMPLE_PRELOAD (R650): TAP SAMPLE/PRELOAD. -/
  | samplePreload (tdi : List Bool)
  /-- IDCODE (R649): TAP IDCODE. -/
  | idcode
  /-- TAP_CLAMP (R650): TAP CLAMP. -/
  | tapClamp
  /-- HIGHZ (R650): TAP HIGHZ. -/
  | highz
  /-- EXTEST_PULSE (R650): TAP EXTEST_PULSE. -/
  | extestPulse (tdi : List Bool)
  /-- EXTEST_TRAIN (R650): TAP EXTEST_TRAIN. -/
  | extestTrain (tdi : List Bool)
  /-- CRACCESS (R652): TAP CRACCESS, its register at Update-DR. -/
  | craccess (dr : BitVec 76)
  /-- BOOTSTAT (R650): TAP BOOTSTAT. -/
  | bootstat
  /-- INTSCAN (R650): TAP INTSCAN. -/
  | intscan
  /-- BYPASS (R650): TAP BYPASS. -/
  | bypass
  /-- TAMPER_DEASSERT (R573): a tamper source deasserts. -/
  | tamperDeassert (src : Nat)
  /-- PFW_N_RISE (R590): PFW_N rises. -/
  | pfwNRise
  /-- IBRAK_TRAIN_END (R386): training of link l ends. -/
  | ibrakTrainEnd (l : Nat) (lanesBad : Nat) (authOk : Bool)
  /-- IBRAK_BLOCK_SEND (R382): direction dir of link l sends one block; flips: errors that its port finds in the mesh flits that wait there.. -/
  | ibrakBlockSend (l dir : Nat) (flips : List (BitVec 72))
  /-- TJ_SAMPLE (R600): die d samples its temperatures. -/
  | tjSample (d : Nat) (temps : List Int)
  /-- WARDEN_REJOIN (R625): a restarted warden rejoins. -/
  | wardenRejoin (d : Nat)
deriving DecidableEq, Repr

end Sys2Proof
end

