-- ==== Sys2Proof/Machine/Bits.lean ====
section
/-!
DEFINITION. Bit-field, sign-extension and byte-order helpers (notation of spec/00_scope.md, Table 0.2).
-/
namespace Sys2Proof.Machine

/-- The field [hi:lo] of a bit vector, as a number. -/
def fld {n : Nat} (w : BitVec n) (hi lo : Nat) : Nat := (w.toNat >>> lo) % 2 ^ (hi + 1 - lo)

/-- The word with its field [hi:lo] set to the low bits of v. -/
def putFld {n : Nat} (w : BitVec n) (hi lo : Nat) (v : Nat) : BitVec n :=
  let m : BitVec n := BitVec.ofNat n ((2 ^ (hi + 1 - lo) - 1) <<< lo)
  (w &&& ~~~m) ||| (BitVec.ofNat n (v <<< lo) &&& m)

/-- One bit as a Boolean. -/
def bitOf {n : Nat} (w : BitVec n) (i : Nat) : Bool := w.getLsbD i

/-- The mask of ones over [hi:lo]. -/
def maskOf (hi lo : Nat) : Word := BitVec.ofNat 36 ((2 ^ (hi + 1 - lo) - 1) <<< lo)

/-- A number as a word, mod 2^36. -/
def wd (n : Nat) : Word := BitVec.ofNat 36 n

/-- An integer as a word, mod 2^36. -/
def wdI (n : Int) : Word := BitVec.ofInt 36 n

/-- 1 or 0 as a word. -/
def wdB (b : Bool) : Word := if b then 1 else 0

/-- 1 or 0. -/
def natB (b : Bool) : Nat := if b then 1 else 0

/-- sx(x, 36) of the n low bits of x. -/
def sxWord (n x : Nat) : Word := wdI (BitVec.ofNat n x).toInt

/-- Nonet k of a word: bits [9k+8:9k]. -/
def nonet (w : Word) (k : Nat) : Nat := fld w (9 * k + 8) (9 * k)

/-- A word from its four nonets, nonet 0 first. -/
def ofNonets (a b c d : Nat) : Word :=
  wd (a % 512 + 512 * (b % 512) + 262144 * (c % 512) + 134217728 * (d % 512))

/-- The number of ones in the n low bits. -/
def popCount (n x : Nat) : Nat := (List.range n).foldl (fun a i => a + (x >>> i) % 2) 0

/-- Add with saturation at a field's largest value. -/
def satAdd (width a b : Nat) : Nat := min (a + b) (2 ^ width - 1)

/-- Little-endian value of a byte list. -/
def leBytes : List Byte → Nat
  | [] => 0
  | b :: bs => b.toNat + 256 * leBytes bs

/-- Big-endian value of a byte list. -/
def beBytes (l : List Byte) : Nat := l.foldl (fun a b => a * 256 + b.toNat) 0

/-- n bytes of a number, least significant first. -/
def toLe : Nat → Nat → List Byte
  | 0, _ => []
  | n + 1, v => BitVec.ofNat 8 v :: toLe n (v / 256)

/-- n bytes of a number, most significant first. -/
def toBe (n v : Nat) : List Byte := (toLe n v).reverse

/-- The bits of the n low positions of a number, most significant first. -/
def bitsMsb (n v : Nat) : List Bool := (List.range n).map (fun i => (v >>> (n - 1 - i)) % 2 == 1)

/-- The number whose bits, most significant first, are the list. -/
def ofBitsMsb (l : List Bool) : Nat := l.foldl (fun a b => a * 2 + natB b) 0

/-- CRC of a bit list, most significant bit first, no reflection: width, polynomial, initial value. -/
def crcBits (width poly init : Nat) (l : List Bool) : Nat :=
  l.foldl (fun c b =>
    let top := (c >>> (width - 1)) % 2 == 1
    let c2 := (c * 2) % 2 ^ width
    if top != b then c2 ^^^ poly else c2) init

/-- Tick a is later than tick b (R56). -/
def laterTick (a b : Tick) : Bool :=
  let d := (a - b).toNat
  1 ≤ d && d < 2 ^ 47

/-- Tick a is b or later than b. -/
def notEarlier (a b : Tick) : Bool := a == b || laterTick a b

end Sys2Proof.Machine
end

