-- ==== Sys2Proof/Machine/Flags.lean ====
section
/-!
DEFINITION. The operations of the alu, mac, bfu, prm and div units, bit for bit, with the c and v values and flags of
spec/05_arithmetic_bitfield_permute.md.
-/
namespace Sys2Proof.Machine

/-- MIN, −2^35. -/
def wMin : Word := 0x800000000
/-- MAX, 2^35 − 1. -/
def wMax : Word := 0x7FFFFFFFF
/-- ONES, −1. -/
def wOnes : Word := 0xFFFFFFFFF

/-- What an alu operation gives: r, c, v, and whether v traps OVF (the OVF column of Table 5.1). -/
structure AluOut where
  r : Word
  c : Bool
  v : Bool
  ovf : Bool
deriving DecidableEq, Repr

/-- A result with c = v = 0. -/
def aluPlain (r : Word) : AluOut := ⟨r, false, false, false⟩

/-- Did a 38-bit exact sum leave the 36-bit signed range (R208)? -/
def sOver (y : Int) : Bool := decide (y < -(2 ^ 35) ∨ 2 ^ 35 ≤ y)

/-- The sum of unsigned x, with carry, and signed y, with overflow (R208). -/
def addOut (x : Nat) (y : Int) (ovf : Bool) : AluOut := ⟨wd x, decide (2 ^ 36 ≤ x), sOver y, ovf⟩

/-- The difference of unsigned x, with borrow, and signed y, with overflow (R208). -/
def subOut (x y : Int) (ovf : Bool) : AluOut := ⟨wdI x, decide (x < 0), sOver y, ovf⟩

/-- The shifts of R210; n is the count Tu. -/
def shlOut (a : Word) (n : Nat) : AluOut :=
  ⟨if 36 ≤ n then 0 else a <<< n, if 1 ≤ n ∧ n ≤ 36 then bitOf a (36 - n) else false, false, false⟩

/-- shr of R210. -/
def shrOut (a : Word) (n : Nat) : AluOut :=
  ⟨if 36 ≤ n then 0 else a >>> n, if 1 ≤ n ∧ n ≤ 36 then bitOf a (n - 1) else false, false, false⟩

/-- sar of R210. -/
def sarOut (a : Word) (n : Nat) : AluOut :=
  let sgn := bitOf a 35
  ⟨if 36 ≤ n then (if sgn then wOnes else 0) else a.sshiftRight n,
   if n = 0 then false else if n ≤ 36 then bitOf a (n - 1) else sgn, false, false⟩

/-- rol of R210, count taken mod 36. -/
def rolWord (a : Word) (n : Nat) : Word :=
  let m := n % 36
  if m = 0 then a else (a <<< m) ||| (a >>> (36 - m))

/-- ror of R210. -/
def rorWord (a : Word) (n : Nat) : Word :=
  let m := n % 36
  if m = 0 then a else (a >>> m) ||| (a <<< (36 - m))

/-- fsr of R210: the 72-bit pair B:A shifted right. -/
def fsrWord (a b : Word) (n : Nat) : Word :=
  if 72 ≤ n then 0 else wd ((b.toNat * 2 ^ 36 + a.toNat) >>> n)

/-- Apply f to each pair of nonets (R213). -/
def perNonet (f : Nat → Nat → Nat) (a t : Word) : Word :=
  ofNonets (f (nonet a 0) (nonet t 0)) (f (nonet a 1) (nonet t 1)) (f (nonet a 2) (nonet t 2))
    (f (nonet a 3) (nonet t 3))

/-- adds and subs (R211): the exact y saturated to 36 signed bits. -/
def satS (y : Int) : AluOut :=
  if y > 2 ^ 35 - 1 then ⟨wMax, false, true, false⟩
  else if y < -(2 ^ 35) then ⟨wMin, false, true, false⟩
  else ⟨wdI y, false, false, false⟩

/-- The alu operations of Table 5.1; none for a reserved op byte (R196). -/
def aluOp (op : Nat) (a b t : Word) : Option AluOut :=
  let au := a.toNat
  let tu := t.toNat
  let as := a.toInt
  let ts := t.toInt
  let b0 := natB (bitOf b 0)
  match op with
  | 0x00 => some (aluPlain t)
  | 0x01 => some (addOut (au + tu) (as + ts) false)
  | 0x02 => some (subOut ((au : Int) - tu) (as - ts) false)
  | 0x03 => some (addOut (au + tu + b0) (as + ts + b0) false)
  | 0x04 => some (subOut ((au : Int) - tu - b0) (as - ts - b0) false)
  | 0x05 => some (addOut (au + tu) (as + ts) true)
  | 0x06 => some (subOut ((au : Int) - tu) (as - ts) true)
  | 0x07 => some ⟨-t, decide (t ≠ 0), decide (t = wMin), true⟩
  | 0x08 => some (aluPlain (a &&& t))
  | 0x09 => some (aluPlain (a ||| t))
  | 0x0A => some (aluPlain (a ^^^ t))
  | 0x0B => some (aluPlain (a &&& ~~~t))
  | 0x0C => some (aluPlain (~~~t))
  | 0x0D => some (aluPlain ((a &&& b) ||| (t &&& ~~~b)))
  | 0x0E => some ⟨if bitOf t 35 then -t else t, false, decide (t = wMin), true⟩
  | 0x0F => some (addOut (au + b.toNat + tu) (as + b.toInt + ts) false)
  | 0x10 => some (shlOut a tu)
  | 0x11 => some (shrOut a tu)
  | 0x12 => some (sarOut a tu)
  | 0x13 => some (aluPlain (rolWord a tu))
  | 0x14 => some (aluPlain (rorWord a tu))
  | 0x15 => some (aluPlain (fsrWord a b tu))
  | 0x20 => some (aluPlain (wdB (a == t)))
  | 0x21 => some (aluPlain (wdB (a != t)))
  | 0x22 => some (aluPlain (wdB (decide (as < ts))))
  | 0x23 => some (aluPlain (wdB (decide (as ≤ ts))))
  | 0x24 => some (aluPlain (wdB (decide (as > ts))))
  | 0x25 => some (aluPlain (wdB (decide (as ≥ ts))))
  | 0x26 => some (aluPlain (wdB (decide (au < tu))))
  | 0x27 => some (aluPlain (wdB (decide (au ≤ tu))))
  | 0x28 => some (aluPlain (wdB (decide (au > tu))))
  | 0x29 => some (aluPlain (wdB (decide (au ≥ tu))))
  | 0x2A => some (aluPlain (wdB (a &&& t != 0)))
  | 0x30 => some (aluPlain (if as ≤ ts then a else t))
  | 0x31 => some (aluPlain (if as ≥ ts then a else t))
  | 0x32 => some (aluPlain (if au ≤ tu then a else t))
  | 0x33 => some (aluPlain (if au ≥ tu then a else t))
  | 0x34 =>
    let x := if as ≥ b.toInt then a else b
    some (aluPlain (if x.toInt ≤ ts then x else t))
  | 0x38 => some (satS (as + ts))
  | 0x39 => some (satS (as - ts))
  | 0x3A => some (if au + tu > 2 ^ 36 - 1 then ⟨wOnes, true, false, false⟩ else aluPlain (a + t))
  | 0x3B => some (if au < tu then ⟨0, true, false, false⟩ else aluPlain (a - t))
  | 0x40 => some (aluPlain (perNonet (fun x y => x + y) a t))
  | 0x41 => some (aluPlain (perNonet (fun x y => x + 512 - y) a t))
  | 0x42 => some (aluPlain (perNonet (fun x y => min (x + y) 511) a t))
  | 0x43 => some (aluPlain (perNonet min a t))
  | 0x44 => some (aluPlain (perNonet max a t))
  | 0x45 => some (aluPlain (perNonet (fun x y => if x = y then 511 else 0) a t))
  | _ => none

/-- The flags word Z N C V (R198) that a result and its c and v set at P0 (R199, R200). -/
def flagsOf (r : Word) (c v : Bool) : Word :=
  wd (8 * natB (decide (r = 0)) + 4 * natB (bitOf r 35) + 2 * natB c + natB v)

/-- What a division gives (R215): q, rm, c, v, and the trap that applies when enabled (0 none, 6 DIVZ, 7 OVF). -/
structure DivOut where
  q : Word
  rm : Word
  c : Bool
  v : Bool
  trap : Nat
deriving DecidableEq, Repr

/-- The div operations of Table 5.2; none for a reserved op byte. -/
def divOp (op : Nat) (a t : Word) : Option DivOut :=
  match op with
  | 0x00 =>
    if t = 0 then some ⟨if bitOf a 35 then wMin else wMax, a, true, false, 6⟩
    else if a = wMin ∧ t = wOnes then some ⟨wMin, 0, false, true, 7⟩
    else
      let q := Int.tdiv a.toInt t.toInt
      some ⟨wdI q, wdI (a.toInt - q * t.toInt), false, false, 0⟩
  | 0x01 =>
    if t = 0 then some ⟨wOnes, a, true, false, 6⟩
    else some ⟨wd (a.toNat / t.toNat), wd (a.toNat % t.toNat), false, false, 0⟩
  | _ => none

/-- A product and what it does to the accumulator (R218). -/
structure MacOut where
  acc : BitVec 72
  r : BitVec 72
deriving DecidableEq, Repr

/-- Sum over the four nonets of f of the nonets of A and T. -/
def dotNonets (f : Nat → Int) (a t : Word) : Int :=
  f (nonet a 0) * f (nonet t 0) + f (nonet a 1) * f (nonet t 1) + f (nonet a 2) * f (nonet t 2)
    + f (nonet a 3) * f (nonet t 3)

/-- The signed value of a nonet. -/
def nonetS (x : Nat) : Int := if x < 256 then x else (x : Int) - 512

/-- The mac operations of Table 5.4; none for a reserved op byte. -/
def macOp (op : Nat) (a t : Word) (acc : BitVec 72) : Option MacOut :=
  let ps : BitVec 72 := BitVec.ofInt 72 (a.toInt * t.toInt)
  let pu : BitVec 72 := BitVec.ofNat 72 (a.toNat * t.toNat)
  match op with
  | 0x00 => some ⟨acc, ps⟩
  | 0x01 => some ⟨acc, pu⟩
  | 0x02 => some ⟨acc, BitVec.ofInt 72 (a.toInt * (t.toNat : Int))⟩
  | 0x04 => some ⟨acc + ps, acc + ps⟩
  | 0x05 => some ⟨acc + pu, acc + pu⟩
  | 0x06 => some ⟨acc - ps, acc - ps⟩
  | 0x07 => some ⟨acc - pu, acc - pu⟩
  | 0x08 => some ⟨ps, ps⟩
  | 0x09 => some ⟨pu, pu⟩
  | 0x0C =>
    let p : BitVec 72 := BitVec.ofInt 72 (dotNonets (fun x => (x : Int)) a t)
    some ⟨acc + p, acc + p⟩
  | 0x0D =>
    let p : BitVec 72 := BitVec.ofInt 72 (dotNonets nonetS a t)
    some ⟨acc + p, acc + p⟩
  | _ => none

/-- Does the mac operation change the accumulator? -/
def macAccum (op : Nat) : Bool := decide (4 ≤ op)

/-- The number of leading zeros of a 36-bit value. -/
def clz36 (x : Nat) : Nat :=
  ((List.range 37).filter (fun i => decide (i = 0 ∨ x >>> (36 - i) = 0))).foldl max 0

/-- The number of trailing zeros of a 36-bit value. -/
def ctz36 (x : Nat) : Nat :=
  ((List.range 37).filter (fun i => decide (i = 0 ∨ x % 2 ^ i = 0))).foldl max 0

/-- The value whose bit i is f i, for i below n. -/
def bitsFrom (n : Nat) (f : Nat → Bool) : Nat :=
  (List.range n).foldl (fun a i => if f i then a + 2 ^ i else a) 0

/-- pext: the bits of a where t is 1, packed (R224). -/
def pextNat (a t : Nat) : Nat :=
  ((List.range 36).foldl (fun (p : Nat × Nat) i =>
    if (t >>> i) % 2 = 1 then (p.1 + ((a >>> i) % 2) * 2 ^ p.2, p.2 + 1) else p) (0, 0)).1

/-- pdep: the low bits of a, placed where t is 1 (R224). -/
def pdepNat (a t : Nat) : Nat :=
  ((List.range 36).foldl (fun (p : Nat × Nat) i =>
    if (t >>> i) % 2 = 1 then (p.1 + ((a >>> p.2) % 2) * 2 ^ i, p.2 + 1) else p) (0, 0)).1

/-- Position and width of a field control word (Table 5.7). -/
def fieldCtl (t : Word) : Nat × Nat := (fld t 5 0, min (fld t 11 6) 36)

/-- The bfu operations of Table 5.6; none for a reserved op byte. -/
def bfuOp (op : Nat) (a b t : Word) : Option Word :=
  let (pos, w) := fieldCtl t
  let m : Word := if w = 0 then 0 else wd ((2 ^ w - 1) <<< pos)
  let x := (a.toNat >>> pos) % 2 ^ w
  match op with
  | 0x00 => some (if w = 0 then 0 else wd x)
  | 0x01 => some (if w = 0 then 0 else sxWord w x)
  | 0x02 =>
    let f := if w = 0 then 0 else a.toNat % 2 ^ w
    some ((b &&& ~~~m) ||| (wd (f <<< pos) &&& m))
  | 0x03 => some m
  | 0x04 => some (wd (clz36 t.toNat))
  | 0x05 => some (wd (ctz36 t.toNat))
  | 0x06 => some (wd (popCount 36 t.toNat))
  | 0x07 => some (perNonet (fun x _ => popCount 9 x) t t)
  | 0x08 => some (wd (bitsFrom 36 (fun i => bitOf t (35 - i))))
  | 0x09 => some (perNonet (fun x _ => bitsFrom 9 (fun j => (x >>> (8 - j)) % 2 == 1)) t t)
  | 0x0C => some (wd (pextNat a.toNat t.toNat))
  | 0x0D => some (wd (pdepNat a.toNat t.toNat))
  | _ => none

/-- Result nonet i of nperm and bperm (R227). -/
def permNonet (bp : Bool) (a b t : Word) (i : Nat) : Nat :=
  let s := fld t (3 * i + 2) (3 * i)
  let x := if s < 4 then nonet a s else nonet b (s - 4)
  if bitOf t (12 + i) then 0
  else if bp then x % 256 + 256 * natB (bitOf t (16 + i)) else x

/-- The prm operations of Table 5.8; none for a reserved op byte. -/
def prmOp (op : Nat) (a b t : Word) : Option Word :=
  match op with
  | 0x00 => some (ofNonets (permNonet false a b t 0) (permNonet false a b t 1) (permNonet false a b t 2)
      (permNonet false a b t 3))
  | 0x01 => some (ofNonets (permNonet true a b t 0) (permNonet true a b t 1) (permNonet true a b t 2)
      (permNonet true a b t 3))
  | 0x04 => some (ofNonets (fld t 7 0) (fld t 15 8) (fld t 23 16) (fld t 31 24))
  | 0x05 => some (wd (nonet t 0 % 256 + 256 * (nonet t 1 % 256) + 65536 * (nonet t 2 % 256)
      + 16777216 * (nonet t 3 % 256)))
  | 0x08 => some (ofNonets (nonet a 0) (nonet t 0) (nonet a 1) (nonet t 1))
  | 0x09 => some (ofNonets (nonet a 2) (nonet t 2) (nonet a 3) (nonet t 3))
  | 0x0A => some (ofNonets (nonet a 0) (nonet a 2) (nonet t 0) (nonet t 2))
  | 0x0B => some (ofNonets (nonet a 1) (nonet a 3) (nonet t 1) (nonet t 3))
  | _ => none

/-- The conditions of ctl.bc on a flags word (Table 7.3); none for a reserved op byte. -/
def bcCond (op : Nat) (f : Word) : Option Bool :=
  let z := bitOf f 3
  let n := bitOf f 2
  let c := bitOf f 1
  let v := bitOf f 0
  match op with
  | 0x00 => some z
  | 0x01 => some (!z)
  | 0x02 => some c
  | 0x03 => some (!c)
  | 0x04 => some n
  | 0x05 => some (!n)
  | 0x06 => some v
  | 0x07 => some (!v)
  | 0x08 => some (!c && !z)
  | 0x09 => some (c || z)
  | 0x0A => some (n == v)
  | 0x0B => some (n != v)
  | 0x0C => some (!z && (n == v))
  | 0x0D => some (z || (n != v))
  | 0x0E => some true
  | 0x0F => some false
  | _ => none

end Sys2Proof.Machine
end

