-- ==== Sys2Proof/Machine/Operands.lean ====
section
/-!
DEFINITION. Instructions as bytes: leading bytes, prefixes, bundle headers, guards, moves and immediates
(spec/04_encoding_and_signposts.md), socket kinds (spec/03_tiles_lanes_sockets.md, Table 3.3) and the op bytes of every
trigger socket (spec/05, 06, 07). Decoding is total; a byte that cannot be fetched or fails gives a trap.
-/
namespace Sys2Proof.Machine

/-- Socket kinds (Table 3.1). -/
inductive Kind where
  | rw | w | t | r | p
deriving DecidableEq, Repr

/-- The kind at an offset of a unit, given as the list of its kinds in order. -/
def kindAt (l : List (Option Kind)) (o : Nat) : Option Kind := (l[o]?).getD none

/-- The kinds of the ctl sockets 0x28 to 0x33 (Table 3.3). -/
def ctlKinds : List (Option Kind) :=
  [some .w, some .t, some .w, some .rw, some .w, some .r, some .rw, some .t, some .t, some .w, some .rw, some .r]

/-- The kinds of the lk sockets 0xA0 to 0xA9. -/
def lkKinds : List (Option Kind) :=
  [some .rw, some .rw, some .t, some .p, some .p, some .p, some .p, some .rw, some .rw, some .r]

/-- The kinds of the msh sockets 0xC0 to 0xCD. -/
def mshKinds : List (Option Kind) :=
  [some .t, some .t, some .t, some .t, some .p, some .p, some .p, some .p, some .p, some .p, some .p, some .p,
   some .r, some .r]

/-- The kind of a socket address; none for a reserved one (Tables 3.2 and 3.3). -/
def sockKind (a : Nat) : Option Kind :=
  if a < 0x28 then some .rw
  else if a < 0x38 then kindAt ctlKinds (a - 0x28)
  else if a < 0x58 then kindAt [some .rw, some .rw, some .t, some .r, some .r] (a % 8)
  else if a < 0x68 then kindAt [some .rw, some .t, some .rw, some .rw, some .r, some .r] (a % 8)
  else if a < 0x78 then kindAt [some .rw, some .rw, some .t, some .r] (a % 8)
  else if a < 0x80 then kindAt [some .rw, some .t, some .r, some .r] (a % 8)
  else if a < 0x90 then
    kindAt [some .rw, some .rw, some .t, some .r, some .r, some .rw, some .rw, some .r] (a % 8)
  else if a < 0x98 then kindAt [some .rw, some .rw, some .t, some .r, some .r] (a % 8)
  else if a < 0xA0 then kindAt [some .rw, some .rw, some .t, some .r] (a % 8)
  else if a < 0xB0 then kindAt lkKinds (a - 0xA0)
  else if a < 0xC0 then kindAt [some .rw, some .t, some .t, some .r, some .rw, some .r] (a - 0xB0)
  else if a < 0xD0 then kindAt mshKinds (a - 0xC0)
  else if a < 0xD8 then kindAt [some .r, some .r, some .r, some .r, some .r] (a - 0xD0)
  else if a < 0xE0 then some .rw
  else none

/-- A socket of kind T carries an op byte (R138). -/
def hasOp (a : Nat) : Bool := sockKind a == some .t

/-- May the socket stand as a destination? -/
def destOk (a : Nat) : Bool :=
  match sockKind a with
  | some .rw => true
  | some .w => true
  | some .t => true
  | _ => false

/-- May the socket stand as a source? -/
def srcOk (a : Nat) : Bool :=
  match sockKind a with
  | some .rw => true
  | some .r => true
  | some .p => true
  | _ => false

/-- A pop socket. -/
def isPop (a : Nat) : Bool := sockKind a == some .p

/-- bcopy and tscan (R248). -/
def resumable (dst op : Nat) : Bool :=
  ((dst == 0x82 || dst == 0x8A) && op == 0x30) || (dst == 0xA2 && decide (0x40 ≤ op ∧ op ≤ 0x43))

/-- Is the op byte of a trigger socket listed (R196, R228, R298, R305)? -/
def opOk (dst op : Nat) : Bool :=
  if dst = 0x29 then true
  else if dst = 0x2F then decide (1 ≤ op ∧ op ≤ 0x0C)
  else if dst = 0x30 then (bcCond op 0).isSome
  else if dst < 0x58 then (aluOp op 0 0 0).isSome
  else if dst < 0x68 then (macOp op 0 0 0).isSome
  else if dst < 0x70 then (bfuOp op 0 0 0).isSome
  else if dst < 0x78 then (prmOp op 0 0 0).isSome
  else if dst < 0x80 then (divOp op 0 1).isSome
  else if dst < 0x90 then
    decide (op = 0 ∨ op = 2 ∨ (4 ≤ op ∧ op ≤ 0x0B) ∨ (0x21 ≤ op ∧ op ≤ 0x30))
  else if dst < 0x98 then decide (op = 0 ∨ op = 0x10)
  else if dst < 0xA0 then decide (op = 0 ∨ op = 1 ∨ op = 0x10 ∨ op = 0x11)
  else if dst < 0xB0 then decide (op < 4 ∨ (0x40 ≤ op ∧ op ≤ 0x43))
  else if dst < 0xC0 then decide (op < 8)
  else decide (op < 0x40)

/-- One move as decoded (R138): destination, source, op byte, immediate value, guard nibble (R135), the address of its
first byte and the number of its immediate bytes. -/
structure Move where
  dst : Nat
  src : Nat
  op : Nat
  imm : Word
  guard : Nat
  at_ : Nat
deriving DecidableEq, Repr

/-- Why decoding stops: trap code, SINFO, lane. -/
structure Stop where
  code : Nat
  info : Nat
  lane : Option Nat
deriving DecidableEq, Repr

/-- A count prefix that governs the instruction (Table 4.6). -/
inductive RepPre where
  | none
  | repI (count : Nat)
  | repS
deriving DecidableEq, Repr

/-- What the prefixes govern. -/
inductive Body where
  /-- A bundle of moves; m is the M field of its header. -/
  | bundle (ms : List Move)
  /-- A macro opcode: entry, operand bytes, address of its opcode byte. -/
  | macro_ (entry : Nat) (opAt : Nat)
  /-- LOOP.i: count, NB, as a prefix of its own. -/
  | loopI (count nb : Nat)
  /-- LOOP.s: source byte, NB, address of the source byte. -/
  | loopS (src nb srcAt : Nat)
deriving DecidableEq, Repr

/-- A decoded instruction: SEAL, repetition, body, address after it, and the first UNDEF found in it, if any. R248 is no
part of it: which moves trigger depends on their guards. -/
structure Insn where
  sealed : Bool
  rep : RepPre
  body : Body
  next : Nat
  undef : Option Stop
deriving DecidableEq, Repr

/-- The bytes of the prefix sequence of an instruction (Table 4.6). -/
def Insn.prefixLen (i : Insn) : Nat := natB i.sealed + (match i.rep with
  | .none => 0
  | .repI _ => 2
  | .repS => 1)

/-- One byte of the stream; a byte that cannot be fetched traps FETCH at its address (R176, R321). -/
def byteOf (f : Nat → Option Nat) (p : Nat) : Except Stop Nat :=
  match f p with
  | some b => .ok b
  | none => .error ⟨0x0B, p, none⟩

/-- n bytes, little-endian (R133). -/
def bytesOf (f : Nat → Option Nat) : Nat → Nat → Except Stop Nat
  | 0, _ => .ok 0
  | n + 1, p => do
    let b ← byteOf f p
    let r ← bytesOf f n (p + 1)
    return b + 256 * r

/-- The immediate that a source byte selects (Table 4.3): value, bytes used, must-be-zero bits wrong. A reserved source
byte stops decoding, since its length is unknown. -/
def immOf (f : Nat → Option Nat) (lane src sp p : Nat) : Except Stop (Word × Nat × Bool) :=
  if src < 0xE0 then .ok (0, 0, false)
  else if src < 0xF0 then .ok (sxWord 4 (src % 16), 0, false)
  else if src = 0xF0 then do
    let v ← bytesOf f 1 p
    return (sxWord 8 v, 1, false)
  else if src = 0xF1 then do
    let v ← bytesOf f 3 p
    return (sxWord 18 v, 3, decide (v / 2 ^ 18 ≠ 0))
  else if src = 0xF2 then do
    let v ← bytesOf f 5 p
    return (wd v, 5, decide (v / 2 ^ 36 ≠ 0))
  else if src = 0xF3 then do
    let v ← bytesOf f 2 p
    return (wd v, 2, false)
  else .error ⟨0x02, sp, some lane⟩

/-- The failure at the lower address: SINFO names the first byte that fails (Table 7.7). -/
def firstOf (a b : Option Stop) : Option Stop :=
  match a, b with
  | some x, some y => if y.info < x.info then some y else some x
  | some x, none => some x
  | none, y => y

/-- A failure that ends decoding, after the UNDEF u found before it; FETCH ranks above UNDEF (R309). -/
def stopAfter (u : Option Stop) (st : Stop) : Stop := if st.code = 0x02 then ((firstOf u (some st)).getD st) else st

/-- An UNDEF at a byte if a check fails. -/
def undefIf (c : Bool) (at_ lane : Nat) : Option Stop := if c then some ⟨0x02, at_, some lane⟩ else none

/-- A t socket of signpost microcode. -/
def isT (a : Nat) : Bool := decide (0xD8 ≤ a ∧ a < 0xE0)

/-- Sockets that may not stand in a repeated instruction, a loop body or a signpost body (R151, R188). -/
def noRepeat (d : Nat) : Bool :=
  d == 0x28 || d == 0x29 || d == 0x2A || d == 0x2C || d == 0x30 || d == 0x31

/-- The moves of a bundle from lane on (R138), aliases resolved by al (R186). micro: t0–t7 may be named; nr: R151 or R188
applies. -/
def movesOf (f : Nat → Option Nat) (al : Nat → Nat) (micro nr : Bool) (guards : Nat → Nat) :
    Nat → Nat → Nat → Except Stop (List Move × Nat × Option Stop)
  | 0, _, p => .ok ([], p, none)
  | n + 1, lane, p => do
    let d0 ← byteOf f p
    let s0 ← byteOf f (p + 1)
    let d := al d0
    let s := al s0
    let o := if hasOp d then 1 else 0
    let op ← bytesOf f o (p + 2)
    let u0 := undefIf (!(destOk d) || (isT d && !micro) || (nr && noRepeat d)) p lane
    let u1 := undefIf (decide (s < 0xE0) && (!(srcOk s) || (isT s && !micro))) (p + 1) lane
    let u2 := undefIf (hasOp d && !(opOk d op)) (p + 2) lane
    match immOf f lane s (p + 1) (p + 2 + o) with
    | .error st => .error (stopAfter u0 st)
    | .ok (v, k, bad) =>
      let u := firstOf (firstOf u0 u1) (firstOf u2 (undefIf bad (p + 1 + o + k) lane))
      match movesOf f al micro nr guards n (lane + 1) (p + 2 + o + k) with
      | .error st => .error (stopAfter u st)
      | .ok (r, q, u') => .ok (⟨d, s, op, v, guards lane, p⟩ :: r, q, firstOf u u')

/-- A bundle from its header byte h at hp (R134 to R137): moves, address after it, first UNDEF. -/
def bundleOf (f : Nat → Option Nat) (al : Nat → Nat) (micro nr : Bool) (h hp : Nat) :
    Except Stop (List Move × Nat × Option Stop) := do
  let n := h % 8 + 1
  let g := (h / 8) % 2 = 1
  let gb := if g then (n + 1) / 2 else 0
  let gv ← bytesOf f gb (hp + 1)
  let u := if g ∧ n % 2 = 1 ∧ gv / 16 ^ n ≠ 0 then some ⟨0x02, hp + gb, none⟩ else none
  match movesOf f al micro nr (fun i => if g then (gv / 16 ^ i) % 16 else 0) n 0 (hp + 1 + gb) with
  | .error st => .error (stopAfter u st)
  | .ok (ms, q, u2) => .ok (ms, q, firstOf u u2)

/-- After the prefixes: a bundle or a macro opcode (Table 4.1). nops gives the operand bytes of an entry. -/
def leadOf (f : Nat → Option Nat) (nops : Nat → Nat) (sealed : Bool) (rep : RepPre) (p first : Nat)
    (inBody : Bool) : Except Stop Insn := do
  let b ← byteOf f p
  if b < 0x20 then
    let (ms, q, u) ← bundleOf f id false (inBody || rep != .none) b p
    return ⟨sealed, rep, .bundle ms, q, u⟩
  else if 0xC0 ≤ b then
    let _ ← bytesOf f (nops (b - 0xC0)) (p + 1)
    return ⟨sealed, rep, .macro_ (b - 0xC0) p, p + 1 + nops (b - 0xC0), none⟩
  else if 0x80 ≤ b ∧ b ≤ 0x84 then .error ⟨0x02, first, none⟩
  else .error ⟨0x02, p, none⟩

/-- One instruction at p (R131, R143, R145): its prefix sequence, then what it governs. A LOOP prefix stands alone.
inBody: a loop is active, so that a LOOP prefix traps UNDEF (R158). -/
def insnOf (f : Nat → Option Nat) (nops : Nat → Nat) (inBody : Bool) (p : Nat) : Except Stop Insn := do
  let b ← byteOf f p
  if b = 0x84 then
    let c ← byteOf f (p + 1)
    if c = 0x80 then
      let n ← byteOf f (p + 2)
      leadOf f nops true (.repI (n + 1)) (p + 3) p inBody
    else if c = 0x81 then leadOf f nops true .repS (p + 2) p inBody
    else leadOf f nops true .none (p + 1) p inBody
  else if b = 0x80 then
    let n ← byteOf f (p + 1)
    leadOf f nops false (.repI (n + 1)) (p + 2) p inBody
  else if b = 0x81 then leadOf f nops false .repS (p + 1) p inBody
  else if b = 0x82 then
    let c ← bytesOf f 2 (p + 1)
    let nb ← byteOf f (p + 3)
    return ⟨false, .none, .loopI (c + 1) nb, p + 4, if inBody then some ⟨0x02, p, none⟩ else none⟩
  else if b = 0x83 then
    let s ← byteOf f (p + 1)
    let nb ← byteOf f (p + 2)
    let bad := decide (0xE0 ≤ s) || !(srcOk s) || isT s
    return ⟨false, .none, .loopS s nb (p + 1), p + 3,
      if inBody then some ⟨0x02, p, none⟩ else if bad then some ⟨0x02, p + 1, none⟩ else none⟩
  else leadOf f nops false .none p p inBody

/-! ## The signpost directory (R180 to R182) -/

/-- A directory entry's fields (Table 4.9), from its 8 bytes as a 64-bit little-endian value. -/
structure DirEntry where
  valid : Bool
  p0only : Bool
  nops : Nat
  nbun : Nat
  kinds : Nat
  body : Nat
  blen : Nat
  reserved : Bool
deriving DecidableEq, Repr

/-- Read the fields of an entry. -/
def dirEntry (v : Nat) : DirEntry :=
  let b0 := v % 256
  let b1 := (v / 2 ^ 8) % 256
  let k := (v / 2 ^ 16) % 65536
  ⟨b0 % 2 == 1, (b0 / 2) % 2 == 1, b1 % 8, b1 / 16, k % 4096, (v / 2 ^ 32) % 65536, (v / 2 ^ 48) % 65536,
   decide (b0 / 4 ≠ 0 ∨ (b1 / 8) % 2 ≠ 0 ∨ k / 4096 ≠ 0)⟩

/-- The kind of operand k of an entry (Table 4.10): 0 SOCK, 1 VALS, 2 VALZ, 3 HI. -/
def DirEntry.kind (e : DirEntry) (k : Nat) : Nat := (e.kinds / 4 ^ k) % 4

/-- The checks of R182 that depend on the entry alone. -/
def DirEntry.bad (e : DirEntry) : Bool :=
  !e.valid || e.reserved || e.nops == 7 ||
  (List.range e.nops).any (fun k => e.kind k == 3 && (k == 0 || e.kind (k - 1) != 2)) ||
  decide (e.body < 0x200 ∨ 0x1000 < e.body + e.blen)

/-- May a socket stand as a SOCK operand (R182)? -/
def sockOperandOk (a : Nat) : Bool :=
  match sockKind a with
  | some .rw => !(isT a)
  | some .r => true
  | some .p => true
  | _ => false

/-- The alias of a socket byte in a body whose SOCK operands are given (R186). -/
def aliasOf (e : DirEntry) (ops : List Byte) (a : Nat) : Nat :=
  if isT a ∧ a - 0xD8 < e.nops ∧ e.kind (a - 0xD8) = 0 then ((ops[a - 0xD8]?).getD 0).toNat else a

/-- A body bundle at bank offset o (R184, R188): it must begin with a header. sp fetches signpost bytes. -/
def bodyBundle (sp : Nat → Option Nat) (e : DirEntry) (ops : List Byte) (opAt o : Nat) :
    Except Stop (List Move × Nat × Option Stop) :=
  let f := fun a => if e.body ≤ a ∧ a < e.body + e.blen then sp a else none
  match byteOf f o with
  | .error _ => .error ⟨0x0B, opAt, none⟩
  | .ok h =>
    if 0x20 ≤ h then .error ⟨0x02, o, none⟩
    else match bundleOf f (aliasOf e ops) true true h o with
      | .error st => .error (if st.code = 0x0B then ⟨0x0B, opAt, none⟩ else st)
      | .ok r => .ok r

end Sys2Proof.Machine
end

