-- ==== Sys2Proof/Machine/Map.lean ====
section
/-!
DEFINITION. Sparse stores as plain data: a list of (key, value) pairs with keys strictly rising and no value equal
to what an unlisted key reads as, so that equal stores are equal lists. Memories, register files and the tables of
tiles, links, dies and stacks are all kept this way.
-/
namespace Sys2Proof.Machine

/-- A sparse store over Nat keys. -/
abbrev SMap (α : Type) := List (Nat × α)

/-- The value at key k, where an unlisted key reads d k. -/
def SMap.get {α : Type} (d : Nat → α) (m : SMap α) (k : Nat) : α :=
  match m with
  | [] => d k
  | (j, v) :: r => if j = k then v else SMap.get d r k

/-- Insert or replace the pair at key k, keys rising. -/
def SMap.put {α : Type} (m : SMap α) (k : Nat) (v : α) : SMap α :=
  match m with
  | [] => [(k, v)]
  | (j, u) :: r =>
    if k < j then (k, v) :: (j, u) :: r
    else if k = j then (k, v) :: r
    else (j, u) :: SMap.put r k v

/-- Drop every pair at key k. -/
def SMap.drop {α : Type} (m : SMap α) (k : Nat) : SMap α :=
  match m with
  | [] => []
  | (j, u) :: r => if j = k then SMap.drop r k else (j, u) :: SMap.drop r k

/-- Write v at key k, keeping the canonical form. -/
def SMap.set {α : Type} [DecidableEq α] (d : Nat → α) (m : SMap α) (k : Nat) (v : α) : SMap α :=
  if v = d k then SMap.drop m k else SMap.put m k v

/-- The keys are strictly rising from lo on, and no value is the unlisted one. -/
def SMap.wfFrom {α : Type} [DecidableEq α] (d : Nat → α) (lo : Nat) (m : SMap α) : Bool :=
  match m with
  | [] => true
  | (j, v) :: r => decide (lo ≤ j) && decide (v ≠ d j) && SMap.wfFrom d (j + 1) r

/-- The canonical form of a store. -/
def SMap.wf {α : Type} [DecidableEq α] (d : Nat → α) (m : SMap α) : Bool := SMap.wfFrom d 0 m

/-- Drop every pair whose key satisfies p. -/
def SMap.dropIf {α : Type} (p : Nat → Bool) (m : SMap α) : SMap α := m.filter (fun e => !p e.1)

end Sys2Proof.Machine
end

