-- ==== Sys2Proof/Machine/Regs.lean ====
section
/-!
DEFINITION. The register tables of the spec, as data: for every register its word offset in its block, how it repeats,
whether each master has its own, and for every field its bits, access code (Table 0.3), effect class (R5 to R7),
reset value and the encodings its table marks reserved (R4). Taken from Tables 0.5-0.7, 2.4-2.8, 4.7, 4.11, 6.1, 6.7,
6.9, 6.11, 7.1, 7.8, 8.8, 9.10, 10.9, 10.10, 11.8, 11.9, 12.7, 13.11, 13.12, 14.14, 15.5, 16.6, 17.3, 17.4.
Fields whose reset comes from fuses, flash or the ledger record have reset 0 here (log entry 5).
-/
namespace Sys2Proof.Machine

/-- Access codes (Table 0.3). -/
inductive Access where
  | rw | ro | wo | w1c | w1s | rws
deriving DecidableEq, Repr

/-- Effect classes (R5 to R7). -/
inductive Cls where
  | live | milestone | commit
deriving DecidableEq, Repr

/-- One field: bits [hi:lo], access, class, reset (plus ixr times the register's index), reserved encodings. -/
structure Field where
  hi : Nat
  lo : Nat
  acc : Access
  cls : Cls
  rst : Nat
  ixr : Nat
  bad : List (Nat × Nat)
deriving DecidableEq, Repr

/-- One register family: name in the spec, first word offset, (stride, count) of each index, one per master?, fields. -/
structure RegSpec where
  name : String
  base : Nat
  ixs : List (Nat × Nat)
  perMaster : Bool
  fields : List Field
deriving DecidableEq, Repr

/-- Part 0 of the Pkg registers (Tables 0.5, 0.6, 0.7, 2.4, 2.5, 2.6, 2.7, 2.8, 10.9). -/
def regsPkg0 : List RegSpec := [
  ⟨"PKG_ID", 0x0, [], false,
    [⟨15, 0, .ro, .live, 34066, 0, []⟩, ⟨19, 16, .ro, .live, 1, 0, []⟩, ⟨30, 20, .ro, .live, 951, 0, []⟩]⟩,
  ⟨"PKG_CAP0", 0x1, [], false,
    [⟨3, 0, .ro, .live, 8, 0, []⟩, ⟨10, 4, .ro, .live, 64, 0, []⟩, ⟨20, 11, .ro, .live, 512, 0, []⟩, ⟨24, 21, .ro, .live, 8, 0, []⟩, ⟨28, 25, .ro, .live, 8, 0, []⟩]⟩,
  ⟨"PKG_CAP1", 0x2, [], false,
    [⟨0, 0, .ro, .live, 1, 0, []⟩, ⟨1, 1, .ro, .live, 1, 0, []⟩, ⟨2, 2, .ro, .live, 1, 0, []⟩, ⟨3, 3, .ro, .live, 1, 0, []⟩, ⟨4, 4, .ro, .live, 1, 0, []⟩, ⟨5, 5, .ro, .live, 1, 0, []⟩, ⟨12, 6, .ro, .live, 64, 0, []⟩]⟩,
  ⟨"PKG_TIM_CFG", 0x40, [], false,
    [⟨9, 0, .rws, .commit, 8, 0, [(0, 3), (641, 1023)]⟩, ⟨10, 10, .rws, .commit, 0, 0, []⟩, ⟨11, 11, .rws, .commit, 1, 0, []⟩, ⟨12, 12, .rws, .commit, 1, 0, []⟩]⟩,
  ⟨"PKG_TIM_COMMIT", 0x41, [], false,
    [⟨0, 0, .wo, .live, 0, 0, []⟩, ⟨1, 1, .ro, .live, 0, 0, []⟩]⟩,
  ⟨"PKG_TIM_STAT", 0x42, [], false,
    [⟨0, 0, .ro, .live, 0, 0, []⟩, ⟨1, 1, .ro, .live, 0, 0, []⟩, ⟨2, 2, .ro, .live, 0, 0, []⟩, ⟨3, 3, .ro, .live, 0, 0, []⟩, ⟨4, 4, .ro, .live, 0, 0, []⟩, ⟨5, 5, .ro, .live, 0, 0, []⟩, ⟨19, 8, .ro, .live, 0, 0, []⟩]⟩,
  ⟨"PKG_TIM_TICK0", 0x43, [], false,
    [⟨35, 0, .ro, .live, 0, 0, []⟩]⟩,
  ⟨"PKG_TIM_TICK1", 0x44, [], false,
    [⟨11, 0, .ro, .live, 0, 0, []⟩]⟩,
  ⟨"PKG_TIM_ERRn", 0x45, [(1, 2)], false,
    [⟨11, 0, .ro, .live, 0, 0, []⟩, ⟨23, 12, .ro, .live, 0, 0, []⟩, ⟨35, 24, .ro, .live, 0, 0, []⟩]⟩,
  ⟨"PKG_TIM_CNTCLR", 0x47, [], false,
    [⟨0, 0, .wo, .live, 0, 0, []⟩, ⟨1, 1, .wo, .live, 0, 0, []⟩]⟩,
  ⟨"PKG_IMG_SRC", 0x80, [], false,
    [⟨1, 0, .rws, .live, 0, 0, [(2, 3)]⟩, ⟨35, 2, .rws, .live, 0, 0, []⟩]⟩,
  ⟨"PKG_IMG_CMD", 0x81, [], false,
    [⟨2, 0, .wo, .live, 0, 0, [(0, 0), (6, 7)]⟩]⟩]

/-- Part 1 of the Pkg registers (Tables 10.9, 17.3). -/
def regsPkg1 : List RegSpec := [
  ⟨"PKG_IMG_AT0", 0x82, [], false,
    [⟨35, 0, .rws, .live, 0, 0, []⟩]⟩,
  ⟨"PKG_IMG_AT1", 0x83, [], false,
    [⟨11, 0, .rws, .live, 0, 0, []⟩]⟩,
  ⟨"PKG_IMG_STAT", 0x84, [], false,
    [⟨2, 0, .ro, .live, 0, 0, []⟩, ⟨10, 3, .ro, .live, 0, 0, []⟩, ⟨11, 11, .ro, .live, 0, 0, []⟩, ⟨12, 12, .ro, .live, 0, 0, []⟩, ⟨20, 13, .ro, .live, 0, 0, []⟩, ⟨28, 21, .ro, .live, 0, 0, []⟩, ⟨31, 29, .w1c, .live, 0, 0, []⟩]⟩,
  ⟨"PKG_IMG_EINFO", 0x85, [], false,
    [⟨5, 0, .ro, .live, 0, 0, []⟩, ⟨23, 6, .ro, .live, 0, 0, []⟩]⟩,
  ⟨"PKG_BOOT", 0xC0, [], false,
    [⟨3, 0, .ro, .live, 0, 0, []⟩, ⟨7, 4, .ro, .live, 0, 0, []⟩, ⟨10, 8, .ro, .live, 0, 0, []⟩, ⟨18, 11, .ro, .live, 0, 0, []⟩, ⟨19, 19, .ro, .live, 0, 0, []⟩, ⟨35, 20, .ro, .live, 0, 0, []⟩]⟩,
  ⟨"PKG_BOOTCFG", 0xC1, [], false,
    [⟨0, 0, .rws, .live, 0, 0, []⟩, ⟨12, 1, .rws, .live, 0, 0, []⟩, ⟨28, 13, .rws, .live, 0, 0, [(0, 15)]⟩, ⟨29, 29, .rws, .live, 0, 0, []⟩, ⟨30, 30, .ro, .live, 0, 0, []⟩]⟩]

/-- Every Pkg register. -/
def regsPkg : List RegSpec := regsPkg0 ++ regsPkg1

/-- Part 0 of the Tile registers (Tables 4.7, 4.11, 6.1, 6.7). -/
def regsTile0 : List RegSpec := [
  ⟨"TILE_RSM_REP", 0x48, [], false,
    [⟨17, 0, .rws, .live, 0, 0, []⟩, ⟨18, 18, .rws, .live, 0, 0, []⟩]⟩,
  ⟨"TILE_RSM_LOOP0", 0x49, [], false,
    [⟨15, 0, .rws, .live, 0, 0, []⟩, ⟨23, 16, .rws, .live, 0, 0, []⟩, ⟨31, 24, .rws, .live, 0, 0, []⟩, ⟨32, 32, .rws, .live, 0, 0, []⟩]⟩,
  ⟨"TILE_RSM_LOOP1", 0x4A, [], false,
    [⟨17, 0, .rws, .live, 0, 0, []⟩]⟩,
  ⟨"TILE_RSM_MC", 0x4B, [], false,
    [⟨3, 0, .rws, .live, 0, 0, []⟩, ⟨9, 4, .rws, .live, 0, 0, []⟩, ⟨10, 10, .rws, .live, 0, 0, []⟩]⟩,
  ⟨"TILE_RSM_T0_T7", 0x50, [(1, 8)], false,
    [⟨35, 0, .rws, .live, 0, 0, []⟩]⟩,
  ⟨"TILE_SP_ADDR", 0x40, [], false,
    [⟨11, 2, .rws, .live, 0, 0, []⟩, ⟨12, 12, .rws, .live, 0, 0, []⟩]⟩,
  ⟨"TILE_SP_DATA", 0x41, [], false,
    [⟨31, 0, .rws, .live, 0, 0, []⟩]⟩,
  ⟨"TILE_WINn_A", 0x20, [(2, 4)], false,
    [⟨15, 0, .rws, .live, 0, 0, []⟩, ⟨28, 16, .rws, .live, 0, 0, [(4097, 8191)]⟩]⟩,
  ⟨"TILE_WINn_B", 0x21, [(2, 4)], false,
    [⟨11, 0, .rws, .live, 0, 0, []⟩, ⟨23, 12, .rws, .live, 0, 0, []⟩]⟩,
  ⟨"TILE_IO_DWIN", 0x28, [], false,
    [⟨20, 0, .rws, .live, 0, 0, []⟩]⟩,
  ⟨"TILE_IO_EADDR", 0x29, [], false,
    [⟨15, 0, .ro, .live, 0, 0, []⟩, ⟨16, 16, .ro, .live, 0, 0, []⟩, ⟨17, 17, .w1c, .live, 0, 0, []⟩]⟩,
  ⟨"TILE_LNK_CNT", 0x2A, [], false,
    [⟨17, 0, .rws, .live, 0, 0, []⟩, ⟨35, 18, .rws, .live, 0, 0, []⟩]⟩]

/-- Part 1 of the Tile registers (Tables 6.7, 6.9, 6.11, 7.1, 7.8). -/
def regsTile1 : List RegSpec := [
  ⟨"TILE_MSH_CNT", 0x2B, [], false,
    [⟨17, 0, .rws, .live, 0, 0, []⟩]⟩,
  ⟨"TILE_POP", 0x2C, [], false,
    [⟨3, 0, .wo, .live, 0, 0, []⟩, ⟨11, 4, .wo, .live, 0, 0, []⟩]⟩,
  ⟨"TILE_LKDs_A", 0x30, [(2, 4)], false,
    [⟨11, 0, .rws, .commit, 0, 0, []⟩, ⟨13, 12, .rws, .commit, 0, 0, []⟩, ⟨14, 14, .rws, .commit, 0, 0, []⟩, ⟨15, 15, .rws, .commit, 0, 0, []⟩]⟩,
  ⟨"TILE_LKDs_B", 0x31, [(2, 4)], false,
    [⟨5, 0, .rws, .commit, 0, 0, [(36, 63)]⟩, ⟨10, 6, .rws, .commit, 1, 0, [(0, 0), (31, 31)]⟩, ⟨15, 11, .rws, .commit, 0, 0, [(31, 31)]⟩]⟩,
  ⟨"TILE_COMMIT", 0x3F, [], false,
    [⟨0, 0, .wo, .live, 0, 0, []⟩, ⟨1, 1, .ro, .live, 0, 0, []⟩]⟩,
  ⟨"TILE_EGHh", 0x58, [(1, 8)], false,
    [⟨8, 0, .rws, .commit, 0, 0, []⟩, ⟨9, 9, .rws, .commit, 0, 0, []⟩]⟩,
  ⟨"TILE_RTHr", 0x60, [(1, 64)], false,
    [⟨11, 0, .rws, .commit, 0, 0, []⟩, ⟨13, 12, .rws, .commit, 0, 0, []⟩, ⟨14, 14, .rws, .commit, 0, 0, []⟩]⟩,
  ⟨"TILE_TCR", 0x0, [], false,
    [⟨0, 0, .rws, .live, 0, 0, []⟩, ⟨1, 1, .rws, .live, 0, 0, []⟩, ⟨2, 2, .rws, .live, 0, 0, []⟩, ⟨3, 3, .rws, .live, 0, 0, []⟩, ⟨4, 4, .rws, .live, 0, 0, []⟩, ⟨5, 5, .rws, .live, 0, 0, []⟩, ⟨6, 6, .rws, .live, 0, 0, []⟩, ⟨7, 7, .rws, .live, 0, 0, []⟩, ⟨13, 8, .rws, .live, 0, 0, []⟩, ⟨23, 16, .rws, .live, 0, 0, []⟩, ⟨31, 24, .rws, .live, 0, 0, []⟩]⟩,
  ⟨"TILE_SPC", 0x1, [], false,
    [⟨15, 0, .rws, .live, 0, 0, []⟩]⟩,
  ⟨"TILE_SST", 0x2, [], false,
    [⟨3, 0, .rws, .live, 0, 0, []⟩, ⟨8, 4, .rws, .live, 0, 0, []⟩, ⟨11, 9, .rws, .live, 0, 0, []⟩, ⟨12, 12, .rws, .live, 0, 0, []⟩, ⟨13, 13, .rws, .live, 0, 0, []⟩, ⟨14, 14, .rws, .live, 0, 0, []⟩, ⟨15, 15, .rws, .live, 0, 0, []⟩, ⟨16, 16, .ro, .live, 0, 0, []⟩, ⟨17, 17, .ro, .live, 0, 0, []⟩]⟩,
  ⟨"TILE_STCR", 0x3, [], false,
    [⟨35, 0, .rws, .live, 0, 0, []⟩]⟩,
  ⟨"TILE_SPTCR", 0x4, [], false,
    [⟨35, 0, .rws, .live, 0, 0, []⟩]⟩]

/-- Part 2 of the Tile registers (Tables 7.8, 8.8). -/
def regsTile2 : List RegSpec := [
  ⟨"TILE_SINFO", 0x5, [], false,
    [⟨35, 0, .rws, .live, 0, 0, []⟩]⟩,
  ⟨"TILE_CSP", 0x6, [], false,
    [⟨15, 0, .rws, .live, 128, 0, []⟩]⟩,
  ⟨"TILE_IPEND", 0x7, [], false,
    [⟨0, 0, .w1c, .live, 0, 0, []⟩, ⟨1, 1, .w1c, .live, 0, 0, []⟩, ⟨2, 2, .w1c, .live, 0, 0, []⟩, ⟨3, 3, .w1c, .live, 0, 0, []⟩, ⟨13, 4, .ro, .live, 0, 0, []⟩]⟩,
  ⟨"TILE_DBELL", 0x8, [], false,
    [⟨35, 0, .rws, .live, 0, 0, []⟩]⟩,
  ⟨"TILE_XSTAT", 0x9, [], false,
    [⟨0, 0, .ro, .live, 0, 0, []⟩, ⟨5, 1, .ro, .live, 0, 0, []⟩, ⟨35, 18, .rws, .live, 0, 0, []⟩]⟩,
  ⟨"TILE_MEMCFG", 0x10, [], false,
    [⟨0, 0, .rws, .milestone, 1, 0, []⟩, ⟨8, 1, .rws, .milestone, 64, 0, [(0, 7)]⟩]⟩,
  ⟨"TILE_MEMCE", 0x11, [], false,
    [⟨11, 0, .rws, .live, 0, 0, []⟩, ⟨23, 12, .rws, .live, 0, 0, []⟩, ⟨35, 24, .rws, .live, 0, 0, []⟩]⟩,
  ⟨"TILE_MEMUE", 0x12, [], false,
    [⟨11, 0, .rws, .live, 0, 0, []⟩, ⟨23, 12, .rws, .live, 0, 0, []⟩, ⟨35, 24, .rws, .live, 0, 0, []⟩]⟩,
  ⟨"TILE_MEMELOG", 0x13, [], false,
    [⟨15, 0, .ro, .live, 0, 0, []⟩, ⟨18, 16, .ro, .live, 0, 0, []⟩, ⟨20, 19, .ro, .live, 0, 0, []⟩, ⟨23, 21, .ro, .live, 0, 0, []⟩, ⟨24, 24, .w1c, .live, 0, 0, []⟩]⟩,
  ⟨"TILE_MEMSYN", 0x14, [], false,
    [⟨15, 0, .ro, .live, 0, 0, []⟩]⟩,
  ⟨"TILE_XCOL", 0x15, [], false,
    [⟨17, 0, .rws, .live, 0, 0, []⟩, ⟨29, 18, .ro, .live, 0, 0, []⟩, ⟨30, 30, .ro, .live, 0, 0, []⟩]⟩,
  ⟨"TILE_MEMPST", 0x16, [], false,
    [⟨17, 0, .rws, .live, 0, 0, []⟩, ⟨35, 18, .rws, .live, 0, 0, []⟩]⟩]

/-- Part 3 of the Tile registers (Tables 8.8, 10.10). -/
def regsTile3 : List RegSpec := [
  ⟨"TILE_SCRUB", 0x17, [], false,
    [⟨14, 0, .ro, .live, 0, 0, []⟩, ⟨35, 15, .ro, .live, 0, 0, []⟩]⟩,
  ⟨"TILE_FLIPMASK0", 0x18, [], false,
    [⟨35, 0, .rws, .live, 0, 0, []⟩]⟩,
  ⟨"TILE_FLIPMASK1", 0x19, [], false,
    [⟨35, 0, .rws, .live, 0, 0, []⟩]⟩,
  ⟨"TILE_FLIPMASK2", 0x1A, [], false,
    [⟨15, 0, .rws, .live, 0, 0, []⟩]⟩,
  ⟨"TILE_FLIPSEL", 0x1B, [], false,
    [⟨13, 0, .rws, .live, 0, 0, []⟩, ⟨16, 14, .rws, .live, 0, 0, []⟩, ⟨17, 17, .rws, .live, 0, 0, []⟩, ⟨18, 18, .rws, .live, 0, 0, []⟩]⟩,
  ⟨"TILE_POISON", 0x1C, [], false,
    [⟨13, 0, .rws, .live, 0, 0, []⟩, ⟨16, 14, .rws, .live, 0, 0, []⟩, ⟨17, 17, .wo, .live, 0, 0, []⟩]⟩,
  ⟨"TILE_VAULT", 0x1E, [], false,
    [⟨0, 0, .ro, .live, 0, 0, []⟩, ⟨18, 1, .ro, .live, 0, 0, []⟩, ⟨21, 19, .ro, .live, 0, 0, []⟩]⟩,
  ⟨"TILE_RTN", 0x100, [], false,
    [⟨15, 0, .rws, .milestone, 0, 0, []⟩, ⟨18, 16, .rws, .milestone, 0, 0, [(5, 7)]⟩, ⟨22, 19, .rws, .milestone, 0, 0, []⟩, ⟨23, 23, .rws, .milestone, 0, 0, []⟩, ⟨27, 24, .rws, .milestone, 4, 0, [(0, 0)]⟩]⟩,
  ⟨"TILE_TOL_A", 0x101, [], false,
    [⟨17, 0, .rws, .milestone, 0, 0, []⟩, ⟨35, 18, .rws, .milestone, 0, 0, []⟩]⟩,
  ⟨"TILE_TOL_B", 0x102, [], false,
    [⟨11, 0, .rws, .milestone, 0, 0, []⟩, ⟨29, 12, .rws, .milestone, 0, 0, []⟩]⟩,
  ⟨"TILE_TOL_CNT2", 0x103, [], false,
    [⟨17, 0, .rws, .live, 0, 0, []⟩]⟩,
  ⟨"TILE_TOL_EVT", 0x108, [], false,
    [⟨35, 0, .ro, .live, 0, 0, []⟩]⟩]

/-- Part 4 of the Tile registers (Tables 10.10). -/
def regsTile4 : List RegSpec := [
  ⟨"TILE_TOL_CNT0", 0x109, [], false,
    [⟨17, 0, .rws, .live, 0, 0, []⟩, ⟨35, 18, .rws, .live, 0, 0, []⟩]⟩,
  ⟨"TILE_TOL_CNT1", 0x10A, [], false,
    [⟨17, 0, .rws, .live, 0, 0, []⟩, ⟨35, 18, .rws, .live, 0, 0, []⟩]⟩,
  ⟨"TILE_TOL_MAX", 0x10B, [], false,
    [⟨17, 0, .rws, .live, 0, 0, []⟩, ⟨35, 18, .ro, .live, 0, 0, []⟩]⟩,
  ⟨"TILE_INBi", 0xA0, [(1, 8)], false,
    [⟨7, 0, .rws, .commit, 0, 0, []⟩, ⟨15, 8, .rws, .commit, 255, 0, []⟩, ⟨27, 16, .rws, .commit, 0, 0, []⟩, ⟨28, 28, .rws, .commit, 0, 0, []⟩]⟩]

/-- Every Tile register. -/
def regsTile : List RegSpec := regsTile0 ++ regsTile1 ++ regsTile2 ++ regsTile3 ++ regsTile4

/-- Part 0 of the Die registers (Tables 9.10). -/
def regsDie0 : List RegSpec := [
  ⟨"DIE_NET_IDX", 0x100, [], false,
    [⟨11, 0, .rws, .live, 0, 0, []⟩, ⟨12, 12, .rws, .live, 0, 0, []⟩, ⟨19, 13, .rws, .live, 0, 0, [(72, 126)]⟩, ⟨20, 20, .rws, .live, 0, 0, []⟩]⟩,
  ⟨"DIE_NET_DATA", 0x101, [], false,
    [⟨35, 0, .rws, .commit, 0, 0, []⟩]⟩,
  ⟨"DIE_NET_COMMIT", 0x102, [], false,
    [⟨0, 0, .wo, .live, 0, 0, []⟩, ⟨1, 1, .ro, .live, 0, 0, []⟩]⟩,
  ⟨"DIE_MSH_ERR", 0x103, [], false,
    [⟨8, 0, .rws, .live, 0, 0, []⟩, ⟨17, 9, .rws, .live, 0, 0, []⟩, ⟨26, 18, .rws, .live, 0, 0, []⟩, ⟨35, 27, .rws, .live, 0, 0, []⟩]⟩,
  ⟨"DIE_IBKs_STAT", 0x110, [(4, 4)], false,
    [⟨0, 0, .ro, .live, 0, 0, []⟩, ⟨1, 1, .ro, .live, 0, 0, []⟩, ⟨2, 2, .ro, .live, 0, 0, []⟩, ⟨4, 3, .ro, .live, 0, 0, []⟩, ⟨8, 5, .ro, .live, 15, 0, []⟩]⟩,
  ⟨"DIE_IBKs_CNT", 0x111, [(4, 4)], false,
    [⟨11, 0, .rws, .live, 0, 0, []⟩, ⟨23, 12, .rws, .live, 0, 0, []⟩, ⟨29, 24, .rws, .live, 0, 0, []⟩, ⟨35, 30, .rws, .live, 0, 0, []⟩]⟩,
  ⟨"DIE_IBKs_TOLL0", 0x112, [(4, 4)], false,
    [⟨17, 0, .rws, .commit, 0, 0, []⟩, ⟨35, 18, .rws, .commit, 0, 0, []⟩]⟩,
  ⟨"DIE_IBKs_TOLL1", 0x113, [(4, 4)], false,
    [⟨17, 0, .rws, .commit, 64, 0, []⟩, ⟨21, 18, .rws, .commit, 2, 0, []⟩]⟩,
  ⟨"DIE_XR_TOLLm", 0x120, [(1, 4)], false,
    [⟨17, 0, .rws, .commit, 4096, 0, []⟩, ⟨35, 18, .rws, .live, 0, 0, []⟩]⟩,
  ⟨"DIE_XR_EADDR", 0x124, [], false,
    [⟨35, 0, .ro, .live, 0, 0, []⟩]⟩,
  ⟨"DIE_XR_ESTAT", 0x125, [], false,
    [⟨2, 0, .ro, .live, 0, 0, []⟩, ⟨10, 3, .ro, .live, 0, 0, []⟩, ⟨11, 11, .w1c, .live, 0, 0, []⟩, ⟨29, 12, .rws, .live, 0, 0, []⟩]⟩,
  ⟨"DIE_XR_RST", 0x126, [], false,
    [⟨7, 0, .ro, .live, 0, 0, []⟩, ⟨12, 8, .ro, .live, 0, 0, []⟩, ⟨29, 13, .rws, .live, 0, 0, []⟩]⟩]

/-- Part 1 of the Die registers (Tables 9.10, 17.4). -/
def regsDie1 : List RegSpec := [
  ⟨"DIE_PLACEs", 0x140, [(1, 64)], false,
    [⟨6, 0, .ro, .live, 0, 1, []⟩, ⟨14, 7, .ro, .live, 0, 0, []⟩]⟩,
  ⟨"DIE_BIST", 0x200, [], false,
    [⟨6, 0, .rws, .live, 0, 0, [(72, 127)]⟩, ⟨7, 7, .wo, .live, 0, 0, []⟩, ⟨9, 8, .ro, .live, 0, 0, []⟩]⟩]

/-- Every Die register. -/
def regsDie : List RegSpec := regsDie0 ++ regsDie1

/-- Part 0 of the Link registers (Tables 11.9). -/
def regsLink0 : List RegSpec := [
  ⟨"LINK_CFG", 0x0, [], false,
    [⟨1, 0, .rws, .commit, 0, 0, [(3, 3)]⟩, ⟨2, 2, .rws, .commit, 0, 0, []⟩, ⟨3, 3, .rws, .commit, 0, 0, []⟩, ⟨4, 4, .rws, .commit, 0, 0, []⟩, ⟨14, 5, .rws, .commit, 40, 0, [(0, 0)]⟩, ⟨16, 15, .rws, .commit, 0, 0, [(3, 3)]⟩]⟩,
  ⟨"LINK_SUBST", 0x1, [], false,
    [⟨35, 0, .rws, .commit, 0, 0, []⟩]⟩,
  ⟨"LINK_COMMIT", 0x2, [], false,
    [⟨0, 0, .wo, .live, 0, 0, []⟩, ⟨1, 1, .ro, .live, 0, 0, []⟩]⟩,
  ⟨"LINK_STAT", 0x3, [], false,
    [⟨0, 0, .ro, .live, 0, 0, []⟩, ⟨1, 1, .ro, .live, 0, 0, []⟩, ⟨6, 2, .ro, .live, 0, 0, []⟩, ⟨18, 7, .ro, .live, 0, 0, []⟩, ⟨19, 19, .ro, .live, 0, 0, []⟩]⟩,
  ⟨"LINK_EQ", 0x4, [], false,
    [⟨0, 0, .rws, .live, 1, 0, []⟩, ⟨4, 1, .rws, .commit, 0, 0, []⟩, ⟨10, 5, .rws, .commit, 63, 0, []⟩, ⟨15, 11, .rws, .commit, 0, 0, []⟩]⟩,
  ⟨"LINK_EQSTAT", 0x5, [], false,
    [⟨5, 0, .ro, .live, 0, 0, []⟩, ⟨13, 6, .ro, .live, 0, 0, []⟩, ⟨21, 14, .ro, .live, 0, 0, []⟩]⟩,
  ⟨"LINK_TXEP", 0x6, [], false,
    [⟨7, 0, .rws, .commit, 0, 0, []⟩, ⟨15, 8, .rws, .commit, 0, 0, []⟩, ⟨27, 16, .rws, .commit, 0, 0, []⟩]⟩,
  ⟨"LINK_TXCH", 0x7, [], false,
    [⟨12, 0, .ro, .live, 0, 0, []⟩, ⟨17, 13, .ro, .live, 0, 0, []⟩, ⟨18, 18, .ro, .live, 0, 0, []⟩]⟩,
  ⟨"LINK_RXERR0", 0x8, [], false,
    [⟨17, 0, .rws, .live, 0, 0, []⟩, ⟨35, 18, .rws, .live, 0, 0, []⟩]⟩,
  ⟨"LINK_RXERR1", 0x9, [], false,
    [⟨17, 0, .rws, .live, 0, 0, []⟩, ⟨35, 18, .rws, .live, 0, 0, []⟩]⟩,
  ⟨"LINK_RXERR2", 0xA, [], false,
    [⟨17, 0, .rws, .live, 0, 0, []⟩, ⟨35, 18, .rws, .live, 0, 0, []⟩]⟩,
  ⟨"LINK_RXERR3", 0xB, [], false,
    [⟨17, 0, .rws, .live, 0, 0, []⟩, ⟨29, 18, .rws, .live, 0, 0, []⟩]⟩]

/-- Part 1 of the Link registers (Tables 11.9). -/
def regsLink1 : List RegSpec := [
  ⟨"LINK_RXERR4", 0xC, [], false,
    [⟨35, 0, .rws, .live, 0, 0, []⟩]⟩,
  ⟨"LINK_TXCNT0", 0xD, [], false,
    [⟨35, 0, .rws, .live, 0, 0, []⟩]⟩,
  ⟨"LINK_TXCNT1", 0xE, [], false,
    [⟨35, 0, .rws, .live, 0, 0, []⟩]⟩,
  ⟨"LINK_TXCNT2", 0xF, [], false,
    [⟨17, 0, .rws, .live, 0, 0, []⟩, ⟨35, 18, .rws, .live, 0, 0, []⟩]⟩,
  ⟨"LINK_TXCNT3", 0x10, [], false,
    [⟨17, 0, .rws, .live, 0, 0, []⟩, ⟨35, 18, .rws, .live, 0, 0, []⟩]⟩,
  ⟨"LINK_ETH0", 0x11, [], false,
    [⟨23, 0, .rws, .commit, 0, 0, []⟩]⟩,
  ⟨"LINK_ETH1", 0x12, [], false,
    [⟨23, 0, .rws, .commit, 0, 0, []⟩]⟩,
  ⟨"LINK_ETH2", 0x13, [], false,
    [⟨23, 0, .rws, .commit, 0, 0, []⟩]⟩,
  ⟨"LINK_ETH3", 0x14, [], false,
    [⟨23, 0, .rws, .commit, 0, 0, []⟩]⟩,
  ⟨"LINK_ETH4", 0x15, [], false,
    [⟨31, 0, .rws, .commit, 0, 0, []⟩]⟩,
  ⟨"LINK_ETH5", 0x16, [], false,
    [⟨31, 0, .rws, .commit, 0, 0, []⟩]⟩,
  ⟨"LINK_ETH6", 0x17, [], false,
    [⟨15, 0, .rws, .commit, 0, 0, []⟩, ⟨31, 16, .rws, .commit, 0, 0, []⟩]⟩]

/-- Part 2 of the Link registers (Tables 11.9). -/
def regsLink2 : List RegSpec := [
  ⟨"LINK_ETH7", 0x18, [], false,
    [⟨7, 0, .rws, .commit, 64, 0, []⟩, ⟨13, 8, .rws, .commit, 0, 0, []⟩, ⟨14, 14, .rws, .commit, 0, 0, []⟩, ⟨17, 15, .rws, .commit, 0, 0, []⟩, ⟨29, 18, .rws, .commit, 0, 0, []⟩, ⟨30, 30, .rws, .commit, 1, 0, []⟩]⟩,
  ⟨"LINK_ETH8", 0x19, [], false,
    [⟨13, 0, .rws, .commit, 9000, 0, [(0, 575), (9001, 16383)]⟩]⟩,
  ⟨"LINK_ETHCNT0", 0x1A, [], false,
    [⟨35, 0, .rws, .live, 0, 0, []⟩]⟩,
  ⟨"LINK_ETHCNT1", 0x1B, [], false,
    [⟨17, 0, .rws, .live, 0, 0, []⟩, ⟨35, 18, .rws, .live, 0, 0, []⟩]⟩,
  ⟨"LINK_TXDEF0_15", 0x20, [(1, 16)], false,
    [⟨35, 0, .ro, .live, 0, 0, []⟩]⟩]

/-- Every Link register. -/
def regsLink : List RegSpec := regsLink0 ++ regsLink1 ++ regsLink2

/-- Part 0 of the Dram registers (Tables 12.7). -/
def regsDram0 : List RegSpec := [
  ⟨"DRAM_HCFG", 0x0, [], false,
    [⟨5, 0, .rws, .commit, 48, 0, [(61, 63)]⟩, ⟨11, 6, .rws, .commit, 48, 0, [(61, 63)]⟩, ⟨17, 12, .rws, .commit, 48, 0, [(61, 63)]⟩, ⟨23, 18, .rws, .commit, 48, 0, [(61, 63)]⟩, ⟨33, 24, .rws, .commit, 64, 0, []⟩]⟩,
  ⟨"DRAM_SCFG", 0x1, [], false,
    [⟨7, 0, .rws, .commit, 15, 0, []⟩]⟩,
  ⟨"DRAM_COMMIT", 0x2, [], false,
    [⟨0, 0, .wo, .live, 0, 0, []⟩, ⟨1, 1, .ro, .live, 0, 0, []⟩]⟩,
  ⟨"DRAM_STAT", 0x3, [], false,
    [⟨1, 0, .ro, .live, 0, 0, []⟩, ⟨9, 2, .ro, .live, 0, 0, []⟩, ⟨10, 10, .ro, .live, 0, 0, []⟩, ⟨11, 11, .ro, .live, 0, 0, []⟩]⟩,
  ⟨"DRAM_CTL", 0x4, [], false,
    [⟨0, 0, .wo, .live, 0, 0, []⟩]⟩,
  ⟨"DRAM_DEPTHg", 0x8, [(1, 4)], false,
    [⟨26, 0, .ro, .live, 0, 0, []⟩]⟩,
  ⟨"DRAM_ERR", 0xC, [], false,
    [⟨17, 0, .rws, .live, 0, 0, []⟩, ⟨35, 18, .rws, .live, 0, 0, []⟩]⟩,
  ⟨"DRAM_ELOG0", 0xD, [], false,
    [⟨32, 0, .ro, .live, 0, 0, []⟩]⟩,
  ⟨"DRAM_ELOG1", 0xE, [], false,
    [⟨1, 0, .ro, .live, 0, 0, []⟩, ⟨3, 2, .ro, .live, 0, 0, []⟩, ⟨6, 4, .ro, .live, 0, 0, []⟩, ⟨7, 7, .w1c, .live, 0, 0, []⟩, ⟨23, 8, .ro, .live, 0, 0, []⟩]⟩,
  ⟨"DRAM_SCRUB0", 0xF, [], false,
    [⟨32, 0, .ro, .live, 0, 0, []⟩]⟩,
  ⟨"DRAM_SCRUB1", 0x10, [], false,
    [⟨17, 0, .ro, .live, 0, 0, []⟩]⟩,
  ⟨"DRAM_FLIPMASK0_1", 0x11, [(1, 2)], false,
    [⟨35, 0, .rws, .live, 0, 0, []⟩]⟩]

/-- Part 1 of the Dram registers (Tables 12.7). -/
def regsDram1 : List RegSpec := [
  ⟨"DRAM_FLIPMASK2", 0x13, [], false,
    [⟨15, 0, .rws, .live, 0, 0, []⟩]⟩,
  ⟨"DRAM_FLIPSEL", 0x14, [], false,
    [⟨32, 0, .rws, .live, 0, 0, []⟩, ⟨34, 33, .rws, .live, 0, 0, []⟩, ⟨35, 35, .rws, .live, 0, 0, []⟩]⟩,
  ⟨"DRAM_PPR", 0x15, [], false,
    [⟨11, 0, .ro, .live, 0, 0, []⟩, ⟨23, 12, .ro, .live, 0, 0, []⟩, ⟨31, 24, .ro, .live, 0, 0, []⟩, ⟨32, 32, .ro, .live, 0, 0, []⟩]⟩,
  ⟨"DRAM_WBASE", 0x16, [], false,
    [⟨32, 0, .rws, .live, 0, 0, []⟩]⟩,
  ⟨"DRAM_TOLLX", 0x17, [], false,
    [⟨17, 0, .rws, .live, 0, 0, []⟩, ⟨35, 18, .rws, .live, 0, 0, []⟩]⟩,
  ⟨"DRAM_RQ", 0x18, [], false,
    [⟨4, 0, .ro, .live, 0, 0, []⟩, ⟨17, 5, .rws, .live, 0, 0, []⟩, ⟨26, 18, .rws, .live, 0, 0, []⟩, ⟨35, 27, .rws, .live, 0, 0, []⟩]⟩,
  ⟨"DRAM_HRP", 0x19, [], false,
    [⟨24, 0, .ro, .live, 0, 0, []⟩]⟩,
  ⟨"DRAM_HRC", 0x1A, [], false,
    [⟨24, 0, .rws, .live, 0, 0, []⟩]⟩,
  ⟨"DRAM_RTRIGi", 0x1C, [(1, 4)], false,
    [⟨8, 0, .rws, .commit, 0, 0, []⟩, ⟨12, 9, .rws, .commit, 0, 0, []⟩, ⟨18, 13, .rws, .commit, 0, 0, [(36, 63)]⟩, ⟨34, 19, .rws, .commit, 0, 0, []⟩, ⟨35, 35, .rws, .commit, 0, 0, []⟩]⟩,
  ⟨"DRAM_RPX", 0x20, [], false,
    [⟨5, 0, .rws, .live, 0, 0, []⟩, ⟨7, 6, .rws, .live, 0, 0, []⟩, ⟨8, 8, .rws, .live, 0, 0, []⟩]⟩,
  ⟨"DRAM_RPD", 0x21, [], false,
    [⟨35, 0, .rws, .commit, 0, 0, []⟩]⟩,
  ⟨"DRAM_TDX", 0x22, [], false,
    [⟨11, 0, .rws, .live, 0, 0, []⟩]⟩]

/-- Part 2 of the Dram registers (Tables 12.7). -/
def regsDram2 : List RegSpec := [
  ⟨"DRAM_TDD", 0x23, [], false,
    [⟨32, 0, .ro, .live, 0, 0, []⟩, ⟨33, 33, .ro, .live, 0, 0, []⟩, ⟨34, 34, .ro, .live, 0, 0, []⟩]⟩]

/-- Every Dram register. -/
def regsDram : List RegSpec := regsDram0 ++ regsDram1 ++ regsDram2

/-- Part 0 of the Own registers (Tables 13.11). -/
def regsOwn0 : List RegSpec := [
  ⟨"OWN_STAT", 0x0, [], false,
    [⟨2, 0, .ro, .live, 7, 0, []⟩, ⟨5, 3, .ro, .live, 0, 0, []⟩, ⟨21, 6, .ro, .live, 0, 0, []⟩, ⟨22, 22, .ro, .live, 0, 0, []⟩, ⟨25, 23, .ro, .live, 7, 0, []⟩]⟩,
  ⟨"OWN_LEASE", 0x1, [], false,
    [⟨15, 0, .rws, .live, 1000, 0, [(0, 9), (60001, 65535)]⟩, ⟨16, 16, .wo, .live, 0, 0, []⟩]⟩,
  ⟨"OWN_HANDOVER", 0x2, [], false,
    [⟨2, 0, .rws, .live, 7, 0, []⟩, ⟨3, 3, .wo, .live, 0, 0, []⟩]⟩,
  ⟨"OWN_CNT", 0x3, [], false,
    [⟨11, 0, .rws, .live, 0, 0, []⟩, ⟨23, 12, .rws, .live, 0, 0, []⟩, ⟨35, 24, .rws, .live, 0, 0, []⟩]⟩,
  ⟨"OWN_KEYk_A", 0x10, [(16, 8)], false,
    [⟨0, 0, .ro, .live, 0, 0, []⟩, ⟨2, 1, .ro, .live, 0, 0, []⟩, ⟨23, 3, .ro, .live, 0, 0, []⟩]⟩,
  ⟨"OWN_KEYk_Hj", 0x11, [(16, 8), (1, 8)], false,
    [⟨31, 0, .ro, .live, 0, 0, []⟩]⟩,
  ⟨"OWN_LCMD", 0x90, [], false,
    [⟨2, 0, .rws, .live, 0, 0, []⟩, ⟨4, 3, .rws, .live, 0, 0, [(0, 0), (3, 3)]⟩, ⟨6, 5, .rws, .live, 0, 0, [(3, 3)]⟩, ⟨7, 7, .wo, .live, 0, 0, []⟩, ⟨9, 8, .ro, .live, 0, 0, []⟩]⟩,
  ⟨"OWN_LSTG_Hj", 0x91, [(1, 8)], false,
    [⟨31, 0, .rws, .live, 0, 0, []⟩]⟩,
  ⟨"OWN_MB_CHAL", 0x100, [], true,
    [⟨0, 0, .wo, .live, 0, 0, []⟩]⟩,
  ⟨"OWN_MB_STAT", 0x101, [], true,
    [⟨3, 0, .ro, .live, 0, 0, []⟩]⟩,
  ⟨"OWN_MB_CLAIM", 0x102, [], true,
    [⟨2, 0, .rw, .live, 0, 0, []⟩, ⟨18, 3, .rw, .live, 0, 0, []⟩, ⟨19, 19, .wo, .live, 0, 0, []⟩]⟩,
  ⟨"OWN_MB_NONCEj", 0x108, [(1, 8)], true,
    [⟨31, 0, .ro, .live, 0, 0, []⟩]⟩]

/-- Part 1 of the Own registers (Tables 13.11, 13.12). -/
def regsOwn1 : List RegSpec := [
  ⟨"OWN_MB_PKj", 0x110, [(1, 17)], true,
    [⟨31, 0, .rw, .live, 0, 0, []⟩]⟩,
  ⟨"OWN_MB_SIGj", 0x200, [(1, 768)], true,
    [⟨31, 0, .rw, .live, 0, 0, []⟩]⟩,
  ⟨"OWN_ETHp_MACH", 0xA0, [(8, 2)], false,
    [⟨23, 0, .rws, .live, 0, 0, []⟩]⟩,
  ⟨"OWN_ETHp_MACL", 0xA1, [(8, 2)], false,
    [⟨23, 0, .rws, .live, 0, 0, []⟩]⟩,
  ⟨"OWN_ETHp_IP", 0xA2, [(8, 2)], false,
    [⟨31, 0, .rws, .live, 0, 0, []⟩]⟩,
  ⟨"OWN_ETHp_CFG", 0xA3, [(8, 2)], false,
    [⟨15, 0, .rws, .live, 19784, 0, []⟩, ⟨31, 16, .rws, .live, 1000, 0, [(0, 9), (60001, 65535)]⟩, ⟨32, 32, .rws, .live, 0, 0, []⟩]⟩,
  ⟨"OWN_ETHp_SESS", 0xA4, [(8, 2)], false,
    [⟨0, 0, .ro, .live, 0, 0, []⟩, ⟨16, 1, .ro, .live, 0, 0, []⟩]⟩,
  ⟨"OWN_ETHp_CNT", 0xA5, [(8, 2)], false,
    [⟨17, 0, .rws, .live, 0, 0, []⟩, ⟨29, 18, .rws, .live, 0, 0, []⟩]⟩,
  ⟨"OWN_PCIEm_STAT", 0xC0, [(4, 2)], false,
    [⟨2, 0, .ro, .live, 0, 0, []⟩, ⟨6, 3, .ro, .live, 0, 0, []⟩]⟩,
  ⟨"OWN_PCIEm_CNT", 0xC1, [(4, 2)], false,
    [⟨17, 0, .rws, .live, 0, 0, []⟩, ⟨35, 18, .rws, .live, 0, 0, []⟩]⟩]

/-- Every Own register. -/
def regsOwn : List RegSpec := regsOwn0 ++ regsOwn1

/-- Part 0 of the Sec registers (Tables 14.14). -/
def regsSec0 : List RegSpec := [
  ⟨"SEC_LC", 0x0, [], false,
    [⟨2, 0, .ro, .live, 0, 0, []⟩]⟩,
  ⟨"SEC_DEVIDj", 0x1, [(1, 8)], false,
    [⟨31, 0, .ro, .live, 0, 0, []⟩]⟩,
  ⟨"SEC_VROOTHj", 0x10, [(1, 8)], false,
    [⟨31, 0, .ro, .live, 0, 0, []⟩]⟩,
  ⟨"SEC_OROOTHj", 0x18, [(1, 8)], false,
    [⟨31, 0, .ro, .live, 0, 0, []⟩]⟩,
  ⟨"SEC_IDPKj", 0x20, [(1, 17)], false,
    [⟨31, 0, .ro, .live, 0, 0, []⟩]⟩,
  ⟨"SEC_BOOT", 0x40, [], false,
    [⟨10, 0, .ro, .live, 0, 0, []⟩, ⟨20, 11, .ro, .live, 0, 0, []⟩, ⟨22, 21, .ro, .live, 0, 0, []⟩, ⟨28, 23, .ro, .live, 0, 0, []⟩]⟩,
  ⟨"SEC_AKLEAF", 0x41, [], false,
    [⟨20, 0, .ro, .live, 0, 0, []⟩]⟩,
  ⟨"SEC_IMGCHK", 0x42, [], false,
    [⟨3, 0, .ro, .live, 0, 0, []⟩, ⟨4, 4, .ro, .live, 0, 0, []⟩, ⟨5, 5, .ro, .live, 0, 0, []⟩]⟩,
  ⟨"SEC_TAMP_STAT", 0x43, [], false,
    [⟨4, 0, .w1c, .live, 0, 0, []⟩, ⟨9, 5, .ro, .live, 0, 0, []⟩, ⟨27, 10, .ro, .live, 0, 0, []⟩]⟩,
  ⟨"SEC_MB_CMD", 0x100, [], true,
    [⟨2, 0, .rw, .live, 0, 0, [(0, 0), (5, 7)]⟩, ⟨3, 3, .wo, .live, 0, 0, []⟩]⟩,
  ⟨"SEC_MB_STAT", 0x101, [], true,
    [⟨3, 0, .ro, .live, 0, 0, []⟩, ⟨14, 4, .ro, .live, 0, 0, []⟩]⟩,
  ⟨"SEC_MB_NONCEj", 0x108, [(1, 8)], true,
    [⟨31, 0, .ro, .live, 0, 0, []⟩]⟩]

/-- Part 1 of the Sec registers (Tables 14.14). -/
def regsSec1 : List RegSpec := [
  ⟨"SEC_MB_PKj", 0x110, [(1, 17)], true,
    [⟨31, 0, .rw, .live, 0, 0, []⟩]⟩,
  ⟨"SEC_MB_INj", 0x200, [(1, 768)], true,
    [⟨31, 0, .rw, .live, 0, 0, []⟩]⟩,
  ⟨"SEC_MB_OUTj", 0x600, [(1, 1536)], true,
    [⟨31, 0, .ro, .live, 0, 0, []⟩]⟩]

/-- Every Sec register. -/
def regsSec : List RegSpec := regsSec0 ++ regsSec1

/-- Part 0 of the Log registers (Tables 15.5). -/
def regsLog0 : List RegSpec := [
  ⟨"LOG_SEQ", 0x0, [], false,
    [⟨35, 0, .ro, .live, 0, 0, []⟩]⟩,
  ⟨"LOG_CFG", 0x1, [], false,
    [⟨0, 0, .rws, .live, 1, 0, []⟩, ⟨1, 1, .rws, .live, 1, 0, []⟩]⟩,
  ⟨"LOG_FL0", 0x2, [], false,
    [⟨35, 0, .ro, .live, 0, 0, []⟩]⟩,
  ⟨"LOG_FL1", 0x3, [], false,
    [⟨9, 0, .ro, .live, 0, 0, []⟩, ⟨20, 10, .ro, .live, 0, 0, []⟩, ⟨23, 21, .ro, .live, 0, 0, []⟩, ⟨35, 24, .rws, .live, 0, 0, []⟩]⟩,
  ⟨"LOG_PFW", 0x4, [], false,
    [⟨17, 0, .rws, .live, 0, 0, []⟩, ⟨35, 18, .rws, .live, 0, 0, []⟩]⟩,
  ⟨"LOG_DSTATd", 0x10, [(1, 8)], false,
    [⟨12, 0, .ro, .live, 0, 0, []⟩, ⟨16, 13, .ro, .live, 0, 0, []⟩, ⟨34, 17, .rws, .live, 0, 0, []⟩, ⟨35, 35, .ro, .live, 0, 0, []⟩]⟩,
  ⟨"LOG_DOLDd", 0x18, [(1, 8)], false,
    [⟨35, 0, .ro, .live, 0, 0, []⟩]⟩,
  ⟨"LOG_DNEWd", 0x20, [(1, 8)], false,
    [⟨35, 0, .ro, .live, 0, 0, []⟩]⟩,
  ⟨"LOG_CURD", 0x100, [], true,
    [⟨2, 0, .rw, .live, 0, 0, []⟩, ⟨3, 3, .wo, .live, 0, 0, []⟩]⟩,
  ⟨"LOG_CURS", 0x101, [], true,
    [⟨35, 0, .rw, .live, 0, 0, []⟩]⟩,
  ⟨"LOG_WINj", 0x108, [(1, 8)], true,
    [⟨35, 0, .ro, .live, 0, 0, []⟩]⟩,
  ⟨"LOG_WCHK", 0x110, [], true,
    [⟨0, 0, .ro, .live, 0, 0, []⟩, ⟨1, 1, .ro, .live, 0, 0, []⟩, ⟨2, 2, .ro, .live, 0, 0, []⟩, ⟨3, 3, .ro, .live, 0, 0, []⟩]⟩]

/-- Every Log register. -/
def regsLog : List RegSpec := regsLog0

/-- Part 0 of the Pwr registers (Tables 16.6). -/
def regsPwr0 : List RegSpec := [
  ⟨"PWR_MODE", 0x0, [], false,
    [⟨1, 0, .rws, .commit, 1, 0, [(3, 3)]⟩, ⟨2, 2, .rws, .commit, 1, 0, []⟩, ⟨4, 3, .ro, .live, 1, 0, []⟩, ⟨6, 5, .ro, .live, 2, 0, []⟩]⟩,
  ⟨"PWR_COMMIT", 0x1, [], false,
    [⟨0, 0, .wo, .live, 0, 0, []⟩, ⟨1, 1, .ro, .live, 0, 0, []⟩]⟩,
  ⟨"PWR_TJd", 0x8, [(1, 8)], false,
    [⟨8, 0, .ro, .live, 0, 0, []⟩, ⟨17, 9, .rws, .live, 0, 0, []⟩]⟩,
  ⟨"PWR_DOMd", 0x10, [(1, 8)], false,
    [⟨15, 0, .rws, .commit, 65535, 0, []⟩]⟩,
  ⟨"PWR_DSTATd", 0x18, [(1, 8)], false,
    [⟨31, 0, .ro, .live, 0, 0, []⟩]⟩,
  ⟨"PWR_STK", 0x20, [], false,
    [⟨7, 0, .rws, .commit, 255, 0, []⟩, ⟨23, 8, .ro, .live, 0, 0, []⟩]⟩,
  ⟨"PWR_TRIMd_A", 0x28, [(2, 8)], false,
    [⟨35, 0, .ro, .live, 0, 0, []⟩]⟩,
  ⟨"PWR_TRIMd_B", 0x29, [(2, 8)], false,
    [⟨27, 0, .ro, .live, 0, 0, []⟩]⟩,
  ⟨"PWR_LIFEd", 0x40, [(1, 8)], false,
    [⟨35, 0, .ro, .live, 0, 0, []⟩]⟩,
  ⟨"PWR_AGECFG", 0x48, [], false,
    [⟨7, 0, .rws, .live, 25, 0, [(0, 9), (101, 255)]⟩, ⟨11, 8, .rws, .live, 3, 0, [(0, 0)]⟩, ⟨12, 12, .rws, .live, 1, 0, []⟩]⟩,
  ⟨"PWR_TIDX", 0x49, [], false,
    [⟨2, 0, .rw, .live, 0, 0, []⟩, ⟨9, 3, .rw, .live, 0, 0, [(73, 127)]⟩]⟩,
  ⟨"PWR_TDAT", 0x4A, [], false,
    [⟨7, 0, .ro, .live, 0, 0, []⟩, ⟨10, 8, .ro, .live, 0, 0, []⟩, ⟨14, 11, .ro, .live, 0, 0, []⟩, ⟨15, 15, .w1s, .live, 0, 0, []⟩]⟩]

/-- Part 1 of the Pwr registers (Tables 16.6). -/
def regsPwr1 : List RegSpec := [
  ⟨"PWR_LAYBY", 0x4B, [], false,
    [⟨31, 0, .ro, .live, 2290649224, 0, []⟩]⟩,
  ⟨"PWR_IBKRET", 0x50, [], false,
    [⟨9, 0, .w1s, .live, 0, 0, []⟩]⟩,
  ⟨"PWR_RIGd", 0x58, [(1, 8)], false,
    [⟨17, 0, .rws, .live, 0, 0, []⟩, ⟨22, 18, .ro, .live, 0, 0, []⟩]⟩,
  ⟨"PWR_FW_SRC", 0x60, [], false,
    [⟨1, 0, .rws, .live, 0, 0, [(2, 3)]⟩, ⟨35, 2, .rws, .live, 0, 0, []⟩]⟩,
  ⟨"PWR_FW_CMD", 0x61, [], false,
    [⟨0, 0, .wo, .live, 0, 0, []⟩]⟩,
  ⟨"PWR_FW_STAT", 0x62, [], false,
    [⟨2, 0, .ro, .live, 0, 0, []⟩, ⟨5, 3, .ro, .live, 0, 0, []⟩, ⟨13, 6, .ro, .live, 0, 0, []⟩, ⟨15, 14, .w1c, .live, 0, 0, []⟩]⟩]

/-- Every Pwr register. -/
def regsPwr : List RegSpec := regsPwr0 ++ regsPwr1

/-- Part 0 of the Group registers (Tables 11.8). -/
def regsGroup0 : List RegSpec := [
  ⟨"LINK_GCFG", 0x0, [], false,
    [⟨0, 0, .rws, .commit, 0, 0, []⟩]⟩,
  ⟨"LINK_GCOMMIT", 0x1, [], false,
    [⟨0, 0, .wo, .live, 0, 0, []⟩, ⟨1, 1, .ro, .live, 0, 0, []⟩]⟩,
  ⟨"LINK_GSTAT", 0x2, [], false,
    [⟨0, 0, .ro, .live, 0, 0, []⟩, ⟨16, 1, .ro, .live, 0, 0, []⟩]⟩]

/-- Every Group register. -/
def regsGroup : List RegSpec := regsGroup0

/-- The register blocks of Table 19.1. -/
inductive Block where
  | pkg | sec | own | log | pwr | die | dram | group | link | tile
deriving DecidableEq, Repr

/-- The registers of a block. -/
def Block.regs : Block → List RegSpec
  | .pkg => regsPkg
  | .sec => regsSec
  | .own => regsOwn
  | .log => regsLog
  | .pwr => regsPwr
  | .die => regsDie
  | .dram => regsDram
  | .group => regsGroup
  | .link => regsLink
  | .tile => regsTile

/-- The index of an offset within a register family, if it is one of its words. -/
def indexIn : List (Nat × Nat) → Nat → Option Nat
  | [], 0 => some 0
  | [], _ + 1 => none
  | (st, n) :: r, o =>
    match r with
    | [] => if o % st = 0 ∧ o / st < n then some (o / st) else none
    | _ :: _ => if o / st < n then (indexIn r (o % st)).map (fun i => o / st * 64 + i) else none

/-- The register at a word offset of a block, with its index. -/
def findReg (l : List RegSpec) (off : Nat) : Option (RegSpec × Nat) :=
  l.findSome? (fun r => if off < r.base then none else (indexIn r.ixs (off - r.base)).map (fun i => (r, i)))

/-- The reset value of a register, from its fields. -/
def RegSpec.reset (r : RegSpec) (ix : Nat) : Word :=
  r.fields.foldl (fun w f => putFld w f.hi f.lo (f.rst + f.ixr * ix)) 0

/-- The reset value of the word at an offset of a block; 0 where the block has no register. -/
def Block.resetAt (b : Block) (off : Nat) : Word :=
  match findReg b.regs off with
  | some (r, i) => r.reset i
  | none => 0

end Sys2Proof.Machine
end

