-- ==== Sys2Proof/Machine/State.lean ====
section
/-!
DEFINITION. The state of the TG8512 as plain data, and the state right after power-up with PORST_N held low.
Registers live in State.regs under their package word address (per-master words, network tables and profile words
under keys of their own), tile registers in Tile.io under their tile I/O word address.
-/
namespace Sys2Proof.Machine

/-! ## Tiles -/

/-- What a tile is doing. -/
inductive Phase where
  /-- Not placed, or held by the warden: issues nothing. -/
  | idle
  /-- Issues bundles. -/
  | run
  /-- Waits at ctl.waitm. -/
  | wait
  /-- Halted (R313). -/
  | halt
deriving DecidableEq, Repr

/-- One store-buffer entry (R239): a granule of data space, its nonet mask, its data, the bundle that made it
and the cycle by which it has retired (R241). -/
structure SbEntry where
  gran : Nat
  mask : BitVec 8
  data : BitVec 72
  born : Nat
  due : Nat
deriving DecidableEq, Repr

/-- The active loop (R152 to R158): start, NB, position, iterations left, a LOOP.s whose count is 0 (R157), issuing from
the loop buffer (R168). -/
structure LoopSt where
  start : Nat
  nb : Nat
  idx : Nat
  lrem : Nat
  dry : Bool
  buffered : Bool
deriving DecidableEq, Repr

/-- Bytes of instruction memory held by the tile, from address start on: a body in the loop buffer with its NB, or the
bytes of a repeated instruction (R148, R167). -/
structure Held where
  start : Nat
  nb : Nat
  bytes : List Nat
deriving DecidableEq, Repr

/-- The signpost expansion in progress (R184): entry, next body bundle and its bank offset, operand bytes, whether no
body bundle has issued yet, the level at which the macro was decoded (R190), the address of its opcode byte and of the
byte after the instruction, its directory entry as a 64-bit value. -/
structure ExpSt where
  entry : Nat
  mix : Nat
  off : Nat
  ops : List Byte
  first : Bool
  lvl : Nat
  opAt : Nat
  next : Nat
  dir : Nat
deriving DecidableEq, Repr

/-- The write of the last bcopy step while it can still be met (R246, R334, R335): its granule of data space, its nonets and
their values, and the data-side writes that met it, each with its agent, its mask and its data. -/
structure BcpWr where
  gran : Nat
  mask : BitVec 8
  data : BitVec 72
  met : List (Nat × BitVec 72 × BitVec 72)
deriving DecidableEq, Repr

/-- A corrected granule that waits for its write-back (R345): its key, its data, and the data-side agent whose read found
it, coded as R336 codes agents; none for the tile's own read. -/
structure WbEntry where
  key : Nat
  data : BitVec 72
  agent : Option Nat
deriving DecidableEq, Repr

/-- A trap or interrupt that has been raised and not yet entered (R309, R310): code, SINFO, SPC, lane and whether it is
valid, software, whether the TCR writes due for the instruction at SPC have completed, the issue cycle. -/
structure Trap where
  code : Nat
  info : Word
  spc : Nat
  lane : Nat
  lv : Bool
  soft : Bool
  tcrDone : Bool
  bundleAt : Nat
deriving DecidableEq, Repr

/-- A look request (R262): stream, words asked for and words not yet delivered, word offset in the table, the words that an
entry of the table has (R502), its home
copy and twin copy as (stack, base parcel), held by a toll (R414), no such table (R507), and the words that its read has
given and that have not arrived, each with whether it is marked (R505). -/
structure LkReq where
  stream : Nat
  w : Nat
  left : Nat
  off : Nat
  ew : Nat
  home : Nat × Nat
  twin : Option (Nat × Nat)
  held : Bool
  dead : Bool
  got : List (Word × Bool)
deriving DecidableEq, Repr

/-- A word at a stream head or an inbound, with its poison mark. -/
structure WordAt where
  port : Nat
  w : Word
  bad : Bool
deriving DecidableEq, Repr

/-- A mesh flit in an outbound channel or at a junction input (Table 9.2): the output ports that have taken their copy
(bits 0 to 4), counted under its route's allowance (bit 5), counted as held beyond it (bit 6), and the forwarding entry
that stood when it reached the junction (R371). -/
structure FlitAt where
  port : Nat
  flit : BitVec 72
  taken : Nat
  ent : Option Word
deriving DecidableEq, Repr

/-- A write or completion on its way to an egress island (R271). -/
structure EgWrite where
  link : Nat
  handle : Nat
  tick : Tick
  idx : Nat
  w : Word
  epoch : Nat
  complete : Bool
deriving DecidableEq, Repr

/-- A request in the tile's crossroads port (R258). -/
structure PortReq where
  store : Bool
  e : Nat
  addr : Nat
  w : Word
  drop : Bool
  held : Bool
deriving DecidableEq, Repr

/-- A word that leaves a tile (R606): a mesh flit on an outbound channel, an egress write or completion, a look
request, a window access. -/
inductive OutWord where
  | mesh (ch : Nat) (f : BitVec 72)
  | eg (w : EgWrite)
  | look (r : LkReq)
  | win (r : PortReq)
deriving DecidableEq, Repr

/-- A field written and not yet in force: register key, mask and value (R6, R7). -/
structure Stage where
  key : Nat
  mask : Word
  val : Word
deriving DecidableEq, Repr

/-- A waymark before it has a sequence number (Table 15.1). -/
structure Mark where
  die : Nat
  kind : Nat
  index : Nat
  code : Nat
  d0 : Word
  d1 : Word
  d2 : Word
  tick : Tick
  tv : Bool
deriving DecidableEq, Repr

/-- One physical tile; index 72 of a die is its warden. -/
structure Tile where
  /-- Words of the sockets, by socket address; tol sockets and ctl.n, ctl.flags among them. -/
  sock : SMap Word
  /-- Result sockets that hold a poisoned word (R238). -/
  psn : List Nat
  /-- Tile registers, by tile I/O word address. -/
  io : SMap Word
  staged : List Stage
  going : List Stage
  mile : List Stage
  /-- Stored granules, key memory × 2^14 + physical granule index. -/
  gran : SMap Gran
  ihalf : Bool
  sbank : Bool
  /-- Corrected granules waiting for a write-back (R345). -/
  wb : List WbEntry
  sb : List SbEntry
  /-- What the last bcopy step wrote, until the next step completes its granule (R246) or the tile does anything else. -/
  bcp : Option BcpWr
  pc : Nat
  phase : Phase
  /-- A routine is in progress for tick rtn; nextN is the oldest assigned tick neither run nor skipped. -/
  inRtn : Bool
  rtn : Tick
  nextN : Tick
  firstRtn : Bool
  waitAt : Tick
  evCyc : Bool
  evAcc : Bool
  evByt : Bool
  evq : List Word
  used : Nat
  rep : Option Nat
  sealed : Bool
  sealRun : Nat
  loop : Option LoopSt
  exp : Option ExpSt
  soft : Option (Nat × Word)
  /-- The captured body (R169), and the body being captured in its first iteration (R168). -/
  lbuf : Option Held
  lcap : Option Held
  /-- The bytes of the repeated instruction at pc as they were fetched (R148); after a store into it only those of its
  prefixes (R319). -/
  hold : Option Held
  /-- The code of the entry whose vector's instruction has not completed (R313). -/
  atVec : Option Nat
  /-- The instruction at pc has been fetched once (R148); a bcopy or tscan is between steps (R250). -/
  fetched : Bool
  stepping : Bool
  /-- Records that a RETX restored and the instruction at pc has not yet taken up (R164). -/
  rsmRep : Option Nat
  rsmMc : Option (Nat × Nat)
  /-- Words waiting for the pair partner's copy (R606). -/
  rig : List OutWord
  /-- Package word address of the latest failed window store (Table 7.7). -/
  lateAddr : Nat
  /-- TCR writes not yet complete: value and bundles to count (R289). -/
  tcrQ : List (Word × Nat)
  raised : Option Trap
  clk : Nat
  /-- The cycles that the next bundle has waited, and the routine has been charged for (R683). -/
  waited : Nat
  ready : SMap Nat
  flagReady : Nat
  patched : Bool
  bid : Nat
  roff : SMap Nat
  lkReq : List LkReq
  lkw : List WordAt
  inb : List WordAt
  outc : List FlitAt
  eg : List EgWrite
  port : List PortReq
  /-- The slots, as link and tick, that this tile has completed and has written to (R270, R272, Table 6.12). -/
  cpl : List (Nat × Tick)
  wr : List (Nat × Tick)
  /-- Ticks skipped since the last ARM (Table 6.12). -/
  skp : Nat
  /-- The detour request word, and while the request waits for the tile to have run its last tick, the first tick that is not
  this tile's any more (R434, R435). -/
  migr : Word
  migrAt : Option Tick
  /-- The end of the wait in which a live swap found the tile: by it the first new routine is on time or late (R428). -/
  begAt : Option Tick
  /-- TILE_RTN as the routine in progress read it when it began (Table 10.10). -/
  rtnCfg : Word
  /-- The tick of a swap that is over and does not place this tile, which has not stopped yet (R428, R430). -/
  stopAt : Option Tick
  epoch : Nat
  placed : Bool
  iepoch : Nat
  vwipe : Nat
  marks : List Mark
deriving DecidableEq, Repr

/-- Every tile register at its reset value. -/
def Tile.ioReset (k : Nat) : Word := Block.tile.resetAt k

/-- A tile at power-up (R107, R179, R637): every socket, register and predicate 0, every granule the codeword of zero
data, every register at its reset value. -/
def Tile.reset : Tile :=
  { sock := [], psn := [], io := [], staged := [], going := [], mile := [], gran := [], ihalf := false,
    sbank := false, wb := [], sb := [], bcp := none, pc := 0, phase := .idle, inRtn := false, rtn := 0, nextN := 0,
    firstRtn := false, waitAt := 0, evCyc := false, evAcc := false, evByt := false, evq := [], used := 0,
    rep := none, sealed := false, sealRun := 0, loop := none, exp := none, soft := none, lbuf := none,
    lcap := none, hold := none, atVec := none, fetched := false, stepping := false, rsmRep := none, rsmMc := none, rig := [], lateAddr := 0, tcrQ := [],
    raised := none, clk := 0, waited := 0, ready := [], flagReady := 0, patched := false, bid := 0, roff := [], lkReq := [],
    lkw := [], inb := [], outc := [], eg := [], port := [], cpl := [], wr := [], skp := 0, migr := 0, migrAt := none, begAt := none, rtnCfg := 0, stopAt := none, epoch := 0,
    placed := false, iepoch := 0, vwipe := 0, marks := [] }

/-! ## Mesh, Ibrak and crossroads -/

/-- A junction: flits at its neighbour inputs (ports 4 N, 5 E, 6 S, 7 W), copies taken by output L on their way to
inbound i (port 8 + i), and the input served last at each output (R364, R365). -/
structure Junction where
  inq : List FlitAt
  last : SMap Nat
deriving DecidableEq, Repr

/-- A junction at reset. -/
def Junction.reset : Junction := { inq := [], last := [] }

/-- A block of an Ibrak direction (Table 9.6): SEQ, ACK, TYPE 1, CR, and its slots, each as (class + 4 × position of its
edge junction, unit), from SLOT0 on. -/
structure IbkBlock where
  seq : Nat
  ack : Nat
  replayReq : Bool
  cr : List Nat
  slots : List (Nat × BitVec 72)
deriving DecidableEq, Repr

/-- One direction of an Ibrak link (R382 to R390). -/
structure IbkDir where
  /-- Units waiting to leave: class 1 mesh, 2 lookup, 3 crossroads. -/
  queue : List (Nat × BitVec 72)
  seq : Nat
  held : List IbkBlock
  /-- Blocks on the wire: their 1,152 bits, and the edge positions of their slots (log entry 13). -/
  wire : List (BitVec 1152 × List Nat)
  /-- SEQ expected next by the receiver, and whether it waits for a failed SEQ. -/
  want : Nat
  failing : Bool
  failRun : Nat
  reqReplay : Bool
  replaying : List IbkBlock
  credits : List Nat
  owed : List Nat
  used : List Nat
  replays : Nat
  tolled : List Nat
deriving DecidableEq, Repr

/-- A direction at reset: 64 credits in each of the four classes (R385). -/
def IbkDir.reset : IbkDir :=
  { queue := [], seq := 0, held := [], wire := [], want := 0, failing := false, failRun := 0, reqReplay := false,
    replaying := [], credits := [64, 64, 64, 64], owed := [0, 0, 0, 0], used := [0, 0, 0, 0], replays := 0,
    tolled := [] }

/-- A link of Table 9.5: failed retrains in a row. -/
structure IbkLink where
  fails : Nat
  returning : Bool
deriving DecidableEq, Repr

/-- A crossroads transaction that waits for its turn (R397): its master, address, beats (0 for one word), whether it writes,
its data, whether its master was the steward when it issued it (R549). -/
structure XrReq where
  master : Nat
  addr : Nat
  beats : Nat
  write : Bool
  data : List Word
  auth : Bool
deriving DecidableEq, Repr

/-- A request that its master issued while its drain was in progress, to be served once that has ended (R400). -/
inductive Parked where
  /-- A transaction. -/
  | xact (r : XrReq)
  /-- A read of a PCI Express endpoint. -/
  | pcieRead (ep off len : Nat)
  /-- A write of a PCI Express endpoint. -/
  | pcieWrite (ep off : Nat) (data : List (Option Byte))
  /-- A frame received on a management Ethernet port. -/
  | eth (port : Nat) (frame : List Byte)
deriving DecidableEq, Repr

/-- A drain of a reset master (R399). -/
structure Drain where
  master : Nat
  trans : Nat
  beats : Nat
  lastBeats : Nat
deriving DecidableEq, Repr

/-- Per die: words that entered each route this tick, once-per-tick flags, crossroads beats used per class this tick, the
tile that DIE_BIST is testing; the writes to slots in the delay area that the egress island has not applied (R512). -/
structure DieSt where
  allow : SMap Nat
  flags : List Nat
  beats : List Nat
  bist : Option Nat
  delayed : List EgWrite
deriving DecidableEq, Repr

/-- A die at reset. -/
def DieSt.reset : DieSt :=
  { allow := [], flags := [], beats := [0, 0, 0, 0], bist := none, delayed := [] }

/-! ## Links -/

/-- An egress slot (R464): its words, whether a write was accepted, whether one was discarded for its epoch, completed;
whether its words stand in the delay area of the stack, and whether they were lost with it (R517). -/
structure Slot where
  tick : Tick
  words : SMap Word
  wrote : Bool
  epx : Bool
  complete : Bool
  inDelay : Bool
  lost : Bool
deriving DecidableEq, Repr

/-- A frame built at a close: the milestone it is sent at, its tick, FLAGS and words (R465). -/
structure Frame where
  at_ : Tick
  tick : Tick
  flags : Nat
  words : List Word
deriving DecidableEq, Repr

/-- What a receiver reports for a tick (Table 11.4): status 0 OK, 1 BAD, 2 NONE, 3 not in service. -/
structure RxTick where
  tick : Tick
  status : Nat
  words : List Word
  fecc : Bool
  flags : Nat
deriving DecidableEq, Repr

/-- A frame that a receiver is taking in: its tick, whether it began in that tick's window, whether the window has closed
since, how many of its words are deposited, and its bits so far, each with what became of the codeword that carried it: 0 nothing, 1 corrected, 2
uncorrectable (R456, R459). -/
structure RxFrame where
  tick : Tick
  inWin : Bool
  closed : Bool
  put : Nat
  bits : List (Bool × Nat)
deriving DecidableEq, Repr

/-- The line side of a receiver: line bits since the last block or codeword, the last 58 scrambled bits, valid headers or
zero syndromes in succession, which of the last headers were invalid, uncorrectable codewords in succession; net bits not
read yet, none where lock was lost; the frame being taken in; the PRBS31 checker and the bits it has been seeded with
(R444 to R447, R456, R471). -/
structure LineRx where
  buf : List Bool
  desc : BitVec 58
  good : Nat
  bad : List Bool
  uncor : Nat
  net : List (Option (Bool × Nat))
  frame : Option RxFrame
  prbs : BitVec 31
  seeded : Nat
deriving DecidableEq, Repr

/-- The line side of a transmitter: net bits that fill no block or codeword yet, the last 58 scrambled bits, the part of a
bit by which the last tick's bits fell short of it, the PRBS31 generator, the milestone whose bits were sent last; in
Ethernet readout mode the octets that wait for the line, none for an idle octet (R474). -/
structure LineTx where
  net : List Bool
  scr : BitVec 58
  frac : Nat
  prbs : BitVec 31
  sent : Option Tick
  octs : List (Option Byte)
deriving DecidableEq, Repr

/-- A receiver that seeks lock. -/
def LineRx.reset : LineRx :=
  { buf := [], desc := 0, good := 0, bad := [], uncor := 0, net := [], frame := none, prbs := 0, seeded := 0 }

/-- A transmitter at reset: the scrambler at 0 and the PRBS31 generator at ones (DESIGN CHOICE, log entry 77). -/
def LineTx.reset : LineTx := { net := [], scr := 0, frac := 0, prbs := BitVec.allOnes 31, sent := none, octs := [] }

/-- One of the 512 links: open egress slots, frames built and not yet sent, what the receiver reported for past ticks,
datagrams handed, the IPv4 identification count, LOCKLOSS already logged since the last commit, the last milestone that
its egress island has observed; the first tick of the channel's image, and the channel of the image before it in a swap:
deadline, first tick, image epoch and default words (R429); the switch tick of its epochs (R433); the last tick whose slot
went with a lost stack (R517); retraining after a change of RATE (R442); its group has been
switched on and no milestone has found it with lock since (R608); the line side of its receiver and transmitter. -/
structure LinkSt where
  slots : List Slot
  built : List Frame
  rx : List RxTick
  /-- The reports of the ticks before a TICKSET moved the count. -/
  past : List RxTick
  /-- The alignment buffer: frames that have ended, and ticks known to have none, before their milestone, each with whether the
  deposit coincides with the tile's own write (R86, R458). -/
  align : List (Tick × Option RxFrame × Bool)
  dgs : List (List Byte)
  ipid : Nat
  lossLogged : Bool
  obs : Tick
  newFrom : Tick
  old : Option (Nat × Tick × Nat × List Word)
  epSw : Tick
  lostTo : Option Tick
  retrain : Bool
  rising : Bool
  rxl : LineRx
  txl : LineTx
deriving DecidableEq, Repr

/-- A link at reset. -/
def LinkSt.reset : LinkSt :=
  { slots := [], built := [], rx := [], past := [], align := [], dgs := [], ipid := 0, lossLogged := false, obs := 0, newFrom := 0, old := none,
    epSw := 0, lostTo := none, retrain := false, rising := false, rxl := LineRx.reset, txl := LineTx.reset }

/-! ## Stacks -/

/-- A readout request (R493). -/
structure RdReq where
  tick : Tick
  prof : Nat
  tag : Nat
  local_ : Bool
  since : Tick
deriving DecidableEq, Repr

/-- A readout record (R498). -/
structure RdRec where
  link : Nat
  status : Nat
  off : Int
  words : List Word
  pois : Bool
  gone : Bool
deriving DecidableEq, Repr

/-- A readout in service: request, ticks of the window served, records not yet packed, next datagram number; of the next
tick of the window the slots already read (R509), and what the first read of each group's index entry gave. -/
structure RdSvc where
  req : RdReq
  next : Nat
  recs : List RdRec
  seq : Nat
  done : Nat
  idx : List (Option Nat)
deriving DecidableEq, Repr

/-- A datagram complete but not yet handed to its link: link, tick after which, payload. -/
structure RdDg where
  link : Nat
  ready : Tick
  payload : List Byte
deriving DecidableEq, Repr

/-- A group's history writer (R489): whether it has begun, the tick it stores or stores next, the steps of it done,
whether that tick has been counted as late (R492); where a TICKSET has moved the tick number, the last tick before it and the
first after it, until the writer has got to that one. -/
structure HistSt where
  active : Bool
  tick : Tick
  step : Nat
  held : Bool
  moved : Option (Tick × Tick)
deriving DecidableEq, Repr

/-- One stack and its controller: stored granules by parcel × 4 + granule, corrected granules waiting for a write-back,
the history writers of its groups, the readout engine (queue, request in service, datagrams not yet handed, an entry for
the host ring with the parcels of it written), per row the corrected findings of this scrub pass, rows that qualify for repair, rows repaired,
rows without a spare, the parcel slots that each activity has taken in this tick (R508, Table 12.6: rows 1 to 7 from the
top, 8 for what has no charge), the events noted this tick, the base parcels of the
tables still being restored and the parcels of the first of them copied (R518), the parcels of a row under repair that remain
to be copied (R515). -/
structure Stack where
  gran : SMap Gran
  wb : List (Nat × BitVec 72)
  hist : SMap HistSt
  queue : List RdReq
  svc : Option RdSvc
  ring : Option (List Word × Nat)
  dgs : List RdDg
  rowFind : SMap Nat
  rowDue : List Nat
  repaired : List Nat
  noSpare : List Nat
  used : SMap Nat
  flags : List Nat
  rebuild : List Nat
  restored : Nat
  copying : Nat
deriving DecidableEq, Repr

/-- A history writer at reset. -/
def HistSt.reset : HistSt := { active := false, tick := 0, step := 0, held := false, moved := none }

/-- A stack at reset: every granule the codeword of zero data (DESIGN CHOICE, log entry 4). -/
def Stack.reset : Stack :=
  { gran := [], wb := [], hist := [], queue := [], svc := none, ring := none, dgs := [], rowFind := [], rowDue := [],
    repaired := [], noSpare := [], used := [], flags := [], rebuild := [], restored := 0, copying := 0 }

/-! ## Images -/

/-- TILE record (Table 10.2). -/
structure ImgTile where
  ltile : Nat
  kc : Nat
  j : Nat
  detour : Nat
  sprec : Nat
  entry : Nat
  saddr : Nat
  cyc : Nat
  hrsv : Nat
  start : Nat
  scyc : Nat
  acc : Nat
  byt : Nat
  regs : List (Nat × Word)
  prog : List Byte
  segs : List (Nat × List Word)
deriving DecidableEq, Repr

/-- ROUTE record. -/
structure ImgRoute where
  src : Nat
  rid : Nat
  transit : Nat
  diepath : Nat
  allow : Nat
  subn : Nat
  subv : Word
  dests : List (Nat × Nat)
deriving DecidableEq, Repr

/-- DEPOSIT record: members as (logical tile, BASE, STRIDE, NBM). -/
structure ImgDeposit where
  link : Nat
  kc : Nat
  members : List (Nat × Nat × Nat × Nat)
deriving DecidableEq, Repr

/-- EGRESS record. -/
structure ImgEgress where
  link : Nat
  l : Nat
  ndef : Nat
  defs : List Word
deriving DecidableEq, Repr

/-- TABLE record, with the extents R503 gives it. -/
structure ImgTable where
  handle : Nat
  stack : Nat
  twin : Bool
  tstack : Nat
  lsz : Nat
  logn : Nat
  digest : List Nat
  base : Nat
  tbase : Nat
deriving DecidableEq, Repr

/-- STATE record: carried ranges as (address, words). -/
structure ImgState where
  ltile : Nat
  w : Nat
  ranges : List (Nat × Nat)
deriving DecidableEq, Repr

/-- An image (R402 to R405), parsed. -/
structure Image where
  epoch : Nat
  need : Nat
  period : Nat
  minmode : Nat
  rigor : Bool
  swapok : Bool
  manifest : List Byte
  tiles : List ImgTile
  signposts : List (List Byte)
  routes : List ImgRoute
  deposits : List ImgDeposit
  egress : List ImgEgress
  tables : List ImgTable
  states : List ImgState
deriving DecidableEq, Repr

/-- A detour in progress (R434, R435). -/
structure Detour where
  slot : Nat
  from_ : Nat
  to_ : Nat
  conv : Bool
  start : Tick
  switch : Tick
  epoch : Nat
  copied : Bool
  retire : Bool
deriving DecidableEq, Repr

/-- The image commands in progress. -/
structure ImgSt where
  armed : Option Image
  standby : Option Image
  armAt : Option Tick
  disarmAt : Option Tick
  swapAt : Option Tick
  detours : SMap (List Detour)
  switched : List Nat
  /-- The source that the LOAD in progress named. -/
  loading : Option Word
  /-- The standby image stands in the active halves, where a DISARM left it (R646). -/
  inActive : Bool
  /-- Tiles whose standby half, or active half if inActive, holds the standby image's code for a logical tile (resKey). -/
  resident : List Nat
  /-- The image before the last swap, for tiles that have not left it (R428, R430). -/
  leaving : Option Image
  /-- The dies on which the swap in progress is being carried out (R27, R429). -/
  swapDies : List Nat
  /-- Inbounds that a detour gave two epochs: die, tile, inbound, switch tick (R434, log entry 81). -/
  dual : List (Nat × Nat × Nat × Tick)
deriving DecidableEq, Repr

/-! ## Log -/

/-- A record of a ring (Table 15.1). -/
structure Rec where
  seq : Word
  m : Mark
  first : Tick
  rep : Nat
deriving DecidableEq, Repr

/-- A logbook unit: staging queue (record, rewrite of the youngest ring slot), ring from oldest to youngest, absolute
slot number of the oldest, records lost since the last GAP. -/
structure LogUnit where
  queue : List (Rec × Bool)
  ring : List Rec
  base : Nat
  lost : Nat
  lostFirst : Tick
  lostLast : Tick
deriving DecidableEq, Repr

/-- A logbook unit at reset. -/
def LogUnit.reset : LogUnit :=
  { queue := [], ring := [], base := 0, lost := 0, lostFirst := 0, lostLast := 0 }

/-- A master's latched window (R586): ring die, absolute slot, SEQ at the latch; END and LOST noted. -/
structure Latch where
  die : Nat
  slot : Option (Nat × Word)
  endNoted : Bool
  lostNoted : Bool
deriving DecidableEq, Repr

/-! ## Ports, security, power -/

/-- A timing input (R45, R58, R62, R63): whether it tracks, its runs of correctly placed and of missing markers and of
faults; whether a symbol fault fell in its tick, whether the tick is already counted as a fault, and whether a marker
came before the expected position of the next tick; whether it became eligible since the last milestone; the offset of
its last marker. -/
structure TimIn where
  tracking : Bool
  run : Nat
  missRun : Nat
  faultRun : Nat
  fault : Bool
  marked : Bool
  early : Bool
  newly : Bool
  off : Int
deriving DecidableEq, Repr

/-- A timing input at reset. -/
def TimIn.reset : TimIn :=
  { tracking := false, run := 0, missRun := 0, faultRun := 0, fault := false, marked := false, early := false,
    newly := false, off := 0 }

/-- A management Ethernet port's session (R533, R534). -/
structure EthSess where
  src : Nat
  token : BitVec 32
  last : Nat
  resp : List Byte
  since : Nat
deriving DecidableEq, Repr

/-- A PCI Express endpoint: latched upper bits (container, bits, the response that the word ended with), held low half (container, value), the bytes of the
MSI-X table, the vectors pending behind their mask (R524, R525, R528, Table 13.3). -/
structure PcieSt where
  up : Option (Nat × Nat × Nat)
  low : Option (Nat × Nat)
  table : SMap Byte
  pba : List Nat
deriving DecidableEq, Repr

/-- A byte of the MSI-X table after a reset: every vector masked (log entry 21). -/
def msixReset (k : Nat) : Byte := if k % 16 = 12 then 1 else 0
/-- An endpoint after a reset. -/
def PcieSt.reset : PcieSt := { up := none, low := none, table := [], pba := [] }

/-- A mailbox nonce: value and time of issue in symbols; consumed or void when absent. -/
structure NonceSt where
  bytes : List Byte
  at_ : Nat
deriving DecidableEq, Repr

/-- What the part sends to the outside. -/
inductive Emit where
  /-- A Gylitu frame that a link sends: link, TICK, FLAGS, words. -/
  | frame (link : Nat) (f : Frame)
  /-- The bits of one tick on the line of a link, first bit first (R444, R446, R471). -/
  | line (link : Nat) (bits : List Bool)
  /-- An MSI-X vector of an endpoint. -/
  | msix (ep vec : Nat)
  /-- A frame that a management Ethernet port sends, from destination address to FCS. -/
  | eth (port : Nat) (frame : List Byte)
  /-- A PCI Express completion: endpoint, status, EP, bytes. -/
  | cpl (ep status : Nat) (ep_ : Bool) (bytes : List Byte)
  /-- A readout datagram frame on a link. -/
  | datagram (link : Nat) (bytes : List Byte)
  /-- A PMBus VOUT_COMMAND value. -/
  | pmbus (value : Nat)
  /-- A crossroads response to a master: code, data words. -/
  | resp (master code : Nat) (data : List Word)
  /-- The octets of one tick that a link's Ethernet PCS puts on the line, none for an idle octet (R472, R474). -/
  | octets (link : Nat) (l : List (Option Byte))
  /-- Bits shifted out of the TAP. -/
  | tdo (bits : List Bool)
deriving DecidableEq, Repr

/-- Stewardship (R545 to R550): times in symbols, the claim nonces of the mailboxes, and the claims that are being
verified, oldest first, each with its master, the nonce it used, if that was valid when its GO was written, and the key
index and lease it names; the former steward, while a write that it issued before the end is performed (R549). -/
structure OwnSt where
  leaseEnd : Nat
  hovEnd : Nat
  nonce : SMap (Option NonceSt)
  claims : List (Nat × Option (List Byte) × Nat × Nat)
  acting : Option Nat
deriving DecidableEq, Repr

/-- Identity and life cycle (chapter 14): seeds of the attestation key and of the identity root, the security nonces, the
tamper sources asserted, the commands in progress, each with its master, its OP and the nonce that it used, if that was valid
when its GO was written, the attestation key's certificate body and identity signature, the manifest of the warden
firmware that runs. -/
structure SecSt where
  akSeed : Nat
  idSeed : Nat
  nonce : SMap (Option NonceSt)
  active : List Nat
  running : List (Nat × Nat × Option (List Byte))
  cert : List Byte
  certSig : List Byte
  fwManifest : List Byte
deriving DecidableEq, Repr

/-- Power and aging (chapter 16): the milestone after which the latest decision on the mode was made and its time, and the time of
the latest acknowledged VOUT_COMMAND; the voltage that it named, the one that the latest command named, and the time of that
command while it is not acknowledged; since when each die has been above the limit of the mode in force, and 10 degrees below that of the
mode above the ceiling (times in symbols plus 1, 0 for not); trim steps (die × 16 + domain) and the time of the latest one plus 1; life in 10^-8 s; per tile
what its warden holds of it (0 healthy, 2 due, 3 retiring, 4 retired, 6 due by the steward), slack, uncorrectable
findings, whether its RETIRE has been set (R618), and the time of its latest reset by the warden plus 1; the tiles of pairs that had a
mismatch and have not been tested since (R607); the domains that bring up their part (die × 32 + domain) with the time since when, plus 1 (R609); the rows that await hard repair, by stack (R515); the firmware update: warden restarting, its time, the
former lead, the new and the old manifest, and the lead's phase 4. -/
structure PwrSt where
  decTick : Tick
  decAt : Nat
  ackAt : Nat
  volt : Nat
  sentMv : Nat
  sentAt : Option Nat
  hot : SMap Nat
  cool : SMap Nat
  trim : SMap Nat
  trimAt : SMap Nat
  life : SMap Nat
  tile : SMap Nat
  slack : SMap Nat
  ue : SMap Nat
  asked : List Nat
  lastReset : SMap Nat
  suspect : List Nat
  bringUp : SMap Nat
  rows : SMap (List Nat)
  fwDie : Option Nat
  fwAt : Nat
  fwLead : Nat
  fwNew : List Byte
  fwOld : List Byte
deriving DecidableEq, Repr

/-- Wardens, lead and start-up: the autoarm in progress (0 none, 1 about to load, 2 loading, 3 valid and waiting for
TICKVALID) with the IMGOFF and ARMDLY it read; the wardens that passed their ROM check; the healthy wardens; the lead's
die; the time of the PORST_N edge. -/
structure BootSt where
  auto : Nat
  autoOff : Nat
  autoDly : Nat
  rom : List Nat
  healthy : List Nat
  lead : Nat
  edge : Nat
deriving DecidableEq, Repr

/-- The test access port (chapter 17): the instruction register of each die, the cells of the boundary registers from TDO
back, the CRACCESS register, and whether the output lands hold the boundary register's value. -/
structure TapSt where
  ir : List Nat
  bsr : List Bool
  cr : BitVec 76
  clamped : Bool
deriving DecidableEq, Repr

/-- The whole part. -/
structure State where
  pending : List Instr
  held : Bool
  regs : SMap Word
  staged : List Stage
  going : List Stage
  mile : List Stage
  sym : Nat
  tick : Tick
  tickLoad : Option Tick
  tm0 : TimIn
  tm1 : TimIn
  supplied : Bool
  slewLeft : Int
  /-- The tick period that was measured last, in symbols (R59). -/
  measured : Nat
  reqs : List (RdReq × List Nat)
  tiles : SMap Tile
  juncs : SMap Junction
  ibk : SMap IbkDir
  ibl : SMap IbkLink
  /-- Transactions that wait at the crossroads, oldest first; by target port, the master served last; requests of masters
  that are being drained. -/
  xrq : List XrReq
  xrLast : SMap Nat
  parked : List Parked
  dies : SMap DieSt
  drains : List Drain
  links : SMap LinkSt
  drams : SMap Stack
  img : ImgSt
  logs : SMap LogUnit
  latch : SMap (Option Latch)
  flushTo : Option Word
  /-- Logbook sectors that an erase or program has failed on (R589). -/
  badSect : List Nat
  /-- Flash writes that wait for the controller: 0 owner list, 1 boot header, 2 a firmware slot, 3 the ledger record; the
  time of the last FLASHERR for it (R23). -/
  nvWait : List Nat
  flashErrAt : Option Nat
  pfwLow : Bool
  own : OwnSt
  sec : SecSt
  pwr : PwrSt
  boot : BootSt
  tap : TapSt
  eth0 : Option EthSess
  eth1 : Option EthSess
  pcie0 : PcieSt
  pcie1 : PcieSt
  flash : SMap Byte
  marks : List Mark
  out : List Emit
  free : Nat
deriving DecidableEq, Repr

/-- Why the model stops on a command. -/
inductive Fault where
  /-- Raised by every command whose operand names a die, tile, link, port, group, stack or timing input that the part
  does not have (Table 0.4). Safe: no such event can happen to the part. -/
  | noSuchPart
deriving DecidableEq, Repr

/-- Why the model has no meaning for a command. -/
inductive Refusal where
  /-- Raised by the dispatch for a command not modelled yet, under its mnemonic. Safe: the model stops. -/
  | notModelled (mnemonic : String)
deriving DecidableEq, Repr

/-- The block whose register is at a package word address of region 0 or 1, and the offset within it (Table 19.1). -/
def blockOf (k : Nat) : Option (Block × Nat) :=
  if k < 0x1_0000 then some (.pkg, k)
  else if k < 0x2_0000 then some (.sec, k - 0x1_0000)
  else if k < 0x3_0000 then some (.own, k - 0x2_0000)
  else if k < 0x4_0000 then some (.log, k - 0x3_0000)
  else if k < 0x5_0000 then some (.pwr, k - 0x4_0000)
  else if k < 0x1_0000_0000 then none
  else if k < 0x2_0000_0000 then
    let o := k % 0x2000_0000
    if o < 0x1_0000 then some (.die, o)
    else if o < 0x2_0000 then some (.dram, o - 0x1_0000)
    else if o < 0x3_0000 then (if o - 0x2_0000 < 0x400 then some (.group, o % 0x100) else none)
    else if o < 0x4_0000 then (if o - 0x3_0000 < 0x1000 then some (.link, o % 0x40) else none)
    else none
  else none

/-- The value of an unlisted register word: the reset value of its table; per-master words take the reset of their
word, network table and profile words 0. -/
def regReset (k : Nat) : Word :=
  if 0x400_0000_0000 ≤ k then
    match blockOf (k % 0x1_0000_0000) with
    | some (b, o) => b.resetAt o
    | none => 0
  else match blockOf k with
  | some (b, o) => b.resetAt o
  | none => 0

/-- Right after power-up, with PORST_N still low (R629): every register at its reset value, nothing running. -/
def State.reset : State :=
  { pending := [], held := true, regs := [], staged := [], going := [], mile := [], sym := 0, tick := 0,
    tickLoad := none, tm0 := TimIn.reset, tm1 := TimIn.reset, supplied := false, slewLeft := 0, measured := 0, reqs := [],
    tiles := [], juncs := [], ibk := [], ibl := [], xrq := [],
    xrLast := [], parked := [], dies := [], drains := [], links := [], drams := [],
    img := { armed := none, standby := none, armAt := none, disarmAt := none, swapAt := none, detours := [],
             switched := [], loading := none, inActive := false, resident := [], leaving := none, swapDies := [], dual := [] },
    logs := [], latch := [], flushTo := none, badSect := [], nvWait := [], flashErrAt := none, pfwLow := false,
    own := { leaseEnd := 0, hovEnd := 0, nonce := [], claims := [], acting := none },
    sec := { akSeed := 0, idSeed := 0, nonce := [], active := [], running := [], cert := [], certSig := [], fwManifest := [] },
    pwr := { decTick := 0, decAt := 0, ackAt := 0, volt := 800, sentMv := 800, sentAt := none, hot := [], cool := [], trim := [], trimAt := [], life := [],
             tile := [], slack := [], ue := [], asked := [], lastReset := [], suspect := [], bringUp := [],
             rows := [], fwDie := none, fwAt := 0, fwLead := 0, fwNew := [],
             fwOld := [] },
    boot := { auto := 0, autoOff := 0, autoDly := 0, rom := [], healthy := [], lead := 0, edge := 0 },
    tap := { ir := List.replicate 8 2, bsr := List.replicate 1627 false, cr := 0, clamped := false },
    eth0 := none, eth1 := none, pcie0 := PcieSt.reset, pcie1 := PcieSt.reset,
    flash := [], marks := [], out := [], free := 0 }

end Sys2Proof.Machine
end

