-- ==== Sys2Proof/WellFormed.lean ====
section
/-!
DEFINITION. Well-formed commands: every die, tile, link, group, stack, port and master that a command names is one the
part has (Tables 0.4, 1.1, 9.10). A command that is not well formed names something that does not exist.
-/
namespace Sys2Proof

/-- A die, and the stack above it, 0 to 7. -/
def dieOk (d : Nat) : Bool := decide (d < 8)
/-- A tile of a die: physical 0 to 71, or 72 for the warden. -/
def tileOk (p : Nat) : Bool := decide (p < 73)
/-- A logical slot of a die, 0 to 63. -/
def slotOk (p : Nat) : Bool := decide (p < 64)
/-- A link, 0 to 511. -/
def linkOk (n : Nat) : Bool := decide (n < 512)
/-- A timing input, TM0 or TM1. -/
def inpOk (i : Nat) : Bool := decide (i < 2)
/-- A junction, 0 to 71. -/
def jOk (j : Nat) : Bool := decide (j < 72)
/-- A junction input: 0 to 3 the outbound channels of its tile, 4 N, 5 E, 6 S, 7 W. -/
def jinOk (i : Nat) : Bool := decide (i < 8)
/-- A junction output port: 0 L, 1 N, 2 E, 3 S, 4 W. -/
def outOk (o : Nat) : Bool := decide (o < 5)
/-- A link group of a die. -/
def grpOk (g : Nat) : Bool := decide (g < 4)
/-- An Ibrak link. -/
def ibkOk (l : Nat) : Bool := decide (l < 10)
/-- A direction of an Ibrak link: 0 from its first end of Table 9.5, 1 from its second. -/
def dirOk (d : Nat) : Bool := decide (d < 2)
/-- A lookup stream. -/
def strOk (s : Nat) : Bool := decide (s < 4)
/-- A management Ethernet port. -/
def portOk (p : Nat) : Bool := decide (p < 2)
/-- A PCI Express endpoint. -/
def epOk (e : Nat) : Bool := decide (e < 2)
/-- An inbound. -/
def inbOk (i : Nat) : Bool := decide (i < 8)
/-- A tamper source of SEC_TAMP_STAT, 0 to 4. -/
def tampOk (s : Nat) : Bool := decide (s < 5)
/-- A power domain of a die, 0 to 15, or 16 for its stack. -/
def domOk (i : Nat) : Bool := decide (i < 17)
/-- A master: control masters 0 to 4, warden 8 + d, readout engine 16 + d, window port 0x80 + 72 d + p of tile p of die d. -/
def masterOk (m : Nat) : Bool := decide (m < 5 ∨ (8 ≤ m ∧ m < 24) ∨ (0x80 ≤ m ∧ m < 0x80 + 576))

/-- A master that has a cursor window of its own (R586): the control masters and the wardens. -/
def curOk (m : Nat) : Bool := decide (m < 5 ∨ (8 ≤ m ∧ m < 16))
/-- A control master, which has mailboxes of its own (R538). -/
def mbOk (m : Nat) : Bool := decide (m < 5)
/-- A parcel of a stack (R479). -/
def parcelOk (p : Nat) : Bool := decide (p < 7635497415)

/-- Does the command name only what the part has? -/
def Instr.wf (i : Instr) : Bool :=
  match i with
  | .marker inp _ _ _ => inpOk inp
  | .markerMissing inp _ => inpOk inp
  | .tickset inp _ _ => inpOk inp
  | .accept inp _ _ => inpOk inp
  | .milestone => true
  | .registerWrite m _ _ => masterOk m
  | .pkgTimCommit m _ => masterOk m
  | .tileCommit m d p _ => masterOk m && dieOk d && tileOk p
  | .dieNetCommit m d _ => masterOk m && dieOk d
  | .dramCommit m d _ => masterOk m && dieOk d
  | .linkGcommit m d g _ => masterOk m && dieOk d && grpOk g
  | .linkCommit m n _ => masterOk m && linkOk n
  | .pwrCommit m _ => masterOk m
  | .tick0Read m => masterOk m
  | .pkgTimCntclr m _ => masterOk m
  | .netDataAccess m d _ _ => masterOk m && dieOk d
  | .rpdAccess m d _ _ => masterOk m && dieOk d
  | .tileSpData m d p _ _ => masterOk m && dieOk d && tileOk p
  | .dbellWrite m d p _ => masterOk m && dieOk d && tileOk p
  | .droplk m d p _ => masterOk m && dieOk d && tileOk p
  | .dropin m d p _ => masterOk m && dieOk d && tileOk p
  | .tileTcrWrite m d p _ => masterOk m && dieOk d && tileOk p
  | .poison m d p _ => masterOk m && dieOk d && tileOk p
  | .bundle d p _ => dieOk d && tileOk p
  | .repI d p => dieOk d && tileOk p
  | .repS d p => dieOk d && tileOk p
  | .loopI d p => dieOk d && tileOk p
  | .loopS d p _ => dieOk d && tileOk p
  | .seal d p => dieOk d && tileOk p
  | .signpostMacro d p => dieOk d && tileOk p
  | .trapEntry d p => dieOk d && tileOk p
  | .latebus d p => dieOk d && tileOk p
  | .toll d p => dieOk d && tileOk p
  | .doorbell d p => dieOk d && tileOk p
  | .migrate d p => dieOk d && tileOk p
  | .routineBegin d p => dieOk d && tileOk p
  | .waitmResume d p => dieOk d && tileOk p
  | .overrun d p => dieOk d && tileOk p
  | .skip d p => dieOk d && tileOk p
  | .abandon d p => dieOk d && tileOk p
  | .tollEvent d p => dieOk d && tileOk p
  | .storeRetire d p => dieOk d && tileOk p
  | .writeBack d p _ => dieOk d && tileOk p
  | .scrubStep d p => dieOk d && tileOk p
  | .dataSideAccess agent d p _ _ _ _ => masterOk agent && dieOk d && tileOk p
  | .dataSideTimeout agent d p _ _ => masterOk agent && dieOk d && tileOk p
  | .vaultWipe d _ => dieOk d
  | .vaultWipeEnd d => dieOk d
  | .flitForward d j inp out _ => dieOk d && jOk j && jinOk inp && outOk out
  | .inboundArrive d p inb => dieOk d && tileOk p && inbOk inb
  | .ibrakBlockReceive l dir _ => ibkOk l && dirOk dir
  | .retrain l => ibkOk l
  | .crossroadsTransaction m _ _ _ _ _ => masterOk m
  | .crossroadsTimeout m _ _ => masterOk m
  | .ioWindowAnswer d p => dieOk d && tileOk p
  | .lookupAnswer d p st => dieOk d && tileOk p && strOk st
  | .masterReset m _ => masterOk m
  | .xrdrain m => masterOk m
  | .load m => masterOk m
  | .loadDone => true
  | .arm m => masterOk m
  | .swap m => masterOk m
  | .discard m => masterOk m
  | .disarm m => masterOk m
  | .armAt => true
  | .disarmAt => true
  | .tileSwitch d p => dieOk d && tileOk p
  | .swapComplete => true
  | .detourConvergent d slot layby _ _ => dieOk d && slotOk slot && tileOk layby
  | .detourNonconvergent d slot layby _ => dieOk d && slotOk slot && tileOk layby
  | .stateCopyEnd d slot => dieOk d && slotOk slot
  | .ingressFrame n _ _ _ _ => linkOk n
  | .arrivalWindowClose n _ _ => linkOk n
  | .egressWriteArrive d p => dieOk d && tileOk p
  | .slotClose n => linkOk n
  | .egressFrameSend n => linkOk n
  | .slotToDelayArea n => linkOk n
  | .lockGain n _ => linkOk n
  | .lockloss n _ _ => linkOk n
  | .datagramSend n => linkOk n
  | .ethRxDiscard n => linkOk n
  | .historyWrite d g => dieOk d && grpOk g
  | .historyHold d => dieOk d
  | .readoutRequest d => dieOk d
  | .readoutServe d => dieOk d
  | .datagramHand d => dieOk d
  | .hostRingEntry d => dieOk d
  | .refresh d => dieOk d
  | .dramScrubStep d => dieOk d
  | .rowRepair d parcel _ => dieOk d && parcelOk parcel
  | .stackTollOver d _ => dieOk d
  | .dramRetire m d _ => masterOk m && dieOk d
  | .stacklost d _ => dieOk d
  | .stackReturn d => dieOk d
  | .rebuildEnd d => dieOk d
  | .pcieRead ep _ _ => epOk ep
  | .pcieWrite ep _ _ => epOk ep
  | .ethOpen port _ => portOk port
  | .ethClose port _ => portOk port
  | .ethKeepalive port _ => portOk port
  | .ethRead port _ => portOk port
  | .ethWrite port _ => portOk port
  | .ethDiscard port _ => portOk port
  | .sessionTimeout port => portOk port
  | .chal m => mbOk m
  | .claim m _ => mbOk m
  | .claimResult m => mbOk m
  | .renew m _ => masterOk m
  | .leaseExpiry => true
  | .handover m _ => masterOk m
  | .handoverWindowClose => true
  | .keySet m _ => masterOk m
  | .keyRemove m _ => masterOk m
  | .nonce m => mbOk m
  | .attest m => mbOk m
  | .lcreq m => mbOk m
  | .svn m => mbOk m
  | .attestKeyBegin => true
  | .attestKeyReady => true
  | .tamper src => tampOk src
  | .waymark d => dieOk d
  | .ringWrite d => dieOk d
  | .win0Read m => curOk m
  | .wchkRead m => curOk m
  | .oldest m _ => curOk m
  | .flush _ => true
  | .sectorErase _ => true
  | .pfw => true
  | .flasherr => true
  | .lead => true
  | .ceilingDown d => dieOk d
  | .ceilingUp => true
  | .modeChange => true
  | .voutCommand _ => true
  | .domainReady d dom => dieOk d && domOk dom
  | .domainTrip d dom => dieOk d && domOk dom
  | .pwrIbkret m _ => masterOk m
  | .ledgerAccrue d _ => dieOk d
  | .ledgerWrite => true
  | .monitorRead d _ => dieOk d
  | .tileRetire m _ => masterOk m
  | .retirementDetour d p _ => dieOk d && tileOk p
  | .fwUpdate m _ => masterOk m
  | .fwRejoinTimeout => true
  | .porstNRise => true
  | .porstNPulse => true
  | .startup _ => true
  | .autoarm => true
  | .pkgBootcfgWrite m _ => masterOk m
  | .dieBist m d _ => masterOk m && dieOk d
  | .dieBistDone d _ => dieOk d
  | .haltedTileReset d p => dieOk d && tileOk p
  | .extest _ => true
  | .samplePreload _ => true
  | .idcode => true
  | .tapClamp => true
  | .highz => true
  | .extestPulse _ => true
  | .extestTrain _ => true
  | .craccess _ => true
  | .bootstat => true
  | .intscan => true
  | .bypass => true
  | .tamperDeassert src => tampOk src
  | .pfwNRise => true
  | .ibrakTrainEnd l _ _ => ibkOk l
  | .ibrakBlockSend l dir _ => ibkOk l && dirOk dir
  | .tjSample d _ => dieOk d
  | .wardenRejoin d => dieOk d

end Sys2Proof
end

