-- ==== Sys2Proof/Machine/Ops.lean ====
section
/-!
DEFINITION. The named operations that every family shares: reading and writing registers under their access codes and
effect classes (spec/00_scope.md), waymarks, the protected granules of tile memories (spec/08_tile_memory.md) and the
state's own accessors.
-/
namespace Sys2Proof.Machine

/-- What a meaning answers. -/
abbrev Out := Host.Outcome State Fault Refusal

/-- Run an effect if the command names only what the part has, else stop. -/
def onPart (ok : Bool) (s : State) (f : State → State) : Out := if ok then .next (f s) else .fault .noSuchPart

/-- An effect on everything but the queue of commands that wait. -/
def State.keepQueue (s t : State) : State := { t with pending := s.pending }

/-- Run an effect on a part that is out of reset; with PORST_N low nothing happens (R629, log entry 2). -/
def live (ok : Bool) (s : State) (f : State → State) : Out :=
  onPart ok s (fun s => if s.held then s else s.keepQueue (f s))

/-! ## Registers by package word address -/

/-- Read a register word. -/
def State.rd (s : State) (k : Nat) : Word := SMap.get regReset s.regs k
/-- Write a register word. -/
def State.wr (s : State) (k : Nat) (v : Word) : State := { s with regs := SMap.set regReset s.regs k v }
/-- Read a field of a register word. -/
def State.rf (s : State) (k hi lo : Nat) : Nat := fld (s.rd k) hi lo
/-- Read a bit of a register word. -/
def State.rb (s : State) (k i : Nat) : Bool := bitOf (s.rd k) i
/-- Write a field of a register word. -/
def State.wf (s : State) (k hi lo v : Nat) : State := s.wr k (putFld (s.rd k) hi lo v)
/-- Write a bit of a register word. -/
def State.wb (s : State) (k i : Nat) (v : Bool) : State := s.wf k i i (natB v)
/-- Add to a counter field, saturating. -/
def State.bump (s : State) (k hi lo n : Nat) : State := s.wf k hi lo (satAdd (hi + 1 - lo) (s.rf k hi lo) n)
/-- Add to a whole-word counter that wraps. -/
def State.wrap (s : State) (k n : Nat) : State := s.wr k (s.rd k + wd n)

/-- PKG_TIM_CFG. -/
def aTimCfg : Nat := 0x40
/-- PKG_TIM_STAT. -/
def aTimStat : Nat := 0x42
/-- PKG_IMG_STAT. -/
def aImgStat : Nat := 0x84
/-- PKG_BOOT. -/
def aBoot : Nat := 0xC0
/-- A word of the SEC_ block. -/
def aSec (o : Nat) : Nat := 0x1_0000 + o
/-- A word of the OWN_ block. -/
def aOwn (o : Nat) : Nat := 0x2_0000 + o
/-- A word of the LOG_ block. -/
def aLog (o : Nat) : Nat := 0x3_0000 + o
/-- A word of the PWR_ block. -/
def aPwr (o : Nat) : Nat := 0x4_0000 + o
/-- A word of the DIE_ block of die d (Table 19.1). -/
def aDie (d o : Nat) : Nat := 0x1_0000_0000 + 0x2000_0000 * d + o
/-- A word of the DRAM_ block of die d. -/
def aDram (d o : Nat) : Nat := aDie d (0x1_0000 + o)
/-- A word of the group block of group g of die d. -/
def aGrp (d g o : Nat) : Nat := aDie d (0x2_0000 + 0x100 * g + o)
/-- A word of the link block of link n. -/
def aLink (n o : Nat) : Nat := aDie (n / 64) (0x3_0000 + 0x40 * (n % 64) + o)
/-- The package word address of tile I/O word o of physical tile p of die d. -/
def aTile (d p o : Nat) : Nat := 0x3_0000_0000 + 0x2000_0000 * d + 0x40_0000 * p + o
/-- The key of master m's own instance of a per-master word. -/
def aMine (m addr : Nat) : Nat := 0x400_0000_0000 + m * 0x1_0000_0000 + addr
/-- The key of a die network table word: entry, bank, SEL (R370). -/
def aNet (d sel bank entry : Nat) : Nat := 0x100_0000_0000 + ((d * 128 + sel) * 2 + bank) * 4096 + entry
/-- The key of word w of profile pf of die d (R496). -/
def aProf (d pf w : Nat) : Nat := 0x200_0000_0000 + (d * 64 + pf) * 4 + w

/-! ## Access codes and effect classes (R1 to R11) -/

/-- Does a field's new value name an encoding its table reserves (R4)? -/
def Field.isBad (f : Field) (v : Nat) : Bool := f.bad.any (fun r => decide (r.1 ≤ v ∧ v ≤ r.2))

/-- What a write does to a register: the word with its live fields changed, the masks of the commit and milestone
fields it reaches, the bits written to WO fields, and whether a field was refused (R4). -/
structure WrRes where
  val : Word
  commit : Word
  mile : Word
  act : Word
  refused : Bool
deriving DecidableEq, Repr

/-- One field of a write (Table 0.3). -/
def Field.write (f : Field) (w : Word) (r : WrRes) : WrRes :=
  let m := maskOf f.hi f.lo
  let v := fld w f.hi f.lo
  match f.acc with
  | .ro => r
  | .wo => { r with act := r.act ||| (w &&& m), refused := r.refused || f.isBad v }
  | .w1c => { r with val := r.val &&& ~~~(w &&& m) }
  | .w1s => { r with val := r.val ||| (w &&& m) }
  | _ =>
    if f.isBad v then { r with refused := true }
    else match f.cls with
      | .live => { r with val := (r.val &&& ~~~m) ||| (w &&& m) }
      | .milestone => { r with mile := r.mile ||| m }
      | .commit => { r with commit := r.commit ||| m }

/-- A write of w to a register whose word is cur. -/
def RegSpec.write (r : RegSpec) (cur w : Word) : WrRes :=
  r.fields.foldl (fun a f => f.write w a) ⟨cur, 0, 0, 0, false⟩

/-- Does the register hold an RW-S field (R285)? -/
def RegSpec.hasRws (r : RegSpec) : Bool := r.fields.any (fun f => f.acc == .rws)

/-- Stage a field value: the last write to a bit before it takes effect prevails (R6, R7). -/
def stageAdd (l : List Stage) (key : Nat) (mask val : Word) : List Stage :=
  if mask = 0 then l
  else match l with
    | [] => [⟨key, mask, val &&& mask⟩]
    | st :: r =>
      if st.key = key then ⟨key, st.mask ||| mask, (st.val &&& ~~~mask) ||| (val &&& mask)⟩ :: r
      else st :: stageAdd r key mask val

/-- Everything staged, moved after what a COMMIT already holds (R8). -/
def stageAll (going new : List Stage) : List Stage :=
  new.foldl (fun (g : List Stage) (st : Stage) => stageAdd g st.key st.mask st.val) going

/-- A word with a staged value in force. -/
def Stage.apply (st : Stage) (cur : Word) : Word := (cur &&& ~~~st.mask) ||| (st.val &&& st.mask)

/-! ## Waymarks and vectors -/

/-- TICKVALID. -/
def State.tickValid (s : State) : Bool := s.rb aTimStat 5

/-- Raise a waymark at this tick (R578); it waits until the die's logbook unit takes it. -/
def State.mark (s : State) (die kind index code : Nat) (d0 d1 d2 : Word) : State :=
  { s with marks := s.marks ++ [⟨die, kind, index, code, d0, d1, d2, s.tick, s.tickValid⟩] }

/-- Raise a waymark with a tick of its own (toll events, R578). -/
def State.markAt (s : State) (die kind index code : Nat) (d0 d1 d2 : Word) (t : Tick) : State :=
  { s with marks := s.marks ++ [⟨die, kind, index, code, d0, d1, d2, t, s.tickValid⟩] }

/-- Send something to the outside. -/
def State.emit (s : State) (e : Emit) : State := { s with out := s.out ++ [e] }

/-- An image is armed. -/
def State.armed (s : State) : Bool := s.img.armed.isSome

/-- SEC_LC.STATE. -/
def State.lc (s : State) : Nat := s.rf (aSec 0) 2 0

/-- May an EXTEST-class instruction be used: BLANK, VENDOR, or SERVICE with no image armed (Table 17.7)? -/
def State.extestOk (s : State) : Bool := s.lc == 0 || s.lc == 1 || (s.lc == 3 && !s.armed)

/-- An EXTEST-class instruction that the life-cycle state allows holds every output land (R650, R653). -/
def State.clamped (s : State) : Bool := s.tap.clamped && s.extestOk

/-- Send something on output lands: not while an EXTEST-class instruction makes them hold the boundary register's value
(R653). -/
def State.land (s : State) (e : Emit) : State := if s.clamped then s else s.emit e

/-- A PCI Express endpoint. -/
def State.pcie (s : State) (ep : Nat) : PcieSt := if ep = 0 then s.pcie0 else s.pcie1
/-- Put an endpoint back. -/
def State.setPcie (s : State) (ep : Nat) (x : PcieSt) : State := if ep = 0 then { s with pcie0 := x } else { s with pcie1 := x }
/-- Is a vector masked in the endpoint's MSI-X table (R528)? -/
def PcieSt.masked (x : PcieSt) (v : Nat) : Bool := bitOf (SMap.get msixReset x.table (16 * v + 12)) 0

/-- Send an MSI-X vector of one endpoint, or keep it pending behind its mask. -/
def State.vector (s : State) (ep v : Nat) : State :=
  let x := s.pcie ep
  if x.masked v then s.setPcie ep { x with pba := v :: x.pba.filter (fun u => u != v) } else s.land (.msix ep v)

/-- Send an MSI-X vector on both endpoints (R528). -/
def State.msix (s : State) (v : Nat) : State := (s.vector 0 v).vector 1 v

/-- The lead warden's die. -/
def State.lead (s : State) : Nat := s.boot.lead

/-- The 8-bit master code of DIE_XR_ESTAT.MASTER (Table 9.10). -/
def masterCode (m : Nat) : Nat :=
  if m < 16 then m else if m < 24 then 16 else 0x80 + (m - 0x80) % 72

/-- The die of a master (Table 1.1, R391). -/
def masterDie (m : Nat) : Nat :=
  if m < 4 then m else if m = 4 then 0 else if m < 16 then m - 8 else if m < 24 then m - 16 else (m - 0x80) / 72

/-- A refused write: DENIED names the master and the register (R2). -/
def State.denied (s : State) (m addr : Nat) (extra : Word) : State :=
  s.mark (masterDie m) 6 (masterCode m) 0x010 (wd (masterCode m)) (wd addr) extra

/-- The source that a register's own waymark names: the block the address lies in (Table 15.2). -/
def regSource (lead addr : Nat) : Nat × Nat × Nat :=
  if addr < 0x1_0000_0000 then
    (lead, if 0x3_0000 ≤ addr ∧ addr < 0x4_0000 then 7 else if 0x1_0000 ≤ addr ∧ addr < 0x2_0000 then 8 else 0, 0)
  else if addr < 0x2_0000_0000 then
    let d := addr % 0x1_0000_0000 / 0x2000_0000
    let o := addr % 0x2000_0000
    if 0x3_0000 ≤ o ∧ o < 0x4_0000 then (d, 2, 64 * d + (o - 0x3_0000) / 0x40)
    else if 0x1_0000 ≤ o ∧ o < 0x2_0000 then (d, 4, 0)
    else if 0x110 ≤ o ∧ o < 0x120 then (d, 5, (o - 0x110) / 4)
    else (d, 0, 0)
  else (addr % 0x1_0000_0000 / 0x2000_0000, 1, addr % 0x2000_0000 / 0x40_0000)

/-- A refused value: REFUSED names the register and the value (R4, Table 15.3). -/
def State.refuse (s : State) (addr : Nat) (v : Word) : State :=
  let (d, k, i) := regSource s.lead addr
  s.mark d k i 0x011 (wd addr) v 0

/-! ## Waymarks of one cycle (R582) -/

/-- Put a waymark before those of a later source. -/
def insertMark (x : Mark) : List Mark → List Mark
  | [] => [x]
  | m :: r => if (x.kind, x.index) = (m.kind, m.index) ∨ x.kind < m.kind ∨ (x.kind = m.kind ∧ x.index < m.index)
    then x :: m :: r else m :: insertMark x r

/-- The waymarks raised since s0 arose in one cycle: in increasing order of (KIND, INDEX), those of one source in the order
raised (R582). -/
def State.oneCycle (s s0 : State) : State :=
  let n := s0.marks.length
  { s with marks := s.marks.take n ++ (s.marks.drop n).foldr insertMark [] }

/-! ## Who may write (R2, R537) -/

/-- The steward's master code, 7 for none. -/
def State.steward (s : State) : Nat := s.rf (aOwn 0) 2 0

/-- Writes that act without stewardship: wardens, and window stores of tiles outside SEC_ and OWN_ (R537). -/
def State.mayWrite (s : State) (m addr : Nat) : Bool :=
  decide ((m < 5 ∧ (m = s.steward ∨ s.own.acting = some m)) ∨ (8 ≤ m ∧ m < 16) ∨ (0x80 ≤ m ∧ ¬ (0x1_0000 ≤ addr ∧ addr < 0x3_0000)))

/-! ## Tiles -/

/-- The key of a tile in State.tiles. -/
def tkey (d p : Nat) : Nat := d * 128 + p
/-- A physical tile. -/
def State.tile (s : State) (d p : Nat) : Tile := SMap.get (fun _ => Tile.reset) s.tiles (tkey d p)

/-- Move a tile's raised waymarks into the state's list, with their source and tick. -/
def ownMarks (d p : Nat) (t : Tick) (tv : Bool) (l : List Mark) : List Mark :=
  l.map (fun m => { m with die := d, kind := 1, index := p, tick := t, tv := tv })

/-- The uncorrectable findings since power-up with those among the marks added (R618, Table 16.6), saturating at 15. -/
def ueAdd (m : SMap Nat) (k : Nat) (l : List Mark) : SMap Nat :=
  SMap.set (fun _ => 0) m k (min 15 (SMap.get (fun _ => 0) m k + (l.filter (fun (x : Mark) => x.code = 0x041)).length))

/-- A tile becomes due for retirement: placed, it is due (by the steward: code 6); free, it is retired at once (R618,
R619). A warden is no tile to retire. -/
def PwrSt.makeDue (x : PwrSt) (k code : Nat) (placed : Bool) : PwrSt :=
  let now := SMap.get (fun _ => 0) x.tile k
  if k % 128 = 72 ∨ now = 3 ∨ now = 4 then x
  else { x with tile := SMap.set (fun _ => 0) x.tile k (if placed then max now code else 4) }

/-- Note the uncorrectable findings among a tile's waymarks: at UEMAX the tile is due (R618). -/
def PwrSt.noteUe (x : PwrSt) (k uemax : Nat) (placed : Bool) (l : List Mark) : PwrSt :=
  if l.any (fun (m : Mark) => m.code == 0x041) then
    let y := { x with ue := ueAdd x.ue k l }
    if uemax ≤ SMap.get (fun _ => 0) y.ue k then y.makeDue k 2 placed else y
  else x

/-- PWR_DSTATd: state of a power domain, 0 off. -/
def State.domainOn (s : State) (d i : Nat) : Bool := s.rf (aPwr (0x18 + d)) (2 * i + 1) (2 * i) == 2

/-- A firmware update is in progress (R625). -/
def State.updating (s : State) : Bool := s.rf (aPwr 0x62) 2 0 == 1 || s.rf (aPwr 0x62) 2 0 == 2

/-- Put a tile back, with the waymarks it raised. During an update no retirement starts (R625), and none on a die without a
healthy warden (R27). -/
def State.setTile (s : State) (d p : Nat) (t : Tile) : State :=
  { s with tiles := SMap.set (fun _ => Tile.reset) s.tiles (tkey d p) { t with marks := [] },
           marks := s.marks ++ ownMarks d p s.tick s.tickValid t.marks,
           pwr := s.pwr.noteUe (tkey d p) (s.rf (aPwr 0x48) 11 8) (t.placed || s.updating || !(s.boot.healthy.contains d)) t.marks }

/-- Change one tile. -/
def State.onTile (s : State) (d p : Nat) (f : Tile → Tile) : State := s.setTile d p (f (s.tile d p))

/-- Raise a waymark from within a tile. -/
def Tile.mark (t : Tile) (code : Nat) (d0 d1 d2 : Word) : Tile :=
  { t with marks := t.marks ++ [⟨0, 1, 0, code, d0, d1, d2, 0, false⟩] }

/-- Read a tile register. -/
def Tile.ior (t : Tile) (k : Nat) : Word := SMap.get Tile.ioReset t.io k
/-- Write a tile register. -/
def Tile.iow (t : Tile) (k : Nat) (v : Word) : Tile := { t with io := SMap.set Tile.ioReset t.io k v }
/-- Read a field of a tile register. -/
def Tile.iof (t : Tile) (k hi lo : Nat) : Nat := fld (t.ior k) hi lo
/-- Write a field of a tile register. -/
def Tile.iowf (t : Tile) (k hi lo v : Nat) : Tile := t.iow k (putFld (t.ior k) hi lo v)
/-- Add to a counter field of a tile register, saturating. -/
def Tile.bump (t : Tile) (k hi lo n : Nat) : Tile := t.iowf k hi lo (satAdd (hi + 1 - lo) (t.iof k hi lo) n)

/-- The word of a socket; p0 reads 1 (R119). -/
def Tile.sk (t : Tile) (a : Nat) : Word := if a = 0x20 then 1 else SMap.get (fun _ => 0) t.sock a
/-- The bits that a socket keeps: p1–p7 bit 0 (R119), ctl.flags bits [3:0] (R198), the progress sockets their fields
(Table 6.4), any other the whole word. -/
def skMask (a : Nat) : Word :=
  if 0x20 < a ∧ a < 0x28 then 1
  else if a = 0x32 then 15
  else if a = 0x86 ∨ a = 0x8E then 0x1FFFF
  else if a = 0xA8 then 0x3FFFFFFFF
  else 0xFFFFFFFFF

/-- Set a socket's word; p0 discards writes (R119). -/
def Tile.setSk (t : Tile) (a : Nat) (w : Word) : Tile :=
  if a = 0x20 then t else { t with sock := SMap.set (fun _ => 0) t.sock a (w &&& skMask a) }

/-- The TCR in force. -/
def Tile.tcr (t : Tile) : Word := t.ior 0
/-- P1? -/
def Tile.p1 (t : Tile) : Bool := bitOf t.tcr 0
/-- Delegated pilot? -/
def Tile.dlg (t : Tile) : Bool := !(bitOf t.tcr 0) && bitOf t.tcr 1

/-- The tick that ctl.tick reports (R125): the routine's, else the last milestone's. -/
def Tile.ctlTick (t : Tile) (now : Tick) : Tick := if t.inRtn then t.rtn else now

/-! ## The code (R338 to R343) -/

/-- The check bits of 72 data bits (R339). -/
def eccCheck (d : BitVec 72) : Nat := crcBits 16 0x4EAB 0 (bitsMsb 72 d.toNat)

/-- The codeword of 72 data bits. -/
def eccEncode (d : BitVec 72) : Gran := BitVec.ofNat 88 (d.toNat + 2 ^ 72 * eccCheck d)

/-- The data bits of a stored granule. -/
def granData (g : Gran) : BitVec 72 := BitVec.ofNat 72 g.toNat

/-- The syndrome of a stored granule (R340). -/
def eccSyn (g : Gran) : Nat := eccCheck (granData g) ^^^ fld g 87 72

/-- The poison mark over the data bits (R343). -/
def eccPoison (d : BitVec 72) : Gran := BitVec.ofNat 88 (d.toNat + 2 ^ 72 * (eccCheck d ^^^ 7))

/-- The syndromes of the flipped stored bits, from x^j on: check bits 0 to 15, then data bits 0 to 71. -/
def eccSteps : Nat → Nat → List Nat
  | 0, _ => []
  | n + 1, v => v :: eccSteps n (if 2 ^ 15 ≤ v then (2 * v) % 2 ^ 16 ^^^ 0x4EAB else 2 * v)

/-- Pairs (stored bit, syndrome); code memories store no data bits 64 to 71. -/
def eccBits (code : Bool) : List (Nat × Nat) :=
  ((List.range 88).zip (eccSteps 88 1)).filterMap (fun x =>
    let bit := if x.1 < 16 then 72 + x.1 else x.1 - 16
    if code ∧ 64 ≤ bit ∧ bit < 72 then none else some (bit, x.2))

/-- Granule classes (Table 8.5). -/
inductive Cls3 where
  | clean | corrected | poisoned | uncorrectable
deriving DecidableEq, Repr

/-- The pattern of one or two stored bits with a syndrome, if there is one. -/
def eccPattern (code : Bool) (syn : Nat) : Option (List Nat) :=
  let bs := eccBits code
  match bs.find? (fun b => b.2 = syn) with
  | some b => some [b.1]
  | none => bs.findSome? (fun b => (bs.find? (fun c => b.1 < c.1 ∧ b.2 ^^^ c.2 = syn)).map (fun c => [b.1, c.1]))

/-- Flip the data bits of a pattern back. -/
def flipBits (d : BitVec 72) (l : List Nat) : BitVec 72 :=
  l.foldl (fun a b => if b < 72 then a ^^^ BitVec.ofNat 72 (2 ^ b) else a) d

/-- The class of a stored granule and the data it delivers (R341). -/
def eccClass (code : Bool) (g : Gran) : Cls3 × BitVec 72 :=
  let s := eccSyn g
  let d := granData g
  if s = 0 then (.clean, d)
  else if s = 7 then (.poisoned, d)
  else match eccPattern code s with
    | some l => (.corrected, flipBits d l)
    | none => (.uncorrectable, d)

/-! ## Granules of a tile (R322 to R356) -/

/-- Memories: 0 main, 1 exchange, 2 instruction, 3 signpost, 4 vault. -/
def memCode (mem : Nat) : Bool := decide (mem = 2 ∨ mem = 3)

/-- Granules of a memory (Table 8.1). -/
def memSize (mem : Nat) : Nat :=
  match mem with
  | 0 => 16384
  | 1 => 2048
  | 2 => 8192
  | 3 => 1024
  | _ => 2048

/-- The key of granule idx of a memory: the halves of instruction memory and the signpost banks exchange their
addresses when the active half changes (R324, R178). -/
def Tile.gkey (t : Tile) (mem idx : Nat) : Nat :=
  if mem = 2 ∧ t.ihalf then mem * 0x4000 + (idx + 4096) % 8192
  else if mem = 3 ∧ t.sbank then mem * 0x4000 + (idx + 512) % 1024
  else mem * 0x4000 + idx

/-- A stored granule. -/
def Tile.gr (t : Tile) (mem idx : Nat) : Gran := SMap.get (fun _ => 0) t.gran (t.gkey mem idx)

/-- The armed mask for a write to a granule, 0 if it does not apply (R354). -/
def Tile.flipFor (t : Tile) (mem idx : Nat) : Gran :=
  if bitOf (t.ior 0x1B) 18 ∧ t.iof 0x1B 16 14 = mem ∧ (bitOf (t.ior 0x1B) 17 ∨ t.iof 0x1B 13 0 = idx) then
    let m : Gran := BitVec.ofNat 88
      ((t.ior 0x18).toNat + 2 ^ 36 * (t.ior 0x19).toNat + 2 ^ 72 * t.iof 0x1A 15 0)
    if memCode mem then m &&& BitVec.ofNat 88 (2 ^ 88 - 1 - 255 * 2 ^ 64) else m
  else 0

/-- Does an armed mask apply to a write to a granule? -/
def Tile.flipOn (t : Tile) (mem idx : Nat) : Bool :=
  decide (bitOf (t.ior 0x1B) 18 ∧ t.iof 0x1B 16 14 = mem ∧ (bitOf (t.ior 0x1B) 17 ∨ t.iof 0x1B 13 0 = idx))

/-- Clear FLIPMASK and ARM (R355). -/
def Tile.flipDone (t : Tile) : Tile := (((t.iow 0x18 0).iow 0x19 0).iow 0x1A 0).iowf 0x1B 18 18 0

/-- An encoded write of a granule: the mask is applied as it is stored and a waiting write-back is dropped. -/
def Tile.store (t : Tile) (mem idx : Nat) (g : Gran) : Tile :=
  let k := t.gkey mem idx
  let t2 := { t with gran := SMap.set (fun _ => 0) t.gran k (g ^^^ t.flipFor mem idx),
                     wb := t.wb.filter (fun (e : WbEntry) => e.key ≠ k) }
  if t.flipOn mem idx then t2.flipDone else t2

/-- The address that TILE_MEMELOG gives a granule: word address, or byte address in the code memories. -/
def memAddr (mem idx : Nat) : Nat :=
  match mem with
  | 0 => 2 * idx
  | 1 => 0x8000 + 2 * idx
  | 2 => 8 * idx
  | 3 => 8 * idx
  | _ => 0x9000 + 2 * idx

/-- The low bit of a memory's field in TILE_MEMCE and TILE_MEMUE. -/
def memFld (mem : Nat) : Nat := if mem = 1 then 12 else if memCode mem then 24 else 0

/-- Count and log a finding (R348); an uncorrectable one raises a waymark. -/
def Tile.found (t : Tile) (c : Cls3) (finder mem idx syn : Nat) : Tile :=
  let lo := memFld mem
  let cls := match c with
    | .corrected => 1
    | .uncorrectable => 2
    | _ => 3
  let t1 := match c with
    | .corrected => t.bump 0x11 (lo + 11) lo 1
    | .uncorrectable => (t.bump 0x12 (lo + 11) lo 1).mark 0x041 (wd (memAddr mem idx)) (wd mem) (wd syn)
    | _ => t
  let elog := memAddr mem idx + 2 ^ 16 * mem + 2 ^ 19 * cls + 2 ^ 21 * finder + 2 ^ 24
  (t1.iow 0x13 (wd elog)).iow 0x14 (wd syn)

/-- A corrected granule waits for its write-back (R345). agent: as WbEntry has it. -/
def Tile.queueWb (t : Tile) (k : Nat) (d : BitVec 72) (agent : Option Nat) : Tile :=
  { t with wb := t.wb.filter (fun (e : WbEntry) => e.key ≠ k) ++ [⟨k, d, agent⟩] }

/-- Read a granule under Table 8.6: what it delivers and whether it is marked. finder: TILE_MEMELOG.FINDER; patrol scrub
is agent 0x400 (R336). -/
def Tile.read (t : Tile) (finder mem idx : Nat) : Tile × BitVec 72 × Bool :=
  let g := t.gr mem idx
  let (c, d) := eccClass (memCode mem) g
  match c with
  | .clean => (t, d, false)
  | .corrected => ((t.found c finder mem idx (eccSyn g)).queueWb (t.gkey mem idx) d
      (if finder = 3 then some 0x400 else none), d, false)
  | .poisoned => (t.found c finder mem idx (eccSyn g), d, true)
  | .uncorrectable => ((t.found c finder mem idx (eccSyn g)).store mem idx (eccPoison d), d, true)

/-- Whole-granule write (R347). -/
def Tile.writeWhole (t : Tile) (mem idx : Nat) (d : BitVec 72) : Tile :=
  let t1 := if eccSyn (t.gr mem idx) = 7 then t.bump 0x16 35 18 1 else t
  t1.store mem idx (eccEncode d)

/-- Replace the bits of a mask. -/
def mergeBits (old mask new : BitVec 72) : BitVec 72 := (old &&& ~~~mask) ||| (new &&& mask)

/-- Narrow write by read-modify-write (R326, R331, R346). -/
def Tile.writePart (t : Tile) (finder mem idx : Nat) (mask d : BitVec 72) : Tile :=
  let g := t.gr mem idx
  let (c, old) := eccClass (memCode mem) g
  match c with
  | .clean => t.store mem idx (eccEncode (mergeBits old mask d))
  | .corrected => (t.found c finder mem idx (eccSyn g)).store mem idx (eccEncode (mergeBits old mask d))
  | .poisoned => (t.found c finder mem idx (eccSyn g)).bump 0x16 17 0 1
  | .uncorrectable => ((t.found c finder mem idx (eccSyn g)).store mem idx (eccPoison old)).bump 0x16 17 0 1

/-- The bit mask of a nonet mask over a granule (R239). -/
def nonetBits (m : Nat) : BitVec 72 :=
  BitVec.ofNat 72 ((List.range 8).foldl (fun a i => if (m >>> i) % 2 = 1 then a + 511 * 2 ^ (9 * i) else a) 0)

/-- All data bits of a granule of a memory. -/
def fullMask (mem : Nat) : BitVec 72 := if memCode mem then BitVec.ofNat 72 (2 ^ 64 - 1) else BitVec.allOnes 72

/-- Write under a mask, whole when it covers every data bit. -/
def Tile.write (t : Tile) (finder mem idx : Nat) (mask d : BitVec 72) : Tile :=
  if mask = fullMask mem then t.writeWhole mem idx d else t.writePart finder mem idx mask d

/-- The memory and granule of a physical data word address (R323). -/
def dataGran (p : Nat) : Nat × Nat :=
  if p < 0x8000 then (0, p / 2) else if p < 0x9000 then (1, (p - 0x8000) / 2) else (4, (p - 0x9000) / 2)

/-- The word of a granule at a word address. -/
def granWord (d : BitVec 72) (p : Nat) : Word := if p % 2 = 0 then wd d.toNat else wd (d.toNat / 2 ^ 36)

/-- A word placed at its half of a granule. -/
def wordBits (p : Nat) (w : Word) : BitVec 72 := BitVec.ofNat 72 (if p % 2 = 0 then w.toNat else w.toNat * 2 ^ 36)

/-- The mask of the word at an address. -/
def wordMask (p : Nat) : BitVec 72 := nonetBits (if p % 2 = 0 then 0x0F else 0xF0)

/-- Read the word at a physical data address. -/
def Tile.readWord (t : Tile) (finder p : Nat) : Tile × Word × Bool :=
  let (m, i) := dataGran p
  let (t1, d, bad) := t.read finder m i
  (t1, granWord d p, bad)

/-- Write the word at a physical data address. -/
def Tile.writeWord (t : Tile) (finder p : Nat) (w : Word) : Tile :=
  let (m, i) := dataGran p
  t.write finder m i (wordMask p) (wordBits p w)

/-- Byte b of a code-memory granule. -/
def granByte (d : BitVec 72) (a : Nat) : Nat := (d.toNat / 256 ^ (a % 8)) % 256

/-- Read a byte of a code memory without effect: none if its granule is poisoned or uncorrectable. -/
def Tile.peekByte (t : Tile) (mem a : Nat) : Option Nat :=
  let (c, d) := eccClass true (t.gr mem (a / 8))
  match c with
  | .clean => some (granByte d a)
  | .corrected => some (granByte d a)
  | _ => none

/-- The mask and data bits of bytes laid from byte address a within one granule. -/
def byteBits (a : Nat) (l : List Byte) : BitVec 72 × BitVec 72 :=
  (BitVec.ofNat 72 ((256 ^ l.length - 1) * 256 ^ (a % 8)), BitVec.ofNat 72 (leBytes l * 256 ^ (a % 8)))

/-- Write up to 8 bytes of a code memory from byte address a, one encoded write a granule. -/
def Tile.writeBytes (t : Tile) (finder mem a : Nat) (l : List Byte) : Tile :=
  let n := 8 - a % 8
  let b1 := byteBits a (l.take n)
  let b2 := byteBits 0 (l.drop n)
  let t1 := t.write finder mem (a / 8) b1.1 b1.2
  if l.length ≤ n then t1 else t1.write finder mem (a / 8 + 1) b2.1 b2.2

/-- Write whole granules of a code memory from a byte list, padded with zero bytes. -/
def Tile.loadBytes (t : Tile) (mem : Nat) : Nat → Nat → List Byte → Tile
  | 0, _, _ => t
  | n + 1, i, l => (t.writeWhole mem i (BitVec.ofNat 72 (leBytes (l.take 8)))).loadBytes mem n (i + 1) (l.drop 8)

/-! ## Parts kept per die, link and stack -/

/-- Per-die state. -/
def State.die (s : State) (d : Nat) : DieSt := SMap.get (fun _ => DieSt.reset) s.dies d
/-- Change per-die state. -/
def State.onDie (s : State) (d : Nat) (f : DieSt → DieSt) : State :=
  { s with dies := SMap.set (fun _ => DieSt.reset) s.dies d (f (s.die d)) }
/-- A link. -/
def State.link (s : State) (n : Nat) : LinkSt := SMap.get (fun _ => LinkSt.reset) s.links n
/-- Change a link. -/
def State.onLink (s : State) (n : Nat) (f : LinkSt → LinkSt) : State :=
  { s with links := SMap.set (fun _ => LinkSt.reset) s.links n (f (s.link n)) }
/-- A stack. -/
def State.stack (s : State) (d : Nat) : Stack := SMap.get (fun _ => Stack.reset) s.drams d
/-- Change a stack. -/
def State.onStack (s : State) (d : Nat) (f : Stack → Stack) : State :=
  { s with drams := SMap.set (fun _ => Stack.reset) s.drams d (f (s.stack d)) }
/-- A junction. -/
def State.junc (s : State) (d j : Nat) : Junction := SMap.get (fun _ => Junction.reset) s.juncs (d * 128 + j)
/-- Change a junction. -/
def State.onJunc (s : State) (d j : Nat) (f : Junction → Junction) : State :=
  { s with juncs := SMap.set (fun _ => Junction.reset) s.juncs (d * 128 + j) (f (s.junc d j)) }
/-- A direction of an Ibrak link. -/
def State.dir (s : State) (l dir : Nat) : IbkDir := SMap.get (fun _ => IbkDir.reset) s.ibk (2 * l + dir)
/-- Change a direction. -/
def State.onDir (s : State) (l dir : Nat) (f : IbkDir → IbkDir) : State :=
  { s with ibk := SMap.set (fun _ => IbkDir.reset) s.ibk (2 * l + dir) (f (s.dir l dir)) }
/-- A logbook unit. -/
def State.log (s : State) (d : Nat) : LogUnit := SMap.get (fun _ => LogUnit.reset) s.logs d
/-- Change a logbook unit. -/
def State.onLog (s : State) (d : Nat) (f : LogUnit → LogUnit) : State :=
  { s with logs := SMap.set (fun _ => LogUnit.reset) s.logs d (f (s.log d)) }

/-- The tick period in symbols. -/
def State.period (s : State) : Nat := s.rf aTimCfg 9 0

/-- An ARM is pending (R57). -/
def State.arming (s : State) : Bool := s.img.armAt.isSome
/-- The mode in force: 0 Endurance, 1 Standard, 2 Express. -/
def State.mode (s : State) : Nat := s.rf (aPwr 0) 4 3
/-- The clock of a mode in units of 0.2 GHz: 6, 7, 8. -/
def modeClk (m : Nat) : Nat := 6 + m
/-- The warden of die d is healthy. -/
def State.healthy (s : State) (d : Nat) : Bool := s.boot.healthy.contains d
/-- A tile has its clock: it is not retired (R621). -/
def State.clocked (s : State) (d p : Nat) : Bool := SMap.get (fun _ => 0) s.pwr.tile (tkey d p) != 4
/-- The next free value index. -/
def State.fresh (s : State) : State := { s with free := s.free + 1 }

end Sys2Proof.Machine
end

