-- ==== Sys2Proof/Machine/TileRegs.lean ====
section
/-!
DEFINITION. The tile I/O registers as the tile and the crossroads reach them: generic writes, TILE_DBELL, TILE_POP,
TILE_POISON, TILE_FLIPSEL, the window offsets, signpost store access and TILE_COMMIT (spec/03, 04, 06, 07, 08).
-/
namespace Sys2Proof.Machine

/-- The registers of a tile I/O word; TILE_VAULT exists on a warden only (R315, R361, R437). -/
def tileReg (p o : Nat) : Option (RegSpec × Nat) :=
  if o = 0x1E ∧ p ≠ 72 then none else findReg regsTile o

/-- Space n of region 0x3 of a tile at an address (Table 9.7). -/
def aTileSp (d p n a : Nat) : Nat := aTile d p (0x1_0000 * n + a)

/-- A write that names a reserved encoding: REFUSED (R4). -/
def Tile.refuse (t : Tile) (d p o : Nat) (w : Word) : Tile := t.mark 0x011 (wd (aTile d p o)) w 0

/-- Recompute ROFF of window w (R233): (OFF + STEP × tick) mod LEN. -/
def Tile.roffSet (t : Tile) (now : Tick) (w : Nat) : Tile :=
  let n := t.iof (0x20 + 2 * w) 28 16
  let v := if n = 0 then 0 else (t.iof (0x21 + 2 * w) 11 0 + t.iof (0x21 + 2 * w) 23 12 * (t.ctlTick now).toNat) % n
  { t with roff := SMap.set (fun _ => 0) t.roff w v }

/-- Recompute ROFF of every window. -/
def Tile.roffAll (t : Tile) (now : Tick) : Tile := (List.range 4).foldl (fun t w => t.roffSet now w) t

/-- Poison a granule (R349): its data, corrected where correctable, with the poison mark; no finding is counted. -/
def Tile.poisonGran (t : Tile) (mem idx : Nat) : Tile :=
  let c := eccClass (memCode mem) (t.gr mem idx)
  t.store mem idx (eccPoison c.2)

/-- Does a register word name a granule that the tile has (R356)? -/
def granNameOk (p : Nat) (w : Word) : Bool :=
  let mem := fld w 16 14
  decide ((mem < 4 ∨ (mem = 4 ∧ p = 72)) ∧ fld w 13 0 < memSize mem)

/-- A write of TILE_POISON (R349, R356). -/
def Tile.poisonWrite (t : Tile) (d p : Nat) (w : Word) : Tile :=
  if granNameOk p w then
    let t1 := t.iow 0x1C (w &&& 0x1FFFF)
    if bitOf w 17 then t1.poisonGran (fld w 16 14) (fld w 13 0) else t1
  else t.refuse d p 0x1C w

/-- A write of TILE_FLIPSEL (R354, R356). -/
def Tile.flipselWrite (t : Tile) (d p : Nat) (w : Word) : Tile :=
  if granNameOk p w then t.iow 0x1B (w &&& 0x7FFFF) else t.refuse d p 0x1B w

/-- A write of TILE_DBELL sets MSG and IPEND.DB (R304, Table 7.8). -/
def Tile.dbell (t : Tile) (w : Word) : Tile := (t.iow 0x08 w).iowf 0x07 0 0 1

/-- Drop the head word of a list for a port, if one waits. -/
def popPort (l : List WordAt) (port : Nat) : List WordAt :=
  match l with
  | [] => []
  | x :: r => if x.port = port then r else x :: popPort r port

/-- The head word of a port. -/
def headPort (l : List WordAt) (port : Nat) : Option WordAt := l.find? (fun x => x.port = port)

/-- TILE_POP.DROPLK: each 1 discards the head word of a lookup stream (R264). -/
def Tile.dropLk (t : Tile) (w : Word) : Tile :=
  { t with lkw := (List.range 4).foldl (fun l i => if bitOf w i then popPort l i else l) t.lkw }

/-- TILE_POP.DROPIN: each 1 discards the head word of an inbound (R281). -/
def Tile.dropIn (t : Tile) (w : Word) : Tile :=
  { t with inb := (List.range 8).foldl (fun l i => if bitOf w (4 + i) then popPort l i else l) t.inb }

/-- A write of TILE_COMMIT: GO stages everything written so far and sets PENDING (R7, R8, R10). -/
def Tile.commitGo (t : Tile) (w : Word) : Tile :=
  if bitOf w 0 then
    Tile.iowf { t with staged := [], going := stageAll t.going t.staged } 0x3F 1 1 1
  else t

/-- TILE_SP_ADDR's bank offset, and the offset in signpost memory where bank 0 is active (R192, R323). -/
def Tile.spOff (t : Tile) : Nat := 4096 * t.iof 0x40 12 12 + 4 * t.iof 0x40 11 2

/-- TILE_SP_ADDR advances by one after each access and wraps within the bank (R192). -/
def Tile.spNext (t : Tile) : Tile := t.iowf 0x40 11 2 ((t.iof 0x40 11 2 + 1) % 1024)

/-- A read of TILE_SP_DATA: four bytes little-endian, and whether the granule is marked. -/
def Tile.spRead (t : Tile) (finder : Nat) : Tile × Word × Bool :=
  let o := t.spOff
  let r := t.read finder 3 (o / 8)
  (r.1.spNext, wd ((r.2.1.toNat / 256 ^ (o % 8)) % 2 ^ 32), r.2.2)

/-- A write of TILE_SP_DATA (R192); into the active bank it counts as a store into the fetch window (R193). -/
def Tile.spWrite (t : Tile) (finder : Nat) (w : Word) : Tile :=
  let o := t.spOff
  let t1 := (t.writeBytes finder 3 o (toLe 4 (fld w 31 0))).spNext
  if o < 4096 then { t1 with patched := true } else t1

/-- A generic write of a tile register under its access codes and effect classes (R1 to R7). -/
def Tile.genWrite (t : Tile) (r : RegSpec) (d p o : Nat) (w : Word) : Tile :=
  let x := r.write (t.ior o) w
  let t1 := { t.iow o x.val with staged := stageAdd t.staged o x.commit w, mile := stageAdd t.mile o x.mile w }
  if x.refused then t1.refuse d p o w else t1

/-- A permitted write of a tile register other than TILE_TCR. finder: who finds what a signpost access meets. -/
def Tile.regWrite (t : Tile) (now : Tick) (d p o finder : Nat) (w : Word) : Tile :=
  if o = 0x08 then t.dbell w
  else if o = 0x1B then t.flipselWrite d p w
  else if o = 0x1C then t.poisonWrite d p w
  else if o = 0x2C then (t.dropLk w).dropIn w
  else if o = 0x3F then t.commitGo w
  else if o = 0x41 then t.spWrite finder w
  else match tileReg p o with
    | some (r, _) =>
      let t1 := t.genWrite r d p o w
      if 0x20 ≤ o ∧ o < 0x28 then t1.roffSet now ((o - 0x20) / 2) else t1
    | none => t

/-- A read of a tile register: value, and whether it is marked as poisoned. -/
def Tile.regRead (t : Tile) (o finder : Nat) : Tile × Word × Bool :=
  if o = 0x41 then t.spRead finder else (t, t.ior o, false)

end Sys2Proof.Machine
end

