-- ==== Sys2Proof/Machine/Env.lean ====
section
/-!
DEFINITION. What a tile sees of the rest of the part: its slot and logical number, its image, its ingress deposits,
the word count of a link, the table behind a handle, and the layout of a mesh flit (spec/06, 09, 10, 11, 12).
-/
namespace Sys2Proof.Machine

/-- DIE_PLACEs of a die. -/
def aPlace (d slot : Nat) : Nat := aDie d (0x140 + slot)
/-- The physical tile of a slot (R375). -/
def State.phys (s : State) (d slot : Nat) : Nat := s.rf (aPlace d slot) 6 0

/-- The detours in progress on a die. -/
def State.detoursOn (s : State) (d : Nat) : List Detour := SMap.get (fun _ => []) s.img.detours d

/-- The slot that a physical tile carries: the one DIE_PLACE gives it, or the one a detour brings to it or takes from it
(R375). -/
def State.slotOf (s : State) (d p : Nat) : Option Nat :=
  match (s.detoursOn d).find? (fun (x : Detour) => x.to_ = p ∨ x.from_ = p) with
  | some x => some x.slot
  | none => (List.range 64).find? (fun sl => s.phys d sl = p)

/-- The image that a tile runs: during a live swap the new one once it has switched, after it the old one on a tile that
has not left it yet (R428). -/
def State.tileImage (s : State) (d p : Nat) : Option Image :=
  if s.img.swapAt.isSome && s.img.switched.contains (tkey d p) then s.img.standby
  else if (s.tile d p).stopAt.isSome then s.img.leaving
  else s.img.armed

/-- The logical tile of a slot: 64 slots a die, or 32 pair slots a die under Rigor (R20, R604). -/
def logicalOf (rigor : Bool) (d slot : Nat) : Nat := if rigor then 32 * d + slot / 2 else 64 * d + slot

/-- The logical tile that a physical tile carries under an image. -/
def State.tileLogical (s : State) (d p : Nat) (im : Image) : Option Nat :=
  (s.slotOf d p).map (logicalOf im.rigor d)

/-- The pair partner of a tile under Rigor (R604): the tile of the other slot of its pair. -/
def State.partner (s : State) (d p : Nat) : Option Nat :=
  match s.tileImage d p with
  | some im => if im.rigor then (s.slotOf d p).map (fun sl =>
      let o := if sl % 2 = 0 then sl + 1 else sl - 1
      let l := s.detoursOn d
      match l.find? (fun (x : Detour) => x.slot = o) with
      | some y => if l.any (fun (x : Detour) => decide (x.slot = sl ∧ x.to_ = p)) then y.to_ else y.from_
      | none => s.phys d o) else none
  | none => none

/-- Is the tile the primary of its pair? -/
def State.isPrimary (s : State) (d p : Nat) : Bool :=
  match s.slotOf d p with
  | some sl => sl % 2 == 0
  | none => true

/-- The DEPOSIT records that name a logical tile, in image order; the deposit index of R275 (log entry 10). -/
def Image.depositsOf (im : Image) (lt : Nat) : List ImgDeposit :=
  im.deposits.filter (fun r => r.members.any (fun m => m.1 = lt))

/-- LINK_CFG of a link. -/
def State.linkCfg (s : State) (n hi lo : Nat) : Nat := s.rf (aLink n 0) hi lo
/-- The group of a link on its die. -/
def groupOf (n : Nat) : Nat := n % 64 / 16
/-- LINK_GCFG.RATE of a link: 1 = 10.3125 Gbaud. -/
def State.rate (s : State) (n : Nat) : Nat := s.rf (aGrp (n / 64) (groupOf n) 0) 0 0
/-- B of R450: whole net bits in a tick. -/
def netBits (period rate : Nat) : Nat := if rate = 0 then period * 625 / 8 else period * 125 / 4
/-- W of R450. -/
def frameWords (period rate : Nat) : Nat := min 16 ((netBits period rate - 24) / 36)
/-- The word count of a link (R450). -/
def State.linkW (s : State) (n : Nat) : Nat := frameWords s.period (s.rate n)

/-- LINK_STAT.W: the words of a frame in frame mode (R450), 0 in the other modes, as after reset (Table 11.9). -/
def State.wShown (s : State) (n : Nat) : Nat := if s.linkCfg n 1 0 = 1 then s.linkW n else 0

/-- A link is in service (R440); after its group has been switched on, only from the first milestone after its lock (R608,
Table 16.4; log entry 109). -/
def State.inService (s : State) (n : Nat) : Bool :=
  s.linkCfg n 1 0 == 1 && s.domainOn (n / 64) (9 + groupOf n) && !(s.link n).rising

/-- lnk.is for the tick that a tile processes (R275, Table 6.12). -/
def State.ingressStatus (s : State) (d p idx : Nat) (tick : Tick) : Word :=
  match s.tileImage d p with
  | none => 0
  | some im => match s.tileLogical d p im with
    | none => 0
    | some lt => match (im.depositsOf lt)[idx]? with
      | none => 0
      | some r => match (s.link r.link).rx.find? (fun (x : RxTick) => x.tick == tick) with
        | some x =>
          if x.status = 0 then wd (s.linkW r.link + 32 + 256 * natB x.fecc + 512 * (x.flags % 512))
          else if x.status = 1 then wd (s.linkW r.link + 64 + 256 * natB x.fecc + 512 * (x.flags % 512))
          else 128
        | none => 128

/-- The table that a handle names for a tile (R262, R502). -/
def State.tableOf (s : State) (d p handle : Nat) : Option ImgTable :=
  match s.tileImage d p with
  | none => none
  | some im => im.tables.find? (fun r => r.handle = handle)

/-! ## Flits (Table 9.2) -/

/-- Even parity bit of a number's n low bits. -/
def parityOf (n x : Nat) : Nat := popCount n x % 2

/-- Put DPAR and HPAR right. -/
def flitSeal (f : BitVec 72) : BitVec 72 :=
  let f1 := putFld f 37 37 (parityOf 37 f.toNat)
  putFld f1 71 71 (parityOf 33 (fld f1 70 38))

/-- A flit for a word. -/
def flitMake (w : Word) (poison : Bool) (epoch tick route ibank : Nat) : BitVec 72 :=
  flitSeal (BitVec.ofNat 72 (w.toNat + 2 ^ 36 * natB poison + 2 ^ 38 * (epoch % 256) + 2 ^ 46 * (tick % 4096)
    + 2 ^ 58 * (route % 4096) + 2 ^ 70 * (ibank % 2)))

/-- ROUTE of a flit. -/
def flitRoute (f : BitVec 72) : Nat := fld f 69 58
/-- IBANK of a flit. -/
def flitBank (f : BitVec 72) : Nat := fld f 70 70
/-- DPAR is wrong. -/
def flitDErr (f : BitVec 72) : Bool := parityOf 38 (fld f 37 0) != 0
/-- HPAR is wrong. -/
def flitHErr (f : BitVec 72) : Bool := parityOf 34 (fld f 71 38) != 0

/-- The slots of a logical tile on its die: one, or a pair under Rigor (R604). -/
def slotsOf (rigor : Bool) (lt : Nat) : Nat × List Nat :=
  if rigor then (lt / 32, [2 * (lt % 32), 2 * (lt % 32) + 1]) else (lt / 64, [lt % 64])

/-- Die of a logical tile. -/
def Image.dieOf (im : Image) (lt : Nat) : Nat := (slotsOf im.rigor lt).1

/-- The signpost bank of a TILE record; SPREC 255 names none (R405). -/
def Image.bankOf (im : Image) (x : ImgTile) : Option (List Byte) := if x.sprec = 255 then none else im.signposts[x.sprec]?

/-- The last value that a record's register pairs give a tile register; 0 if none names it. -/
def ImgTile.reg (x : ImgTile) (o : Nat) : Word :=
  match (x.regs.filter (fun (r : Nat × Word) => r.1 = o)).getLast? with
  | some r => r.2
  | none => 0

/-! ## Which image and which tiles a tick belongs to -/

/-- The image that tick N belongs to: the standby image from the AT of a pending ARM and from the tick of a swap on
(R428, R644), none from the AT of a DISARM on (R646), else the armed one. -/
def State.imageAt (s : State) (n : Tick) : Option Image :=
  match s.img.armAt, s.img.disarmAt with
  | some a, _ => if notEarlier n a then s.img.standby else s.img.armed
  | none, some a => if notEarlier n a then none else s.img.armed
  | none, none => match s.img.swapAt with
    | some a => if notEarlier n a then s.img.standby else s.img.armed
    | none => s.img.armed

/-- Does tick N of a physical tile belong to the standby image: from the AT of a pending ARM on, and from the tick of a swap
on (R428, R644)? No swap is carried out on a die without a healthy warden, where a tile that has not followed it stays with
the armed image (R26, R27). -/
def State.newOn (s : State) (d p : Nat) (n : Tick) : Bool :=
  match s.img.armAt with
  | some a => notEarlier n a
  | none => match s.img.swapAt with
    | some a => notEarlier n a && (s.healthy d || s.img.switched.contains (tkey d p))
    | none => false

/-- The image that other ticks belong to: the armed one, none from the AT of a DISARM on (R646). -/
def State.oldImage (s : State) (n : Tick) : Option Image :=
  match s.img.disarmAt with
  | some a => if notEarlier n a then none else s.img.armed
  | none => s.img.armed

/-- The image that tick N belongs to on a physical tile. -/
def State.imageOn (s : State) (d p : Nat) (n : Tick) : Option Image :=
  if s.newOn d p n then s.img.standby else s.oldImage n

/-- The physical tiles that a slot's deposits of tick N go to (R434, R435). -/
def State.tilesFor (s : State) (d slot : Nat) (n : Tick) : List Nat :=
  match (s.detoursOn d).find? (fun (x : Detour) => x.slot = slot) with
  | some x =>
    if notEarlier n x.switch then [x.to_] else if notEarlier n x.start then [x.from_, x.to_] else [x.from_]
  | none => [s.phys d slot]

/-- Has every DEPOSIT record that brings words of a tick to a tile reported that tick: are its deposits written (R77)? Of a
tick long past they are. -/
def State.depositsIn (s : State) (d p : Nat) (n : Tick) : Bool :=
  match s.imageOn d p n with
  | none => true
  | some im => im.deposits.all (fun (r : ImgDeposit) =>
      match r.members[n.toNat % 2 ^ r.kc]? with
      | none => true
      | some m =>
        let ds := slotsOf im.rigor m.1
        !(ds.1 == d && (ds.2.flatMap (fun sl => s.tilesFor d sl n)).contains p) ||
          (s.link r.link).rx.any (fun (x : RxTick) => x.tick == n)) || decide (256 ≤ (s.tick - n).toNat)

/-! ## Words at the start of their route (R371, R377) -/

/-- A flit as it reaches an input of junction j of die d: it is served under the forwarding entry that stands then (R371). -/
def State.flitIn (s : State) (d j port : Nat) (f : BitVec 72) : FlitAt :=
  ⟨port, f, 0, some (s.rd (aNet d j (flitBank f) (flitRoute f)))⟩

/-- Does a flit enter its route here: from its tile, at the junction at which a valid descriptor starts (R377)? -/
def State.enters (s : State) (d j inp : Nat) (x : FlitAt) : Bool :=
  let de := s.rd (aNet d 127 (flitBank x.flit) (flitRoute x.flit))
  decide (inp < 4) && bitOf de 0 && fld de 23 17 == j

/-- The key of a route's count in the tick. -/
def routeKey (x : FlitAt) : Nat := 4096 * flitBank x.flit + flitRoute x.flit

/-- The start junction has admitted fewer words of the route in this tick than ALLOW (R377). -/
def State.allowsWord (s : State) (d : Nat) (x : FlitAt) : Bool :=
  decide (SMap.get (fun _ => 0) (s.die d).allow (routeKey x)
    < fld (s.rd (aNet d 127 (flitBank x.flit) (flitRoute x.flit))) 12 1)

/-- A word counts in the tick of its start junction. -/
def State.countWord (s : State) (d : Nat) (x : FlitAt) : State :=
  s.onDie d (fun y =>
    let n := SMap.get (fun _ => 0) y.allow (routeKey x)
    { y with allow := SMap.set (fun _ => 0) y.allow (routeKey x) (n + 1) })

/-- The words of a tile's outbound channels that its junction admits under their routes' allowances now, in order: they count
in the tick in which they reach it, a word held beyond an allowance in a later one (R377). -/
def State.reach (s : State) (d p : Nat) : State :=
  let r := (s.tile d p).outc.foldl (fun (q : State × List FlitAt) x =>
    if q.1.enters d p x.port x && x.taken / 32 % 2 == 0 && q.1.allowsWord d x then
      (q.1.countWord d x, q.2 ++ [{ x with taken := x.taken + 32 }])
    else (q.1, q.2 ++ [x])) (s, [])
  r.1.onTile d p (fun t => { t with outc := r.2 })

end Sys2Proof.Machine
end

