-- ==== Sys2Proof/Machine/Units.lean ====
section
/-!
DEFINITION. The units of a tile as functions of the tile alone: reading a socket, data space and its windows, the
store buffer, ls, im, io, lk, lnk and msh operations, and the tol counts (spec/06_load_lookup_link_mesh_units.md).
-/
namespace Sys2Proof.Machine

/-! ## Privilege levels (R284) -/

/-- The level of a TCR value: 2 pilot, 1 delegated pilot, 0 service (R311). -/
def tcrLevel (w : Word) : Nat := if bitOf w 0 then 0 else if bitOf w 1 then 1 else 2
/-- The level in force. -/
def Tile.level (t : Tile) : Nat := tcrLevel t.tcr

/-- The TCR as the tile may hold it: reserved bits 0, RIG only with a partner (Table 7.1). -/
def tcrMask (partner : Bool) (w : Word) : Word :=
  let v := w &&& 0x0FFFF3FFF
  if partner then v else putFld v 7 7 0

/-- TCR as a read finds it: RIG reads 0 on a tile that has no partner (Table 7.1). -/
def tcrShow (partner : Bool) (w : Word) : Word := if partner then w else putFld w 7 7 0

/-- Set the TCR in force. -/
def Tile.setTcr (t : Tile) (partner : Bool) (w : Word) : Tile := t.iow 0 (tcrMask partner w)

/-- A new bundle's step of the TCR writes on their way (R289, R291). -/
def Tile.tcrStep (t : Tile) (partner : Bool) : Tile :=
  let t1 := (t.tcrQ.filter (fun e => e.2 ≤ 1)).foldl (fun (t : Tile) (e : Word × Nat) => t.setTcr partner e.1) t
  { t1 with tcrQ := (t.tcrQ.filter (fun e => 1 < e.2)).map (fun e => (e.1, e.2 - 1)) }

/-- The value a write of TCR leaves, made at a level: delegated pilot keeps DLG, DLGE, HBASE and RIG (R286). -/
def Tile.tcrNew (t : Tile) (lvl : Nat) (w : Word) : Word :=
  let cur := match t.tcrQ.getLast? with
    | some e => e.1
    | none => t.tcr
  let m : Word := 0x3F86
  if lvl = 1 then (w &&& ~~~m) ||| (cur &&& m) else w

/-- Queue a write of TCR made by this bundle. -/
def Tile.tcrWrite (t : Tile) (lvl : Nat) (w : Word) : Tile := { t with tcrQ := t.tcrQ ++ [(t.tcrNew lvl w, 2)] }

/-! ## Tolls (R282, R414, R415) -/

/-- A toll event word (Table 10.4). -/
def tollWord (kind : Nat) (tick : Tick) (behind : Nat) : Word :=
  wd (kind + 16 * (tick.toNat % 4096) + 65536 * (min behind 255))

/-- Queue a toll event for the warden. -/
def Tile.tollEvent (t : Tile) (kind : Nat) (tick : Tick) (behind : Nat) : Tile :=
  { t with evq := t.evq ++ [tollWord kind tick behind] }

/-- A signed count after a charge, saturating at -2^35. -/
def tollSub (w : Word) (n : Nat) : Word := wdI (max (w.toInt - n) (-(2 ^ 35)))

/-- Charge cycles of the routine in progress. -/
def Tile.chargeCyc (t : Tile) (n : Nat) : Tile :=
  if t.inRtn then
    let v := tollSub (t.sk 0xD0) n
    let t1 := { t.setSk 0xD0 v with used := t.used + n }
    if bitOf v 35 && !t.evCyc then { t1 with evCyc := true }.tollEvent 1 t.rtn 0 else t1
  else t

/-- Charge one access, and bytes for a look (R414). -/
def Tile.chargeAcc (t : Tile) (bytes : Nat) : Tile :=
  if t.inRtn then
    let a := tollSub (t.sk 0xD1) 1
    let b := tollSub (t.sk 0xD2) bytes
    let t1 := (t.setSk 0xD1 a).setSk 0xD2 b
    let t2 := if bitOf a 35 && !t.evAcc then { t1 with evAcc := true }.tollEvent 2 t.rtn 0 else t1
    if bitOf b 35 && !t.evByt then { t2 with evByt := true }.tollEvent 3 t.rtn 0 else t2
  else t

/-- Is a look held when it is issued (R414)? -/
def Tile.lookHeld (t : Tile) : Bool := t.inRtn && (bitOf (t.sk 0xD1) 35 || bitOf (t.sk 0xD2) 35)
/-- Is a window access held when it is issued? -/
def Tile.winHeld (t : Tile) : Bool := t.inRtn && bitOf (t.sk 0xD1) 35

/-! ## Data space (R231 to R235) -/

/-- map(e): the physical word address, or none for RANGE; only a warden reaches the vault, and only directly (R357). -/
def Tile.map (warden : Bool) (t : Tile) (e : Nat) : Option Nat :=
  if 0xFFFF < e then none
  else if 0xC000 ≤ e then
    let k := (e - 0xC000) / 4096
    let b := t.iof (0x20 + 2 * k) 15 0
    let n := t.iof (0x20 + 2 * k) 28 16
    if n = 0 ∨ 0x8FFF < b + n - 1 ∨ (b < 0x8000 ∧ 0x8000 ≤ b + n - 1) then none
    else some (b + (SMap.get (fun _ => 0) t.roff k + e % 4096) % n)
  else if e < 0x9000 ∨ (warden ∧ e < 0xA000) then some e
  else none

/-- The granule access of an even address (R232): the physical even word address. -/
def Tile.map2 (warden : Bool) (t : Tile) (e : Nat) : Option Nat :=
  match t.map warden e, t.map warden (e + 1) with
  | some a, some b => if e % 2 = 0 ∧ a % 2 = 0 ∧ b = a + 1 then some a else none
  | _, _ => none

/-- (A + T) mod 2^36 (R230). -/
def effAddr (a w : Word) : Nat := (a + w).toNat

/-! ## The store buffer (R239 to R243) -/

/-- The nonets of a granule that mask bits name: a word store's four nonets at its half. -/
def nonetSet (p m : Nat) : BitVec 8 := BitVec.ofNat 8 (if p % 2 = 0 then m else 16 * m)

/-- Retire the head entry (R241): a whole granule, or a merge. -/
def Tile.sbRetire (t : Tile) : Tile :=
  match t.sb with
  | [] => t
  | e :: r =>
    let x := dataGran (2 * e.gran)
    { t with sb := r }.write 1 x.1 x.2 (nonetBits e.mask.toNat) e.data

/-- An entry that cannot retire: it lies in the vault, and the wipe takes the store slots (R359). -/
def Tile.sbBlocked (t : Tile) (e : SbEntry) : Bool := decide (0x9000 ≤ 2 * e.gran) && bitOf (t.ior 0x1E) 0

/-- Retire the first n entries. -/
def Tile.sbDrain : Nat → Tile → Tile
  | 0, t => t
  | n + 1, t => Tile.sbDrain n t.sbRetire

/-- Of the first n entries, retire those that have retired for an access that issues at c (R241). -/
def Tile.sbUntil (c : Nat) : Nat → Tile → Tile
  | 0, t => t
  | n + 1, t => match t.sb with
    | e :: _ => if e.due ≤ c ∧ t.sbBlocked e = false then Tile.sbUntil c n t.sbRetire else t
    | [] => t

/-- The tile as an access that issues at c finds it: the buffered stores that are due have retired (R241). -/
def Tile.sbAt (t : Tile) (c : Nat) : Tile := Tile.sbUntil c t.sb.length t

/-- Is some buffered store held back by a wipe? -/
def Tile.sbHeld (t : Tile) : Bool := t.sb.any (fun (e : SbEntry) => t.sbBlocked e)

/-- Cycles from c until every buffered store has retired, at most 2 for each (R241). -/
def Tile.sbLeft (t : Tile) (c : Nat) : Nat := match t.sb.getLast? with
  | some e => min (2 * t.sb.length) (e.due - c)
  | none => 0

/-- A store that issues at c enters the buffer, merging into the youngest entry where R240 lets it. -/
def Tile.sbPush (t : Tile) (p m : Nat) (w : Word) (c : Nat) : Tile :=
  let mask := nonetSet p m
  let bits := nonetBits mask.toNat
  let d := wordBits p w
  match t.sb.getLast? with
  | some e =>
    if e.gran = p / 2 ∧ (e.born = t.bid ∨ 1 < t.sb.length) then
      { t with sb := t.sb.dropLast ++ [{ e with mask := e.mask ||| mask, data := mergeBits e.data bits d }] }
    else { t with sb := t.sb ++ [⟨p / 2, mask, d &&& bits, t.bid, max c e.due + 2⟩] }
  | none => { t with sb := [⟨p / 2, mask, d &&& bits, t.bid, c + 2⟩] }

/-- The youngest entry that a load's nonets meet (R242). -/
def Tile.sbMeet (t : Tile) (p : Nat) (need : BitVec 8) : Option SbEntry :=
  t.sb.reverse.find? (fun (e : SbEntry) => e.gran = p / 2 ∧ e.mask &&& need ≠ 0)

/-- A load that issues at c takes a granule for the nonets it needs: from the buffer where the youngest entry they meet
covers them, else from memory. It waits for an entry that covers only part; the cycle in which it goes to memory comes with
the granule (R242). -/
def Tile.loadGran (t : Tile) (p : Nat) (need : BitVec 8) (c : Nat) : Tile × BitVec 72 × Bool × Nat :=
  let x := dataGran p
  match t.sbMeet p need with
  | some e =>
    if e.mask &&& need = need then (t, e.data, false, c)
    else
      let c1 := max c e.due
      let (t1, d, bad) := (t.sbAt c1).read 0 x.1 x.2
      (t1, d, bad, c1)
  | none =>
    let (t1, d, bad) := t.read 0 x.1 x.2
    (t1, d, bad, c)

/-! ## Marked sockets (R238) -/

/-- Set a result socket and its poison mark. -/
def Tile.setRes (t : Tile) (a : Nat) (w : Word) (bad : Bool) : Tile :=
  let t1 := t.setSk a w
  { t1 with psn := if bad then a :: t.psn.filter (fun x => x ≠ a) else t.psn.filter (fun x => x ≠ a) }

/-! ## What a socket offers (Table 6.12) -/

/-- Words of a stream requested and not yet popped (R262). -/
def Tile.lkHeld (t : Tile) (s : Nat) : Nat :=
  (t.lkReq.filter (fun (r : LkReq) => r.stream = s)).foldl (fun a (r : LkReq) => a + r.left) 0
    + (t.lkw.filter (fun (x : WordAt) => x.port = s)).length
    + t.rig.foldl (fun a (x : OutWord) => match x with
      | .look r => if r.stream = s then a + r.left else a
      | _ => a) 0

/-- Words that wait at a port. -/
def waiting (l : List WordAt) (port : Nat) : Nat := (l.filter (fun (x : WordAt) => x.port = port)).length

/-- An outbound channel has no free place: its slip channel holds 4 words (R74). -/
def Tile.chFull (t : Tile) (k : Nat) : Bool :=
  decide (4 ≤ (t.outc.filter (fun (f : FlitAt) => f.port = k)).length +
    (t.rig.filter (fun (x : OutWord) => match x with
      | .mesh c _ => c = k
      | _ => false)).length)

/-- A window load whose answer io.r waits for. -/
def Tile.ioWait (t : Tile) : Bool :=
  t.port.any (fun (r : PortReq) => !r.store && !r.drop) || t.rig.any (fun (x : OutWord) => match x with
    | .win r => !r.store && !r.drop
    | _ => false)

/-- Some window load has not answered (Table 6.12). -/
def Tile.loadsOut (t : Tile) : Bool :=
  t.port.any (fun (r : PortReq) => !r.store) || t.rig.any (fun (x : OutWord) => match x with
    | .win r => !r.store
    | _ => false)

/-- A later io load discards the answers of the earlier ones (R259). -/
def Tile.dropLoads (t : Tile) : Tile :=
  { t with port := t.port.map (fun (r : PortReq) => if r.store then r else { r with drop := true }),
           rig := t.rig.map (fun (x : OutWord) => match x with
             | .win r => .win (if r.store then r else { r with drop := true })
             | y => y) }

/-- The egress slip channel of R271 has no free place: it holds 4 words (R74). -/
def Tile.egFull (t : Tile) : Bool :=
  decide (4 ≤ t.eg.length + (t.rig.filter (fun (x : OutWord) => match x with
      | .eg _ => true
      | _ => false)).length)

/-- The slot of a handle, as link and tick (R268, R269); none if the handle is not bound. -/
def Tile.slotAt (t : Tile) (h : Nat) (now : Tick) : Option (Nat × Tick) :=
  if bitOf (t.ior (0x58 + h)) 9 then some (t.iof (0x58 + h) 8 0, t.ctlTick now) else none

/-- Is the slot of a handle in a list? -/
def Tile.slotIn (t : Tile) (l : List (Nat × Tick)) (h : Nat) (now : Tick) : Bool :=
  match t.slotAt h now with
  | some x => l.contains x
  | none => false

/-- A slot added to a list. -/
def slotAdd (l : List (Nat × Tick)) (x : Nat × Tick) : List (Nat × Tick) := if l.contains x then l else l ++ [x]

/-- lk.st. -/
def Tile.lkSt (t : Tile) : Word :=
  wd (waiting t.lkw 0 + 32 * waiting t.lkw 1 + 1024 * waiting t.lkw 2 + 32768 * waiting t.lkw 3)
/-- msh.st. -/
def Tile.mshSt (t : Tile) : Word :=
  wd (bitsFrom 8 (fun i => decide (0 < waiting t.inb i)) + 256 * bitsFrom 4 (fun k => t.chFull k))

/-- A value offered at the issue of a bundle: word and poison mark. pend: cycles the bundle stalled before it issued. -/
def State.srcVal (s : State) (d p : Nat) (t : Tile) (pend : Nat) (a : Nat) : Word × Bool :=
  if a = 0x2D then (wd t.pc, false)
  else if a = 0x2E then (tcrShow (s.partner d p).isSome t.tcr, false)
  else if a = 0x33 then (wd (t.ctlTick s.tick).toNat, false)
  else if a = 0x87 ∨ a = 0x8F then (wd t.sb.length, false)
  else if a = 0x94 then (wd (natB t.loadsOut + 2 * t.port.length), false)
  else if 0xA3 ≤ a ∧ a ≤ 0xA6 then
    match headPort t.lkw (a - 0xA3) with
    | some x => (x.w, x.bad)
    | none => (0, false)
  else if a = 0xA9 then (t.lkSt, false)
  else if a = 0xB3 then
    (wd (bitsFrom 8 (fun h => t.slotIn t.cpl h s.tick) + 256 * bitsFrom 8 (fun h => t.slotIn t.wr h s.tick)), false)
  else if a = 0xB5 then (s.ingressStatus d p (fld (t.sk 0xB4) 3 0) (t.ctlTick s.tick), false)
  else if 0xC4 ≤ a ∧ a ≤ 0xCB then
    match headPort t.inb (a - 0xC4) with
    | some x => (x.w, x.bad)
    | none => (0, false)
  else if a = 0xCC then (t.mshSt, false)
  else if a = 0xCD then (wd t.epoch, false)
  else if a = 0xD0 ∧ t.inRtn then (tollSub (t.sk 0xD0) pend, false)
  else if a = 0xD4 ∧ t.inRtn then (wd t.skp, false)
  else (t.sk a, t.psn.contains a)

/-- The value that a move carries: its source's, or its immediate. -/
def State.moveVal (s : State) (d p : Nat) (t : Tile) (pend : Nat) (m : Move) : Word × Bool :=
  if 0xE0 ≤ m.src then (m.imm, false) else s.srcVal d p t pend m.src

/-- Remove the head words of the pop sockets read, each once (R102). -/
def Tile.pops (t : Tile) (l : List Nat) : Tile :=
  { t with lkw := (List.range 4).foldl (fun q i => if l.contains (0xA3 + i) then popPort q i else q) t.lkw,
           inb := (List.range 8).foldl (fun q i => if l.contains (0xC4 + i) then popPort q i else q) t.inb }

/-- A pop socket with nothing to pop. -/
def Tile.popEmpty (t : Tile) (a : Nat) : Bool :=
  if 0xA3 ≤ a ∧ a ≤ 0xA6 then waiting t.lkw (a - 0xA3) == 0
  else if 0xC4 ≤ a ∧ a ≤ 0xCB then waiting t.inb (a - 0xC4) == 0
  else false

/-! ## Ready times (R110, Table 3.4) -/

/-- The key under which a socket's ready time is kept: its unit; the accumulator of a mac has its own. -/
def readyKey (a : Nat) : Nat :=
  if a < 0x38 ∨ 0xA0 ≤ a then 0x200
  else if 0x58 ≤ a ∧ a < 0x68 then
    let o := a % 8
    if o = 2 ∨ o = 3 then 0x100 + a / 8 else if o < 2 then 0x200 else a / 8
  else
    match sockKind a with
    | some .r => if a = 0x87 ∨ a = 0x8F ∨ a = 0x94 then 0x200 else a / 8
    | _ => 0x200

/-- The cycle from which a socket reads without stall. -/
def Tile.readyAt (t : Tile) (a : Nat) : Nat :=
  if a = 0x32 then t.flagReady
  else if readyKey a = 0x200 then 0 else SMap.get (fun _ => 0) t.ready (readyKey a)

/-- Set a ready time. -/
def Tile.setReady (t : Tile) (k c : Nat) : Tile := { t with ready := SMap.set (fun _ => 0) t.ready k c }

/-! ## Operations -/

/-- What a trigger does. -/
structure Fx where
  tile : Tile
  outs : List OutWord
deriving DecidableEq, Repr

/-- A trap raised by a trigger: code and SINFO. -/
abbrev FxRes := Except (Nat × Nat) Fx

/-- An effect on the tile alone. -/
def fxOk (t : Tile) : FxRes := .ok ⟨t, []⟩
/-- RANGE with the value that failed. -/
def fxRange (v : Nat) : FxRes := .error (4, v)

/-- The nonets that a load needs of its granule (R242). -/
def loadNonets (op p : Nat) : BitVec 8 :=
  if op = 2 then 0xFF else nonetSet p (if op = 0 then 15 else 2 ^ (op % 4))

/-- The ls operations but bcopy (R236, Table 6.2); b the unit's base socket. -/
def Tile.lsOp (warden : Bool) (t : Tile) (b op c : Nat) (w : Word) : FxRes :=
  let e := effAddr (t.sk b) w
  if op = 2 then
    match t.map2 warden e with
    | none => fxRange e
    | some p =>
      let (t1, d, bad, c1) := t.loadGran p 0xFF c
      fxOk (((t1.setRes (b + 3) (granWord d 0) bad).setRes (b + 4) (granWord d 1) bad).setReady (b / 8) (c1 + 2))
  else
    match t.map warden e with
    | none => fxRange e
    | some p =>
      if 0x21 ≤ op then fxOk (t.sbPush p (op - 0x20) (t.sk (b + 1)) c)
      else
        let k := op % 4
        let (t1, d, bad, c1) := t.loadGran p (loadNonets op p) c
        let x := granWord d p
        let v := if op = 0 then x else if op < 8 then wd (nonet x k) else sxWord 9 (nonet x k)
        fxOk ((t1.setRes (b + 3) v bad).setReady (b / 8) (c1 + 2))

/-- n bytes of instruction memory from byte e, the granules read, and whether one is marked (R253, Table 8.6). -/
def Tile.imBytes (t : Tile) (e n : Nat) : Tile × Nat × Bool :=
  let (t1, d1, b1) := t.read 2 2 (e / 8)
  let k := min n (8 - e % 8)
  let v1 := (d1.toNat / 256 ^ (e % 8)) % 256 ^ k
  if n ≤ k then (t1, v1, b1)
  else
    let (t2, d2, b2) := t1.read 2 2 (e / 8 + 1)
    (t2, v1 + 256 ^ k * (d2.toNat % 256 ^ (n - k)), b1 || b2)

/-- A store of bytes at e into bytes that the tile holds. -/
def Held.patch (h : Held) (e : Nat) (l : List Nat) : Held :=
  { h with bytes := ((List.range h.bytes.length).zip h.bytes).map (fun (x : Nat × Nat) =>
      let a := h.start + x.1
      if e ≤ a ∧ a < e + l.length then (l[a - e]?).getD 0 else x.2) }

/-- Does a store of n bytes at e reach bytes that the tile holds? -/
def Held.hit (h : Option Held) (e n : Nat) : Bool :=
  match h with
  | some x => decide (e < x.start + x.bytes.length ∧ x.start < e + n)
  | none => false

/-- What a bundle knows of the instruction it belongs to: the address after it and the bytes of its prefixes. -/
structure At where
  next : Nat
  pre : Nat
deriving DecidableEq, Repr

/-- An im store of a repetition reaches the repeated instruction and repetitions remain (R319). -/
def Tile.ownHit (t : Tile) (e n nxt : Nat) : Bool :=
  (match t.rep with
    | some k => decide (1 < k)
    | none => false) && decide (e < nxt ∧ t.pc < e + n)

/-- What an im store does beyond memory: the bytes in the loop buffer change, a repeated instruction keeps only its
prefixes' bytes, and the next instruction pays the 6-cycle row where the store reached the fetch window, the loop buffer or
the repeated instruction (R173, R174, R319). -/
def Tile.imStored (t : Tile) (e : Nat) (l : List Nat) (at_ : At) : Tile :=
  let n := l.length
  let own := t.ownHit e n at_.next
  let hot := decide (e < at_.next + 64 ∧ at_.next < e + n) || Held.hit t.lbuf e n || Held.hit t.lcap e n || own
  { t with
    lbuf := t.lbuf.map (fun (h : Held) => h.patch e l)
    lcap := t.lcap.map (fun (h : Held) => h.patch e l)
    hold := if own then t.hold.map (fun (h : Held) => { h with bytes := h.bytes.take at_.pre }) else t.hold
    patched := t.patched || hot }

/-- The im operations (R253, Table 6.5). -/
def Tile.imOp (t : Tile) (op c : Nat) (at_ : At) (w : Word) : FxRes :=
  let e := effAddr (t.sk 0x98) w
  let n := if op % 2 = 1 then 4 else 1
  if 0xFFFF < e + n - 1 then fxRange e
  else if op < 0x10 then
    let (t1, v, bad) := t.imBytes e n
    fxOk ((t1.setRes 0x9B (wd v) bad).setReady 0x13 (c + 2))
  else
    let l := toLe n (t.sk 0x99).toNat
    fxOk ((t.writeBytes 1 2 e l).imStored e (l.map (fun (b : Byte) => b.toNat)) at_)

/-- A window access (R257, R258): full port or request. -/
def Tile.winOp (t : Tile) (store : Bool) (e : Nat) (w : Word) (c : Nat) : Fx :=
  let addr := t.iof 0x28 20 0 * 2 ^ 15 + e % 2 ^ 15
  let held := t.winHeld
  let t1 := t.chargeAcc 0
  let rq : PortReq := ⟨store, e, addr, w, false, held⟩
  let t2 := if store then t1 else t1.dropLoads
  ⟨if store then t2 else t2.setReady 0x12 (c + 20), [.win rq]⟩

/-- A failed window access (R258, R307): TILE_IO_EADDR, and LATEBUS for a store. -/
def Tile.winFail (t : Tile) (r : PortReq) : Tile :=
  let t1 := t.iow 0x29 (wd (r.e + 2 ^ 16 * natB r.store + 2 ^ 17))
  if r.store then { (t1.iowf 0x07 2 2 1).bump 0x07 13 4 1 with lateAddr := r.addr } else t1

/-- An io load of a tile register (R256). DESIGN CHOICE (log entry 92): what the tile's own access to TILE_SP_DATA finds is
logged with FINDER 2 for a read and FINDER 1 for a write. -/
def Tile.ioLoad (t : Tile) (partner : Bool) (p e c : Nat) : FxRes :=
  match tileReg p e with
  | none => fxRange e
  | some _ =>
    let (t1, v, bad) := t.dropLoads.regRead e 2
    fxOk ((t1.setRes 0x93 (if e = 0 then tcrShow partner v else v) bad).setReady 0x12 (c + 4))

/-- look.s (R262, R687). tab: the table of a handle. -/
def Tile.lookOp (t : Tile) (s : Nat) (tab : Nat → Option ImgTable) : FxRes :=
  let a := 0x30 + 2 * s
  let b := 0x31 + 2 * s
  let w := 2 ^ t.iof a 13 12
  if !(bitOf (t.ior a) 15) then fxRange (s + 256)
  else if 16 < t.lkHeld s + w then fxRange (s + 512 + 4096 * (t.lkHeld s + w))
  else
    let kw := t.iof b 10 6
    let ka := ((t.sk 0xA0).toNat >>> t.iof b 5 0) % 2 ^ kw
    let kb := (t.sk 0xA1).toNat % 2 ^ t.iof b 15 11
    let idx := (if bitOf (t.ior a) 14 then kb * 2 ^ kw + ka else ka) % 2 ^ 36
    let held := t.lookHeld
    let rq : LkReq := match tab (t.iof a 11 0) with
      | some r => ⟨s, w, w, (idx % 2 ^ r.logn) * 2 ^ r.lsz, 2 ^ r.lsz, (r.stack, r.base),
          if r.twin then some (r.tstack, r.tbase) else none, held, false, []⟩
      | none => ⟨s, w, w, 0, w, (0, 0), none, held, true, []⟩
    .ok ⟨t.chargeAcc 36, [.look rq]⟩

/-- lnk.et (R269, R272). lw: the word count of a link. -/
def Tile.etOp (t : Tile) (h : Nat) (w : Word) (now : Tick) (lw : Nat → Nat) : FxRes :=
  let ea := (t.sk 0xB0).toNat
  match t.slotAt h now with
  | none => fxRange (h + 768)
  | some x =>
    if lw x.1 ≤ ea then fxRange ea
    else if t.cpl.contains x then fxOk (t.bump 0x2A 17 0 1)
    else .ok ⟨{ t with wr := slotAdd t.wr x }, [.eg ⟨x.1, h, x.2, ea, w, t.epoch, false⟩]⟩

/-- lnk.ec (R270). DESIGN CHOICE (log entry 91): a second lnk.ec is ignored wherever this tile completed the slot first, in
the same routine or at P0 outside it. -/
def Tile.ecOp (t : Tile) (h : Nat) (now : Tick) : FxRes :=
  match t.slotAt h now with
  | none => fxRange (h + 768)
  | some x =>
    if t.cpl.contains x then fxOk t
    else .ok ⟨{ t with cpl := slotAdd t.cpl x }, [.eg ⟨x.1, h, x.2, 0, 0, t.epoch, true⟩]⟩

/-- msh.s_k on route handle r (R276, R277, R687). -/
def Tile.sendOp (t : Tile) (k r : Nat) (w : Word) (now : Tick) : FxRes :=
  let h := t.ior (0x60 + r)
  if !(bitOf h 14) then fxRange (r + 1024)
  else if fld h 13 12 ≠ k then fxRange (r + 1280 + 4096 * fld h 13 12)
  else .ok ⟨t, [.mesh k (flitMake w false t.epoch (t.ctlTick now).toNat (fld h 11 0) t.iepoch)]⟩

/-- What a word that leaves the tile adds to it (R258, R262, R271, R276). -/
def Tile.send (t : Tile) (x : OutWord) : Tile :=
  match x with
  | .mesh k f => { t with outc := t.outc ++ [⟨k, f, 0, none⟩] }
  | .eg w => { t with eg := t.eg ++ [w] }
  | .look r => { t with lkReq := t.lkReq ++ [r] }
  | .win r =>
    if t.port.length < 16 then { t with port := t.port ++ [r] }
    else
      let t1 := t.winFail r
      if r.store then t1 else t1.setRes 0x93 0 true

/-! ## Arithmetic units (spec/05) -/

/-- Set the flags at P0 (R199 to R202). -/
def Tile.setFlags (t : Tile) (lvl : Nat) (r : Word) (c v : Bool) (ready : Nat) : Tile :=
  if lvl = 0 then t else { t.setSk 0x32 (flagsOf r c v) with flagReady := ready }

/-- An alu trigger; b the unit's base. -/
def Tile.aluFx (t : Tile) (lvl b op c : Nat) (w : Word) : FxRes :=
  match aluOp op (t.sk b) (t.sk (b + 1)) w with
  | none => fxOk t
  | some x =>
    if x.ovf && x.v && bitOf t.tcr 4 then .error (7, op * 256 + b + 2)
    else fxOk ((((t.setSk (b + 3) x.r).setSk (b + 4) (wdB x.c)).setReady (b / 8) (c + 1)).setFlags lvl x.r x.c x.v (c + 1))

/-- A div trigger. -/
def Tile.divFx (t : Tile) (lvl op c : Nat) (w : Word) : FxRes :=
  match divOp op (t.sk 0x78) w with
  | none => fxOk t
  | some x =>
    if x.trap = 6 ∧ bitOf t.tcr 5 then .error (6, op * 256 + 0x79)
    else if x.trap = 7 ∧ bitOf t.tcr 4 then .error (7, op * 256 + 0x79)
    else fxOk ((((t.setSk 0x7A x.q).setSk 0x7B x.rm).setReady 0x0F (c + 20)).setFlags lvl x.q x.c x.v (c + 20))

/-- The accumulator of a mac at base b. -/
def Tile.macAcc (t : Tile) (b : Nat) : BitVec 72 := BitVec.ofNat 72 ((t.sk (b + 2)).toNat + 2 ^ 36 * (t.sk (b + 3)).toNat)

/-- A mac trigger. -/
def Tile.macFx (t : Tile) (b op c : Nat) (w : Word) : FxRes :=
  match macOp op (t.sk b) w (t.macAcc b) with
  | none => fxOk t
  | some x =>
    let t1 := (((t.setSk (b + 4) (granWord x.r 0)).setSk (b + 5) (granWord x.r 1)).setReady (b / 8) (c + 3))
    fxOk (if macAccum op then
        (((t1.setSk (b + 2) (granWord x.acc 0)).setSk (b + 3) (granWord x.acc 1)).setReady (0x100 + b / 8) (c + 3))
      else t1)

/-- A bfu or prm trigger. -/
def Tile.permFx (t : Tile) (b c : Nat) (r : Option Word) : FxRes :=
  match r with
  | none => fxOk t
  | some v => fxOk ((t.setSk (b + 3) v).setReady (b / 8) (c + 1))

/-- The io store of a tile register (R256, R292): every later bundle, and what follows it in its own, finds it (R97, R235). -/
def Tile.ioStore (t : Tile) (now : Tick) (d p lvl e : Nat) (w : Word) : Tile :=
  if e = 0 then t.tcrWrite lvl w else t.regWrite now d p e 1 w

/-- The trigger of one executing move to a unit other than ctl and a resumable operation (step 3 of R95); a move to a socket
that is no trigger has none. c: issue cycle; at_: the instruction it belongs to. -/
def State.fire (s : State) (d p : Nat) (lvl c : Nat) (at_ : At) (t : Tile) (m : Move) (w : Word) : FxRes :=
  let b := m.dst / 8 * 8
  if m.dst < 0x38 || !(hasOp m.dst) then fxOk t
  else if m.dst < 0x58 then t.aluFx lvl b m.op c w
  else if m.dst < 0x68 then t.macFx b m.op c w
  else if m.dst < 0x70 then t.permFx b c (bfuOp m.op (t.sk b) (t.sk (b + 1)) w)
  else if m.dst < 0x78 then t.permFx b c (prmOp m.op (t.sk b) (t.sk (b + 1)) w)
  else if m.dst < 0x80 then t.divFx lvl m.op c w
  else if m.dst < 0x90 then t.lsOp (p == 72) b m.op c w
  else if m.dst < 0x98 then
    let e := effAddr (t.sk 0x90) w
    if 0xFFFF < e then fxRange e
    else if 0x8000 ≤ e then .ok (t.winOp (m.op == 0x10) e (t.sk 0x91) c)
    else if m.op = 0 then t.ioLoad (s.partner d p).isSome p e c
    else if (tileReg p e).isSome then fxOk (t.ioStore s.tick d p lvl e (t.sk 0x91)) else fxRange e
  else if m.dst < 0xA0 then t.imOp m.op c at_ w
  else if m.dst < 0xB0 then t.lookOp m.op (s.tableOf d p)
  else if m.dst = 0xB1 then t.etOp m.op w s.tick s.linkW
  else if m.dst = 0xB2 then t.ecOp m.op s.tick
  else if m.dst < 0xD0 then t.sendOp (m.dst - 0xC0) m.op w s.tick
  else fxOk t

/-! ## Resumable operations (R244 to R252) -/

/-- The scan tests of Table 6.8. -/
def scanTest (op : Nat) (a b w : Word) : Bool :=
  if op = 0x40 then w == a
  else if op = 0x41 then decide (a.toInt ≤ w.toInt ∧ w.toInt ≤ b.toInt)
  else if op = 0x42 then decide (a.toNat ≤ w.toNat ∧ w.toNat ≤ b.toNat)
  else (w ^^^ a) &&& b == 0

/-- The first line of the pseudocode: the pg word that the operation works with. -/
def pgStart (scan : Bool) (pg n : Word) : Word :=
  if bitOf pg 16 then pg
  else wd (2 ^ 16 + (if scan then 2 ^ 18 * fld n 15 0 else 0))

/-- What a step of a resumable operation gives: the tile after it, and the trap it raised. -/
abbrev StepRes := Tile × Option (Nat × Nat)

/-- A collision of an exchange word (R336): off the word offset, agent the loser. -/
def Tile.xcol (t : Tile) (off agent : Nat) : Tile :=
  let t1 := (t.bump 0x15 17 0 1).iowf 0x15 29 18 off
  if bitOf (t.ior 0x15) 30 then t1 else (t1.iowf 0x15 30 30 1).mark 0x040 (wd off) (wd agent) 0

/-- The data side's word at a half of a granule lost a nonet that differs (R336). -/
def Tile.lostWords (t : Tile) (idx agent : Nat) (lost : BitVec 72) : Tile :=
  let t1 := if granWord lost 0 ≠ 0 then t.xcol (2 * idx) agent else t
  if granWord lost 1 ≠ 0 then t1.xcol (2 * idx + 1) agent else t1

/-- What the data-side writes that met a bcopy write leave of a granule, oldest first: mask and data. -/
def BcpWr.side (b : BcpWr) : BitVec 72 × BitVec 72 :=
  b.met.foldl (fun a x => (a.1 ||| x.2.1, mergeBits a.2 x.2.1 x.2.2)) (0, 0)

/-- The write of the last bcopy step goes to memory (R246): one encoded write with the data-side writes that met it, each of
whose words that lost a differing nonet is a collision (Table 8.3, R336). -/
def Tile.bcpFlush (t : Tile) : Tile := match t.bcp with
  | some b =>
    let g := dataGran (2 * b.gran)
    let em := nonetBits b.mask.toNat
    b.met.foldl (fun (t : Tile) x => t.lostWords g.2 x.1 (em &&& x.2.1 &&& (x.2.2 ^^^ b.data)))
      ({ t with bcp := none }.write 1 g.1 g.2 (b.side.1 ||| em) (mergeBits b.side.2 em b.data))
  | none => t

/-- Does a word written at pd complete the granule that the step just before began (R246)? -/
def BcpWr.joins (b : BcpWr) (pd : Nat) : Bool := b.gran == pd / 2 && b.mask &&& nonetSet pd 15 == 0 && b.mask != 0xFF

/-- The write of a bcopy step (R246) of word x to pd: it completes the granule of which the step just before wrote the other
word, and writes it whole; else it merges alone. -/
def Tile.bcopyWrite (t : Tile) (pd : Nat) (x : Word) : Tile :=
  match t.bcp with
  | some b =>
    if b.joins pd then { t with bcp := some { b with mask := 0xFF, data := b.data ||| wordBits pd x } }
    else { t.bcpFlush with bcp := some ⟨pd / 2, nonetSet pd 15, wordBits pd x, []⟩ }
  | none => { t with bcp := some ⟨pd / 2, nonetSet pd 15, wordBits pd x, []⟩ }

/-- The read of a bcopy step that will write pd: it finds the word that the step before wrote. -/
def Tile.bcopyRead (t : Tile) (pd ps : Nat) : Tile × Word × Bool :=
  match t.bcp with
  | some b =>
    if b.gran ≠ ps / 2 then t.readWord 0 ps
    else if b.joins pd = false then t.bcpFlush.readWord 0 ps
    else if b.mask = nonetSet ps 15 then (t, granWord b.data ps, false)
    else t.readWord 0 ps
  | none => t.readWord 0 ps

/-- One step of bcopy (R245, R246), T in w. The last step's write of main data or the vault meets nothing any more. -/
def Tile.bcopyStep (warden : Bool) (t : Tile) (b i n : Nat) (w : Word) : StepRes :=
  let es := (t.sk b + wd i).toNat
  let ed := (w + wd i).toNat
  match t.map warden es with
  | none => (t, some (4, es))
  | some ps => match t.map warden ed with
    | none => (t, some (4, ed))
    | some pd =>
      let (t1, x, bad) := t.bcopyRead pd ps
      if bad then (t1, some (5, ps + 2 ^ 16))
      else
        let t2 := t1.bcopyWrite pd x
        (if n ≤ i + 1 ∧ (dataGran pd).1 ≠ 1 then t2.bcpFlush else t2, none)

/-- One step of tscan (R247). -/
def Tile.tscanStep (warden : Bool) (t : Tile) (op i : Nat) (w : Word) : StepRes :=
  let e := (w + wd i).toNat
  match t.map warden e with
  | none => (t, some (4, e))
  | some ps =>
    let (t1, x, bad) := t.readWord 0 ps
    if bad then (t1, some (5, ps + 2 ^ 16))
    else
      let pg := t1.sk 0xA8
      (if !(bitOf pg 17) && scanTest op (t1.sk 0xA0) (t1.sk 0xA1) x then
          t1.setSk 0xA8 (putFld (putFld pg 17 17 1) 33 18 i) else t1, none)

end Sys2Proof.Machine
end

