-- ==== Sys2Proof/Machine/Issue.lean ====
section
/-!
DEFINITION. Issuing one bundle of a tile: the checks of a bundle in trap-priority order, its waits and its issue cycle,
its three steps, the transfer it makes, and what follows at the end of its instruction (spec/03, 04, 05, 07).
-/
namespace Sys2Proof.Machine

/-- What a bundle's ctl move asks for once every other move has taken effect (R294). -/
inductive Ctl where
  | none
  | jump (a : Nat)
  | waitm
  | retx
  | soft (code : Nat) (w : Word)
deriving DecidableEq, Repr

/-- What issuing a bundle's moves gives. -/
inductive Iss where
  /-- The bundle still waits for an event. -/
  | wait
  /-- It raised a trap at its issue cycle at_; the tile as the trap leaves it. -/
  | trap (t : Tile) (st : Stop) (at_ : Nat)
  /-- It took effect: tile, words that leave it, transfer, issue cycle, cycles to the next issue. -/
  | ok (t : Tile) (outs : List OutWord) (ctl : Ctl) (issue cost : Nat)
deriving DecidableEq, Repr

/-- The guard of a move holds (R99). -/
def Tile.guardOk (t : Tile) (m : Move) : Bool := bitOf (t.sk (0x20 + m.guard % 8)) 0 != decide (8 ≤ m.guard)

/-- The moves of a bundle with their lanes. -/
def lanesOf (ms : List Move) : List (Nat × Move) := (List.range ms.length).zip ms

/-- A register of the im unit. -/
def isIm (a : Nat) : Bool := decide (0x98 ≤ a ∧ a < 0xA0)

/-- A move that is refused at its level whatever its guard (R104, R286). -/
def privStatic (lvl : Nat) (m : Move) : Bool :=
  (decide (lvl < 2) && (isIm m.dst || isIm m.src)) ||
  (lvl == 0 && (m.dst == 0x2E || m.dst == 0x30 || m.dst == 0x31 ||
    ((m.dst == 0x28 || m.dst == 0x29 || m.dst == 0x2A || m.dst == 0x2C) && m.guard != 0)))

/-- Sockets of R294. -/
def isCtlMove (a : Nat) : Bool :=
  a == 0x28 || a == 0x29 || a == 0x2A || a == 0x2C || a == 0x2F || a == 0x30 || a == 0x31

/-- Trigger sockets of one unit share a key; each msh.s is a unit of its own (R101). -/
def trigUnit (a : Nat) : Option Nat :=
  if !(hasOp a) then none
  else if a < 0x38 then some 1
  else if a < 0xA0 then some (0x10 + a / 8)
  else if a < 0xB0 then some 2
  else if a < 0xC0 then some 3
  else some (0x100 + a)

/-- Two executing moves that may not stand together (R101, R293, R295). -/
def laneClash (a b : Nat) : Bool :=
  (a == b && a != 0x20) ||
  (match trigUnit a, trigUnit b with
    | some x, some y => x == y
    | _, _ => false) ||
  (isCtlMove a && isCtlMove b && a != b) ||
  (a == 0x2E && b == 0x31) || (a == 0x31 && b == 0x2E)

/-- The first lane that clashes with a lower one: LANE with the socket named in the higher lane. tcr: the lane of an io
store to TILE_TCR, which acts as a move to ctl.tcr (R292). -/
def laneTrap (tcr : Option Nat) : List (Nat × Move) → List (Nat × Move) → Option Stop
  | _, [] => none
  | seen, x :: r =>
    let as_ := fun (y : Nat × Move) => if some y.1 = tcr then 0x2E else y.2.dst
    if seen.any (fun y => laneClash y.2.dst x.2.dst || laneClash (as_ y) (as_ x)) then some ⟨3, x.2.dst, some x.1⟩
    else laneTrap tcr (x :: seen) r

/-- A bundle of more moves than one whose executing moves trigger bcopy or tscan traps UNDEF (R248). -/
def Tile.manyStop (t : Tile) (ms : List Move) : Option Stop :=
  if ms.length < 2 then none
  else ((lanesOf ms).find? (fun (x : Nat × Move) => resumable x.2.dst x.2.op && t.guardOk x.2)).map
    (fun (x : Nat × Move) => ⟨2, x.2.at_, some x.1⟩)

/-- Registers read or written: more than 4 distinct reads or more than 4 writes cost a cycle, whatever the guards
(R116 to R118). -/
def portStall (ms : List Move) : Nat :=
  let rd := (ms.filter (fun (m : Move) => m.src < 0x20)).foldl
    (fun (l : List Nat) (m : Move) => if l.contains m.src then l else m.src :: l) []
  let wr := ms.filter (fun (m : Move) => m.dst < 0x20)
  natB (decide (4 < rd.length ∨ 4 < wr.length))

/-- Step 2 of R95 for one move (R119, R198, R202, R221, R289). -/
def Tile.moveIn (t : Tile) (lvl : Nat) (m : Move) (w : Word) : Tile :=
  match sockKind m.dst with
  | some .rw =>
    if m.dst = 0x2E then t.tcrWrite lvl w
    else if m.dst = 0x32 then { t.setSk 0x32 w with flagReady := 0 }
    else t.setSk m.dst w
  | _ => t

/-- The executing moves with the words they carry. -/
abbrev Lane := Nat × Move × Word × Bool

/-- Step 2 for every executing move. -/
def Tile.movesIn (t : Tile) (lvl : Nat) (l : List Lane) : Tile :=
  l.foldl (fun (t : Tile) (x : Lane) => t.moveIn lvl x.2.1 x.2.2.1) t

/-- Does a lane trigger an ls unit? -/
def isLs (x : Lane) : Bool := x.2.1.dst == 0x82 || x.2.1.dst == 0x8A

/-- Is an ls op byte a store? -/
def lsStore (op : Nat) : Bool := decide (0x21 ≤ op ∧ op ≤ 0x2F)

/-- The bank of a physical address (R114, R325): 8 main banks, two exchange halves, the vault. -/
def bankOf (p : Nat) : Nat :=
  if p < 0x8000 then (p / 2) % 8 else if p < 0x9000 then 8 + (p / 2) % 2 else 10

/-- A lane that stores to a tile register (R256). -/
def Tile.isIoStore (t : Tile) (x : Lane) : Bool :=
  x.2.1.dst == 0x92 && x.2.1.op == 0x10 && decide (effAddr (t.sk 0x90) x.2.2.1 < 0x8000)

/-- The ls triggers of a bundle, op and physical address, each under the window registers that an io store of a lower lane
left (R235); a trigger whose address traps is left out. -/
def State.lsPhys (s : State) (d p lvl : Nat) : List Lane → Tile → List (Nat × Nat)
  | [], _ => []
  | x :: r, t =>
    if isLs x then
      match t.map (p == 72) (effAddr (t.sk (x.2.1.dst / 8 * 8)) x.2.2.1) with
      | some q => (x.2.1.op, q) :: s.lsPhys d p lvl r t
      | none => s.lsPhys d p lvl r t
    else if t.isIoStore x then
      s.lsPhys d p lvl r (t.ioStore s.tick d p lvl (effAddr (t.sk 0x90) x.2.2.1) (t.sk 0x91))
    else s.lsPhys d p lvl r t

/-- The bank row of Table 3.5: ls0 and ls1 triggered to one main bank or one exchange half (R114). -/
def bankStall (l : List (Nat × Nat)) : Nat :=
  match l with
  | x :: y :: _ => natB (decide (bankOf x.2 = bankOf y.2 ∧ bankOf x.2 < 10))
  | _ => 0

/-- The cycle from which the ls triggers of a bundle need not wait, as a bundle that issues at c finds the buffer: a store
waits for a free entry, a load for an entry of an earlier bundle that covers part of it (R242, Table 3.5). None while the
wait has no cycle of its own: the vault is being wiped (R359). -/
def Tile.lsNeed (c : Nat) : List (Nat × Nat) → Tile → Option Nat
  | [], _ => some 0
  | x :: r, t =>
    if 0x9000 ≤ x.2 ∧ bitOf (t.ior 0x1E) 0 = true then none
    else if lsStore x.1 then
      let t1 := t.sbPush x.2 (x.1 - 0x20) 0 c
      if 4 < t1.sb.length then
        match t.sb.head? with
        | some e => if t.sbBlocked e then none else some e.due
        | none => some 0
      else Tile.lsNeed c r t1
    else
      let need := loadNonets x.1 x.2
      match t.sbMeet x.2 need with
      | some e =>
        if e.mask &&& need ≠ need ∧ e.born ≠ t.bid then (if t.sbHeld then none else some e.due)
        else Tile.lsNeed c r t
      | none => Tile.lsNeed c r t

/-- The first cycle from c on in which no ls trigger waits. -/
def Tile.lsCycle (t : Tile) (l : List (Nat × Nat)) : Nat → Nat → Option Nat
  | 0, c => some c
  | n + 1, c => match Tile.lsNeed c l (t.sbAt c) with
    | none => none
    | some k => if k ≤ c then some c else Tile.lsCycle t l n k

/-- An io access that its level may not make (R257, R285, R286). -/
def Tile.ioPriv (t : Tile) (p lvl : Nat) (x : Lane) : Bool :=
  if x.2.1.dst = 0x92 then
    let e := effAddr (t.sk 0x90) x.2.2.1
    (decide (lvl < 2 ∧ 0x8000 ≤ e ∧ e ≤ 0xFFFF)) ||
    (decide (lvl = 0 ∧ x.2.1.op = 0x10) && (match tileReg p e with
      | some (r, _) => r.hasRws
      | none => false))
  else false

/-- Step 3: the triggers in lane order, each trap kept with its lane. -/
def State.fires (s : State) (d p lvl c : Nat) (at_ : At) (l : List Lane) (t : Tile) : Tile × List OutWord × List Stop :=
  l.foldl (fun (a : Tile × List OutWord × List Stop) (x : Lane) =>
    let r := s.fire d p lvl c at_ a.1 x.2.1 x.2.2.1
    match r with
    | .error (4, v) => (a.1, a.2.1, a.2.2 ++ [⟨4, v, some x.1⟩])
    | .error (k, v) => (a.1, a.2.1, a.2.2 ++ [if x.2.2.2 then ⟨5, x.2.1.src, some x.1⟩ else ⟨k, v, some x.1⟩])
    | .ok f =>
      if x.2.2.2 then (a.1, a.2.1, a.2.2 ++ [⟨5, x.2.1.src, some x.1⟩])
      else (f.tile, a.2.1 ++ f.outs, a.2.2)) (t, [], [])

/-! ## ctl (R294 to R303, R316) -/

/-- The ones of a save mask. -/
def maskOnes (m : Nat) : Nat := popCount 8 m

/-- p1 to p7 as a 7-bit value. -/
def Tile.preds (t : Tile) : Nat := bitsFrom 7 (fun i => bitOf (t.sk (0x21 + i)) 0)

/-- Write the saved pairs of a call, whole granules from address j up. -/
def Tile.savePairs (mask : Nat) : List Nat → Nat → Tile → Tile
  | [], _, t => t
  | i :: r, j, t =>
    if (mask >>> i) % 2 = 1 then
      Tile.savePairs mask r (j + 2)
        (t.writeWhole 0 (j / 2) (wordBits 0 (t.sk (16 + 2 * i)) ||| wordBits 1 (t.sk (17 + 2 * i))))
    else Tile.savePairs mask r j t

/-- Low end and top of the call stack. -/
def Tile.stackLo (t : Tile) : Nat := fld t.tcr 23 16 * 128
/-- Top of the call stack. -/
def Tile.stackTop (t : Tile) : Nat := (fld t.tcr 31 24 + 1) * 128

/-- ctl.call (R299), issued at c. -/
def Tile.callOp (t : Tile) (mask retpc c : Nat) (w : Word) : Except (Nat × Nat) (Tile × Nat) :=
  let n := maskOnes mask
  let cost := 2 + n + t.sbLeft c
  let t1 := Tile.sbDrain t.sb.length t
  let sp := t.iof 0x06 15 0
  let new : Int := (sp : Int) - 2 * (n + 1)
  if 0xFFFF < w.toNat then .error (4, w.toNat)
  else if sp % 2 = 1 ∨ t.stackTop < sp then .error (4, sp)
  else if new < t.stackLo then .error (4, (wdI new).toNat)
  else
    let nw := new.toNat
    let h := wd (retpc % 65536 + 2 ^ 16 * mask + 2 ^ 24 * t.preds)
    let t2 := t1.writeWhole 0 (nw / 2) (wordBits 0 h)
    .ok ((Tile.savePairs mask (List.range 8) (nw + 2) t2).iowf 0x06 15 0 nw, cost)

/-- Read back the saved pairs of a ret from address j on: the tile after the reads, and the registers with their values or
the address of a poisoned word. -/
def Tile.loadPairs (mask : Nat) : List Nat → Nat → Tile → Tile × Except (Nat × Nat) (List (Nat × Word))
  | [], _, t => (t, .ok [])
  | i :: r, j, t =>
    if (mask >>> i) % 2 = 1 then
      let (t1, g, bad) := t.read 0 0 (j / 2)
      if bad then (t1, .error (5, j + 2 ^ 16))
      else
        let (t2, x) := Tile.loadPairs mask r (j + 2) t1
        (t2, x.map (fun l => (16 + 2 * i, granWord g 0) :: (17 + 2 * i, granWord g 1) :: l))
    else Tile.loadPairs mask r j t

/-- What ctl.ret does (R301): the tile after its frame reads, and the sockets it sets with their values, the new stack
pointer, the return address and its cycles, or its trap. Issued at c. -/
def Tile.retOp (t : Tile) (c : Nat) : Tile × Except (Nat × Nat) (List (Nat × Word) × Nat × Nat × Nat) :=
  let cost := 3 + t.sbLeft c
  let t1 := Tile.sbDrain t.sb.length t
  let sp := t.iof 0x06 15 0
  if sp % 2 = 1 ∨ sp < t.stackLo ∨ t.stackTop < sp + 2 then (t, .error (4, sp))
  else
    let (t2, g, bad) := t1.read 0 0 (sp / 2)
    if bad then (t2, .error (5, sp + 2 ^ 16))
    else
      let h := granWord g 0
      let mask := fld h 23 16
      let n := maskOnes mask
      if t.stackTop < sp + 2 * (n + 1) then (t2, .error (4, sp + 2 * (n + 1)))
      else
        let (t3, x) := Tile.loadPairs mask (List.range 8) (sp + 2) t2
        (t3, x.map (fun l =>
          (l ++ (List.range 7).map (fun i => (0x21 + i, wd (fld h (24 + i) (24 + i)))), sp + 2 * (n + 1), fld h 15 0, cost + n)))

/-- The fields that a delegated pilot's RETX cannot change: HBASE, RIG and DLGE (R316). -/
def retxKeep (cur new : Word) : Word :=
  if bitOf cur 1 then (new &&& ~~~(0x3F84 : Word)) ||| (cur &&& 0x3F84) else new

/-- The level check of R316 on a value. -/
def retxBad (cur new : Word) (ent : Nat) : Bool :=
  decide (ent < tcrLevel new) || (bitOf cur 1 && !(bitOf new 0))

/-- A captured or captured-so-far body is that of a loop. -/
def Held.isBody (h : Option Held) (start nb : Nat) : Bool := match h with
  | some x => decide (x.start = start ∧ x.nb = nb)
  | none => false

/-- The byte that leads the instruction at a, after its prefixes, and whether it carries a REP prefix (R145, R164). f:
instruction bytes. -/
def leadByte (f : Nat → Option Nat) (a : Nat) : Bool × Option Nat :=
  let b := if f a = some 0x84 then a + 1 else a
  if f b = some 0x80 then (true, f (b + 2)) else if f b = some 0x81 then (true, f (b + 1)) else (false, f b)

/-- The byte limit of a level (R176). -/
def fetchLim (lvl : Nat) : Nat := if lvl = 0 then 0x8000 else 0x10000

/-- Bytes that the tile holds, at an address. -/
def Held.at_ (h : Option Held) (a : Nat) : Option Nat := match h with
  | some x => if x.start ≤ a then x.bytes[a - x.start]? else none
  | none => none

/-- The loop buffer, while the active loop issues from it (R168). -/
def Tile.inBuffer (t : Tile) : Option Held := match t.loop with
  | some l => if l.buffered then t.lbuf else none
  | none => none

/-- Instruction bytes at a level: those fetched for the repetitions in progress, those of the loop buffer while it issues,
else those of instruction memory. -/
def Tile.insByte (t : Tile) (lvl a : Nat) : Option Nat :=
  if a < fetchLim lvl then
    match Held.at_ t.hold a with
    | some b => some b
    | none => match Held.at_ t.inBuffer a with
      | some b => some b
      | none => t.peekByte 2 a
  else none

/-- The records that a RETX restores, each only where its condition holds (R164). -/
def Tile.resume (t : Tile) : Tile :=
  let nb := t.iof 0x49 23 16
  let st := t.iof 0x49 15 0
  let lrem := t.iof 0x4A 17 0
  let t1 := { t with
    hold := none
    loop := if bitOf (t.ior 0x49) 32 then
        some ⟨st, nb, t.iof 0x49 31 24, lrem, decide (lrem = 0), Held.isBody t.lbuf st nb⟩ else none }
  let x := leadByte (t1.insByte t1.level) t1.pc
  { t1 with
    rsmRep := if bitOf (t.ior 0x48) 18 && x.1 then some (t.iof 0x48 17 0) else none
    rsmMc := if bitOf (t.ior 0x4B) 10 && x.2 == some (0xC0 + t.iof 0x4B 9 4) then
        some (t.iof 0x4B 3 0, t.iof 0x4B 9 4) else none }

/-- ctl.retx (R316): ESC with the level that failed, or the tile as it resumes. -/
def Tile.retxOp (t : Tile) (partner : Bool) : Except (Nat × Nat) Tile :=
  let sst := t.ior 0x02
  let ent := if bitOf sst 16 then 0 else if bitOf sst 17 then 1 else 2
  let new := retxKeep t.tcr (t.ior 0x03)
  let pend := retxKeep t.tcr (t.ior 0x04)
  if retxBad t.tcr new ent then .error (8, tcrLevel new)
  else if bitOf sst 15 && retxBad t.tcr pend ent then .error (8, tcrLevel pend)
  else
    let t1 := (t.setTcr partner new).setSk 0x32 (wd (fld sst 3 0))
    .ok { t1 with
      tcrQ := if bitOf sst 15 then [(pend, 2)] else []
      flagReady := 0
      pc := t.iof 0x01 15 0
      fetched := false, stepping := false
      phase := if bitOf sst 14 then .wait else .run }.resume

/-- A ctl move's transfer (R294 to R305): tile, transfer, cycles. flags: those the earlier bundles left (R202). -/
def Tile.ctlFx (t : Tile) (partner : Bool) (flags : Word) (nxt c : Nat) (m : Move) (w : Word) :
    Except (Nat × Nat) (Tile × Ctl × Nat) :=
  if m.dst = 0x28 then
    if 0xFFFF < w.toNat then .error (4, w.toNat) else .ok (t, .jump w.toNat, 2)
  else if m.dst = 0x29 then
    match t.callOp m.op nxt c w with
    | .error e => .error e
    | .ok (t1, c) => .ok (t1, .jump w.toNat, c)
  else if m.dst = 0x2A then
    match t.retOp c with
    | (_, .error e) => .error e
    | (t1, .ok (l, sp, a, c)) =>
      .ok ((l.foldl (fun (t : Tile) (x : Nat × Word) => t.setSk x.1 x.2) t1).iowf 0x06 15 0 sp, .jump a, c)
  else if m.dst = 0x2C then .ok (t, .waitm, 1)
  else if m.dst = 0x30 then
    if bcCond m.op flags = some true then
      (if 0xFFFF < w.toNat then .error (4, w.toNat) else .ok (t, .jump w.toNat, 2))
    else .ok (t, .none, 1)
  else if m.dst = 0x31 then
    match t.retxOp partner with
    | .error e => .error e
    | .ok t1 => .ok (t1, .retx, 4)
  else if m.dst = 0x2F then .ok (t, .soft m.op w, 1)
  else .ok (t, .none, 1)

/-- The trap of the lowest lane (R309). -/
def lowest (l : List Stop) : Option Stop :=
  l.foldl (fun (a : Option Stop) (x : Stop) => match a with
    | none => some x
    | some y => if x.lane.getD 0 < y.lane.getD 0 then some x else some y) none

/-- The later of a list of cycles. -/
def latest (l : List Nat) : Nat := l.foldl max 0

/-- Ready times that an executing bundle waits for (R110, R203, R220, Table 3.5). -/
def Tile.evTime (t : Tile) (l : List (Nat × Move)) : Nat :=
  latest (l.map (fun x => max (if x.2.src < 0xE0 then t.readyAt x.2.src else 0)
    (if x.2.dst = 0x79 then SMap.get (fun _ => 0) t.ready 0x0F else if x.2.dst = 0x30 then t.flagReady else 0)))

/-- Does a bundle wait for something outside the tile: a word of a stream or an inbound, an io answer, a place in a
channel, or the end of a wipe? -/
def Tile.outside (t : Tile) (ex : List (Nat × Move)) (vault : Bool) : Bool :=
  ex.any (fun x => isPop x.2.src || x.2.src == 0x93 || decide (0xB1 ≤ x.2.dst ∧ x.2.dst < 0xB3) ||
    decide (0xC0 ≤ x.2.dst ∧ x.2.dst < 0xC4)) || vault || t.sbHeld

/-- A source has no value to give yet: nothing to pop, or an io answer outstanding. -/
def Tile.srcWait (t : Tile) (a : Nat) : Bool := (decide (a < 0xE0) && t.popEmpty a) || (a == 0x93 && t.ioWait)

/-- The trigger would send a word into a channel that is full (R75, Table 3.5). -/
def State.sendWait (s : State) (d p lvl c : Nat) (at_ : At) (t : Tile) (x : Lane) : Bool :=
  let m := x.2.1
  if (decide (0xB1 ≤ m.dst ∧ m.dst < 0xB3) && t.egFull) || (decide (0xC0 ≤ m.dst ∧ m.dst < 0xC4) && t.chFull (m.dst - 0xC0)) then
    !x.2.2.2 && (match s.fire d p lvl c at_ t m x.2.2.1 with
      | .ok f => !f.outs.isEmpty
      | .error _ => false)
  else false

/-- What a bundle has done in steps 1 and 2 of R95 when it issues at c: the tile as it finds it, its executing lanes with
their values, and the tile after the pops and the writes of sockets. -/
def State.laneVals (s : State) (d p lvl c : Nat) (t : Tile) (ex : List (Nat × Move)) : Tile × List Lane × Tile :=
  let t0 := t.sbAt c
  let l := ex.map (fun x => ((x.1, x.2, s.moveVal d p t0 (c - t.clk) x.2) : Lane))
  let t1 := t0.pops (ex.filterMap (fun x => if isPop x.2.src then some x.2.src else none))
  (t0, l, t1.movesIn lvl l)

/-- The issue cycle of a bundle (R683): the later of the cycle after its shape rows and of the last event it waits for;
none while such an event has not occurred. shape: the fetch and 6-cycle rows; ext: the cycles that went by in waiting for
what is outside the tile. -/
def State.issueCycle (s : State) (d p : Nat) (t : Tile) (lvl : Nat) (at_ : At) (ms : List Move) (shape ext : Nat) : Option Nat :=
  let ex := (lanesOf ms).filter (fun x => t.guardOk x.2)
  let c0 := t.clk - t.waited + shape + portStall ms
  let (_, l, t2) := s.laneVals d p lvl (max c0 t.clk) t ex
  let ph := s.lsPhys d p lvl l t2
  let c1 := max (max (c0 + bankStall ph) (t.evTime ex)) t.clk
  let c2 := if t.outside ex (ph.any (fun x => decide (0x9000 ≤ x.2))) then max c1 (t.clk + ext) else c1
  if ex.any (fun x => t.srcWait x.2.src) || l.any (fun x => s.sendWait d p lvl c2 at_ t2 x) then none
  else if ex.any (fun x => x.2.dst == 0x29 || x.2.dst == 0x2A) && t.sbHeld then none
  else t2.lsCycle ph 8 c2

/-- An io trigger that waits for its word or its base before its level can be judged (R285, R286, R292). -/
def Tile.ioUnknown (t : Tile) (lvl : Nat) (ex : List (Nat × Move)) : Bool :=
  ex.any (fun x => x.2.dst == 0x92) && (decide (lvl < 2) || ex.any (fun x => x.2.dst == 0x2E || x.2.dst == 0x31)) &&
    ex.any (fun x => (x.2.dst == 0x92 || x.2.dst == 0x90) && t.srcWait x.2.src)

/-- The lane of an io store to TILE_TCR. -/
def Tile.tcrLane (t : Tile) (l : List Lane) : Option Nat :=
  (l.find? (fun x => t.isIoStore x && effAddr (t.sk 0x90) x.2.2.1 == 0)).map (fun x => x.1)

/-- The traps found before any move takes effect, in the order of R309: PRIV of the moves, PRIV of an io access, LANE; with
the cycle in which each is known. c0: the cycle after the bundle's shape; c: its issue cycle as far as it is known. -/
def Tile.earlyStop (t : Tile) (p lvl c0 c : Nat) (ms : List Move) (ex : List (Nat × Move)) (l : List Lane) (t2 : Tile) :
    Option (Stop × Nat) :=
  match (lanesOf ms).find? (fun x => privStatic lvl x.2) with
  | some x => some (⟨1, x.2.at_, some x.1⟩, c0)
  | none => if t.ioUnknown lvl ex then none
    else match l.find? (fun x => t2.ioPriv p lvl x) with
      | some x => some (⟨1, x.2.1.at_, some x.1⟩, c)
      | none => match laneTrap none [] ex with
        | some st => some (st, c0)
        | none => (laneTrap (t2.tcrLane l) [] ex).map (fun st => (st, c))

/-- The cycles to the next issue of a bundle without a transfer that issued at c: a load that had to wait for a store of its
own bundle holds the next bundle back (log entry 67). -/
def Tile.lsHold (t : Tile) (c : Nat) (l : List Lane) : Nat :=
  if l.any isLs then max (SMap.get (fun _ => 0) t.ready 0x10) (SMap.get (fun _ => 0) t.ready 0x11) - 2 - c else 0

/-- Steps 2 and 3 of R95 and the transfer of a bundle that issues at c. t0: the tile as the bundle finds it; t2: after the
pops and the writes of sockets; flags: those that the earlier bundles left. -/
def State.act (s : State) (d p lvl c : Nat) (at_ : At) (flags : Word) (l : List Lane) (t0 t2 : Tile) : Iss :=
  let (t3, outs, traps) := s.fires d p lvl c at_ (l.filter (fun x => !(isCtlMove x.2.1.dst))) t2
  let hold := t3.lsHold c l
  match l.find? (fun x => isCtlMove x.2.1.dst) with
  | none => match lowest traps with
    | some st => .trap t0 st c
    | none => .ok t3 outs .none c (1 + hold)
  | some x =>
    let data : Stop := ⟨5, x.2.1.src, some x.1⟩
    match t3.ctlFx (s.partner d p).isSome flags at_.next (c + hold) x.2.1 x.2.2.1 with
    | .error (k, v) =>
      let own : Stop := if x.2.2.2 ∧ k ≠ 4 then data else ⟨k, v, some x.1⟩
      let tr := if x.2.1.dst = 0x2A ∧ (k = 4 ∨ ¬ x.2.2.2) then (t0.retOp c).1 else t0
      match lowest (traps ++ [own]) with
      | some st => .trap (if st = own then tr else t0) st c
      | none => .trap t0 own c
    | .ok (t4, ctl, cost) =>
      match lowest (if x.2.2.2 then traps ++ [data] else traps) with
      | some st => .trap t0 st c
      | none => .ok t4 outs ctl c (cost + hold)

/-- Issue the moves of a bundle (R95, R113, R309). shape: the fetch and 6-cycle rows; ext: the cycles that went by in
waiting for what is outside the tile. -/
def State.issueMoves (s : State) (d p : Nat) (t : Tile) (lvl : Nat) (at_ : At) (ms : List Move) (shape ext : Nat) : Iss :=
  let ex := (lanesOf ms).filter (fun x => t.guardOk x.2)
  let c0 := max (t.clk - t.waited + shape + portStall ms) t.clk
  let c := max c0 (t.evTime ex)
  let v := s.laneVals d p lvl c t ex
  match t.earlyStop p lvl c0 c ms ex v.2.1 v.2.2 with
  | some (st, c1) => .trap t st c1
  | none => match s.issueCycle d p t lvl at_ ms shape ext with
    | none => .wait
    | some c2 =>
      let (t0, l, t2) := s.laneVals d p lvl c2 t ex
      s.act d p lvl c2 at_ (t.sk 0x32) l t0 t2

/-! ## Instructions in the stream -/

/-- Bytes of the active signpost bank. -/
def Tile.sigByte (t : Tile) (o : Nat) : Option Nat := if o < 4096 then t.peekByte 3 o else none

/-- The directory entry e as a 64-bit value (R180); none if its granule cannot be read (R321). -/
def Tile.dirVal (t : Tile) (e : Nat) : Option Nat :=
  match eccClass true (t.gr 3 e) with
  | (.clean, x) => some (x.toNat % 2 ^ 64)
  | (.corrected, x) => some (x.toNat % 2 ^ 64)
  | _ => none

/-- Operand bytes of a macro. -/
def Tile.nops (t : Tile) (e : Nat) : Nat := match t.dirVal e with
  | some v => (dirEntry v).nops
  | none => 0

/-- The instruction at pc, at a level. -/
def Tile.insn (t : Tile) (lvl : Nat) : Except Stop Insn := insnOf (t.insByte lvl) t.nops t.loop.isSome t.pc

/-- Findings of the granules that hold the bytes from a up to b (R344, Table 8.6). -/
def Tile.fetchFx (t : Tile) (mem a b : Nat) : Tile :=
  (List.range (b / 8 + 1 - a / 8)).foldl (fun (t : Tile) i => (t.read 2 mem (a / 8 + i)).1) t

/-- The tile halts: the instruction at the vector of the entry for code traps FETCH (R313). -/
def Tile.haltAt (t : Tile) (code : Nat) (spc : Word) : Tile :=
  { ((t.iowf 0x09 0 0 1).iowf 0x09 5 1 code).mark 0x042 (wd code) spc 0 with
    phase := .halt, rep := none, loop := none, exp := none, hold := none, atVec := none, raised := none, waited := 0 }

/-- Raise a precise trap; inside an expansion a pending software trap is taken in its place (R305); FETCH of the instruction
at a vector halts the tile (R313). The bundle has paid the 6-cycle row. -/
def Tile.raise (t : Tile) (st : Stop) (at_ : Nat) : Tile :=
  let t1 := { t with patched := false, waited := 0 }
  match t.soft with
  | some (c, w) => { t1 with raised := some ⟨c, w, t.pc, 0, false, true, true, at_⟩, soft := none }
  | none =>
    let t2 := { t1 with raised := some ⟨st.code, wd st.info, t.pc, st.lane.getD 0, st.lane.isSome, false, true, at_⟩ }
    match t.atVec with
    | some code => if st.code = 0x0B then t1.haltAt code (t.ior 0x01) else t2
    | none => t2

/-- The first byte of the instruction at pc, which ends before nxt, that does not issue from the loop buffer (R168). -/
def Tile.fromMem (t : Tile) (nxt : Nat) : Nat :=
  match t.inBuffer with
  | some h => if h.start ≤ t.pc then min nxt (max t.pc (h.start + h.bytes.length)) else t.pc
  | none => t.pc

/-- The fetch row of Table 3.5 for the instruction at pc, which ends before nxt. -/
def Tile.fetchStall (t : Tile) (nxt : Nat) : Nat := if t.fetched then 0 else (nxt - t.fromMem nxt + 31) / 32 - 1
/-- The 6-cycle row. -/
def Tile.patchStall (t : Tile) : Nat := if t.patched then 6 else 0

/-- Findings of the fetch of the instruction at pc, which ends before nxt: each byte is fetched once (R148, R344). -/
def Tile.fetchIns (t : Tile) (nxt : Nat) : Tile :=
  if t.fetched ∨ nxt ≤ t.fromMem nxt then t else t.fetchFx 2 (t.fromMem nxt) (nxt - 1)

/-- The bytes of the instruction at pc, which ends before nxt. -/
def Tile.bytesAt (t : Tile) (lvl nxt : Nat) : List Nat :=
  (List.range (nxt - t.pc)).map (fun i => (t.insByte lvl (t.pc + i)).getD 0)

/-- The instruction at pc, which ends before nxt, joins the body being captured in the first iteration of its loop; a body
beyond the limits of R167 is captured no further (R168, R170). -/
def Tile.capture (t : Tile) (lvl nxt : Nat) : Tile :=
  match t.loop, t.lcap with
  | some l, some h =>
    if l.buffered ∨ l.dry ∨ t.fetched ∨ ¬ Held.isBody t.lcap l.start l.nb then t
    else if t.pc < h.start ∨ h.start + h.bytes.length < t.pc ∨ h.start + 256 < nxt ∨ 32 ≤ h.nb then { t with lcap := none }
    else { t with lcap := some { h with bytes := h.bytes.take (t.pc - h.start) ++ t.bytesAt lvl nxt } }
  | _, _ => t

/-- The tile holds the bytes of the repeated instruction, or of the bundle of a bcopy or a tscan, at pc (R148). -/
def Tile.keepBytes (t : Tile) (lvl nxt : Nat) : Tile :=
  { t with hold := some ⟨t.pc, 0, t.bytesAt lvl nxt⟩ }

/-- The cycle in which the shape rows of an instruction whose length is known have been paid (R683); its decode traps are
raised there (R132, R312). -/
def Tile.shapeAt (t : Tile) (i : Insn) : Nat :=
  max t.clk (t.clk - t.waited + t.fetchStall i.next + t.patchStall + (match i.body with
    | .bundle ms => portStall ms
    | _ => 0))

/-- Raise a trap found in decoding an instruction of unknown length, with the findings of its fetch: up to the byte that
fails, or that SINFO names (DESIGN CHOICE, log entry 96). -/
def Tile.raiseDecode (t : Tile) (st : Stop) : Tile :=
  let t1 := if st.info < 0x10000 then t.fetchIns (st.info + 1) else t
  t1.raise st (t.clk + t.patchStall)

/-- The end of a loop-body instruction that ends at nxt (R152, R153, R168 to R170). -/
def Tile.loopEnd (t : Tile) (nxt : Nat) : Tile :=
  match t.loop with
  | none => { t with pc := nxt }
  | some l =>
    if l.idx < l.nb then { t with pc := nxt, loop := some { l with idx := l.idx + 1 } }
    else
      let cap := !l.buffered && !l.dry && Held.isBody t.lcap l.start l.nb &&
        (match t.lcap with
          | some h => decide (h.start + h.bytes.length = nxt)
          | none => false)
      let t1 := if cap then { t with lbuf := t.lcap, lcap := none } else t
      if l.lrem ≤ 1 then { t1 with pc := nxt, loop := none }
      else { t1 with pc := l.start,
                     loop := some { l with idx := 0, lrem := l.lrem - 1, buffered := l.buffered || cap } }

/-- The run of sealed instructions after one more ends (R161). -/
def Tile.sealEnd (t : Tile) : Tile := { t with sealRun := if t.sealed then (t.sealRun + 1) % 16 else 0, sealed := false }

/-- An instruction is over: what the tile kept of it goes. -/
def Tile.insnOver (t : Tile) : Tile :=
  { t with rep := none, fetched := false, hold := none, atVec := none, waited := 0 }.sealEnd

/-- The end of an instruction, or of one of its repetitions (R147, R191). -/
def Tile.insnEnd (t : Tile) (nxt : Nat) : Tile :=
  match t.rep with
  | some n => if 1 < n then { t with rep := some (n - 1) } else t.insnOver.loopEnd nxt
  | none => t.insnOver.loopEnd nxt

/-- Take a pending software trap after the instruction (R305, R310); its entry runs from the issue cycle of the last bundle
(R312, Table 7.2). -/
def Tile.softEnd (t : Tile) : Tile :=
  match t.soft with
  | some (c, w) => { t with raised := some ⟨c, w, t.pc, 0, false, true, false, t.clk - 1⟩, soft := none }
  | none => t

/-- A detour request that waits becomes pending once the tile has run its last tick (R434, R435). -/
def Tile.migrReady (t : Tile) : Tile := match t.migrAt with
  | some a => if !t.inRtn && notEarlier t.nextN a then { t.iowf 0x07 1 1 1 with migrAt := none } else t
  | none => t

/-- A routine ends at ctl.waitm or by abandonment (R122, R420, R437): the last and the highest cycles used. -/
def Tile.routineEnd (t : Tile) : Tile :=
  if t.inRtn then
    let u := min t.used (2 ^ 18 - 1)
    { ((t.iowf 0x10B 35 18 u).iowf 0x10B 17 0 (max u (t.iof 0x10B 17 0))).setSk 0xD4 (wd t.skp) with inRtn := false }.migrReady
  else t

/-- The transfer of a bundle, after its clock has been paid. P1 waits for a routine, P0 for the next milestone (R122,
R126); a P1 tile that a RETX puts back to its wait begins late if its milestone has passed (R318, R420). -/
def State.transfer (s : State) (t : Tile) (ctl : Ctl) (nxt : Nat) : Tile :=
  match ctl with
  | .none => t.insnEnd nxt
  | .jump a => t.insnEnd a
  | .soft c w => { t.insnEnd nxt with soft := some (c, w) }
  | .waitm =>
    let t1 := t.insnEnd nxt
    let t2 := if tcrLevel t1.tcr = 0 then t1.routineEnd else t1
    { t2 with phase := .wait, waitAt := s.tick + 1 }
  | .retx =>
    let t1 := { t.sealEnd with fetched := false, atVec := none, waited := 0 }
    if t.phase == .wait && t.level == 0 then { t1 with waitAt := s.tick + 1 } else t1

/-- Words that leave a tile on which the pair disagrees, or agrees (R606). -/
def outMatch (x y : OutWord) : Bool :=
  match x, y with
  | .mesh a f, .mesh b g =>
    decide (a = b) && decide (putFld (putFld f 45 38 0) 71 71 0 = putFld (putFld g 45 38 0) 71 71 0)
  | .eg a, .eg b => decide ({ a with epoch := 0 } = { b with epoch := 0 })
  | a, b => decide (a = b)

/-- The pair's outcome for the two copies of one word (R606): primary, partner. -/
def pairWord (a b : Tile) (x y : OutWord) : Tile × Tile × Bool :=
  if outMatch x y then
    match x with
    | .look r => (a.send (.look r), b.send (.look r), false)
    | .win r => (a.send (.win r), b.send (.win r), false)
    | z => (a.send z, b, false)
  else
    match x with
    | .mesh k f => (a.send (.mesh k (flitSeal (putFld f 36 36 1))), b, true)
    | .look r => (a.send (.look { r with dead := true }), b.send (.look { r with dead := true }), true)
    | .eg _ => (a, b, true)
    | .win r =>
      if r.store then (a.winFail r, b.winFail r, true)
      else (a.setRes 0x93 0 true, b.setRes 0x93 0 true, true)

/-- Compare the words of a pair while both have one: primary, partner, mismatches. -/
def pairAll : Nat → Tile → Tile → Nat → Tile × Tile × Nat
  | 0, a, b, n => (a, b, n)
  | k + 1, a, b, n =>
    match a.rig, b.rig with
    | x :: r, y :: q =>
      let z := pairWord { a with rig := r } { b with rig := q } x y
      pairAll k z.1 z.2.1 (n + natB z.2.2)
    | _, _ => (a, b, n)

/-- The flits that a tile has put into its outbound channels, which are inputs of its junction (R364). -/
def State.flitsOut (s : State) (d p : Nat) (t : Tile) : Tile :=
  { t with outc := t.outc.map (fun (x : FlitAt) => if x.ent.isNone then s.flitIn d p x.port x.flit else x) }

/-- The tiles of a pair that had a mismatch are to be tested once they are free (R607). -/
def State.distrust (s : State) (l : List Nat) : State :=
  { s with pwr := { s.pwr with suspect := l ++ s.pwr.suspect.filter (fun k => !(l.contains k)) } }

/-- Words leave a tile: at once, or through the comparison of its pair while TCR.RIG = 1 (R606). -/
def State.leave (s : State) (d p : Nat) (t : Tile) (outs : List OutWord) : State :=
  match s.partner d p with
  | some q =>
    if bitOf t.tcr 7 then
      let s1 := s.setTile d p { t with rig := t.rig ++ outs }
      let pr := if s.isPrimary d p then p else q
      let pa := if s.isPrimary d p then q else p
      let z := pairAll 64 (s1.tile d pr) (s1.tile d pa) 0
      let s2 := (((s1.setTile d pr (s.flitsOut d pr z.1)).setTile d pa (s.flitsOut d pa z.2.1)).reach d pr).reach d pa
      if z.2.2 = 0 then s2
      else
        let slot := (s.slotOf d p).getD 0
        ((s2.bump (aPwr (0x58 + d)) 17 0 z.2.2).wf (aPwr (0x58 + d)) 22 18 (slot / 2)).distrust [tkey d pr, tkey d pa]
    else (s.setTile d p (s.flitsOut d p (outs.foldl (fun (t : Tile) x => t.send x) t))).reach d p
  | none => (s.setTile d p (s.flitsOut d p (outs.foldl (fun (t : Tile) x => t.send x) t))).reach d p

/-! ## Open points and events (R159 to R161, R306 to R309) -/

/-- A point at which asynchronous traps are taken (R306): an instruction boundary, between repetitions or steps, or while
waiting; never inside a signpost expansion, one that a RETX restored included. -/
def Tile.openPt (t : Tile) : Bool :=
  t.raised.isNone &&
  (match t.phase with
    | .wait => true
    | .run => t.exp.isNone && t.rsmMc.isNone && (t.fetched || (t.rep.isNone && !t.sealed))
    | _ => false)

/-- The TCR in force for the instruction that would issue next (R289, R311): between the steps of a bcopy or a tscan the one
in force for the bundle. -/
def Tile.nextTcr (t : Tile) (partner : Bool) : Tile := if t.stepping then t else t.tcrStep partner

/-- Does SEAL hold interrupts off (R160, R161)? Inside a sealed instruction, one that a RETX goes on with included, between
its repetitions, and at the boundary after it, until 16 in a run. -/
def Tile.sealOn (t : Tile) : Bool :=
  t.sealed || (!t.fetched && t.sealRun != 0) || (t.rsmRep.isSome && t.insByte t.level t.pc == some 0x84)

/-- A point at which interrupts are taken (R159 to R161, R308): at P0 under IE, at P1 only while waiting. DESIGN CHOICE (log
entry 70): the wait at ctl.waitm is no boundary that a sealed bundle holds closed (R160). -/
def Tile.openInt (t : Tile) (partner : Bool) : Bool :=
  let t1 := t.nextTcr partner
  t.openPt && (if t1.level = 0 then t.phase == .wait else bitOf t1.tcr 3) && (t.phase == .wait || !t.sealOn)

/-- LATEBUS is pending at an open point. -/
def Tile.lateDue (t : Tile) : Bool := t.openPt && bitOf (t.ior 0x07) 2
/-- TOLL is pending and enabled at an open point. -/
def Tile.tollDue (t : Tile) (partner : Bool) : Bool :=
  t.openPt && bitOf (t.ior 0x07) 3 && bitOf (t.nextTcr partner).tcr 6
/-- MIGRATE is pending where it can be taken. -/
def Tile.migrDue (t : Tile) (partner : Bool) : Bool := t.openInt partner && bitOf (t.ior 0x07) 1
/-- DOORBELL is pending where it can be taken. -/
def Tile.bellDue (t : Tile) (partner : Bool) : Bool := t.openInt partner && bitOf (t.ior 0x07) 0
/-- Some event is taken before the next bundle issues (R309). -/
def Tile.eventDue (t : Tile) (partner : Bool) : Bool :=
  t.lateDue || t.tollDue partner || t.migrDue partner || t.bellDue partner

end Sys2Proof.Machine
end

