-- ==== Sys2Proof/Machine/TileExec.lean ====
section
/-!
DEFINITION. The commands of a tile that runs: BUNDLE, the prefixes REP.i, REP.s, LOOP.i, LOOP.s and SEAL, and the start
of a macro (spec/04_encoding_and_signposts.md). A prefix or a macro opcode is its own command; BUNDLE then issues each
bundle, repetition or body bundle. A command whose turn it is not leaves the tile as it is (log entry 11).
-/
namespace Sys2Proof.Machine

/-- The level of the next bundle (R190, R290). -/
def Tile.issueLevel (t : Tile) : Nat := match t.exp with
  | some x => x.lvl
  | none => t.level

/-- The tile as its next bundle issues: TCR writes that complete now, the bundle counted (R289). DESIGN CHOICE (log entry 94):
an instruction of a LOOP.s body whose count is 0 counts as a bundle here. -/
def State.begin1 (s : State) (d p : Nat) (t : Tile) : Tile :=
  let t1 := if t.stepping then t else t.bcpFlush.tcrStep (s.partner d p).isSome
  { t1 with bid := t.bid + 1 }

/-- May the tile issue now? A retired one may not (R621). -/
def State.canIssue (s : State) (d p : Nat) (t : Tile) : Bool :=
  t.phase == .run && s.clocked d p && t.raised.isNone && !(t.eventDue (s.partner d p).isSome)

/-- A bundle issued at c with cost cycles to the next: clock and cyc toll. -/
def Tile.spend (t : Tile) (old issue cost : Nat) : Tile :=
  { (t.chargeCyc (issue + cost - old)) with clk := issue + cost, waited := 0, fetched := true }

/-- ext cycles pass in the tile: cycles of the routine in progress (R282). -/
def Tile.pass (t : Tile) (ext : Nat) : Tile := { t.chargeCyc ext with clk := t.clk + ext }

/-- ext cycles pass while the next bundle still waits; they run beside its shape cycles (R683). -/
def State.stall (s : State) (d p ext : Nat) : State :=
  if ext = 0 then s
  else
    let t := s.tile d p
    s.setTile d p { t.pass ext with waited := t.waited + ext }

/-- What follows a body bundle: the next one, or the end of the expansion and of its instruction (R184). -/
def Tile.bodyEnd (t : Tile) (x : ExpSt) (last : Bool) (q : Nat) (ctl : Ctl) : Tile :=
  let t1 := match ctl with
    | .soft c w => { t with soft := some (c, w) }
    | _ => t
  if last then ({ t1 with exp := none }.insnEnd x.next).softEnd
  else { t1 with exp := some { x with mix := x.mix + 1, off := q, first := false } }

/-- The single resumable move of a bundle, if its guard holds (R248). -/
def Tile.stepMove (t : Tile) (ms : List Move) : Option Move :=
  match ms with
  | [m] => if resumable m.dst m.op && t.guardOk m then some m else none
  | _ => none

/-- Does a data word lie in the vault? -/
def Tile.inVault (t : Tile) (warden : Bool) (a : Word) : Bool :=
  match t.map warden a.toNat with
  | some p => decide (0x9000 ≤ p)
  | none => false

/-- The issue cycle of the bundle of a bcopy or a tscan (R113, R683). -/
def Tile.stepCycle (t : Tile) (m : Move) (shape ext : Nat) : Nat :=
  let c := max (max (t.clk - t.waited + shape + portStall [m]) (t.evTime [(0, m)])) t.clk
  if t.outside [(0, m)] false then max c (t.clk + ext) else c

/-- One step of bcopy or tscan (R245, R247, R249): the first issue latches T and retires the store buffer; each step is
a cycle; the operation ends when INDEX reaches n. once: what the first issue does beside that; fin: the end of the bundle. -/
def State.stepIssue (s : State) (d p : Nat) (t : Tile) (m : Move) (lvl shape ext : Nat) (once fin : Tile → Tile) : State :=
  let b := m.dst / 8 * 8
  let scan := m.dst == 0xA2
  let pgA := if scan then 0xA8 else b + 6
  let nA := if scan then 0xA7 else b + 5
  let c := if t.stepping then t.clk else t.stepCycle m shape ext
  let t0 := t.sbAt c
  let v := s.moveVal d p t0 (c - t.clk) m
  if !t.stepping && privStatic lvl m then
    s.setTile d p ((once t).raise ⟨1, m.at_, some 0⟩ (max t.clk (t.clk - t.waited + shape)))
  else if !t.stepping && (t.srcWait m.src || t.sbHeld) then s.stall d p ext
  else if !t.stepping && v.2 then s.setTile d p ((once t).raise ⟨5, m.src, some 0⟩ c)
  else
    let w := if t.stepping then t.sk m.dst else v.1
    let n := fld (t.sk nA) 15 0
    let t1 := if t.stepping then t
      else
        let u := { ((once t0).setSk m.dst w).pops (if isPop m.src then [m.src] else []) with
          patched := false, rsmRep := none, rsmMc := none }
        let td := Tile.sbDrain u.sb.length u
        td.setSk pgA (pgStart scan (td.sk pgA) (td.sk nA))
    let dcost := if t.stepping then 0 else 1 + t0.sbLeft c
    let ix := fld (t1.sk pgA) 15 0
    let wiping := bitOf (t.ior 0x1E) 0
    if n ≤ ix then
      let t2 := t1.setSk pgA (putFld (t1.sk pgA) 16 16 0)
      s.setTile d p (fin { t2.spend t.clk c dcost with stepping := false })
    else if wiping && (t1.inVault (p == 72) (if scan then w + wd ix else t1.sk b + wd ix) ||
        (!scan && t1.inVault (p == 72) (w + wd ix))) then s.stall d p ext
    else
      let r := if scan then t1.tscanStep (p == 72) m.op ix w else t1.bcopyStep (p == 72) b ix n w
      match r.2 with
      | some (k, x) =>
        s.setTile d p ({ (r.1.bcpFlush.spend t.clk c dcost) with stepping := false }.raise ⟨k, x, some 0⟩ c)
      | none =>
        let t2 := r.1.setSk pgA (putFld (r.1.sk pgA) 15 0 (ix + 1))
        let done := decide (n ≤ ix + 1)
        let t3 := if done then t2.setSk pgA (putFld (t2.sk pgA) 16 16 0) else t2
        let t4 := { t3.spend t.clk c (dcost + 1) with stepping := !done }
        s.setTile d p (if done then fin t4 else t4)

/-- Findings of the fetch of a body bundle that cannot be fetched: granule by granule from offset a, n at most, up to the
one that fails. -/
def Tile.fetchTill (t : Tile) (a : Nat) : Nat → Tile
  | 0 => t
  | n + 1 =>
    let r := t.read 2 3 (a / 8)
    if r.2.2 then r.1 else r.1.fetchTill (a / 8 * 8 + 8) n

/-- The fetch and 6-cycle rows of a body bundle (R185). -/
def Tile.bodyShape (t : Tile) (x : ExpSt) : Nat := (if x.first then t.fetchStall x.next else 0) + t.patchStall

/-- One body bundle of the expansion in progress (R184 to R190). DESIGN CHOICE (log entry 95): its fetch window (R173) is the
64 bytes of instruction memory after the macro instruction; one that traps UNDEF in decoding has fetched the granules up to
the byte that SINFO names (log entry 96). -/
def State.bodyIssue (s : State) (d p : Nat) (t : Tile) (x : ExpSt) (ext : Nat) : State :=
  let e := dirEntry x.dir
  let shape := t.bodyShape x
  let at0 := fun n => max t.clk (t.clk - t.waited + shape + n)
  match bodyBundle t.sigByte e x.ops x.opAt x.off with
  | .error st =>
    s.setTile d p ((if st.code = 0x0B then t.fetchTill x.off ((min (e.body + e.blen) (x.off + 69) + 7) / 8 - x.off / 8)
      else t.fetchFx 3 x.off (max x.off st.info)).raise st (at0 0))
  | .ok (ms, q, u) =>
    let t1 := t.fetchFx 3 x.off (q - 1)
    let last := decide (e.nbun ≤ x.mix)
    match firstOf u (t.manyStop ms) with
    | some st => s.setTile d p (t1.raise st (at0 (portStall ms)))
    | none => match t1.stepMove ms with
      | some m => s.stepIssue d p t m x.lvl shape ext (fun u => u.fetchFx 3 x.off (q - 1)) (fun u => u.bodyEnd x last q .none)
      | none =>
        match s.issueMoves d p { t1 with patched := false } x.lvl ⟨x.next, x.opAt - t.pc⟩ ms shape ext with
        | .wait => s.stall d p ext
        | .trap t2 st c => s.setTile d p (t2.raise st c)
        | .ok t2 outs ctl c cost => s.leave d p ((t2.spend t.clk c cost).bodyEnd x last q ctl) outs

/-- The prefix stages of an instruction have all begun. -/
def Tile.stagesOk (t : Tile) (i : Insn) : Bool :=
  (t.sealed || !i.sealed) && (t.rep.isSome || i.rep == .none)

/-! ## Decode traps; macros (R180 to R191) -/

/-- The first SOCK operand byte that names no readable socket (R182), with its address. -/
def badSock (e : DirEntry) (ops : List Byte) (o : Nat) : Option Nat :=
  ((List.range e.nops).find? (fun k => e.kind k = 0 && !(sockOperandOk ((ops[k]?).getD 0).toNat))).map (fun k => o + 1 + k)

/-- The checks of R182 and R183 on the macro at o, entry e. -/
def macroCheck (v : Option Nat) (lvl entry o : Nat) (ops : List Byte) : Option Stop :=
  match v with
  | none => some ⟨0x0B, o, none⟩
  | some v =>
    let e := dirEntry v
    if e.bad || decide (64 ≤ entry) then some ⟨2, o, none⟩
    else match badSock e ops o with
      | some a => some ⟨2, a, none⟩
      | none => if e.p0only && lvl = 0 then some ⟨1, o, none⟩ else none

/-- The operand bytes of a macro at o. -/
def Tile.opBytes (t : Tile) (lvl o n : Nat) : List Byte :=
  (List.range n).map (fun k => BitVec.ofNat 8 ((t.insByte lvl (o + 1 + k)).getD 0))

/-- The decode trap of an instruction that decodes (R132), in the order of R309: a reserved encoding or a macro that cannot
be dispatched, then PRIV of a prefix (R146), of a macro (R183) or of a move (R104, R286). It is found before any repetition
begins (R149, R150). runs: the instruction executes, so that UNDEF of R248 stands beside them. -/
def Tile.decodeStop (t : Tile) (lvl : Nat) (runs : Bool) (i : Insn) : Option Stop :=
  let many := if runs then match i.body with
      | .bundle ms => t.manyStop ms
      | _ => none
    else none
  let m := match i.body with
    | .macro_ e o => macroCheck (t.dirVal e) lvl e o (t.opBytes lvl o (t.nops e))
    | .bundle ms => ((lanesOf ms).find? (fun (x : Nat × Move) => privStatic lvl x.2)).map (fun (x : Nat × Move) => ⟨1, x.2.at_, some x.1⟩)
    | _ => none
  let pre := match i.rep, i.body with
    | .repS, _ => lvl == 0 && t.rep.isNone
    | _, .loopS _ _ _ => lvl == 0
    | _, _ => false
  match firstOf i.undef many with
  | some st => some st
  | none => match m with
    | some st => if st.code = 1 ∧ pre = true then some ⟨1, t.pc + natB i.sealed, none⟩ else some st
    | none => if pre then some ⟨1, t.pc + natB i.sealed, none⟩ else none

/-- Raise a decode trap of an instruction whose length is known, with the findings of its fetch. A directory entry that
cannot be read is found too, and nothing of the macro is decoded (R321). -/
def Tile.raiseStop (t : Tile) (i : Insn) (st : Stop) : Tile :=
  let t1 := t.fetchIns i.next
  (match i.body with
    | .macro_ e _ => if st.code = 0x0B then { t1.fetchFx 3 (8 * e) (8 * e) with rsmMc := none } else t1
    | _ => t1).raise st (t.shapeAt i)

/-- One instruction of a LOOP.s body whose count is 0: decoded at one cycle, not executed (R157). DESIGN CHOICE (log entry
68): its bytes pay no fetch row of Table 3.5. -/
def Tile.dryStep (t : Tile) (i : Insn) : Tile :=
  let t1 := { (t.fetchIns i.next).pass 1 with sealed := i.sealed }
  t1.insnOver.loopEnd i.next

/-- What the operands do at the start of an expansion (R181, Table 4.10). -/
def Tile.macroOps (t : Tile) (e : DirEntry) (ops : List Byte) : Tile :=
  (List.range e.nops).foldl (fun (t : Tile) k =>
    let v := ((ops[k]?).getD 0).toNat
    match e.kind k with
    | 1 => t.setSk (0xD8 + k) (sxWord 8 v)
    | 2 => t.setSk (0xD8 + k) (wd v)
    | 3 => t.setSk (0xD8 + k - 1) (wd (256 * v + ((ops[k - 1]?).getD 0).toNat))
    | _ => t) t

/-- The bank offset of body bundle n (R164), or of the first before it that cannot be decoded. -/
def Tile.bodyOff (t : Tile) (e : DirEntry) (ops : List Byte) (o : Nat) : Nat → Nat → Nat
  | 0, off => off
  | n + 1, off => match bodyBundle t.sigByte e ops o off with
    | .ok (_, q, _) => t.bodyOff e ops o n q
    | .error _ => off

/-- Begin an expansion of the macro at o, entry as named, whose instruction ends at nxt (R181 to R191), or go on with one
that RETX restored (R164). -/
def Tile.macroBegin (t : Tile) (lvl entry o nxt : Nat) : Tile :=
  let t0 := { ((t.capture lvl nxt).fetchIns nxt).fetchFx 3 (8 * entry) (8 * entry) with rsmMc := none, rsmRep := none }
  let v := (t.dirVal entry).getD 0
  let ops := t.opBytes lvl o (t.nops entry)
  let e := dirEntry v
  match t.rsmMc with
  | some (mix, _) =>
    let t1 := (List.range 8).foldl (fun (t : Tile) i => t.setSk (0xD8 + i) (t.ior (0x50 + i))) t0
    { t1 with exp := some ⟨entry, mix, t.bodyOff e ops o mix e.body, ops, true, lvl, o, nxt, v⟩ }
  | none => { t0.macroOps e ops with exp := some ⟨entry, 0, e.body, ops, true, lvl, o, nxt, v⟩ }

/-! ## Commands -/

/-- One bundle in the instruction stream: an issue, or a step of a bcopy or a tscan. -/
def State.bundleIssue (s : State) (d p : Nat) (t : Tile) (lvl : Nat) (i : Insn) (ms : List Move) (ext : Nat) : State :=
  let keep := fun (u : Tile) => if u.rep.isSome ∨ (u.stepMove ms).isSome then u.keepBytes lvl i.next else u
  let once := fun (u : Tile) => ((keep u).capture lvl i.next).fetchIns i.next
  let shape := t.fetchStall i.next + t.patchStall
  match t.stepMove ms with
  | some m => s.stepIssue d p t m lvl shape ext once (fun u => u.insnEnd i.next)
  | none =>
    match s.issueMoves d p { once t with patched := false } lvl ⟨i.next, i.prefixLen⟩ ms shape ext with
    | .wait => s.stall d p ext
    | .trap t1 st c => s.setTile d p (t1.raise st c)
    | .ok t1 outs ctl c cost => s.leave d p (s.transfer (t1.spend t.clk c cost) ctl i.next).softEnd outs

/-- Is the active loop a LOOP.s whose count is 0 (R157)? -/
def Tile.dryLoop (t : Tile) : Bool := match t.loop with
  | some l => l.dry
  | none => false

/-- One bundle, repetition, body bundle or step of the tile. -/
def State.bundle (s : State) (d p ext : Nat) : State :=
  let t0 := s.tile d p
  if s.canIssue d p t0 then
    let t := s.begin1 d p t0
    let lvl := t.issueLevel
    match t.exp with
    | some x => s.bodyIssue d p t x ext
    | none =>
      match t.insn lvl with
      | .error st => s.setTile d p (t.raiseDecode st)
      | .ok i =>
        match t.decodeStop lvl (!t.dryLoop) i with
        | some st => s.setTile d p (t.raiseStop i st)
        | none =>
          if t.dryLoop then s.setTile d p (t.dryStep i)
          else if t.stagesOk i then
            match i.body with
            | .bundle ms => s.bundleIssue d p { t with rsmRep := none, rsmMc := none } lvl i ms ext
            | _ => s
          else s
  else if t0.phase == .wait && t0.inRtn then s.setTile d p (t0.pass ext)
  else s

/-- BUNDLE (R93 to R102). ext: the cycles that go by in waiting for what is outside the tile, or at ctl.waitm at P0. -/
def execBundle (d p ext : Nat) (s : State) : Out := live (dieOk d && tileOk p) s (fun s => s.bundle d p ext)

/-- Does the instruction at pc execute once its turn comes: all do but one that a REP governs whose count is 0 (R150)? -/
def Tile.runs (t : Tile) (i : Insn) : Bool := match i.rep with
  | .none => true
  | .repI n => t.rsmRep.getD n != 0
  | .repS => t.rsmRep.getD (fld (t.sk 0x2B) 17 0) != 0

/-- A prefix command: the instruction at pc, decoded at its level, when its turn has come and it decodes. -/
def State.atPrefix (s : State) (d p : Nat) (f : Tile → Nat → Insn → State) : State :=
  let t0 := s.tile d p
  if s.canIssue d p t0 && t0.exp.isNone && !t0.fetched && !t0.dryLoop then
    let t := t0.tcrStep (s.partner d p).isSome
    match t.insn t.level with
    | .error st => s.setTile d p (t.raiseDecode st)
    | .ok i => match t.decodeStop t.level (t.runs i) i with
      | some st => s.setTile d p (t.raiseStop i st)
      | none => f t0 t.level i
  else s

/-- Begin a repetition of count n (R147): the instruction's bytes are fetched once (R148). A count of 0 takes one issue cycle
and skips the instruction (R150); one that a RETX restored is taken so under REP.i too (log entry 69). -/
def State.repBegin (s : State) (d p : Nat) (t : Tile) (lvl n : Nat) (i : Insn) : State :=
  if n = 0 then
    let t1 := (((t.tcrStep (s.partner d p).isSome).capture lvl i.next).fetchIns i.next).pass (1 + t.patchStall)
    s.setTile d p ({ t1 with patched := false, rsmRep := none, rsmMc := none }.insnEnd i.next)
  else s.setTile d p { t.keepBytes lvl i.next with rep := some n, rsmRep := none }

/-- Begin REP.i: the count, or what a RETX left of it (R143, R164). -/
def State.beginRepI (s : State) (d p : Nat) : State :=
  s.atPrefix d p (fun t lvl i =>
    match i.rep with
    | .repI n => if t.rep.isNone && (t.sealed || !i.sealed) then s.repBegin d p t lvl (t.rsmRep.getD n) i else s
    | _ => s)

/-- Begin REP.s (R144, R149, R150). -/
def State.beginRepS (s : State) (d p : Nat) : State :=
  s.atPrefix d p (fun t lvl i =>
    match i.rep with
    | .repS =>
      if t.rep.isNone && (t.sealed || !i.sealed) then s.repBegin d p t lvl (t.rsmRep.getD (fld (t.sk 0x2B) 17 0)) i else s
    | _ => s)

/-- The loop that a LOOP prefix begins (R152, R169): from the loop buffer if it holds the body, else its first iteration is
captured. DESIGN CHOICE (log entry 70): a LOOP prefix after a sealed instruction ends its run (R161) and opens the point
between it and the first instruction of the body. -/
def Tile.loopBegin (t : Tile) (start nb count : Nat) : Tile :=
  let buf := Held.isBody t.lbuf start nb
  { t with pc := start, fetched := false, sealRun := 0, rsmRep := none, rsmMc := none, atVec := none, hold := none, waited := 0,
           lcap := if buf ∨ count = 0 ∨ 32 ≤ nb then t.lcap else some ⟨start, nb, []⟩,
           loop := some ⟨start, nb, 0, count, decide (count = 0), buf⟩ }

/-- Begin LOOP.i, which takes no issue cycle (R154). -/
def State.beginLoopI (s : State) (d p : Nat) : State :=
  s.atPrefix d p (fun t _ i =>
    match i.body with
    | .loopI count nb => s.setTile d p ((t.fetchIns i.next).loopBegin i.next nb count)
    | _ => s)

/-- Begin LOOP.s: one issue cycle, its count read under the rules of a source (R155). -/
def State.beginLoopS (s : State) (d p ext : Nat) : State :=
  s.atPrefix d p (fun t0 _ i =>
    match i.body with
    | .loopS src nb _ =>
      let t := s.begin1 d p t0
      if t.srcWait src then s.stall d p ext
      else
        let c0 := max (max (t.clk - t.waited + t.fetchStall i.next + t.patchStall) (t.readyAt src)) t.clk
        let c := if isPop src || src == 0x93 then max c0 (t.clk + ext) else c0
        let t1 := (t.sbAt c).fetchIns i.next
        let v := s.srcVal d p t1 (c - t.clk) src
        if v.2 then s.setTile d p (t1.raise ⟨5, src, none⟩ c)
        else
          let t2 := { t1.pops (if isPop src then [src] else []) with patched := false }
          s.setTile d p ((t2.spend t.clk c 1).loopBegin i.next nb (fld v.1 17 0))
    | _ => s)

/-- Begin SEAL (R159 to R161). -/
def State.beginSeal (s : State) (d p : Nat) : State :=
  s.atPrefix d p (fun t _ i => if i.sealed && !t.sealed then s.setTile d p { t with sealed := true } else s)

/-- Begin a macro's expansion. -/
def State.beginMacro (s : State) (d p : Nat) : State :=
  let t0 := s.tile d p
  if s.canIssue d p t0 && t0.exp.isNone && !t0.dryLoop then
    let t := t0.tcrStep (s.partner d p).isSome
    match t.insn t.level with
    | .error _ => s
    | .ok i => match i.body with
      | .macro_ e o => match t.decodeStop t.level true i with
        | some st => s.setTile d p (t.raiseStop i st)
        | none => if t0.stagesOk i then
            let t1 := t0.macroBegin t.level e o i.next
            s.setTile d p (if t1.rep.isSome then t1.keepBytes t.level i.next else t1)
          else s
      | _ => s
  else s

/-- The cycle in which the next bundle would issue, of a tile with nothing else due (R312): now, where it waits for what has
not come, or has nothing to issue. n: LOOP.i prefixes that may stand before it. -/
def State.wouldIssue (s : State) (d p : Nat) : Nat → Tile → Nat
  | 0, t => t.clk
  | n + 1, t =>
    let lvl := t.level
    match t.insn lvl with
    | .error _ => t.clk + t.patchStall
    | .ok i => match t.decodeStop lvl (t.runs i) i with
      | some _ => t.shapeAt i
      | none =>
        if t.dryLoop then t.clk
        else if t.rep.isNone && !(t.runs i) then t.clk + t.patchStall
        else
          let shape := t.fetchStall i.next + t.patchStall
          let go := fun (ms : List Move) => match t.stepMove ms with
            | some m => t.stepCycle m shape 0
            | none => (s.issueCycle d p t lvl ⟨i.next, i.prefixLen⟩ ms shape 0).getD t.clk
          match i.body with
          | .bundle ms => go ms
          | .loopI count nb => s.wouldIssue d p n (t.loopBegin i.next nb count)
          | .loopS src _ _ => max (t.clk - t.waited + shape) (max t.clk (t.readyAt src))
          | .macro_ e o =>
            let v := dirEntry ((t.dirVal e).getD 0)
            let ops := t.opBytes lvl o (t.nops e)
            let off := match t.rsmMc with
              | some x => t.bodyOff v ops o x.1 v.body
              | none => v.body
            match bodyBundle t.sigByte v ops o off with
            | .ok (ms, _, _) => go ms
            | .error _ => t.clk + shape

/-- REP_I (R143, R147). -/
def execRepI (d p : Nat) (s : State) : Out := live (dieOk d && tileOk p) s (fun s => s.beginRepI d p)
/-- REP_S (R144, R149, R150). -/
def execRepS (d p : Nat) (s : State) : Out := live (dieOk d && tileOk p) s (fun s => s.beginRepS d p)
/-- LOOP_I (R152, R154). -/
def execLoopI (d p : Nat) (s : State) : Out := live (dieOk d && tileOk p) s (fun s => s.beginLoopI d p)
/-- LOOP_S (R155 to R157). -/
def execLoopS (d p ext : Nat) (s : State) : Out := live (dieOk d && tileOk p) s (fun s => s.beginLoopS d p ext)
/-- SEAL (R160). -/
def execSeal (d p : Nat) (s : State) : Out := live (dieOk d && tileOk p) s (fun s => s.beginSeal d p)
/-- SIGNPOST_MACRO (R181 to R184). -/
def execSignpostMacro (d p : Nat) (s : State) : Out := live (dieOk d && tileOk p) s (fun s => s.beginMacro d p)

end Sys2Proof.Machine
end

