-- ==== Sys2Proof/Machine/Traps.lean ====
section
/-!
DEFINITION. Traps and interrupts of a tile: taking one (R311), halting (R313), and the events taken at open points in
the order of R309 (spec/07_control_privilege_traps.md).
-/
namespace Sys2Proof.Machine

/-- The Delegable column of Table 7.7. -/
def delegable (code : Nat) : Bool := !(code == 8 || code == 0x0A || code == 0x11)

/-- The TILE_IPEND bit that an entry clears; a software trap clears none (R305, R311). -/
def Tile.clearPend (t : Tile) (tr : Trap) : Tile :=
  if tr.soft then t
  else if tr.code = 0x0A then (t.iowf 0x07 2 2 0).iowf 0x07 13 4 0
  else if tr.code = 9 then t.iowf 0x07 3 3 0
  else if tr.code = 0x10 then t.iowf 0x07 0 0 0
  else if tr.code = 0x11 then t.iowf 0x07 1 1 0
  else t

/-- Record the repetition, loop and expansion in progress (R162, R163); where there is none, its VALID bit goes to 0 and the
rest of its registers stays. -/
def Tile.record (t : Tile) : Tile :=
  let rep := match t.rep with
    | some n => some n
    | none => t.rsmRep
  let t1 := match rep with
    | some n => t.iow 0x48 (wd (n % 2 ^ 18 + 2 ^ 18))
    | none => t.iowf 0x48 18 18 0
  let t2 := match t.loop with
    | some l => (t1.iow 0x49 (wd (l.start + 2 ^ 16 * l.nb + 2 ^ 24 * l.idx + 2 ^ 32))).iow 0x4A (wd l.lrem)
    | none => t1.iowf 0x49 32 32 0
  match t.exp with
  | some x =>
    (List.range 8).foldl (fun (u : Tile) i => u.iow (0x50 + i) (t.sk (0xD8 + i)))
      (t2.iow 0x4B (wd (x.mix + 16 * x.entry + 1024)))
  | none => match t.rsmMc with
    | some (mix, e) => t2.iow 0x4B (wd (mix + 16 * e + 1024))
    | none => t2.iowf 0x4B 10 10 0

/-- The vector of an entry (R311). -/
def vectorOf (stcr : Word) (dlg : Bool) (code : Nat) : Nat := fld stcr 13 8 * 1024 + 512 * natB dlg + 16 * code

/-- SINFO of an entry (Table 7.7): what the trap was raised with; of an event, the register that its IPEND bit stands for,
as it is when the entry clears that bit. -/
def Tile.sinfo (t : Tile) (tr : Trap) : Word :=
  if tr.soft then tr.info
  else if tr.code = 0x0A then wd t.lateAddr
  else if tr.code = 9 then t.ior 0x108
  else if tr.code = 0x10 then t.ior 0x08
  else if tr.code = 0x11 then t.migr
  else tr.info

/-- No instruction is in progress: no repetition, loop, expansion, seal or resumable step, nothing kept of one. -/
def Tile.quiet (t : Tile) : Tile :=
  { t.bcpFlush with
    rep := none, loop := none, exp := none, rsmRep := none, rsmMc := none, sealed := false, sealRun := 0, fetched := false,
    stepping := false, hold := none, atVec := none, waited := 0 }

/-- Taking a trap or interrupt (R311): the one shared entry. An event pending at the boundary before the vector's instruction
is taken first (R309); the tile halts as that instruction traps FETCH (R313, Tile.raise). -/
def Tile.enter (t : Tile) (partner : Bool) (tr : Trap) : Tile :=
  let t0 := if tr.tcrDone then t else t.tcrStep partner
  let stcr := tcrShow partner t0.tcr
  let pend := t0.tcrQ.getLast?
  let wait := t.flagReady - tr.bundleAt
  let dlg := bitOf stcr 0 && bitOf stcr 2 && delegable tr.code
  let sst := wd ((t0.sk 0x32).toNat + 16 * (tr.code % 32) + 512 * (tr.lane % 8) + 4096 * natB tr.lv + 8192 * natB tr.soft
    + 16384 * natB (t.phase == .wait) + 32768 * natB pend.isSome + 65536 * natB (bitOf stcr 0)
    + 131072 * natB (bitOf stcr 1 && !(bitOf stcr 0)))
  let t1 := ((((t0.record.iow 0x01 (wd (tr.spc % 65536))).iow 0x02 sst).iow 0x03 stcr).iow 0x05 (t.sinfo tr))
  let t2 := match pend with
    | some e => t1.iow 0x04 e.1
    | none => t1
  let new := putFld (putFld (putFld stcr 0 0 0) 1 1 (natB dlg)) 3 3 0
  let t3 := ((t2.iow 0 new).clearPend tr).bump 0x09 35 18 1
  let cost := 5 + wait + tr.bundleAt - t.clk
  { (t3.chargeCyc cost).quiet with
    clk := t.clk + cost, pc := vectorOf stcr dlg tr.code, tcrQ := [], soft := none, raised := none, phase := .run,
    atVec := some tr.code }

/-- Enter the handler of the raised trap. -/
def State.trapEntry (s : State) (d p : Nat) : State :=
  let t := s.tile d p
  match t.raised.filter (fun _ => s.clocked d p) with
  | some tr => s.setTile d p (t.enter (s.partner d p).isSome tr)
  | none => s

/-- Raise an asynchronous trap or an interrupt at this open point (R310). Its entry runs from the cycle in which the next
bundle would have issued (R312), or while the tile waits or steps, from now. A retired tile takes none (R621). -/
def State.raiseAsync (s : State) (d p : Nat) (code : Nat) : State :=
  let t := s.tile d p
  let at_ := if t.phase == .run && !t.stepping then s.wouldIssue d p 4 (s.begin1 d p t) else t.clk
  if !(s.clocked d p) then s
  else s.setTile d p { t.bcpFlush with
    raised := some ⟨code, 0, t.pc, 0, false, false, t.stepping, at_⟩, patched := t.patched && t.phase != .run, waited := 0 }

/-- Pending failed window stores are taken (R306, R307). -/
def State.takeLate (s : State) (d p : Nat) : State :=
  let t := s.tile d p
  if t.lateDue then s.raiseAsync d p 0x0A else s

/-- A pending toll event is taken while TCR.TLE = 1 (R306). -/
def State.takeToll (s : State) (d p : Nat) : State :=
  let t := s.tile d p
  if t.tollDue (s.partner d p).isSome && !t.lateDue then s.raiseAsync d p 9 else s

/-- A pending detour request is taken (R308, R436). -/
def State.takeMigr (s : State) (d p : Nat) : State :=
  let t := s.tile d p
  let q := (s.partner d p).isSome
  if t.migrDue q && !t.lateDue && !(t.tollDue q) then s.raiseAsync d p 0x11 else s

/-- A pending doorbell is taken (R308). -/
def State.takeBell (s : State) (d p : Nat) : State :=
  let t := s.tile d p
  let q := (s.partner d p).isSome
  if t.bellDue q && !t.lateDue && !(t.tollDue q) && !(t.migrDue q) then s.raiseAsync d p 0x10
  else s

/-- TRAP_ENTRY (R311). -/
def execTrapEntry (d p : Nat) (s : State) : Out := live (dieOk d && tileOk p) s (fun s => s.trapEntry d p)
/-- LATEBUS (R306, R307). -/
def execLatebus (d p : Nat) (s : State) : Out := live (dieOk d && tileOk p) s (fun s => s.takeLate d p)
/-- TOLL (R306). -/
def execToll (d p : Nat) (s : State) : Out := live (dieOk d && tileOk p) s (fun s => s.takeToll d p)
/-- DOORBELL (R308). -/
def execDoorbell (d p : Nat) (s : State) : Out := live (dieOk d && tileOk p) s (fun s => s.takeBell d p)
/-- MIGRATE (R308). -/
def execMigrate (d p : Nat) (s : State) : Out := live (dieOk d && tileOk p) s (fun s => s.takeMigr d p)

end Sys2Proof.Machine
end

