-- ==== Sys2Proof/Machine/Routine.lean ====
section
/-!
DEFINITION. Tick routines: beginning on time or late, waiting at P0, overrun, skip, abandonment and the delivery of toll
events to the warden (spec/03 R120 to R126, spec/10 R413 to R421, R685).
-/
namespace Sys2Proof.Machine

/-- Milestones from tick n to now, 0 if n is not past (R56). -/
def ticksSince (now n : Tick) : Nat := let d := (now - n).toNat; if d < 2 ^ 47 then d else 0

/-- k of the tile's relay group. -/
def Tile.kOf (t : Tile) : Nat := 2 ^ t.iof 0x100 18 16
/-- k as the routine in progress read it (Table 10.10). -/
def Tile.kRtn (t : Tile) : Nat := 2 ^ fld t.rtnCfg 18 16
/-- TILE_RTN.EN. -/
def Tile.en (t : Tile) : Bool := bitOf (t.ior 0x100) 23

/-- The first tick at or after a that the tile is assigned: N mod k = J (R88, R406). DESIGN CHOICE (log entry 88): a J written
at or above k names no member of the group and is taken modulo k. -/
def Tile.firstTick (t : Tile) (a : Tick) : Tick :=
  let k := t.kOf
  a + BitVec.ofNat 48 ((t.iof 0x100 22 19 % k + k - a.toNat % k) % k)

/-- The allowance A scaled to the mode in force when it is faster than MINMODE (R413). -/
def scaled (a mode minmode : Nat) : Nat := if minmode < mode then a * modeClk mode / modeClk minmode else a

/-- MINMODE of a tile's image. -/
def State.minMode (s : State) (d p : Nat) : Nat := match s.tileImage d p with
  | some im => im.minmode
  | none => s.mode

/-- The routine for nextN is abandoned before anything else at this milestone (R421, R685). -/
def Tile.abandonDue (t : Tile) (now : Tick) : Bool :=
  t.inRtn && decide (1 + t.kRtn * (1 + fld t.rtnCfg 27 24) ≤ ticksSince now t.rtn)

/-- The oldest tick neither run nor skipped is to be skipped (R419), on a halted tile too (R640). -/
def Tile.skipDue (t : Tile) (now : Tick) : Bool :=
  t.en && t.placed && (t.phase == .halt || !(t.abandonDue now)) && decide (1 + t.kOf ≤ ticksSince now t.nextN)

/-- Is the tile's next tick no longer its own: at or after the tick of a swap that it has not followed yet, or at whose
completion it stops (R428; on a die without a healthy warden no swap is carried out, R27), at or after the switch of a detour
that takes its slot away (R434, R435; one whose die has lost its warden is given up before its slot has moved, log entry
102), or after a DISARM (R646)? -/
def State.tickGone (s : State) (d p : Nat) (t : Tile) : Bool :=
  (match s.img.swapAt with
    | some a => !(s.img.switched.contains (tkey d p)) && s.healthy d && notEarlier t.nextN a
    | none => false) ||
  (match t.stopAt with
    | some a => s.healthy d && notEarlier t.nextN a
    | none => false) ||
  (match s.img.disarmAt with
    | some a => notEarlier s.tick a
    | none => false) ||
  (s.detoursOn d).any (fun (x : Detour) => x.from_ == p && notEarlier t.nextN x.switch)

/-- Does the tile wait for the state that a non-convergent detour copies into it (R435)? -/
def State.awaitsCopy (s : State) (d p : Nat) : Bool :=
  (s.detoursOn d).any (fun (x : Detour) => x.to_ == p && !x.conv && !x.copied)

/-- The routine in progress overruns and has not been found to (R418). -/
def Tile.overDue (t : Tile) (now : Tick) : Bool :=
  t.inRtn && t.phase != .halt && decide (1 + t.kRtn ≤ ticksSince now t.rtn) && !(bitOf (t.sk 0xD3) 0)

/-- Can the tile begin a routine now (R77, R120, R416, R420, R428, R435)? -/
def State.canBegin (s : State) (d p : Nat) (t : Tile) : Bool :=
  t.phase == .wait && t.level == 0 && t.en && t.placed && !t.inRtn && t.raised.isNone && !(s.tickGone d p t) &&
  !(s.awaitsCopy d p) &&
  !(t.eventDue (s.partner d p).isSome) && decide (1 ≤ ticksSince s.tick t.nextN) && !(t.skipDue s.tick) &&
  s.depositsIn d p t.nextN

/-- Begin the routine for the tile's next tick (R120, R121, R413, R417, R420). -/
def Tile.begin (t : Tile) (now : Tick) (mode minmode : Nat) : Tile :=
  let n := t.nextN
  let late := decide (1 < ticksSince (t.begAt.getD t.waitAt) n)
  let behind := if late then min 255 (ticksSince now n) else 0
  let a := t.iof 0x101 17 0 + (if t.firstRtn then t.iof 0x101 35 18 else 0)
  let t1 := ((((t.setSk 0xD0 (wd (scaled a mode minmode))).setSk 0xD1 (wd (t.iof 0x102 11 0))).setSk 0xD2
    (wd (t.iof 0x102 29 12))).setSk 0xD3 (wd (2 * behind)))
  let t2 := { t1.quiet with
    inRtn := true, rtn := n, nextN := n + BitVec.ofNat 48 t.kOf, firstRtn := false, begAt := none, rtnCfg := t.ior 0x100, pc := t.iof 0x100 15 0,
    phase := .run, used := 0, evCyc := false, evAcc := false, evByt := false,
    ready := if late then t.ready else [], flagReady := if late then t.flagReady else 0 }
  t2.roffAll now

/-- ROUTINE_BEGIN (R120, R416, R420). -/
def State.routineBegin (s : State) (d p : Nat) : State :=
  let t := s.tile d p
  if s.canBegin d p t then s.setTile d p (t.begin s.tick s.mode (s.minMode d p)) else s

/-- A tile at P0 goes on after its milestone (R77, R126, R318). -/
def State.waitResume (s : State) (d p : Nat) : State :=
  let t := s.tile d p
  if t.phase == .wait && t.level != 0 && s.clocked d p && t.raised.isNone && !(t.eventDue (s.partner d p).isSome) &&
      notEarlier s.tick t.waitAt && s.depositsIn d p (t.waitAt - 1) then
    s.setTile d p { t with phase := .run, waited := 0 }
  else s

/-- BEHIND as tol.ovr holds it. -/
def Tile.behind (t : Tile) : Nat := fld (t.sk 0xD3) 8 1

/-- The routine overruns (R418). -/
def State.overrun (s : State) (d p : Nat) : State :=
  let t := s.tile d p
  if t.overDue s.tick then
    s.setTile d p ((t.setSk 0xD3 (putFld (t.sk 0xD3) 0 0 1)).tollEvent 4 t.rtn t.behind)
  else s

/-- A tick of the tile's own is skipped (R419); its count saturates. -/
def State.skipTick (s : State) (d p : Nat) : State :=
  let t := s.tile d p
  if t.skipDue s.tick && !(s.tickGone d p t) then
    let t1 := { t with skp := satAdd 36 t.skp 1, nextN := t.nextN + BitVec.ofNat 48 t.kOf, begAt := none }
    s.setTile d p (t1.tollEvent 5 t.nextN t.behind).migrReady
  else s

/-- The routine is abandoned (R421). -/
def Tile.abandon (t : Tile) (partner : Bool) (now : Tick) : Tile :=
  let t1 := if t.level = 0 then t else t.setTcr partner (t.ior 0x03)
  let t2 := (t1.routineEnd.tollEvent 6 t.rtn t.behind).bump 0x103 17 0 1
  { t2.quiet with phase := .wait, waitAt := now + 1, raised := none, soft := none, tcrQ := [] }

/-- ABANDON (R421, R685); a halted tile stays halted. -/
def State.abandonRtn (s : State) (d p : Nat) : State :=
  let t := s.tile d p
  if t.abandonDue s.tick && t.phase != .halt then s.setTile d p (t.abandon (s.partner d p).isSome s.tick) else s

/-- The tick that an event word names: the latest tick with its low 12 bits. -/
def eventTick (now : Tick) (w : Word) : Tick := now - BitVec.ofNat 48 ((now.toNat + 4096 - fld w 15 4) % 4096)

/-- The warden counts an event (R415, Table 10.10). -/
def Tile.countEvent (t : Tile) (w : Word) : Tile :=
  let t1 := match fld w 3 0 with
    | 1 => t.bump 0x109 35 18 1
    | 2 => t.bump 0x10A 17 0 1
    | 3 => t.bump 0x10A 35 18 1
    | 4 => t.bump 0x109 17 0 1
    | _ => t
  let t2 := t1.iow 0x108 w
  if bitOf t.tcr 6 && t.phase != .halt then t2.iowf 0x07 3 3 1 else t2

/-- The warden takes the tile's next toll event (R415). -/
def State.tollTake (s : State) (d p : Nat) : State :=
  let t := s.tile d p
  match t.evq with
  | [] => s
  | w :: r => (s.setTile d p ({ t with evq := r }.countEvent w)).markAt d 1 p 0x030 w 0 0 (eventTick s.tick w)

/-- ROUTINE_BEGIN. -/
def execRoutineBegin (d p : Nat) (s : State) : Out := live (dieOk d && tileOk p) s (fun s => s.routineBegin d p)
/-- WAITM_RESUME (R126). -/
def execWaitmResume (d p : Nat) (s : State) : Out := live (dieOk d && tileOk p) s (fun s => s.waitResume d p)
/-- OVERRUN (R418). -/
def execOverrun (d p : Nat) (s : State) : Out := live (dieOk d && tileOk p) s (fun s => s.overrun d p)
/-- SKIP (R419). -/
def execSkip (d p : Nat) (s : State) : Out := live (dieOk d && tileOk p) s (fun s => s.skipTick d p)
/-- ABANDON (R421). -/
def execAbandon (d p : Nat) (s : State) : Out := live (dieOk d && tileOk p) s (fun s => s.abandonRtn d p)
/-- TOLL_EVENT (R415). -/
def execTollEvent (d p : Nat) (s : State) : Out := live (dieOk d && tileOk p) s (fun s => s.tollTake d p)

end Sys2Proof.Machine
end

