-- ==== Sys2Proof/Machine/TileMem.lean ====
section
/-!
DEFINITION. Tile memories from the data side: store retirement, write-backs, patrol scrub, crossroads word accesses,
exchange collisions and the vault (spec/08_tile_memory.md).
-/
namespace Sys2Proof.Machine

/-- The head entry retires once it is due, or the tile issues nothing meanwhile (R123, R241); not while a wipe takes the
store slots (R359). -/
def Tile.sbStep (t : Tile) : Tile :=
  match t.sb with
  | e :: _ => if (e.due ≤ t.clk ∨ t.phase ≠ .run) ∧ t.sbBlocked e = false then t.sbRetire else t
  | [] => t

/-- STORE_RETIRE (R239, R241): the head entry writes its granule. -/
def execStoreRetire (d p : Nat) (s : State) : Out :=
  live (dieOk d && tileOk p) s (fun s => s.onTile d p (fun t => t.sbStep))

/-! ## Writes that meet at an exchange granule (R334 to R336) -/

/-- The head of the store buffer, if it writes a granule: mask, data, and the tile without it. -/
def Tile.ownWrite (t : Tile) (mem idx : Nat) : Option (BitVec 72 × BitVec 72 × Tile) :=
  match t.sb with
  | e :: r => if dataGran (2 * e.gran) = (mem, idx) then some (nonetBits e.mask.toNat, e.data, { t with sb := r }) else none
  | [] => none

/-- Does the last bcopy step write a granule, and has it not gone to memory? -/
def Tile.bcpAt (t : Tile) (mem idx : Nat) : Bool := match t.bcp with
  | some b => dataGran (2 * b.gran) == (mem, idx)
  | none => false

/-- What a bcopy step has written to a granule goes to memory before an access of another hand that does not meet it. DESIGN
CHOICE (log entry 34): the word that it wrote is then written alone, and the next step does not complete the granule. -/
def Tile.bcpYield (t : Tile) (mem idx : Nat) : Tile := if t.bcpAt mem idx then t.bcpFlush else t

/-- A data-side write meets the write of the last bcopy step. -/
def Tile.bcpMeet (t : Tile) (agent : Nat) (mask d : BitVec 72) : Tile :=
  { t with bcp := t.bcp.map (fun (b : BcpWr) => { b with met := b.met ++ [(agent, mask, d)] }) }

/-- Data-side write of the nonets of a mask in a granule (R331); coin: in the cycle of the tile's own write of an exchange
granule, or within its read-modify-write. One encoded write then holds the nonets of both, the tile's prevailing, and each
word that lost a differing nonet is a collision (Table 8.3, R336). DESIGN CHOICE (log entry 93): two narrow writes that
together cover the granule are then one whole-granule write. -/
def Tile.dataWrite (t : Tile) (mem idx agent : Nat) (coin : Bool) (mask d : BitVec 72) : Tile :=
  if coin && mem == 1 && t.bcpAt mem idx then t.bcpMeet agent mask d
  else match (if coin && mem == 1 then t.ownWrite mem idx else none) with
  | none => (t.bcpYield mem idx).write 4 mem idx mask d
  | some (em, ed, t0) =>
    (t0.write 1 mem idx (em ||| mask) (mergeBits d em ed)).lostWords idx agent (em &&& mask &&& (d ^^^ ed))

/-! ## Write-backs and patrol scrub (R345, R350 to R352) -/

/-- The granule index that a stored key has now. -/
def Tile.ungkey (t : Tile) (k : Nat) : Nat := t.gkey (k / 0x4000) (k % 0x4000) % 0x4000

/-- The next write-back of a corrected granule (R345); coin: one of a data-side agent falls in the cycle of the tile's own
write of the granule, which prevails (R334). A write of the tile that has reached the granule first drops it. -/
def Tile.wbStep (t : Tile) (coin : Bool) : Tile :=
  match t.wb with
  | [] => t
  | e :: r =>
    let mem := e.key / 0x4000
    let idx := t.ungkey e.key
    let t0 := { t with wb := r }
    match (if coin && mem == 1 then e.agent else none) with
    | none => if t.bcpAt mem idx then t.bcpFlush else t0.store mem idx (eccEncode e.data)
    | some a =>
      if t.bcpAt mem idx then t0.bcpMeet a (fullMask mem) e.data
      else match t0.ownWrite mem idx with
        | some (em, ed, t1) =>
          (t1.store mem idx (eccEncode (mergeBits e.data em ed))).lostWords idx a (em &&& (e.data ^^^ ed))
        | none => t0.store mem idx (eccEncode e.data)

/-- WRITE_BACK (R345). -/
def execWriteBack (d p : Nat) (coin : Bool) (s : State) : Out :=
  live (dieOk d && tileOk p) s (fun s => s.onTile d p (fun t => t.wbStep coin))

/-- Granules in the scrub order (R350). -/
def scrubLen (p : Nat) : Nat := if p = 72 then 29696 else 27648

/-- The memory and granule at a scrub position (R350). -/
def scrubAt (pos : Nat) : Nat × Nat :=
  if pos < 16384 then (0, pos)
  else if pos < 18432 then (1, pos - 16384)
  else if pos < 26624 then (2, pos - 18432)
  else if pos < 27648 then (3, pos - 26624)
  else (4, pos - 27648)

/-- A scrub read: a granule found already poisoned is neither counted nor logged (R348, Table 8.6). -/
def Tile.scrubRead (t : Tile) (mem idx : Nat) : Tile :=
  let u := t.bcpYield mem idx
  if eccSyn (u.gr mem idx) = 7 then u else (u.read 3 mem idx).1

/-- One scrub step (R350, R351). -/
def Tile.scrub (t : Tile) (p : Nat) : Tile :=
  if bitOf (t.ior 0x10) 0 then
    let pos := t.iof 0x17 14 0
    let t1 := t.scrubRead (scrubAt pos).1 (scrubAt pos).2
    if pos + 1 < scrubLen p then t1.iowf 0x17 14 0 (pos + 1) else (t1.iowf 0x17 14 0 0).bump 0x17 35 15 1
  else t

/-- SCRUB_STEP (R351); none of a retired tile (R621), nor of one that is not powered. -/
def execScrubStep (d p : Nat) (s : State) : Out :=
  live (dieOk d && tileOk p) s (fun s =>
    if SMap.get (fun _ => 0) s.pwr.tile (tkey d p) = 4 ∨ s.domainOn d (if p = 72 then 15 else p / 8) = false then s
    else s.onTile d p (fun t => t.scrub p))

/-! ## The data side (R328 to R337) -/

/-- The granule and the bits of a word of a space: data space, instruction space or signpost store (R392, R323); none
where nothing is there. -/
def spaceGran (sp a : Nat) : Option (Nat × Nat) :=
  if sp = 1 then (if a < 0x9000 then some (dataGran a) else none)
  else if sp = 2 then some (2, a / 8)
  else if sp = 3 then (if a < 0x2000 then some (3, a / 8) else none)
  else none

/-- Where a word of a space lies within its granule: mask, shift. -/
def spaceBits (sp a : Nat) : BitVec 72 × Nat :=
  if sp = 1 then (wordMask a, if a % 2 = 0 then 0 else 36)
  else if a % 8 < 4 then (BitVec.ofNat 72 (2 ^ 32 - 1), 0) else (BitVec.ofNat 72 ((2 ^ 32 - 1) * 2 ^ 32), 32)

/-- R175: at P1 no path but the tile's own units writes the active half or the active signpost bank. -/
def Tile.sealedCode (t : Tile) (sp a : Nat) : Bool :=
  t.p1 && ((sp == 2 && decide (a < 0x8000)) || (sp == 3 && decide (a < 0x1000)))

/-- A data-side read of a word by an agent (R344): response code, word. A write-back it calls for is that agent's. coin: in the
cycle of the tile's own write, which it does not find yet (Table 8.3). -/
def Tile.dataRead (t : Tile) (agent sp a : Nat) (coin : Bool) : Tile × Nat × Word :=
  match spaceGran sp a with
  | none => (t, 2, 0)
  | some (mem, idx) =>
    if sp ≠ 1 ∧ a % 4 ≠ 0 then (t, 5, 0)
    else
      let (t0, d, bad) := (if coin then t else t.bcpYield mem idx).read 4 mem idx
      let t1 := { t0 with wb := t0.wb.map (fun (e : WbEntry) =>
        if e.key = t.gkey mem idx then { e with agent := some agent } else e) }
      let w := wd ((d.toNat >>> (spaceBits sp a).2) % (if sp = 1 then 2 ^ 36 else 2 ^ 32))
      (t1, natB bad, w)

/-- A word access of a data-side agent to a tile memory, permitted or refused (R332, R175), at offset a of the
tile's block, reached by the package address named: response code and word. -/
def State.dataAccess (s : State) (m d p a named : Nat) (write : Bool) (w : Word) (coin : Bool) :
    State × Nat × Word :=
  let sp := a / 0x1_0000 % 8
  let x := a % 0x1_0000
  let t := s.tile d p
  match spaceGran sp x with
  | none => (s, 2, 0)
  | some (mem, idx) =>
    if sp ≠ 1 ∧ x % 4 ≠ 0 then (s, 5, 0)
    else if write then
      if !(s.mayWrite m named) then (s.denied m named 0, 3, 0)
      else if t.sealedCode sp x then (s.denied m named (wd (aTile d p a)), 3, 0)
      else
        let b := spaceBits sp x
        let bits : BitVec 72 := BitVec.ofNat 72 ((w.toNat % (if sp = 1 then 2 ^ 36 else 2 ^ 32)) <<< b.2)
        (s.setTile d p (t.dataWrite mem idx (masterCode m) coin b.1 bits), 0, 0)
    else
      let r := t.dataRead (masterCode m) sp x coin
      (s.setTile d p r.1, r.2.1, r.2.2)

/-- Record a response other than OK on the die of its master (R395, Table 9.10). -/
def State.record (s : State) (m addr code : Nat) : State :=
  if code = 0 then s
  else
    let d := masterDie m
    let s1 := s.wr (aDie d 0x124) (wd addr)
    (((s1.wf (aDie d 0x125) 2 0 code).wf (aDie d 0x125) 10 3 (masterCode m)).wf (aDie d 0x125) 11 11 1).bump (aDie d 0x125) 29 12 1

/-! ## The vault (R357 to R360) -/

/-- A wipe event: it starts the wipe of the vault of die d, or starts it again (R358, R360). -/
def State.wipeStart (s : State) (d cause : Nat) : State :=
  s.onTile d 72 (fun t => { (t.bcpFlush.iowf 0x1E 0 0 1) with vwipe := cause + 1 })

/-- A wipe event at every warden. -/
def State.wipeAll (s : State) (cause : Nat) : State :=
  (List.range 8).foldl (fun (s : State) d => s.wipeStart d cause) s

/-- The vault as the wipe leaves it: every granule the codeword of zero data, each poisoned one counted (R347), an armed mask applied to the first write
it names (R356, R359). -/
def Tile.wipeVault (t : Tile) : Tile :=
  let inV := fun (k : Nat) => decide (0x10000 ≤ k ∧ k < 0x14000)
  let bad := (t.gran.filter (fun (e : Nat × Gran) => inV e.1 && eccSyn e.2 == 7)).length
  let t1 := { t.bump 0x16 35 18 bad with gran := SMap.dropIf inV t.gran,
                                         wb := t.wb.filter (fun (e : WbEntry) => !(inV e.key)) }
  let i := if bitOf (t.ior 0x1B) 17 then 0 else t.iof 0x1B 13 0
  if t.flipOn 4 i then t1.store 4 i (eccEncode 0) else t1

/-- The last granule is written: WIPING clears, NWIPE counts, VWIPE (R360). -/
def State.wipeEnd (s : State) (d : Nat) : State :=
  let t := s.tile d 72
  if bitOf (t.ior 0x1E) 0 then
    let c := t.vwipe - 1
    s.setTile d 72 ({ ((t.wipeVault.iowf 0x1E 0 0 0).bump 0x1E 18 1 1).iowf 0x1E 21 19 c with vwipe := 0 }.mark 0x043 (wd c) 0 0)
  else s

/-- VAULT_WIPE_END (R359, R360). -/
def execVaultWipeEnd (d : Nat) (s : State) : Out := live (dieOk d) s (fun s => s.wipeEnd d)

end Sys2Proof.Machine
end

