-- ==== Sys2Proof/Machine/Mesh.lean ====
section
/-!
DEFINITION. The mesh: junctions, forwarding entries, allowances and inbounds (spec/09_mesh_ibrak_crossroads.md), with
the layout of the Ibrak links that the edge junctions meet.
-/
namespace Sys2Proof.Machine

/-! ## Ibrak links and sides (Table 9.5) -/

/-- The ends of a link: die and side of its first end, die and side of its second. Sides: 0 N, 1 E, 2 S, 3 W. -/
def linkEnds (l : Nat) : (Nat × Nat) × (Nat × Nat) :=
  if l < 3 then ((l, 1), (l + 1, 3))
  else if l < 6 then ((l + 1, 1), (l + 2, 3))
  else ((l - 6, 2), (l - 2, 0))

/-- The end that sends direction dir of a link. -/
def dirFrom (l dir : Nat) : Nat × Nat := if dir = 0 then (linkEnds l).1 else (linkEnds l).2
/-- The end that receives direction dir of a link. -/
def dirTo (l dir : Nat) : Nat × Nat := if dir = 0 then (linkEnds l).2 else (linkEnds l).1

/-- The link and direction that leave die d on a side, if there is one. -/
def sideDir (d side : Nat) : Option (Nat × Nat) :=
  (List.range 20).findSome? (fun k => if dirFrom (k / 2) (k % 2) = (d, side) then some (k / 2, k % 2) else none)

/-- DIE_IBKs_STAT of an end. -/
def aIbk (e : Nat × Nat) : Nat := aDie e.1 (0x110 + 4 * e.2)

/-- The retrain count and return of a link. -/
def State.ibLink (s : State) (l : Nat) : IbkLink := SMap.get (fun _ => ⟨0, false⟩) s.ibl l
/-- Change a link's retrain count and return. -/
def State.setIbLink (s : State) (l : Nat) (x : IbkLink) : State :=
  { s with ibl := SMap.set (fun _ => ⟨0, false⟩) s.ibl l x }

/-- No route passes over a link: out of service (R388), or returning and not yet at a milestone (R613). -/
def State.ibkOos (s : State) (l : Nat) : Bool := s.rb (aIbk (linkEnds l).1) 2 || (s.ibLink l).returning
/-- A link carries blocks. -/
def State.ibkUp (s : State) (l : Nat) : Bool := s.rb (aIbk (linkEnds l).1) 0

/-! ## Paths between dies (R362, R396) -/

/-- The horizontal links between two columns of a row of dies. -/
def rowLinks (row a b : Nat) : List Nat :=
  (List.range 3).filterMap (fun c => if min a b ≤ c ∧ c < max a b then some (3 * row + c) else none)

/-- The links from die a to die b, X first, and Y first. -/
def pathsOf (a b : Nat) : List Nat × List Nat :=
  let up := fun c => if a / 4 = b / 4 then [] else [6 + c]
  (rowLinks (a / 4) (a % 4) (b % 4) ++ up (b % 4), up (a % 4) ++ rowLinks (b / 4) (a % 4) (b % 4))

/-- The links that a transaction from die a to die b travels: X first, else Y first; none if both paths are blocked
(R396). -/
def State.pathUsed (s : State) (a b : Nat) : Option (List Nat) :=
  let p := pathsOf a b
  if p.1.all (fun l => !(s.ibkOos l)) then some p.1
  else if p.2.all (fun l => !(s.ibkOos l)) then some p.2 else none

/-- Can a transaction travel from die a to die b (R396)? -/
def State.xrReach (s : State) (a b : Nat) : Bool := (s.pathUsed a b).isSome

/-- The direction of a link of a path from die a to die b. -/
def pathDir (a b l : Nat) : Nat := if l < 6 then natB (decide (b % 4 < a % 4)) else natB (decide (b / 4 < a / 4))

/-! ## Once-per-tick events of a die -/

/-- Do f the first time in the tick that event k of die d arises. -/
def State.once (s : State) (d k : Nat) (f : State → State) : State :=
  if (s.die d).flags.contains k then s else f (s.onDie d (fun x => { x with flags := k :: x.flags }))

/-- DIE_MSH_ERR of a die. -/
def aMshErr (d : Nat) : Nat := aDie d 0x103

/-- A flit discarded for HPAR (R369). -/
def State.hparErr (s : State) (d j route : Nat) : State :=
  (s.bump (aMshErr d) 8 0 1).once d 1 (fun s => s.mark d 1 j 0x050 1 (wd route) 0)

/-- A flit discarded for its entry (R372). -/
def State.noentErr (s : State) (d j route : Nat) : State :=
  (s.bump (aMshErr d) 26 18 1).once d 2 (fun s => s.mark d 1 j 0x050 2 (wd route) 0)

/-- A word held beyond ALLOW (R377). -/
def State.allowErr (s : State) (d j route : Nat) : State :=
  (s.bump (aMshErr d) 35 27 1).once d 3 (fun s => s.mark d 1 j 0x031 1 (wd route) 0)

/-! ## Junctions (R363 to R373) -/

/-- Change the head of a port, or drop it. -/
def onHead (l : List FlitAt) (port : Nat) (f : Option FlitAt) : List FlitAt :=
  match l with
  | [] => []
  | x :: r => if x.port = port then (match f with
      | some y => y :: r
      | none => r) else x :: onHead r port f

/-- The head flit of a junction input. -/
def State.jHead (s : State) (d j inp : Nat) : Option FlitAt :=
  if inp < 4 then (s.tile d j).outc.find? (fun (x : FlitAt) => x.port = inp)
  else (s.junc d j).inq.find? (fun (x : FlitAt) => x.port = inp)

/-- Put the head of a junction input back, changed or dropped. -/
def State.jPut (s : State) (d j inp : Nat) (f : Option FlitAt) : State :=
  if inp < 4 then s.onTile d j (fun t => { t with outc := onHead t.outc inp f })
  else s.onJunc d j (fun x => { x with inq := onHead x.inq inp f })

/-- The entry that a flit is served under: as it stood when the flit reached the junction (R371). -/
def State.jEntry (s : State) (d j : Nat) (x : FlitAt) : Word :=
  match x.ent with
  | some e => e
  | none => s.rd (aNet d j (flitBank x.flit) (flitRoute x.flit))

/-- The neighbour junction of an output port within the die; none at an edge. Ports: 1 N, 2 E, 3 S, 4 W. -/
def neighbour (j out : Nat) : Option Nat :=
  if out = 1 then (if 8 ≤ j then some (j - 8) else none)
  else if out = 2 then (if j % 8 < 7 then some (j + 1) else none)
  else if out = 3 then (if j < 64 then some (j + 8) else none)
  else if out = 4 then (if 0 < j % 8 then some (j - 1) else none)
  else none

/-- The input of the next junction that an output port feeds: N feeds S, E feeds W, and the other way round. -/
def farInput (out : Nat) : Nat := if out = 1 then 6 else if out = 2 then 7 else if out = 3 then 4 else 5

/-- The position of an edge junction along a side: its column on N and S, its row on E and W. -/
def edgePos (j side : Nat) : Nat := if side = 0 ∨ side = 2 then j % 8 else j / 8

/-- The edge junction at a position of a side. -/
def edgeJunc (pos side : Nat) : Nat :=
  if side = 0 then pos else if side = 2 then 64 + pos else if side = 1 then 8 * pos + 7 else 8 * pos

/-- Is an output port unused: an outward port of an edge with no Ibrak link (R364)? -/
def portUnused (d j out : Nat) : Bool := out != 0 && (neighbour j out).isNone && (sideDir d (out - 1)).isNone

/-- Does an entry forward, to used ports only (R372)? -/
def entryOk (d j : Nat) (e : Word) : Bool :=
  bitOf e 0 && fld e 5 1 != 0 && (List.range 5).all (fun o => !(bitOf e (1 + o)) || !(portUnused d j o))

/-- Flits that wait at a port of a list. -/
def flitsAt (l : List FlitAt) (port : Nat) : Nat := (l.filter (fun (x : FlitAt) => x.port = port)).length

/-- Has the output port room for a copy: 16 words at the inbound, under Rigor at both of the pair (R279, R605), 4 in a slip
channel (R74)? DESIGN CHOICE (log entry 101): output L leads straight to the 16 places of the inbound, and copies on their way
there count among them; no slip channel of 4 words lies between. -/
def State.outRoom (s : State) (d j out : Nat) (e : Word) : Bool :=
  if out = 0 then
    let i := fld e 8 6
    let w := match s.partner d j with
      | some q => max (waiting (s.tile d j).inb i) (waiting (s.tile d q).inb i)
      | none => waiting (s.tile d j).inb i
    decide (w + flitsAt (s.junc d j).inq (8 + i) < 16)
  else match neighbour j out with
    | some k => decide (flitsAt (s.junc d k).inq (farInput out) < 4)
    | none => match sideDir d (out - 1) with
      | some (l, dir) => s.ibkOos l ||
          decide (((s.dir l dir).queue.filter (fun (x : Nat × BitVec 72) => x.1 = 1 + 4 * edgePos j (out - 1))).length < 4)
      | none => false

/-- May a flit that enters its route do so within ALLOW (R377)? A word once counted stays admitted. -/
def State.admitted (s : State) (d j inp : Nat) (x : FlitAt) : Bool :=
  !(s.enters d j inp x) || x.taken / 32 % 2 == 1 || s.allowsWord d x

/-- Can output port out take a copy of the head flit of an input now? -/
def State.canTake (s : State) (d j inp out : Nat) : Bool :=
  match s.jHead d j inp with
  | none => false
  | some x =>
    let e := s.jEntry d j x
    !(flitHErr x.flit) && entryOk d j e && bitOf e (1 + out) && x.taken / 2 ^ out % 2 == 0 &&
      s.admitted d j inp x && s.outRoom d j out e

/-- The input that an output port serves next: fixed rotation, starting after the input served last (R365). -/
def State.turn (s : State) (d j out : Nat) : Option Nat :=
  let last := SMap.get (fun _ => 7) (s.junc d j).last out
  ((List.range 8).map (fun k => (last + 1 + k) % 8)).find? (fun inp => s.canTake d j inp out)

/-- Add to an element of a list of counts. -/
def addAt (l : List Nat) (i n : Nat) : List Nat := l.set i (l.getD i 0 + n)

/-- A slot of an edge input's receiver buffer frees (R385). -/
def State.edgeFreed (s : State) (d j inp : Nat) : State :=
  if inp < 4 then s
  else if (neighbour j (inp - 3)).isSome then s
  else match sideDir d (inp - 4) with
    | some (l, dir) => s.onDir l (1 - dir) (fun x => { x with owed := addAt x.owed 0 1 })
    | none => s

/-- Drop the head flit of an input. -/
def State.jDrop (s : State) (d j inp : Nat) : State := (s.jPut d j inp none).edgeFreed d j inp

/-- Send a copy through an output port. -/
def State.jSend (s : State) (d j out : Nat) (e : Word) (f : BitVec 72) : State :=
  if out = 0 then s.onJunc d j (fun x => { x with inq := x.inq ++ [⟨8 + fld e 8 6, f, 0, none⟩] })
  else match neighbour j out with
    | some k => s.onJunc d k (fun x => { x with inq := x.inq ++ [s.flitIn d k (farInput out) f] })
    | none => match sideDir d (out - 1) with
      | some (l, dir) =>
        if s.ibkOos l then s
        else s.onDir l dir (fun x =>
          { x with queue := x.queue ++ [(1 + 4 * edgePos j (out - 1), flitSeal (putFld f 69 58 (fld e 20 9)))] })
      | none => s

/-- Count a word that enters its route and has not been counted: one that errors of its way have led here (R377). -/
def State.jCount (s : State) (d j inp : Nat) (x : FlitAt) : State :=
  if s.enters d j inp x && x.taken / 32 % 2 == 0 then s.countWord d x else s

/-- Output port out takes its copy of the head flit of input inp; the flit leaves once every copy has been taken. -/
def State.jTake (s : State) (d j inp out : Nat) (x : FlitAt) : State :=
  let e := s.jEntry d j x
  let s1 := (s.jCount d j inp x).jSend d j out e x.flit
  let s2 := s1.onJunc d j (fun y => { y with last := SMap.set (fun _ => 7) y.last out inp })
  let taken := x.taken ||| 2 ^ out ||| 32
  if taken % 32 &&& fld e 5 1 = fld e 5 1 then s2.jDrop d j inp
  else s2.jPut d j inp (some { x with taken := taken })

/-- The head x0 as it has arrived, x; with a wrong DPAR it goes on poisoned and is counted (R369). -/
def State.jPoison (s : State) (d j inp : Nat) (x0 x : FlitAt) : State :=
  if flitDErr x.flit then
    (s.bump (aMshErr d) 17 9 1).jPut d j inp (some { x with flit := flitSeal (putFld x.flit 36 36 1) })
  else if x = x0 then s
  else s.jPut d j inp (some x)

/-- A flit with errors of its way; with another ROUTE or IBANK it selects another entry. -/
def FlitAt.struck (x : FlitAt) (flip : BitVec 72) : FlitAt :=
  let f := x.flit ^^^ flip
  { x with flit := f, ent := if flitRoute f = flitRoute x.flit ∧ flitBank f = flitBank x.flit then x.ent else none }

/-- Junction j of die d serves its input inp for output port out (R365 to R373, R377). -/
def State.forward (s : State) (d j inp out : Nat) (flip : BitVec 72) : State :=
  match s.jHead d j inp with
  | none => s
  | some x0 =>
    let x := if x0.taken % 32 = 0 then x0.struck flip else x0
    let route := flitRoute x.flit
    if flitHErr x.flit then (s.jDrop d j inp).hparErr d j route
    else if !(entryOk d j (s.jEntry d j x)) then (s.jDrop d j inp).noentErr d j route
    else
      let s1 := s.jPoison d j inp x0 x
      match s1.jHead d j inp with
      | none => s1
      | some y =>
        if !(s1.admitted d j inp y) then
          if y.taken / 64 % 2 = 1 then s1
          else (s1.jPut d j inp (some { y with taken := y.taken + 64 })).allowErr d j route
        else if s1.turn d j out = some inp then s1.jTake d j inp out y
        else s1

/-- FLIT_FORWARD (R371). flip: transmission errors in the head flit. -/
def execFlitForward (d j inp out : Nat) (flip : BitVec 72) (s : State) : Out :=
  live (dieOk d && jOk j && jinOk inp && outOk out) s (fun s => s.forward d j inp out flip)

/-! ## Inbounds (R278 to R281, R432) -/

/-- Does inbound i accept a word with an EPOCH and a TICK (R432)? The 12 bits of TICK are earlier than SW when the
difference is less than half their range. -/
def Tile.inbAccepts (t : Tile) (i epoch tick : Nat) : Bool :=
  let k := 0xA0 + i
  let early := decide (0 < (t.iof k 27 16 + 4096 - tick) % 4096 ∧ (t.iof k 27 16 + 4096 - tick) % 4096 < 2048)
  if t.iof k 28 28 = 1 ∧ early then epoch == t.iof k 15 8 else epoch == t.iof k 7 0

/-- A flit reaches inbound i of a tile: kept, or discarded and counted (R280). -/
def Tile.inbTake (t : Tile) (i : Nat) (f : BitVec 72) : Tile :=
  if t.inbAccepts i (fld f 45 38) (fld f 57 46) then
    { t with inb := t.inb ++ [⟨i, wd (fld f 35 0), bitOf f 36⟩] }
  else t.bump 0x2B 17 0 1

/-- A copy taken by output L of the tile's junction reaches the inbound; under Rigor both tiles of the pair receive it,
once both have room (R279, R605). -/
def State.inbArrive (s : State) (d p i : Nat) : State :=
  match (s.junc d p).inq.find? (fun (x : FlitAt) => x.port = 8 + i) with
  | none => s
  | some x =>
    let full := fun q => decide (16 ≤ waiting (s.tile d q).inb i)
    if full p || (match s.partner d p with
      | some q => full q
      | none => false) then s
    else
      let s1 := s.onJunc d p (fun y => { y with inq := onHead y.inq (8 + i) none })
      let s2 := s1.onTile d p (fun t => t.inbTake i x.flit)
      match s.partner d p with
      | some q => s2.onTile d q (fun t => t.inbTake i x.flit)
      | none => s2

/-- INBOUND_ARRIVE (R280). -/
def execInboundArrive (d p i : Nat) (s : State) : Out :=
  live (dieOk d && tileOk p && inbOk i) s (fun s => s.inbArrive d p i)

end Sys2Proof.Machine
end

