-- ==== Sys2Proof/Config.lean ====
section
/-!
DEFINITION. What an implementation fixes and the values the spec leaves open. Every constant here is opaque:
it has no body, so nothing can be proved of its value and every claim holds for every value.
-/
namespace Sys2Proof.Config

/-- A fresh random 32-bit number: nonces (R545, R567), session tokens (R533), key seeds (R560, R562).
The argument is State.free, which every use advances. Log entry 6. -/
opaque freeWord : Nat → BitVec 32

/-- SHAKE256 with a 256-bit output over a list of bytes (R553); FIPS 202 stands outside the spec. Log entry 7. -/
opaque shake256 : List Byte → BitVec 256

/-- Does the signature verify over the message under RFC 8391 with the 68-byte public key (R555)? Log entry 7.
Arguments: public key bytes, message bytes, signature bytes. -/
opaque xmssVerifies : List Byte → List Byte → List Byte → Bool

/-- The root and the public seed (64 bytes) of the XMSS key of an OID that private seeds give (R554, R560, R562). Log entry 7. -/
opaque xmssPublic : Nat → Nat → List Byte

/-- What follows the leaf index in the XMSS signature that the key of an OID and its seeds give over a message with a leaf
(R561, R568). Log entry 7. -/
opaque xmssSign : Nat → Nat → Nat → List Byte → List Byte

/-- What a sensor or an analog part reads: equalizers and eye monitors (R469), a stack's temperature (R513). Log entry 8. -/
opaque freeAnalog : Nat → BitVec 22

/-- Bits of an internal scan chain (Table 17.7), whose content the spec does not give. Log entry 8. -/
opaque freeScan : Nat → Bool

/-- The row of a stack that holds a parcel (R515); the spec does not say how parcels lie in rows. Log entry 14. -/
opaque rowOf : Nat → Nat

/-- The parcels of a row of a stack (R515), which the spec does not state. Log entry 14. -/
opaque rowParcels : Nat

/-- The fewest spare rows in any bank of a stack's die when the stack has been trained (R515). Log entry 14. -/
opaque spareRows : Nat → Nat

/-- The status bits of a readout record that is GONE, for a tick and a link (R498): the spec states none. Log entry 15. -/
opaque goneStatus : Nat → Nat → Nat

/-- A 72-bit unit of a lookup or crossroads transaction on an Ibrak link (R382): the spec gives it no layout. Arguments:
State.free and the unit's number. Log entry 73. -/
opaque freeUnit : Nat → Nat → BitVec 72

/-- The units that a crossroads transaction with n words of data takes in the direction in which they travel (R382,
R390): the spec states no number. Log entry 73. -/
opaque xrUnits : Nat → Nat

/-- What line bits of a link in Ethernet readout mode give its receiver under Clauses 107 and 108 of IEEE 802.3, which stand
outside the spec (R472): whether it has lock after them, symbols corrected, codewords that cannot be corrected. Arguments:
State.free and the line bits. Log entry 78. -/
opaque baseR : Nat → List Bool → Bool × Nat × Nat

/-- The words that a look delivers beyond those that an entry of its table has (R262, R502): State.free and the word's
number. Log entry 74. -/
opaque freeLook : Nat → Nat → BitVec 36

end Sys2Proof.Config
end

