-- ==== Sys2Proof/Machine/Owner.lean ====
section
/-!
DEFINITION. Stewardship: claim mailboxes, the owner list, the lease, handover, and the reset of a master
(spec/13_control_ports_stewardship.md, R399).
-/
namespace Sys2Proof.Machine

/-- Symbols in a millisecond, at 320 MHz. -/
def symMs : Nat := 320000
/-- Symbols in a second. -/
def symSec : Nat := 320000000

/-- Has a moment, in symbols, come by the end of the tick in progress? -/
def State.due (s : State) (t : Nat) : Bool := decide (t ≤ s.sym + s.period)

/-! ## Bytes in register words -/

/-- The n·4 bytes of n words from a key on, 4 bytes a word, little-endian. -/
def State.bytesAt (s : State) (k n : Nat) : List Byte :=
  (List.range n).flatMap (fun i => toLe 4 (fld (s.rd (k + i)) 31 0))

/-- Put bytes into n words from a key on, 4 bytes a word, little-endian, padded with zero bytes. -/
def State.putBytes (s : State) (k : Nat) : Nat → List Byte → State
  | 0, _ => s
  | n + 1, l => (s.wr k (wd (leBytes (l.take 4)))).putBytes (k + 1) n (l.drop 4)

/-- ASCII characters as bytes. -/
def ascii (l : List Nat) : List Byte := l.map (fun n => BitVec.ofNat 8 n)

/-- The 32 bytes of a hash, byte 0 first. -/
def hashBytes (l : List Byte) : List Byte := toBe 32 (Config.shake256 l).toNat

/-- n fresh random words (R545, R567). -/
def State.draw (s : State) : Nat → State × List (BitVec 32)
  | 0 => (s, [])
  | n + 1 =>
    let r := (s.fresh).draw n
    (r.1, Config.freeWord s.free :: r.2)

/-- 32 fresh random bytes. -/
def State.draw32 (s : State) : State × List Byte :=
  let r := s.draw 8
  (r.1, r.2.flatMap (fun w => toLe 4 w.toNat))

/-! ## Parameter sets (Table 14.1) -/

/-- The OID of a height code: 0 = 10, 1 = 16, 2 = 20. -/
def oidOf (ht : Nat) : Nat := 16 + ht
/-- The height of an OID; none for one that Table 14.1 does not list. -/
def oidHeight (oid : Nat) : Option Nat :=
  if oid = 16 then some 10 else if oid = 17 then some 16 else if oid = 18 then some 20 else none
/-- Bytes of a signature for a height. -/
def sigLen (h : Nat) : Nat := 4 + 32 + (67 + h) * 32
/-- The OID of a 68-byte public key (R554). -/
def pkOid (pk : List Byte) : Nat := beBytes (pk.take 4)
/-- The leaf index of a signature. -/
def sigLeaf (sig : List Byte) : Nat := beBytes (sig.take 4)

/-- R555: length, leaf index and verification. -/
def sigOk (pk msg sig : List Byte) : Bool :=
  match oidHeight (pkOid pk) with
  | some h => sig.length == sigLen h && decide (sigLeaf sig < 2 ^ h) && Config.xmssVerifies pk msg sig
  | none => false

/-! ## The end of stewardship (R549) -/

/-- Apply f to every tile whose state differs from its reset. -/
def State.eachTile (s : State) (f : Tile → Tile) : State :=
  (s.tiles.map (fun (e : Nat × Tile) => e.1)).foldl (fun (s : State) k => s.onTile (k / 128) (k % 128) f) s

/-- Every staged field that no COMMIT holds returns to its value in force. -/
def State.dropStaged (s : State) : State :=
  ({ s with staged := [] }).eachTile (fun t => { t with staged := [] })

/-- Stewardship ends: staged fields revert, waymark STEWARD, vector 0. -/
def State.endSteward (s : State) : State :=
  let former := s.steward
  if former = 7 then s
  else
    let s1 := (s.dropStaged).wr (aOwn 0) (putFld (putFld (s.rd (aOwn 0)) 2 0 7) 5 3 0)
    (s1.mark s.lead 0 0 0x012 (wd former) 7 0).msix 0

/-! ## Mailboxes (R538, R545 to R547) -/

/-- A word of master m's own mailbox or cursor registers. -/
def aMy (m o : Nat) : Nat := aMine m (aOwn o)
/-- OWN_MB_STAT.RESULT. -/
def State.mbResult (s : State) (m : Nat) : Nat := s.rf (aMy m 0x101) 3 0
/-- Set RESULT. -/
def State.setMbResult (s : State) (m v : Nat) : State := s.wf (aMy m 0x101) 3 0 v
/-- Start-up has reached phase 7 (R635). -/
def State.ready (s : State) : Bool := s.rf aBoot 3 0 == 7 || s.rf aBoot 3 0 == 8 || s.rf aBoot 3 0 == 9 || s.rf aBoot 3 0 == 10

/-- A write of OWN_MB_CHAL (R545, R547, R635). -/
def State.chal (s : State) (m : Nat) (w : Word) : State :=
  if bitOf w 0 && s.ready && s.mbResult m != 1 then
    let r := s.draw32
    let s1 := (r.1.putBytes (aMy m 0x108) 8 r.2).setMbResult m 0
    { s1 with own := { s1.own with nonce := SMap.set (fun _ => none) s1.own.nonce m (some ⟨r.2, s.sym⟩) } }
  else s

/-- The nonce of a store, if it is no more than 1 s old. -/
def liveNonce (l : SMap (Option NonceSt)) (m now : Nat) : Option (List Byte) :=
  match SMap.get (fun _ => none) l m with
  | some n => if now ≤ n.at_ + symSec then some n.bytes else none
  | none => none

/-- A write of OWN_MB_CLAIM: with GO the claim is submitted and the nonce consumed (R545, R547). -/
def State.claimGo (s : State) (m : Nat) (w : Word) : State :=
  if bitOf w 19 && s.mbResult m == 1 then s
  else
    let s1 := s.wf (aMy m 0x102) 18 0 (fld w 18 0)
    if bitOf w 19 then
      let n := liveNonce s1.own.nonce m s1.sym
      let claims := s1.own.claims ++ [(m, n, fld w 2 0, fld w 18 3)]
      let own1 := { s1.own with nonce := SMap.set (fun _ => none) s1.own.nonce m none, claims := claims }
      ({ s1 with own := own1 }).setMbResult m 1
    else s1

/-- The key of word o of owner-list entry k. -/
def aKey (k o : Nat) : Nat := aOwn (0x10 + 16 * k + o)

/-- Table 13.9: the message that a claim signs. -/
def claimMsg (nonce : List Byte) (m kidx lease : Nat) : List Byte :=
  ascii [0x54, 0x47, 0x43, 0x4C, 0x41, 0x49, 0x4D, 0x31] ++ nonce ++ toBe 1 m ++ toBe 1 kidx ++ toBe 4 lease ++ toBe 2 0

/-- The checks of R546 in order: 2 for a claim that passes, else the first failure. -/
def State.claimCheck (s : State) (m : Nat) (nonce : Option (List Byte)) (kidx lease : Nat) : Nat :=
  let pk := (s.bytesAt (aMy m 0x110) 17)
  let ht := s.rf (aKey kidx 0) 2 1
  let h := 10 + (if ht = 1 then 6 else if ht = 2 then 10 else 0)
  let sig := (s.bytesAt (aMy m 0x200) 705).take (sigLen h)
  let hov := s.rb (aOwn 0) 22
  let succ := s.rf (aOwn 0) 25 23
  match nonce with
  | none => 3
  | some n =>
    if hov && succ != m then 8
    else if s.steward ≠ 7 ∧ s.steward ≠ m then 7
    else if lease < 10 ∨ 60000 < lease then 4
    else if !(s.rb (aKey kidx 0) 0) then 5
    else if hashBytes pk ≠ s.bytesAt (aKey kidx 1) 8 then 6
    else if pkOid pk ≠ oidOf ht then 9
    else if sigLeaf sig < s.rf (aKey kidx 0) 23 3 then 10
    else if !(sigOk pk (claimMsg n m kidx lease) sig) then 11
    else 2

/-- Restart the lease at LEASE milliseconds (R548). -/
def State.leaseStart (s : State) : State :=
  { s with own := { s.own with leaseEnd := s.sym + s.rf (aOwn 1) 15 0 * symMs } }

/-! ## Records in the SPI NOR device (R544, R615, Table 17.2) -/

/-- A byte of flash; erased flash reads 0xFF (log entry 5). -/
def State.flashByte (s : State) (a : Nat) : Byte := SMap.get (fun _ => 0xFF) s.flash a

/-- n bytes of flash from an offset on. -/
def State.flashBytes (s : State) (a n : Nat) : List Byte := (List.range n).map (fun i => s.flashByte (a + i))

/-- Program bytes into flash from an offset on. -/
def State.program (s : State) (a : Nat) : List Byte → State
  | [] => s
  | b :: r => ({ s with flash := SMap.set (fun _ => 0xFF) s.flash a b }).program (a + 1) r

/-- Erase the flash bytes from an offset on. -/
def State.erase (s : State) (a n : Nat) : State :=
  { s with flash := SMap.dropIf (fun k => decide (a ≤ k ∧ k < a + n)) s.flash }

/-- The SHAKE256 check of a record, keyed from the fused device seeds (R544). DESIGN CHOICE (log entry 12): the hash of the 96
bytes of the seeds and the record's. -/
def State.keyed (s : State) (l : List Byte) : List Byte := hashBytes (toLe 96 s.sec.idSeed ++ l)

/-- The record at an offset, if it passes its check: its number and its content. DESIGN CHOICE (log entry 12): 8 bytes number the
writes of a record, 4 give its length, then its content and the check; an area that has been erased holds none. -/
def State.recordAt (s : State) (a : Nat) : Option (Nat × List Byte) :=
  let seq := leBytes (s.flashBytes a 8)
  let n := leBytes (s.flashBytes (a + 8) 4)
  if seq = 2 ^ 64 - 1 ∨ 65492 < n then none
  else
    let l := s.flashBytes a (12 + n)
    if s.flashBytes (a + 12 + n) 32 = s.keyed l then some (seq, l.drop 12) else none

/-- The newer of the two records from an offset on that passes its check. -/
def State.newerRecord (s : State) (a : Nat) : Option (Nat × List Byte) :=
  match s.recordAt a, s.recordAt (a + 0x1_0000) with
  | some x, some y => if x.1 < y.1 then some y else some x
  | some x, none => some x
  | none, y => y

/-- The offset of the older record: one that fails its check is older than one that passes. -/
def State.olderAt (s : State) (a : Nat) : Nat :=
  match s.recordAt a, s.recordAt (a + 0x1_0000) with
  | some x, some y => if x.1 < y.1 then a else a + 0x1_0000
  | some _, none => a + 0x1_0000
  | none, _ => a

/-- The bytes of a record with its number, and its check. -/
def State.recordBytes (s : State) (seq : Nat) (l : List Byte) : List Byte :=
  let r := toLe 8 seq ++ toLe 4 l.length ++ l
  r ++ s.keyed r

/-- Rewrite the older of the two records from an offset on. -/
def State.putRecord (s : State) (a : Nat) (l : List Byte) : State :=
  let seq := match s.newerRecord a with
    | some x => x.1 + 1
    | none => 1
  let b := s.olderAt a
  (s.erase b 0x1_0000).program b (s.recordBytes seq l)

/-- The registers of the owner list, in the order of its record. -/
def ownerKeys : List Nat := (List.range 8).flatMap (fun k => (List.range 9).map (fun o => aKey k o))

/-- The owner list as its record holds it, 5 bytes a word. -/
def State.ownerBytes (s : State) : List Byte := ownerKeys.flatMap (fun k => toLe 5 (s.rd k).toNat)

/-- Element i of a list of n-byte numbers. -/
def leAt (l : List Byte) (n i : Nat) : Nat := leBytes ((l.drop (n * i)).take n)

/-- The owner list from its record (R544). -/
def State.readOwners (s : State) : State :=
  match s.newerRecord 0x1_0000 with
  | none => s
  | some x => ((List.range 72).zip ownerKeys).foldl (fun (s : State) e => s.wr e.2 (wd (leAt x.2 5 e.1))) s

/-- The boot header, but for its check: TGFLASH1 and the PKG_BOOTCFG word in 5 bytes (Table 17.2, log entry 12). -/
def State.headerBytes (s : State) : List Byte :=
  ascii [0x54, 0x47, 0x46, 0x4C, 0x41, 0x53, 0x48, 0x31] ++ toLe 5 (s.rd 0xC1).toNat

/-- The PKG_BOOTCFG word of the boot header, zeros where it fails its check (R641). -/
def State.headerWord (s : State) : Word :=
  let l := s.flashBytes 0 13
  if l.take 8 == ascii [0x54, 0x47, 0x46, 0x4C, 0x41, 0x53, 0x48, 0x31] && s.flashBytes 13 32 == s.keyed l then
    wd (leBytes (l.drop 8))
  else 0

/-- The ledger record (R615, Table 17.2): life, trims, tile states, rows awaiting hard repair. DESIGN CHOICE (log entry 12): 16
bytes a die, 1 byte a domain, 1 byte a tile, and for each die 2 bytes that count its rows and 4 bytes a row. -/
def State.ledgerBytes (s : State) : List Byte :=
  (List.range 8).flatMap (fun d => toLe 16 (SMap.get (fun _ => 0) s.pwr.life d)) ++
    (List.range 128).flatMap (fun k => toLe 1 (SMap.get (fun _ => 0) s.pwr.trim k)) ++
    (List.range 576).flatMap (fun k => toLe 1 (SMap.get (fun _ => 0) s.pwr.tile (128 * (k / 72) + k % 72))) ++
    (List.range 8).flatMap (fun d =>
      let rows := (SMap.get (fun _ => []) s.pwr.rows d).take 1000
      toLe 2 rows.length ++ rows.flatMap (fun r => toLe 4 r))

/-- The rows of n dies that the end of a ledger record lists. -/
def readRows : Nat → List Byte → List (List Nat)
  | 0, _ => []
  | n + 1, l =>
    let c := leBytes (l.take 2)
    (List.range c).map (fun i => leAt (l.drop 2) 4 i) :: readRows n (l.drop (2 + 4 * c))

/-- A store of n numbers. -/
def tabulate (n : Nat) (key : Nat → Nat) (f : Nat → Nat) : SMap Nat :=
  (List.range n).foldl (fun (m : SMap Nat) k => SMap.set (fun _ => 0) m (key k) (f k)) []

/-- What the ledger record gives at start-up (R615). -/
def State.readLedger (s : State) : State :=
  match s.newerRecord 0x3_0000 with
  | none => s
  | some x =>
    let l := x.2
    let rows := readRows 8 (l.drop 832)
    { s with pwr := { s.pwr with
      life := tabulate 8 (fun d => d) (fun d => leAt l 16 d),
      trim := tabulate 128 (fun k => k) (fun k => leAt (l.drop 128) 1 k),
      tile := tabulate 576 (fun k => 128 * (k / 72) + k % 72) (fun k => leAt (l.drop 256) 1 k),
      rows := ((List.range 8).zip rows).foldl (fun (m : SMap (List Nat)) e => SMap.set (fun _ => []) m e.1 e.2) [] } }

/-- The lead warden reaches the controller of the die that drives the SPI NOR and I2C lands, and no boundary scan holds the
lands (R22, R23, R653). -/
def State.flashReach (s : State) : Bool := !s.clamped && s.xrReach s.lead (if s.healthy 0 then 0 else 1)

/-- A flash write waits for the controller (R23). -/
def State.flashWait (s : State) (k : Nat) : State := { s with nvWait := k :: s.nvWait.filter (fun j => j != k) }

/-- The owner list goes to the older of its two records (R544). -/
def State.saveOwners (s : State) : State := if s.flashReach then s.putRecord 0x1_0000 s.ownerBytes else s.flashWait 0

/-- PKG_BOOTCFG is copied to the flash boot header with its check (R641, R647). -/
def State.saveBoot (s : State) : State :=
  if s.flashReach then (s.erase 0 0x1_0000).program 0 (s.headerBytes ++ s.keyed s.headerBytes) else s.flashWait 1

/-- The lead warden writes every ledger, trim and tile state, and the rows awaiting hard repair, to the older of the two ledger
records (R515, R615). -/
def State.ledgerWrite (s : State) : State := if s.flashReach then s.putRecord 0x3_0000 s.ledgerBytes else s.flashWait 3

/-- A claim that passed every check: m becomes steward (R546). -/
def State.claimWin (s : State) (m kidx lease : Nat) : State :=
  let leaf := sigLeaf ((s.bytesAt (aMy m 0x200) 1))
  let s1 := (s.wf (aKey kidx 0) 23 3 (leaf + 1)).saveOwners
  let s2 := s1.wf (aOwn 1) 15 0 lease
  let s3 := s2.wr (aOwn 0) (wd (m + 8 * kidx + 7 * 2 ^ 23))
  ((s3.leaseStart).bump (aOwn 3) 11 0 1).msix 0

/-- The oldest claim being verified is decided; it is m's (R546). One that passes every check is decided only once the owner list
can be written (R23, R544). -/
def State.claimEnd (s : State) (m : Nat) : State :=
  match s.own.claims with
  | [] => s
  | (k, n, kidx, lease) :: r =>
    if k ≠ m then s
    else
      let res := s.claimCheck m n kidx lease
      if res = 2 ∧ s.flashReach = false then s
      else
      let s1 := { s with own := { s.own with claims := r } }
      let s2 := if res = 2 then s1.claimWin m kidx lease else s1.bump (aOwn 3) 23 12 1
      let s3 := s2.setMbResult m res
      if m < 2 then s3.vector m 1 else s3

/-! ## Lease and handover (R548 to R550) -/

/-- A write of OWN_LEASE: a LEASE that is not reserved takes effect, and it or RENEW = 1 restarts the lease. -/
def State.renew (s : State) (w : Word) : State :=
  let v := fld w 15 0
  if 10 ≤ v ∧ v ≤ 60000 then (s.wf (aOwn 1) 15 0 v).leaseStart
  else
    let s1 := s.refuse (aOwn 1) w
    if bitOf w 16 then s1.leaseStart else s1

/-- The lease reaches 0 (R549). -/
def State.leaseOut (s : State) : State :=
  if s.steward ≠ 7 ∧ s.due s.own.leaseEnd = true then (s.bump (aOwn 3) 35 24 1).endSteward else s

/-- LEASE_EXPIRY (R549). -/
def execLeaseExpiry (s : State) : Out := live true s (fun s => s.leaseOut)

/-- The SERVICE state (R569). -/
def State.service (s : State) : Bool := s.rf (aSec 0) 2 0 == 3

/-- A write of OWN_HANDOVER (R550). -/
def State.handOver (s : State) (w : Word) : State :=
  let v := fld w 2 0
  let s1 := s.wf (aOwn 2) 2 0 v
  if !(bitOf w 3) then s1
  else if s.steward = 7 then s1
  else if v = 7 then s1.endSteward
  else if v = s.steward ∨ v = 5 ∨ v = 6 ∨ (v = 4 ∧ s.service = false) then s1
  else
    let s2 := s1.endSteward
    let s3 := s2.wr (aOwn 0) (putFld (putFld (s2.rd (aOwn 0)) 22 22 1) 25 23 v)
    { s3 with own := { s3.own with hovEnd := s.sym + 100 * symMs } }

/-- The handover window closes without a successful claim (R550). -/
def State.windowClose (s : State) : State :=
  if s.rb (aOwn 0) 22 && s.due s.own.hovEnd then
    s.wr (aOwn 0) (putFld (putFld (s.rd (aOwn 0)) 22 22 0) 25 23 7)
  else s

/-- HANDOVER_WINDOW_CLOSE (R550). -/
def execHandoverWindowClose (s : State) : Out := live true s (fun s => s.windowClose)

/-! ## The owner list (R542, R543) -/

/-- Valid entries of the owner list. -/
def State.validKeys (s : State) : List Nat := (List.range 8).filter (fun k => s.rb (aKey k 0) 0)

/-- Set an entry: hash bytes, height code, NEXTIDX 0. -/
def State.setKey (s : State) (k ht : Nat) (hash : List Byte) : State :=
  (s.wr (aKey k 0) (wd (1 + 2 * ht))).putBytes (aKey k 1) 8 hash

/-- A write of OWN_LCMD: reserved encodings are refused, GO = 1 performs OP (R543). DESIGN CHOICE (log entry 84): where the
same write gives OP or HT a reserved encoding, its GO performs nothing; R4 keeps the field and says nothing of GO. -/
def State.lcmd (s : State) (w : Word) : State :=
  let k := fld w 2 0
  let op := fld w 4 3
  let ht := fld w 6 5
  let a := aOwn 0x90
  if op = 0 ∨ op = 3 ∨ ht = 3 then
    let s1 := s.wf a 2 0 k
    let s2 := if op = 0 ∨ op = 3 then s1 else s1.wf a 4 3 op
    (if ht = 3 then s2 else s2.wf a 6 5 ht).refuse a w
  else
    let s1 := s.wf a 6 0 (fld w 6 0)
    if !(bitOf w 7) then s1
    else if op = 1 then ((s1.setKey k ht (s1.bytesAt (aOwn 0x91) 8)).wf a 9 8 0).saveOwners
    else if s1.validKeys.all (fun x => x == k) then (s1.wf a 9 8 1).refuse a w
    else if s1.steward ≠ 7 ∧ s1.rf (aOwn 0) 5 3 = k then (s1.wf a 9 8 2).refuse a w
    else ((s1.wf (aKey k 0) 0 0 0).wf a 9 8 0).saveOwners

/-! ## The reset of a master (R399, R400) -/

/-- The master of a request that waits for the end of a drain. -/
def Parked.master : Parked → Nat
  | .xact r => r.master
  | .pcieRead ep _ _ => ep
  | .pcieWrite ep _ _ => ep
  | .eth port _ => 2 + port

/-- The tile whose window port is a master: a warden's, or a tile's (R391). -/
def windowOf (m : Nat) : Option (Nat × Nat) :=
  if 0x80 ≤ m then some (masterDie m, (m - 0x80) % 72) else if 8 ≤ m ∧ m < 16 then some (m - 8, 72) else none

/-- The drain of a reset master begins: transactions drained, beats committed in all and in the last of them. A master
that is steward loses stewardship; the requests waiting in a window port or at the crossroads are not performed, and count as drained. -/
def State.resetMaster (s : State) (m trans beats lastBeats : Nat) : State :=
  let inPort := match windowOf m with
    | some x => (s.tile x.1 x.2).port.length
    | none => 0
  let waiting := (s.xrq.filter (fun (r : XrReq) => r.master = m)).length +
    (s.parked.filter (fun (x : Parked) => x.master = m)).length
  let s1 := { s with drains := s.drains ++ [⟨m, trans + inPort + waiting, beats, lastBeats⟩],
                     xrq := s.xrq.filter (fun (r : XrReq) => r.master ≠ m),
                     parked := s.parked.filter (fun (x : Parked) => x.master ≠ m) }
  let s2 := if s1.steward = m then s1.endSteward else s1
  match windowOf m with
  | some x => s2.onTile x.1 x.2 (fun t => { t with port := [] })
  | none =>
    if m = 0 then { s2 with pcie0 := PcieSt.reset }
    else if m = 1 then { s2 with pcie1 := PcieSt.reset }
    else s2

/-- A drain of the master is in progress (R400). -/
def State.draining (s : State) (m : Nat) : Bool := s.drains.any (fun (x : Drain) => x.master = m)

/-- The drain ends: waymark XRDRAIN and DIE_XR_RST (R399). -/
def State.drainEnd (s : State) (m : Nat) : State :=
  match s.drains.find? (fun (x : Drain) => x.master = m) with
  | none => s
  | some x =>
    let d := masterDie m
    let a := aDie d 0x126
    let s1 := { s with drains := s.drains.erase x }
    let s2 := ((s1.wf a 7 0 (masterCode m)).wf a 12 8 x.lastBeats).bump a 29 13 1
    s2.mark d 6 (masterCode m) 0x052 (wd (masterCode m)) (wd x.trans) (wd x.beats)

end Sys2Proof.Machine
end

