-- ==== Sys2Proof/Machine/Security.lean ====
section
/-!
DEFINITION. Identity, attestation, the life cycle and tamper events (spec/14_signed_images_identity_lifecycle.md).
-/
namespace Sys2Proof.Machine

/-- SEC_BOOT. -/
def aSecBoot : Nat := aSec 0x40
/-- SEC_BOOT.AKSTATE: 0 none, 1 generating, 2 ready, 3 exhausted. -/
def State.akState (s : State) : Nat := s.rf aSecBoot 22 21
/-- DEVID, 32 bytes. -/
def State.devid (s : State) : List Byte := s.bytesAt (aSec 1) 8
/-- SEC_TAMP_STAT. -/
def aTamp : Nat := aSec 0x43
/-- Bring a byte list to a length. -/
def fixLen (n : Nat) (l : List Byte) : List Byte := l.take n ++ List.replicate (n - l.length) 0

/-- 768 fresh random bits for the seeds of a key (Table 14.2). -/
def State.drawSeeds (s : State) : State × Nat :=
  let r := s.draw 24
  (r.1, leBytes (r.2.flatMap (fun w => toLe 4 w.toNat)))

/-! ## Keys of the part (R553, R554, R560 to R565) -/

/-- The 68-byte public key of an OID that private seeds give (R553, R554). -/
def publicKey (oid seed : Nat) : List Byte := toBe 4 oid ++ fixLen 64 (Config.xmssPublic oid seed)

/-- The signature of such a key over a message with a leaf: the leaf index first, in all as many bytes as Table 14.1 gives. -/
def signature (oid seed leaf : Nat) (msg : List Byte) : List Byte :=
  toBe 4 leaf ++ fixLen (sigLen (10 + (if oid = 17 then 6 else if oid = 18 then 10 else 0)) - 4) (Config.xmssSign oid seed leaf msg)

/-- The OID of the identity root, XMSS-SHAKE256_10_256 (R560). -/
def idOid : Nat := 0x10
/-- The OID of an attestation key, XMSS-SHAKE256_20_256 (R562). -/
def akOid : Nat := 0x12

/-- The attestation key that was in progress or ready is lost; an exhausted counter stays so (R563, R565). -/
def State.akLost (s : State) : State :=
  let s1 := { s with sec := { s.sec with akSeed := 0, cert := [], certSig := [] } }
  if s.akState = 3 then s1 else s1.wf aSecBoot 22 21 0

/-- Table 14.7: the certificate body of a public key. -/
def certBody (devid : List Byte) (idx lc : Nat) (pk : List Byte) : List Byte :=
  ascii [0x54, 0x47, 0x41, 0x4B, 0x43, 0x52, 0x54, 0x31] ++ devid ++ toBe 2 idx ++ toBe 1 lc ++ toBe 1 0 ++ fixLen 68 pk

/-- A lead warden has been elected since power-up (R630), and its vault is not being wiped: an attestation key may be begun
(R358, R563). -/
def State.leadVault (s : State) : Bool :=
  s.rf aBoot 3 0 != 0 && s.boot.rom != [] && !(bitOf ((s.tile s.lead 72).ior 0x1E) 0)

/-- The lead warden begins an attestation key: a boot-counter step, then the seeds (R562); none before a lead is elected or
while its vault is wiped (R563, R564), nor while a tamper source is asserted (R574); AKSTATE 3 once the counter is used up
(R565). A key that is generating or ready goes on. -/
def State.akBegin (s : State) : State :=
  if s.akState ≠ 0 ∨ s.sec.active ≠ [] ∨ s.leadVault = false then s
  else
    let used := s.rf aSecBoot 10 0
    if 1024 ≤ used then s.wf aSecBoot 22 21 3
    else
      let s1 := (((s.wf aSecBoot 20 11 used).wf aSecBoot 10 0 (used + 1)).wf aSecBoot 22 21 1).wr (aSec 0x41) 0
      let r := s1.drawSeeds
      { r.1 with sec := { r.1.sec with akSeed := r.2 } }

/-- ATTEST_KEY_BEGIN (R562). -/
def execAttestKeyBegin (s : State) : Out := live true s (fun s => s.akBegin)

/-- Generation ends: the certificate is signed with identity leaf i and AKSTATE is 2 (R562). -/
def State.akReady (s : State) : State :=
  if s.akState = 1 then
    let idx := s.rf aSecBoot 20 11
    let body := certBody s.devid idx s.lc (publicKey akOid s.sec.akSeed)
    let sig := signature idOid s.sec.idSeed idx body
    ({ s with sec := { s.sec with cert := body, certSig := sig } }).wf aSecBoot 22 21 2
  else s

/-- ATTEST_KEY_READY (R562). -/
def execAttestKeyReady (s : State) : Out := live true s (fun s => s.akReady)

/-- VAULT_WIPE (R358, R360). cause: 0 power-up, 1 tamper, 2 life-cycle change; the attestation key is lost with every wipe that
is not a power-up wipe (R563), and with any wipe of the vault in which it lives, the lead's (R564). -/
def execVaultWipe (d cause : Nat) (s : State) : Out :=
  live (dieOk d) s (fun s =>
    if 3 ≤ cause then s else (if cause = 0 ∧ d ≠ s.lead then s else s.akLost).wipeStart d cause)

/-! ## Security commands (R566 to R572) -/

/-- Set SEC_MB_STAT. -/
def State.secStat (s : State) (m res len : Nat) : State := s.wr (aMine m (aSec 0x101)) (wd (res + 16 * len))

/-- NONCE: a fresh nonce in the mailbox, any earlier one void. -/
def State.secNonce (s : State) (m : Nat) : State :=
  let r := s.draw32
  let s1 := (r.1.putBytes (aMine m (aSec 0x108)) 8 r.2).secStat m 2 0
  { s1 with sec := { s1.sec with nonce := SMap.set (fun _ => none) s1.sec.nonce m (some ⟨r.2, s.sym⟩) } }

/-- Words as the bytes of packed little-endian form (Table 13.1). -/
def packedLe : List Word → List Byte
  | [] => []
  | [a] => toLe 9 a.toNat
  | a :: b :: r => toLe 9 (a.toNat + 2 ^ 36 * b.toNat) ++ packedLe r

/-- Table 14.9: the report body for a host nonce. -/
def State.report (s : State) (host : List Byte) : List Byte :=
  let armed := match s.img.armed with
    | some im => hashBytes im.manifest
    | none => List.replicate 32 0
  ascii [0x54, 0x47, 0x41, 0x54, 0x54, 0x53, 0x54, 0x31] ++ host ++ s.devid ++ toBe 1 s.lc ++ toBe 1 s.steward
    ++ toBe 2 (s.rf aSecBoot 20 11) ++ toBe 2 (s.rf aSecBoot 10 0) ++ toBe 2 (s.rf aTamp 27 10 % 65536)
    ++ toBe 6 s.tick.toNat ++ toBe 1 (natB s.armed + 2 * natB (s.rf aImgStat 2 0 == 2)) ++ toBe 1 (s.rf aSecBoot 28 23)
    ++ armed ++ hashBytes s.sec.fwManifest
    ++ hashBytes (packedLe ((List.range 8).flatMap (fun k => (List.range 9).map (fun j => s.rd (aKey k j)))))
    ++ List.replicate 8 0

/-- ATTEST (R564, R565, R568). -/
def State.attest (s : State) (m : Nat) : State :=
  if s.akState = 3 then s.secStat m 9 0
  else if s.akState ≠ 2 then s.secStat m 8 0
  else
    let leaf := s.rf (aSec 0x41) 20 0
    let body := s.report (s.bytesAt (aMine m (aSec 0x200)) 8)
    let out := body ++ signature akOid s.sec.akSeed leaf body ++ s.sec.cert ++ s.sec.certSig
    let s1 := ((s.wf (aSec 0x41) 20 0 (leaf + 1)).putBytes (aMine m (aSec 0x600)) 1406 out).secStat m 2 1406
    if leaf + 1 = 2 ^ 20 then s1.akLost else s1

/-- A life-cycle request (Table 14.11): nonce, DEVID, FROM, TO, SVN, NEWROOT, NEWKEY, NEWHT, all 144 bytes. -/
structure LcReq where
  nonce : List Byte
  devid : List Byte
  from_ : Nat
  to_ : Nat
  svn : Nat
  root : List Byte
  key : List Byte
  ht : Nat
  bytes : List Byte
deriving DecidableEq, Repr

/-- Read a request's fields. -/
def lcReq (l : List Byte) : LcReq :=
  let f := fun a n => (l.drop a).take n
  ⟨f 8 32, f 40 32, beBytes (f 72 1), beBytes (f 73 1), beBytes (f 74 1), f 76 32, f 108 32, beBytes (f 140 1), l⟩

/-- Is a transition one of Table 14.10 whose condition holds? -/
def State.lcAllowed (s : State) (a b : Nat) : Bool :=
  (a == 0 && b == 1) || (a == 2 && b == 3) || (a == 3 && b == 2) ||
    (((a == 1 && b == 2) || (a == 1 && b == 4) || (a == 2 && b == 4)) && !s.armed)

/-- Is a transition unsigned? -/
def lcUnsigned (a b : Nat) : Bool := (a == 0 && b == 1) || (a == 3 && b == 2)

/-- The root hash that a state's requests are signed under: vendor in VENDOR, owner in OWNED and SERVICE. -/
def State.rootOf (s : State) (lc : Nat) : List Byte := if lc = 1 then s.bytesAt (aSec 0x10) 8 else s.bytesAt (aSec 0x18) 8

/-- R572: the first value that applies to a request of operation op, 2 for success. -/
def State.lcCheck (s : State) (m op : Nat) (q : LcReq) (nonce : Option (List Byte)) (pk sig : List Byte) : Nat :=
  let stateOk := if op = 3 then q.from_ == s.lc && s.lcAllowed q.from_ q.to_
    else q.from_ == s.lc && q.to_ == q.from_ && decide (1 ≤ s.lc ∧ s.lc ≤ 3 ∧ s.rf aSecBoot 28 23 < q.svn ∧ q.svn ≤ 63)
  let unsigned := op == 3 && lcUnsigned q.from_ q.to_
  if nonce ≠ some q.nonce then 3
  else if (s.lc ≠ 0 ∨ op ≠ 3) ∧ s.steward ≠ m then 4
  else if !stateOk then 5
  else if !unsigned && hashBytes pk != s.rootOf s.lc then 6
  else if !unsigned && !(sigOk pk q.bytes sig) then 7
  else if q.devid ≠ s.devid then 11
  else 2

/-- NEWHT, coded as OWN_KEYk_A.HT (Table 14.11). DESIGN CHOICE (log entry 107): the byte's bits above the code are not read, and
the reserved code 3 leaves HT at 0, as R4 keeps a reserved encoding out of a field. -/
def newHt (b : Nat) : Nat := if b % 4 = 3 then 0 else b % 4

/-- The owner list becomes one entry, NEXTIDX 0 (Table 14.10). -/
def State.oneOwner (s : State) (key : List Byte) (ht : Nat) : State :=
  let s1 := { s with regs := SMap.dropIf (fun k => decide (aKey 0 0 ≤ k ∧ k < aKey 8 0)) s.regs }
  (s1.setKey 0 (newHt ht) key).saveOwners

/-- SEC_IDPK0-16 show the public key of the identity root that the fused seeds give (R560). -/
def State.showIdentity (s : State) : State := s.putBytes (aSec 0x20) 17 (publicKey idOid s.sec.idSeed)

/-- The fuses that BLANK to VENDOR blows beside the root hash: identity seeds, identity root and DEVID (R560). -/
def State.makeIdentity (s : State) : State :=
  let r := s.drawSeeds
  let s1 := ({ r.1 with sec := { r.1.sec with idSeed := r.2 } }).showIdentity
  s1.putBytes (aSec 1) 8 (hashBytes (publicKey idOid r.2))

/-- Leave the SERVICE state: JTAG is reset as a master, which ends its stewardship (R399, R549, R569). -/
def State.leaveService (s : State) : State := (s.wf (aSec 0) 2 0 2).resetMaster 4 0 0 0

/-- The fuses that a transition blows, then the effects after the wipe (R570, Table 14.10). -/
def State.lcFuses (s : State) (q : LcReq) : State :=
  if q.from_ = 0 then ((s.putBytes (aSec 0x10) 8 q.root).makeIdentity).wf (aSec 0) 2 0 1
  else if q.from_ = 1 ∧ q.to_ = 2 then (s.putBytes (aSec 0x18) 8 q.root).wf (aSec 0) 2 0 2
  else if q.to_ = 4 then ({ s with sec := { s.sec with idSeed := 2 ^ 768 - 1 } }).wf (aSec 0) 2 0 4
  else s

/-- The effects of a transition after the vaults have been wiped. -/
def State.lcEffects (s : State) (q : LcReq) : State :=
  if q.from_ = 0 then s.oneOwner q.key q.ht
  else if q.from_ = 1 ∧ q.to_ = 2 then (s.oneOwner q.key q.ht).endSteward
  else if q.from_ = 2 ∧ q.to_ = 3 then s.wf (aSec 0) 2 0 3
  else if q.from_ = 3 then s.leaveService
  else s

/-- A transition: fuses, vaults, effects, waymark (R570). -/
def State.transition (s : State) (q : LcReq) : State :=
  let s1 := (((s.lcFuses q).wipeAll 2).akLost).lcEffects q
  s1.mark s1.lead 8 0 0x091 (wd q.from_) (wd q.to_) 0

/-- LCREQ and SVN (R570 to R572), with the nonce that was valid when GO was written. -/
def State.lcCmd (s : State) (m op : Nat) (nonce : Option (List Byte)) : State :=
  let inp := s.bytesAt (aMine m (aSec 0x200)) 741
  let q := lcReq (inp.take 144)
  let pk := s.bytesAt (aMine m (aSec 0x110)) 17
  let len := match oidHeight (pkOid pk) with
    | some h => sigLen h
    | none => 0
  let res := s.lcCheck m op q nonce pk ((inp.drop 144).take len)
  let s2 := if res ≠ 2 then s else if op = 3 then s.transition q else s.wf aSecBoot 28 23 q.svn
  s2.secStat m res 0

/-- A security command of more than one moment starts: RESULT 1; LCREQ and SVN consume the mailbox's nonce whatever the outcome
(R545, R567). -/
def State.secBegin (s : State) (m op : Nat) : State :=
  let n := liveNonce s.sec.nonce m s.sym
  let nonces := if op = 2 then s.sec.nonce else SMap.set (fun _ => none) s.sec.nonce m none
  ({ s with sec := { s.sec with running := s.sec.running ++ [(m, op, n)], nonce := nonces } }).secStat m 1 0

/-- The security commands in progress end, in the order of their GO writes (R566 to R572). DESIGN CHOICE (log entry 108): at the
next MILESTONE, within the 20 ms of R568. -/
def State.secSteps (s : State) : State :=
  s.sec.running.foldl (fun (s : State) x =>
    if s.sec.running.contains x then
      let s1 := { s with sec := { s.sec with running := s.sec.running.erase x } }
      if x.2.1 = 2 then s1.attest x.1 else s1.lcCmd x.1 x.2.1 x.2.2
    else s) s

/-- A tamper event answers the security commands in progress with KEYGEN (R574). -/
def State.secAbort (s : State) : State :=
  s.sec.running.foldl (fun (s : State) x => s.secStat x.1 8 0) { s with sec := { s.sec with running := [] } }

/-- A write of SEC_MB_CMD: OP keeps out reserved encodings, GO = 1 runs it; before phase 7 GO is ignored (R566, R635).
DESIGN CHOICE (log entry 84): where the same write gives OP a reserved encoding, its GO runs nothing. -/
def State.secCmd (s : State) (m : Nat) (w : Word) : State :=
  let op := fld w 2 0
  let a := aMine m (aSec 0x100)
  if op = 0 ∨ 5 ≤ op then s.refuse (aSec 0x100) w
  else
    let s1 := s.wf a 2 0 op
    if !(bitOf w 3) || !s1.ready || s1.rf (aMine m (aSec 0x101)) 3 0 == 1 then s1
    else if op = 1 then s1.secNonce m
    else s1.secBegin m op

/-! ## Tamper events (R573 to R575) -/

/-- A source asserts: one event until it deasserts. -/
def State.tamperEvent (s : State) (src : Nat) : State :=
  if s.sec.active.contains src then s
  else
    let s1 := (s.wipeAll 1).akLost.secAbort
    let a1 := (s1.rd aTamp) ||| wd (2 ^ src + 2 ^ (5 + src))
    let s2 := (s1.wr aTamp a1).bump aTamp 27 10 1
    let s3 := { s2 with sec := { s2.sec with active := src :: s2.sec.active, nonce := [] },
                        own := { s2.own with nonce := [] } }
    let s4 := s3.endSteward
    let s5 := if s4.service then s4.leaveService else s4
    s5.mark s5.lead 8 0 0x090 (wd (s5.rf aTamp 4 0)) 0 0

/-- TAMPER (R574). -/
def execTamper (src : Nat) (s : State) : Out := live (tampOk src) s (fun s => s.tamperEvent src)

/-- A source deasserts: its event ends (R573). -/
def State.tamperEnd (s : State) (src : Nat) : State :=
  let s1 := { s with sec := { s.sec with active := s.sec.active.filter (fun x => x != src) } }
  s1.wf aTamp (5 + src) (5 + src) 0

/-- TAMPER_DEASSERT (R573). -/
def execTamperDeassert (src : Nat) (s : State) : Out := live (tampOk src) s (fun s => s.tamperEnd src)

end Sys2Proof.Machine
end

