-- ==== Sys2Proof/Machine/Ibrak.lean ====
section
/-!
DEFINITION. The Ibrak links: blocks, replay, credits, tolls, retraining (spec/09_mesh_ibrak_crossroads.md).
A slot is kept as (class + 4 × position along the edge, unit); the position says which of the edge junctions that the
link pairs a mesh flit belongs to (log entry 13).
-/
namespace Sys2Proof.Machine

/-- SEQ arithmetic: how far a is ahead of b, mod 4,096. -/
def seqAhead (a b : Nat) : Nat := (a + 4096 - b) % 4096

/-! ## Blocks (R382) -/

/-- One step of the CRC of Table 9.6. -/
def crc32Step (c : BitVec 32) (b : Bool) : BitVec 32 :=
  if (bitOf c 31) != b then (c <<< 1) ^^^ 0x04C11DB7 else c <<< 1

/-- The CRC-32 of bits [1119:0] of a block, taken from bit 1119 down (log entry 72). -/
def crc32 (x : BitVec 1152) : BitVec 32 :=
  (List.range 1120).foldl (fun c i => crc32Step c (bitOf x (1119 - i))) (BitVec.allOnes 32) ^^^ BitVec.allOnes 32

/-- A slot of 76 bits: the unit, and its class in bits [73:72]. -/
def slotBits (u : Nat × BitVec 72) : Nat := u.2.toNat + 2 ^ 72 * (u.1 % 4)

/-- The bits of the slots of a block from SLOT0 on. -/
def slotsBits : List (Nat × BitVec 72) → Nat
  | [] => 0
  | u :: r => slotBits u + 2 ^ 76 * slotsBits r

/-- Bits [1119:0] of a block (Table 9.6). -/
def IbkBlock.body (b : IbkBlock) : BitVec 1152 :=
  BitVec.ofNat 1152 (b.seq + 2 ^ 12 * b.ack + 2 ^ 24 * natB b.replayReq +
    2 ^ 28 * (b.cr.getD 0 0 + 16 * b.cr.getD 1 0 + 256 * b.cr.getD 2 0 + 4096 * b.cr.getD 3 0) + 2 ^ 48 * slotsBits b.slots)

/-- A block as it stands on the wire: its bits, and the edge positions of its slots. -/
def IbkBlock.bits (b : IbkBlock) : BitVec 1152 × List Nat :=
  (b.body ||| BitVec.ofNat 1152 ((crc32 b.body).toNat * 2 ^ 1120), b.slots.map (fun u => u.1 / 4))

/-- Does the CRC of a block pass (R383)? -/
def blockGood (x : BitVec 1152) : Bool := (crc32 x).toNat == fld x 1151 1120

/-- A block read from its bits and the edge positions of its slots; idle slots carry nothing. -/
def blockRead (x : BitVec 1152 × List Nat) : IbkBlock :=
  ⟨fld x.1 11 0, fld x.1 23 12, fld x.1 27 24 == 1, [fld x.1 31 28, fld x.1 35 32, fld x.1 39 36, fld x.1 43 40],
    (List.range 14).filterMap (fun i =>
      let c := fld x.1 (48 + 76 * i + 73) (48 + 76 * i + 72)
      if c = 0 then none else some (c + 4 * x.2.getD i 0, BitVec.ofNat 72 (fld x.1 (48 + 76 * i + 71) (48 + 76 * i))))⟩

/-! ## The ports (R369) -/

/-- A port of die d at edge position pos examines a mesh flit: none if it is discarded for HPAR; with a wrong DPAR it goes
on poisoned; both are counted. -/
def State.portFlit (s : State) (d j : Nat) (f : BitVec 72) : State × Option (BitVec 72) :=
  if flitHErr f then (s.hparErr d j (flitRoute f), none)
  else if flitDErr f then (s.bump (aMshErr d) 17 9 1, some (flitSeal (putFld f 36 36 1)))
  else (s, some f)

/-- The port of direction dir of link l examines its waiting mesh flits, struck by errors. -/
def State.portCheck (s : State) (l dir : Nat) (flips : List (BitVec 72)) : State :=
  let e := dirFrom l dir
  let r := ((s.dir l dir).queue.foldl (fun (a : State × List (Nat × BitVec 72) × List (BitVec 72)) u =>
    if u.1 % 4 = 1 then
      let x := a.1.portFlit e.1 (edgeJunc (u.1 / 4) e.2) (u.2 ^^^ a.2.2.headD 0)
      (x.1, a.2.1 ++ (x.2.map (fun f => (u.1, f))).toList, a.2.2.tail)
    else (a.1, a.2.1 ++ [u], a.2.2)) (s, [], flips))
  r.1.onDir l dir (fun y => { y with queue := r.2.1 })

/-! ## Tolls -/

/-- DIE_IBKs_TOLL allowance of a class, 1 mesh, 2 lookup, 3 crossroads, at a sending end. -/
def State.ibkAllow (s : State) (e : Nat × Nat) (cls : Nat) : Nat :=
  if cls = 1 then s.rf (aIbk e + 2) 17 0 else if cls = 2 then s.rf (aIbk e + 2) 35 18 else s.rf (aIbk e + 3) 17 0

/-- The first toll event of a kind in a tick on a direction: NETTOLL, and OVER counts the tick once (R390). -/
def State.ibkToll (s : State) (l dir k : Nat) (kind cls : Nat) : State :=
  let x := s.dir l dir
  let e := dirFrom l dir
  if x.tolled.contains k then s
  else
    let s1 := if x.tolled = [] then s.bump (aIbk e + 1) 35 30 1 else s
    (s1.onDir l dir (fun y => { y with tolled := k :: y.tolled })).mark e.1 5 e.2 0x031 (wd kind) (wd cls) 0

/-! ## Sending (R382 to R385, R390) -/

/-- Take the first unit whose class passes a test out of a queue. -/
def takeUnit (ok : Nat → Bool) : List (Nat × BitVec 72) → Option ((Nat × BitVec 72) × List (Nat × BitVec 72))
  | [] => none
  | x :: r => if ok (x.1 % 4) then some (x, r) else (takeUnit ok r).map (fun y => (y.1, x :: y.2))

/-- Fill one slot: a class with a credit and allowance left first, then any class with a credit (R385, R390). -/
def fillSlot (allow : Nat → Nat) (x : IbkDir) : Option ((Nat × BitVec 72) × IbkDir) :=
  let credit := fun c => decide (0 < x.credits.getD (c - 1) 0)
  let within := fun c => credit c && decide (x.used.getD c 0 < allow c)
  match (takeUnit within x.queue).orElse (fun _ => takeUnit credit x.queue) with
  | none => none
  | some (u, q) =>
    let c := u.1 % 4
    some (u, { x with queue := q, used := addAt x.used c 1, credits := x.credits.set (c - 1) (x.credits.getD (c - 1) 0 - 1) })

/-- Fill up to n slots. -/
def fillSlots (allow : Nat → Nat) : Nat → IbkDir → List (Nat × BitVec 72) × IbkDir
  | 0, x => ([], x)
  | n + 1, x =>
    match fillSlot allow x with
    | none => ([], x)
    | some (u, y) =>
      let r := fillSlots allow n y
      (u :: r.1, r.2)

/-- Mark the classes that have gone beyond their allowance in the tick. -/
def State.ibkOver (s : State) (l dir : Nat) : State :=
  [1, 2, 3].foldl (fun (s : State) c =>
    if s.ibkAllow (dirFrom l dir) c < (s.dir l dir).used.getD c 0 then s.ibkToll l dir c 2 c else s) s

/-- Direction dir of link l sends one block: a block of a replay, else a new one if the replay buffer has room. ACK and
the replay request are those of its own receiver; credits go back with a new block. -/
def State.blockSend (s : State) (l dir : Nat) : State :=
  let x := s.dir l dir
  let o := s.dir l (1 - dir)
  let ack := (o.want + 4095) % 4096
  if !(s.ibkUp l) then s
  else match x.replaying with
    | b :: r =>
      let s1 := s.onDir l dir (fun y =>
        { y with replaying := r, wire := y.wire ++ [({ b with ack := ack, replayReq := o.reqReplay } : IbkBlock).bits] })
      s1.onDir l (1 - dir) (fun y => { y with reqReplay := false })
    | [] =>
      if 16 ≤ x.held.length then s
      else
        let r := fillSlots (s.ibkAllow (dirFrom l dir)) 14 x
        let cr := o.owed.map (fun n => min n 15)
        let b : IbkBlock := ⟨x.seq, ack, o.reqReplay, cr, r.1⟩
        let y : IbkDir := { r.2 with seq := (x.seq + 1) % 4096, held := x.held ++ [b], wire := x.wire ++ [b.bits] }
        let s1 := s.onDir l dir (fun _ => y)
        let s2 := s1.onDir l (1 - dir) (fun z => { z with reqReplay := false, owed := z.owed.map (fun n => n - min n 15) })
        s2.ibkOver l dir

/-- IBRAK_BLOCK_SEND (R369, R382, R384, R390). flips: errors that the port finds in the mesh flits that wait there. -/
def execIbrakBlockSend (l dir : Nat) (flips : List (BitVec 72)) (s : State) : Out :=
  live (ibkOk l && dirOk dir) s (fun s => (s.portCheck l dir flips).blockSend l dir)

/-! ## Retraining (R386 to R388) -/

/-- Write a bit of DIE_IBKs_STAT at both ends. -/
def State.ibkBoth (s : State) (l : Nat) (f : State → Nat → State) : State :=
  f (f s (aIbk (linkEnds l).1)) (aIbk (linkEnds l).2)

/-- A direction as a retrain leaves it: blocks on the wire are gone, the replay buffer is kept and sent again. -/
def IbkDir.cut (x : IbkDir) : IbkDir :=
  { x with wire := [], replaying := x.held, failing := false, failRun := 0, reqReplay := false }

/-- A link that carries blocks begins to retrain. -/
def State.retrain (s : State) (l : Nat) : State :=
  if s.ibkUp l then
    let s1 := s.ibkBoth l (fun s a => ((s.wf a 0 0 0).wf a 1 1 1).bump (a + 1) 29 24 1)
    (s1.onDir l 0 IbkDir.cut).onDir l 1 IbkDir.cut
  else s

/-- RETRAIN (R386). -/
def execRetrain (l : Nat) (s : State) : Out := live (ibkOk l) s (fun s => s.retrain l)

/-- Words that a direction holds: queued, and in blocks that its receiver has not received. -/
def IbkDir.words (x : IbkDir) : Nat :=
  x.queue.length +
    ((x.held.filter (fun (b : IbkBlock) => decide (seqAhead b.seq x.want < 2048))).map (fun b => b.slots.length)).foldl (· + ·) 0

/-- The mesh flits of a direction that stand in the edge inputs of its receiver. -/
def State.atEdge (s : State) (l dir : Nat) : Nat :=
  let e := dirTo l dir
  (List.range 9).foldl (fun a pos =>
    if edgePos (edgeJunc pos e.2) e.2 = pos then a + flitsAt (s.junc e.1 (edgeJunc pos e.2)).inq (4 + e.2) else a) 0

/-- A direction begins anew: a credit for each slot of its receiver's buffers that is free (R385). -/
def State.dirFresh (s : State) (l dir : Nat) : State :=
  s.onDir l dir (fun _ => { IbkDir.reset with credits := [64 - s.atEdge l dir, 64, 64, 64] })

/-- A link goes out of service: its held words are discarded and counted (R388). -/
def State.linkDown (s : State) (l : Nat) : State :=
  let n := (s.dir l 0).words + (s.dir l 1).words
  let s1 := s.ibkBoth l (fun s a => s.wf a 2 0 4)
  let s2 := (s1.dirFresh l 0).dirFresh l 1
  let e := (linkEnds l).1
  ((s2.setIbLink l ⟨0, false⟩).wf (aPwr 0x50) l l 0).mark e.1 5 e.2 0x051 (wd l) (wd n) 0

/-- Training of link l ends: lanesBad the failed lanes, authOk the exchange of R387. A failed exchange is a tamper event
and the link goes out of service; lanes beyond the two spares make the attempt a failed retrain, the third of which takes
the link out of service. -/
def State.trainEnd (s : State) (l lanesBad : Nat) (authOk : Bool) : State :=
  let a := aIbk (linkEnds l).1
  let x := s.ibLink l
  if !(s.rb a 1) then s
  else if 2 < lanesBad then
    if 2 ≤ x.fails then s.linkDown l
    else
      let s1 := s.setIbLink l { x with fails := x.fails + 1 }
      s1.ibkBoth l (fun s a => s.bump (a + 1) 29 24 1)
  else if !authOk then (s.linkDown l).tamperEvent 4
  else
    let s1 := (s.setIbLink l { x with fails := 0 }).wf (aPwr 0x50) l l 0
    s1.ibkBoth l (fun s a => s.wf a 4 0 (1 + 8 * lanesBad))

/-- IBRAK_TRAIN_END (R386 to R388). -/
def execIbrakTrainEnd (l lanesBad : Nat) (authOk : Bool) (s : State) : Out :=
  live (ibkOk l) s (fun s => (s.trainEnd l lanesBad authOk).oneCycle s)

/-! ## Receiving (R383, R384) -/

/-- What a block says to the other direction's sender: ACK, a replay request, credits. -/
def IbkDir.heard (x : IbkDir) (b : IbkBlock) : IbkDir :=
  let held := x.held.dropWhile (fun (h : IbkBlock) => decide (seqAhead b.ack h.seq < 2048))
  { x with held := held, credits := (x.credits.zip b.cr).map (fun (p : Nat × Nat) => p.1 + p.2),
           replaying := if b.replayReq then held else x.replaying,
           replays := x.replays + natB b.replayReq }

/-- A slot of class c that direction dir of link l has delivered is free again (R385). -/
def State.slotFreed (s : State) (l dir c : Nat) : State :=
  s.onDir l dir (fun x => { x with owed := addAt x.owed (c - 1) 1 })

/-- Release a unit: a mesh flit goes to its edge junction (R369, R371); a lookup or crossroads unit leaves its slot at once. -/
def State.releaseUnit (s : State) (l dir : Nat) (u : Nat × BitVec 72) : State :=
  let e := dirTo l dir
  let j := edgeJunc (u.1 / 4) e.2
  if u.1 % 4 = 1 then
    let x := s.portFlit e.1 j u.2
    match x.2 with
    | some f => x.1.onJunc e.1 j (fun y => { y with inq := y.inq ++ [s.flitIn e.1 j (4 + e.2) f] })
    | none => x.1.slotFreed l dir 1
  else s.slotFreed l dir (u.1 % 4)

/-- A block received intact and in its turn. -/
def State.blockAccept (s : State) (l dir : Nat) (b : IbkBlock) : State :=
  let e := dirTo l dir
  let s1 := s.onDir l dir (fun x => { x with want := (x.want + 1) % 4096, failing := false, failRun := 0 })
  let s2 := s1.onDir l (1 - dir) (fun x => x.heard b)
  let s3 := if b.replayReq then s2.bump (aIbk e + 1) 23 12 1 else s2
  let s4 := if b.replayReq && decide (s3.rf (aIbk e + 3) 21 18 < (s3.dir l (1 - dir)).replays) then
      s3.ibkToll l (1 - dir) 8 3 0 else s3
  b.slots.foldl (fun (s : State) u => s.releaseUnit l dir u) s4

/-- The oldest block of a direction arrives, with errors of its way. -/
def State.blockReceive (s : State) (l dir : Nat) (flip : BitVec 1152) : State :=
  match (s.dir l dir).wire with
  | [] => s
  | w :: r =>
    let b := blockRead (w.1 ^^^ flip, w.2)
    let e := dirTo l dir
    let x := s.dir l dir
    let s1 := s.onDir l dir (fun y => { y with wire := r })
    if !(blockGood (w.1 ^^^ flip)) then
      let run := if (blockRead w).seq = x.want then x.failRun + 1 else x.failRun
      let s2 := s1.bump (aIbk e + 1) 11 0 1
      let s3 := s2.onDir l dir (fun y => { y with failing := true, reqReplay := true, failRun := run })
      if 4 ≤ run then s3.retrain l else s3
    else if b.seq = x.want then s1.blockAccept l dir b
    else s1

/-- IBRAK_BLOCK_RECEIVE (R383, R384, R386). -/
def execIbrakBlockReceive (l dir : Nat) (flip : BitVec 1152) (s : State) : Out :=
  live (ibkOk l && dirOk dir) s (fun s => s.blockReceive l dir flip)

/-! ## Lookup and crossroads units (R362, R382, R505) -/

/-- Units of a class take slots in a direction of a link; the spec gives no layout of them (log entry 73). -/
def State.unitsOn (s : State) (l dir cls n : Nat) : State :=
  s.onDir l dir (fun x => { x with queue := x.queue ++ (List.range n).map (fun i => (cls, Config.freeUnit s.free i)) })

/-- An exchange from die a to die b over the links of a path: n units of a class on each link, m back. -/
def State.crossOn (s : State) (a b cls n m : Nat) (path : List Nat) : State :=
  if path = [] then s
  else State.fresh (path.foldl (fun (s : State) l =>
    (s.unitsOn l (pathDir a b l) cls n).unitsOn l (1 - pathDir a b l) cls m) s)

end Sys2Proof.Machine
end

