-- ==== Sys2Proof/Machine/Dram.lean ====
section
/-!
DEFINITION. The stacks: parcels, areas, the code over their granules, the window, refresh, scrub and repair
(spec/12_history_and_table_store.md, R479 to R487, R508 to R517).
-/
namespace Sys2Proof.Machine

/-- Parcels of a stack (R479). -/
def parcels : Nat := 7635497415
/-- The first parcel of an area that begins at a whole number of GiB (R482). -/
def gib (n : Nat) : Nat := (n * 2 ^ 30 + 35) / 36

/-- HGg. -/
def State.hg (s : State) (d g : Nat) : Nat := s.rf (aDram d 0) (6 * g + 5) (6 * g)
/-- GiB of the history rings below group g. -/
def State.hgBelow (s : State) (d g : Nat) : Nat := (List.range g).foldl (fun a i => a + s.hg d i) 0
/-- H. -/
def State.hgSum (s : State) (d : Nat) : Nat := s.hgBelow d 4
/-- First parcel of group g's ring area, and of the area after it. -/
def State.ringStart (s : State) (d g : Nat) : Nat := gib (s.hgBelow d g)
/-- First parcel of group g's slot index (Table 12.1: 1 GiB per group). -/
def State.indexStart (s : State) (d g : Nat) : Nat := gib (s.hgSum d + g)
/-- First parcel of the readout buffer. -/
def State.rdbufStart (s : State) (d : Nat) : Nat := gib (s.hgSum d + 5)
/-- First parcel of the table store, where the readout buffer ends. -/
def State.storeStart (s : State) (d : Nat) : Nat := gib (s.hgSum d + 6)

/-- Ring depth of a group (R486); 0 without a history area. -/
def State.depth (s : State) (d g : Nat) : Nat :=
  let w := frameWords s.period (s.rf (aGrp d g 0) 0 0)
  let p := gib (s.hgBelow d g + s.hg d g) - s.ringStart d g
  if w = 0 then 0 else min (p / (2 * w)) 119304647

/-- DRAM_STAT.STATE: 0 off, 1 training, 2 up, 3 lost. -/
def State.stackState (s : State) (d : Nat) : Nat := s.rf (aDram d 3) 1 0
/-- The stack serves. -/
def State.stackUp (s : State) (d : Nat) : Bool := s.stackState d == 2

/-- The memory interface of the die and the stack are on (Table 16.4). -/
def State.stackPowered (s : State) (d : Nat) : Bool :=
  s.domainOn d 13 && s.rf (aPwr 0x20) (2 * d + 9) (2 * d + 8) == 2

/-! ## Granules (R480, Table 8.6) -/

/-- A stored granule by its key, parcel × 4 + granule. -/
def Stack.gr (x : Stack) (k : Nat) : Gran := SMap.get (fun _ => 0) x.gran k

/-- Store a granule's bits; a waiting write-back of it is dropped. -/
def State.dput (s : State) (d k : Nat) (g : Gran) : State :=
  let sel := s.rd (aDram d 0x14)
  let hit := bitOf sel 35 && fld sel 32 0 == k / 4 && fld sel 34 33 == k % 4
  let mask : Gran := BitVec.ofNat 88
    ((s.rd (aDram d 0x11)).toNat + 2 ^ 36 * (s.rd (aDram d 0x12)).toNat + 2 ^ 72 * s.rf (aDram d 0x13) 15 0)
  let g1 := if hit then g ^^^ mask else g
  let s1 := s.onStack d (fun x =>
    { x with gran := SMap.set (fun _ => 0) x.gran k g1, wb := x.wb.filter (fun (e : Nat × BitVec 72) => e.1 ≠ k) })
  if hit then ((((s1.wr (aDram d 0x11) 0).wr (aDram d 0x12) 0).wr (aDram d 0x13) 0).wf (aDram d 0x14) 35 35 0) else s1

/-- An armed mask acts on the target granule where a run of granules has been written (R516). -/
def State.flipAt (s : State) (d lo hi : Nat) : State :=
  let sel := s.rd (aDram d 0x14)
  let k := 4 * fld sel 32 0 + fld sel 34 33
  if bitOf sel 35 && decide (lo ≤ k ∧ k < hi) then s.dput d k ((s.stack d).gr k) else s

/-- A row joins those that qualify for repair. -/
def addRow (l : List Nat) (row : Nat) : List Nat := if l.contains row then l else row :: l

/-- Count and log a finding (Table 12.7): finder 0 look, 1 readout, 2 scrub, 3 window, 4 delay area, 5 history merge;
findings per row count toward its repair (R515). -/
def State.dfound (s : State) (d : Nat) (c : Cls3) (finder k syn : Nat) : State :=
  let cls := match c with
    | .corrected => 1
    | .uncorrectable => 2
    | _ => 3
  let s1 := (s.wr (aDram d 0x0D) (wd (k / 4))).wr (aDram d 0x0E)
    (wd (k % 4 + 4 * cls + 16 * finder + 128 + 256 * syn))
  let row := Config.rowOf (k / 4)
  match c with
  | .corrected => (s1.bump (aDram d 0x0C) 17 0 1).onStack d (fun x =>
      let n := SMap.get (fun _ => 0) x.rowFind row + 1
      { x with rowFind := SMap.set (fun _ => 0) x.rowFind row n, rowDue := if 4 ≤ n then addRow x.rowDue row else x.rowDue })
  | .uncorrectable =>
    ((s1.bump (aDram d 0x0C) 35 18 1).onStack d (fun x => { x with rowDue := addRow x.rowDue row })).mark d 4 0 0x041
      (wd (k / 4)) (wd (8 + finder)) (wd syn)
  | _ => s1

/-- Read a granule under Table 8.6: its data, and whether it is poisoned or uncorrectable. -/
def State.dread (s : State) (d finder k : Nat) : State × BitVec 72 × Bool :=
  let g := (s.stack d).gr k
  let (c, x) := eccClass false g
  match c with
  | .clean => (s, x, false)
  | .corrected =>
    ((s.dfound d c finder k (eccSyn g)).onStack d (fun y =>
      { y with wb := y.wb.filter (fun (e : Nat × BitVec 72) => e.1 ≠ k) ++ [(k, x)] }), x, false)
  | .poisoned => (s.dfound d c finder k (eccSyn g), x, true)
  | .uncorrectable => ((s.dfound d c finder k (eccSyn g)).dput d k (eccPoison x), x, true)

/-- The warden reads n parcels through the window, from parcel p on: what it finds acts under Table 8.6 (R480). -/
def State.dsweep (s : State) (d p n : Nat) : State :=
  ((s.stack d).gran.filter (fun (e : Nat × Gran) => decide (4 * p ≤ e.1 ∧ e.1 < 4 * (p + n)))).foldl
    (fun (s : State) e => (s.dread d 3 e.1).1) s

/-- Write a whole granule. -/
def State.dwrite (s : State) (d k : Nat) (x : BitVec 72) : State := s.dput d k (eccEncode x)

/-- Write under a mask: whole, or by merging; a granule that cannot be merged keeps its poison (Table 8.6). -/
def State.dmerge (s : State) (d finder k : Nat) (mask x : BitVec 72) : State :=
  if mask = BitVec.allOnes 72 then s.dwrite d k x
  else
    let r := s.dread d finder k
    if r.2.2 then r.1 else r.1.dwrite d k (mergeBits r.2.1 mask x)

/-- Read a word of a parcel run: word w counted from parcel p. -/
def State.dword (s : State) (d finder p w : Nat) : State × Word × Bool :=
  let r := s.dread d finder (4 * p + w / 2)
  (r.1, granWord r.2.1 w, r.2.2)

/-- Write words from word w of parcel p on. -/
def State.dwords (s : State) (d finder p : Nat) : Nat → List Word → State
  | _, [] => s
  | w, a :: l =>
    if w % 2 = 0 then
      match l with
      | b :: r => (s.dwrite d (4 * p + w / 2) (wordBits 0 a ||| wordBits 1 b)).dwords d finder p (w + 2) r
      | [] => s.dmerge d finder (4 * p + w / 2) (wordMask 0) (wordBits 0 a)
    else (s.dmerge d finder (4 * p + w / 2) (wordMask 1) (wordBits 1 a)).dwords d finder p (w + 1) l

/-- Read n words from word w of parcel p on, each granule once: words, and whether any is marked. -/
def State.dreads (s : State) (d finder p : Nat) : Nat → Nat → State × List Word × Bool
  | _, 0 => (s, [], false)
  | w, 1 =>
    let r := s.dword d finder p w
    (r.1, [r.2.1], r.2.2)
  | w, n + 2 =>
    if w % 2 = 0 then
      let r := s.dread d finder (4 * p + w / 2)
      let r2 := r.1.dreads d finder p (w + 2) n
      (r2.1, granWord r.2.1 0 :: granWord r.2.1 1 :: r2.2.1, r.2.2 || r2.2.2)
    else
      let r := s.dword d finder p w
      let r2 := r.1.dreads d finder p (w + 1) (n + 1)
      (r2.1, r.2.1 :: r2.2.1, r.2.2 || r2.2.2)

/-- Read the four granules of a parcel: its eight words, each with whether its granule is marked. -/
def State.dparcel (s : State) (d finder p : Nat) : State × List (Word × Bool) :=
  [0, 1, 2, 3].foldl (fun (a : State × List (Word × Bool)) i =>
    let r := a.1.dread d finder (4 * p + i)
    (r.1, a.2 ++ [(granWord r.2.1 0, r.2.2), (granWord r.2.1 1, r.2.2)])) (s, [])

/-- The slots that an activity has taken in this tick. -/
def State.usedSlots (s : State) (d row : Nat) : Nat := SMap.get (fun _ => 0) (s.stack d).used row

/-- An activity takes n slots (R508). -/
def State.takeSlots (s : State) (d row n : Nat) : State :=
  s.onStack d (fun x => { x with used := SMap.set (fun _ => 0) x.used row (SMap.get (fun _ => 0) x.used row + n) })

/-! ## The window (R484, R485) -/

/-- The granule key and the word a window address names on its stack; none past the last parcel. -/
def State.winPlace (s : State) (addr : Nat) : Option (Nat × Nat × Nat) :=
  let d := addr / 2 ^ 32 % 8
  let w := addr % 2 ^ 32
  let p := s.rf (aDram d 0x16) 32 0 + w / 8
  if p < parcels then some (d, p, w % 8) else none

/-- Parcels of a table (R502). -/
def ImgTable.len (r : ImgTable) : Nat := (2 ^ r.logn * 2 ^ r.lsz + 7) / 8

/-- The other copy of a parcel that lies in a twinned table of the armed image (R485). -/
def State.twinOf (s : State) (d p : Nat) : Option (Nat × Nat) :=
  match s.img.armed with
  | none => none
  | some im => im.tables.findSome? (fun (r : ImgTable) =>
      if !r.twin then none
      else if r.stack = d ∧ r.base ≤ p ∧ p < r.base + r.len then some (r.tstack, r.tbase + (p - r.base))
      else if r.tstack = d ∧ r.tbase ≤ p ∧ p < r.tbase + r.len then some (r.stack, r.base + (p - r.tbase))
      else none)

/-- A window read of words of one granule: response code and words. -/
def State.winRead (s : State) (addr n : Nat) : State × Nat × List Word :=
  match s.winPlace addr with
  | none => (s, 2, List.replicate n 0)
  | some (d, p, w) =>
    if s.stackUp d then
      let r := (s.takeSlots d 8 1).dreads d 3 p w n
      (r.1, natB r.2.2, r.2.1)
    else (s, 2, List.replicate n 0)

/-- The slots of a window write of words of one granule: a read-modify-write takes two (R508). -/
def winSlots (l : List Word) : Nat := if l.length = 2 then 1 else 2

/-- A window write of words of one granule, to both copies of a twinned table (R485). -/
def State.winWrite (s : State) (addr : Nat) (l : List Word) : State × Nat :=
  match s.winPlace addr with
  | none => (s, 2)
  | some (d, p, w) =>
    if s.stackUp d then
      let s1 := (s.takeSlots d 8 (winSlots l)).dwords d 3 p w l
      match s.twinOf d p with
      | some (d2, p2) => (if s1.stackUp d2 then (s1.takeSlots d2 8 (winSlots l)).dwords d2 3 p2 w l else s1, 0)
      | none => (s1, 0)
    else (s, 2)

/-! ## The stack toll (R508 to R511) -/

/-- CAP. -/
def State.cap (s : State) : Nat := s.period * 3125000 / 22500
/-- RREF: ceil(CAP × 0.056). -/
def State.rref (s : State) : Nat := (s.cap * 56 + 999) / 1000

/-- Do f the first time in the tick that event k of stack d arises. -/
def State.onceStack (s : State) (d k : Nat) (f : State → State) : State :=
  if (s.stack d).flags.contains k then s else f (s.onStack d (fun x => { x with flags := k :: x.flags }))

/-- Ibrak crossings between two dies of the 2 × 4 arrangement. -/
def crossings (a b : Nat) : Nat := max (a % 4) (b % 4) - min (a % 4) (b % 4) + (max (a / 4) (b / 4) - min (a / 4) (b / 4))

/-- The stacks that serve the streams of a tile, with the stack that each would move to (R505). -/
def Image.streamsOf (im : Image) (x : ImgTile) : List (Nat × Option Nat) :=
  (List.range 4).filterMap (fun st =>
    let a := x.reg (0x30 + 2 * st)
    if bitOf a 15 then
      (im.tables.find? (fun (t : ImgTable) => t.handle = fld a 11 0)).map (fun t =>
        let d := im.dieOf x.ltile
        if t.twin then (if crossings d t.tstack < crossings d t.stack then (t.tstack, some t.stack) else (t.stack, some t.tstack))
        else (t.stack, none))
    else none)

/-- Lookups charged to a stack by a tile: ceil(ACC / k). -/
def lkCharge (x : ImgTile) : Nat := (x.acc + 2 ^ x.kc - 1) / 2 ^ x.kc

/-- LK of a stack (Table 12.6). -/
def Image.lk (im : Image) (d : Nat) : Nat :=
  (im.tiles.filter (fun (x : ImgTile) => (im.streamsOf x).any (fun y => y.1 = d))).foldl (fun a x => a + lkCharge x) 0

/-- The LK charge that would move from stack e to stack d were e lost. -/
def Image.moves (im : Image) (e d : Nat) : Nat :=
  (im.tiles.filter (fun (x : ImgTile) => (im.streamsOf x).any (fun y => decide (y.1 = e ∧ y.2 = some d)) &&
    !((im.streamsOf x).any (fun y => y.1 = d)))).foldl (fun a x => a + lkCharge x) 0

/-- Charges of an image against a stack, rows 4, 6 and 7 of Table 12.6: egress delay, lookups, failover. -/
def State.imageCharge (s : State) (im : Image) (d row : Nat) : Nat :=
  if row = 4 then
    let long := im.egress.filter (fun (e : ImgEgress) => decide (e.link / 64 = d ∧ 65 < e.l))
    (long.map (fun (e : ImgEgress) => 2 * ((s.linkW e.link + 8) / 8))).foldl (· + ·) 0 + (if long.isEmpty then 0 else 16)
  else if row = 6 then im.lk d
  else if row = 7 then ((List.range 8).map (fun e => if e = d then 0 else im.moves e d)).foldl max 0
  else 0

/-- The charge of an activity, a row of Table 12.6 from the top, 1 to 7; none outside them. -/
def State.chargeOf (s : State) (im : Option Image) (d row : Nat) : Nat :=
  if row = 1 then s.rref
  else if row = 2 then s.rf (aDram d 1) 7 0
  else if row = 3 then
    (List.range 4).foldl (fun a g => a + (if s.hg d g = 0 then 0 else 2 * s.linkW (64 * d + 16 * g) + 2)) 0
  else if row = 5 then s.rf (aDram d 0) 33 24
  else match im with
    | some x => s.imageCharge x d row
    | none => 0

/-- The sum of R510 for a stack. -/
def State.stackToll (s : State) (im : Image) (d : Nat) : Nat :=
  ((List.range 7).map (fun i => s.chargeOf (some im) d (i + 1))).foldl (· + ·) 0

/-- Has the stack n slots for an activity: within its charge, or slack, which is what neither a charge nor a use beyond one
has of CAP (R511, log entry 76)? -/
def State.slotsFree (s : State) (d row n : Nat) : Bool :=
  let c := fun i => s.chargeOf s.img.armed d i
  let taken := ((List.range 8).map (fun i => max (c (i + 1)) (s.usedSlots d (i + 1) + (if i + 1 = row then n else 0)))).foldl
    (· + ·) 0
  decide (s.usedSlots d row + n ≤ c row ∨ taken ≤ s.cap)

/-- STACK_TOLL_OVER (R511): an activity, row 1 to 7, has gone beyond its charge; the first of a tick is counted and raises
the toll event. -/
def execStackTollOver (d row : Nat) (s : State) : Out :=
  live (dieOk d) s (fun s =>
    if 1 ≤ row ∧ row ≤ 7 ∧ s.chargeOf s.img.armed d row < s.usedSlots d row then
      s.onceStack d 1 (fun s => (s.bump (aDram d 0x17) 17 0 1).mark d 4 0 0x032 2 (wd row) 0)
    else s)

/-! ## Refresh, scrub, repair (R513 to R515) -/

/-- REFRESH (R513): one refresh slot, at most RREF in a tick, at the stack's temperature, which is what its sensor reads
(log entry 8); REF2 shows the doubled rate above 85 °C. -/
def State.refresh (s : State) (d : Nat) : State :=
  if s.stackUp d && decide (s.usedSlots d 1 < s.rref) then
    let t := (Config.freeAnalog s.free).toNat % 256
    let s1 := s.fresh.takeSlots d 1 1
    (s1.wf (aDram d 3) 9 2 t).wf (aDram d 3) 10 10 (natB (decide (85 < t)))
  else s

/-- REFRESH (R513). -/
def execRefresh (d : Nat) (s : State) : Out := live (dieOk d) s (fun s => s.refresh d)

/-- A scrub read of one granule: one found already poisoned is neither counted nor logged (Table 8.6). -/
def State.dscrubRead (s : State) (d k : Nat) : State :=
  if eccSyn ((s.stack d).gr k) = 7 then s else (s.dread d 2 k).1

/-- One scrub slot: of a row under repair, while the scrub pauses (R515), else a waiting write-back, else the next parcel; with SCRUBP = 0 only the write-backs that wait, of the step in
progress or of another finder, in slack (R514). -/
def State.dscrub (s : State) (d : Nat) : State :=
  let n := s.rf (aDram d 1) 7 0
  let row := if n = 0 then 8 else 2
  if !(s.stackUp d) || (if n = 0 then (s.stack d).wb.isEmpty || !(s.slotsFree d 8 1) else decide (n ≤ s.usedSlots d 2)) then s
  else
    let s1 := s.takeSlots d row 1
    if n ≠ 0 ∧ (s.stack d).copying ≠ 0 then s1.onStack d (fun x => { x with copying := x.copying - 1 })
    else match (s.stack d).wb with
    | (k, x) :: _ => s1.dwrite d k x
    | [] =>
      let p := s1.rf (aDram d 0x0F) 32 0
      let s2 := [0, 1, 2, 3].foldl (fun (s : State) i => s.dscrubRead d (4 * p + i)) s1
      if p + 1 < parcels then s2.wr (aDram d 0x0F) (wd (p + 1))
      else ((s2.wr (aDram d 0x0F) 0).bump (aDram d 0x10) 17 0 1).onStack d (fun x => { x with rowFind := [] })

/-- DRAM_SCRUB_STEP (R514). -/
def execDramScrubStep (d : Nat) (s : State) : Out := live (dieOk d) s (fun s => s.dscrub d)

/-- A row qualifies: an uncorrectable granule was found in it, or 4 corrected findings fell in it within one pass (R515);
one that has found no spare is not tried again. -/
def Stack.qualifies (x : Stack) (row : Nat) : Bool := x.rowDue.contains row && !(x.noSpare.contains row)

/-- The controller repairs a qualifying row from a spare of its bank, or reports that there is none (R515): it begins to copy
it, a scrub slot a parcel, and repairs no other row meanwhile. Both rows are written and the old one is read until the copy
ends, so that the row's contents are the same throughout, poison included. -/
def State.rowRepair (s : State) (d parcel spares : Nat) : State :=
  let row := Config.rowOf parcel
  if (s.stack d).qualifies row && s.stackUp d && (s.stack d).copying == 0 then
    if spares = 0 then
      (s.onStack d (fun x => { x with noSpare := row :: x.noSpare })).mark d 4 0 0x072 (wd parcel) 0 0
    else
      let s1 := s.onStack d (fun x =>
        { x with copying := Config.rowParcels, repaired := addRow x.repaired row, rowDue := x.rowDue.filter (fun r => r != row),
                 rowFind := SMap.set (fun _ => 0) x.rowFind row 0 })
      let rows := addRow (SMap.get (fun _ => []) s1.pwr.rows d) row
      let s2 := ({ s1 with pwr := { s1.pwr with rows := SMap.set (fun _ => []) s1.pwr.rows d rows } }).ledgerWrite
      ((s2.bump (aDram d 0x15) 11 0 1).wf (aDram d 0x15) 31 24 (min (s2.rf (aDram d 0x15) 31 24) (spares - 1))).wf
        (aDram d 0x15) 32 32 1
  else s

/-- ROW_REPAIR (R515). spares: spare rows left in the bank of the row. -/
def execRowRepair (d parcel spares : Nat) (s : State) : Out :=
  live (dieOk d && parcelOk parcel) s (fun s => s.rowRepair d parcel spares)

/-! ## Loss and return (R517, R518) -/

/-- A stack is lost: STATE 3, waymark, vector 5; its history stops, and slots in its delay area are gone. -/
def State.stackLost (s : State) (d cause : Nat) : State :=
  if s.stackState d = 3 then s
  else
    let s1 := (s.wf (aDram d 3) 1 0 3).onStack d (fun x => { x with hist := [], rebuild := [], restored := 0, copying := 0, wb := [] })
    let s2 := (List.range 64).foldl (fun (s : State) i =>
      s.onLink (64 * d + i) (fun l => { l with
        lostTo := some (s.tick - 64),
        slots := l.slots.map (fun (x : Slot) => if x.inDelay then { x with lost := true } else x) })) s1
    ((s2.onDie d (fun x => { x with delayed := [] })).mark d 4 0 0x070 (wd cause) 0 0).msix 5

/-- STACKLOST (R517). cause: 1 power, 2 training, 3 RETIRE. -/
def execStacklost (d cause : Nat) (s : State) : Out :=
  live (dieOk d) s (fun s => if 1 ≤ cause ∧ cause ≤ 3 then s.stackLost d cause else s)

/-- The twinned tables of the armed image with a copy on stack d: handle, base here, stack and base of the other copy. -/
def State.twinsOn (s : State) (d : Nat) : List (ImgTable × Nat × Nat × Nat) :=
  match s.img.armed with
  | none => []
  | some im => im.tables.filterMap (fun (r : ImgTable) =>
      if r.twin ∧ r.stack = d then some (r, r.base, r.tstack, r.tbase)
      else if r.twin ∧ r.tstack = d then some (r, r.tbase, r.stack, r.base)
      else none)

/-- A stack comes back: STATE 2, every index entry VALID = 0, REBUILD while twinned tables have to be restored; the slots
whose place was in its delay area until now stay lost (R517, R518). -/
def State.stackReturn (s : State) (d : Nat) : State :=
  if s.stackState d = 2 ∨ s.stackPowered d = false then s
  else
    let lo := 4 * s.indexStart d 0
    let hi := 4 * gib (s.hgSum d + 4)
    let tw := (s.twinsOn d).map (fun x => x.2.1)
    let s0 := (List.range 64).foldl (fun (s : State) i =>
      s.onLink (64 * d + i) (fun l => { l with lostTo := some (s.tick - 64) })) s
    let s1 := (s0.onStack d (fun x =>
      { x with gran := SMap.dropIf (fun k => decide (lo ≤ k ∧ k < hi)) x.gran, rebuild := tw, restored := 0, hist := [] })).flipAt
      d lo hi
    ((s1.wf (aDram d 3) 1 0 2).wf (aDram d 3) 11 11 (natB (decide (tw ≠ [])))).wf (aDram d 0x15) 31 24
      (Config.spareRows d)

/-- STACK_RETURN (R518). -/
def execStackReturn (d : Nat) (s : State) : Out := live (dieOk d) s (fun s => s.stackReturn d)

/-- Copy the stored granules of n parcels from one stack to another. -/
def copyParcels (from_ to_ : SMap Gran) (p q n : Nat) : SMap Gran :=
  let kept := SMap.dropIf (fun k => decide (4 * q ≤ k ∧ k < 4 * (q + n))) to_
  (from_.filter (fun (e : Nat × Gran) => decide (4 * p ≤ e.1 ∧ e.1 < 4 * (p + n)))).foldl
    (fun (m : SMap Gran) e => SMap.set (fun _ => 0) m (e.1 - 4 * p + 4 * q) e.2) kept

/-- The slots of a stack that neither a charge nor a use beyond one has taken in this tick. -/
def State.slack (s : State) (d : Nat) : Nat :=
  s.cap - ((List.range 8).map (fun i => max (s.chargeOf s.img.armed d (i + 1)) (s.usedSlots d (i + 1)))).foldl (· + ·) 0

/-- The slack of a tick goes to the restoring of the first table that waits for it: its next parcels are read from the
surviving copy, under Table 8.6, and written to the returned stack, a slot each; the table serves once it is complete
(R518). -/
def State.restore (s : State) (d : Nat) : State :=
  match (s.stack d).rebuild with
  | [] => s
  | base :: rest =>
    match (s.twinsOn d).find? (fun x => x.2.1 = base) with
    | none => s.onStack d (fun y => { y with rebuild := rest, restored := 0 })
    | some (t, _, d2, from_) =>
      if !(s.stackUp d) || !(s.stackUp d2) then s
      else
        let done := (s.stack d).restored
        let n := min (t.len - done) (min (s.slack d) (s.slack d2))
        let s1 := ((s.takeSlots d 8 n).takeSlots d2 8 n).dsweep d2 (from_ + done) n
        let s2 := (s1.onStack d (fun y =>
          { y with gran := copyParcels (s1.stack d2).gran y.gran (from_ + done) (base + done) n })).flipAt d
          (4 * (base + done)) (4 * (base + done + n))
        s2.onStack d (fun y => if done + n < t.len then { y with restored := done + n }
          else { y with rebuild := rest, restored := 0 })

/-- As a tick ends, the stacks that have tables to restore go on with them. -/
def State.restoreAll (s : State) : State := (List.range 8).foldl (fun (s : State) d => s.restore d) s

/-- REBUILD clears once the last twinned table has been restored from its surviving copy (R518). -/
def State.rebuildEnd (s : State) (d : Nat) : State :=
  if s.rb (aDram d 3) 11 && s.stackUp d && (s.stack d).rebuild == [] then s.wf (aDram d 3) 11 11 0 else s

/-- REBUILD_END (R518). -/
def execRebuildEnd (d : Nat) (s : State) : Out := live (dieOk d) s (fun s => s.rebuildEnd d)

/-! ## Look answers (R263, R502, R505, R507) -/

/-- A copy of a table serves: its stack is up and the copy is not still being restored. -/
def State.copyUp (s : State) (c : Nat × Nat) : Bool := s.stackUp c.1 && !((s.stack c.1).rebuild.contains c.2)

/-- The copy that serves a look from die d: the nearer one that serves and can be reached, the home copy when equally near;
and whether it is not the one that R505 names (R507). -/
def State.lookCopy (s : State) (d : Nat) (r : LkReq) : Option ((Nat × Nat) × Bool) :=
  let up := fun (c : Nat × Nat) => s.copyUp c && s.xrReach d c.1
  if r.dead then none
  else match r.twin with
    | none => if up r.home then some (r.home, false) else none
    | some tw =>
      let near := if crossings d tw.1 < crossings d r.home.1 then tw else r.home
      let far := if near = tw then r.home else tw
      if up near then some (near, false) else if up far then some (far, true) else none

/-- Replace the first request of a stream. -/
def onReq (l : List LkReq) (st : Nat) (f : LkReq → Option LkReq) : List LkReq :=
  match l with
  | [] => []
  | r :: t => if r.stream = st then (match f r with
      | some y => y :: t
      | none => t) else r :: onReq t st f

/-- A word arrives at the head of a stream's queue: the request gives up one word, the first of those its look has read. -/
def Tile.lookTake (t : Tile) (st : Nat) (l : List (Word × Bool)) : Tile :=
  let x := l.headD (0, true)
  { t with lkReq := onReq t.lkReq st (fun r => if r.left ≤ 1 then none else some { r with left := r.left - 1, got := l.tail }),
           lkw := t.lkw ++ [⟨st, x.1, x.2⟩] }

/-- The words that a look takes of the parcel it reads: those of its entry; the spec states none beyond them (R262, R502, log
entry 74). -/
def lookTaken (free : Nat) (r : LkReq) (l : List (Word × Bool)) : List (Word × Bool) :=
  (List.range r.w).map (fun k => if k < r.ew then (l[r.off % 8 + k]?).getD (0, false) else (Config.freeLook free k, false))

/-- The words of a look that have not arrived yet: those its one read of a parcel has given, which the first answer
makes, with its units on the links between, or marked words where no copy serves (R505, R507); none while the stack has no
slot for it (R511). -/
def State.lookWords (s : State) (d : Nat) (r : LkReq) : Option (State × List (Word × Bool)) :=
  if r.got ≠ [] then some (s, r.got)
  else match s.lookCopy d r with
    | some ((sd, base), far) =>
      let row := if far then 7 else 6
      if s.slotsFree sd row 1 then
        let a := (s.takeSlots sd row 1).dparcel sd 0 (base + r.off / 8)
        let l := lookTaken s.free r a.2
        let s1 := if r.ew < r.w then a.1.fresh else a.1
        some (s1.crossOn d sd 2 1 (1 + (r.w + 1) / 2) ((s.pathUsed d sd).getD []), l)
      else none
    | none => some (s, List.replicate r.w (0, true))

/-- The next word of the oldest look of a stream arrives: a held look waits for its release (R414). Under Rigor both
tiles of the pair receive it (R605). -/
def State.lookAnswer (s : State) (d p st : Nat) : State :=
  match (s.tile d p).lkReq.find? (fun (r : LkReq) => r.stream = st) with
  | none => s
  | some r =>
    if r.held then s
    else match s.lookWords d r with
      | none => s
      | some a =>
        let s1 := a.1.onTile d p (fun t => t.lookTake st a.2)
        match s1.partner d p with
        | some q => s1.onTile d q (fun t => t.lookTake st a.2)
        | none => s1

/-- LOOKUP_ANSWER (R263). -/
def execLookupAnswer (d p st : Nat) (s : State) : Out :=
  live (dieOk d && tileOk p && strOk st) s (fun s => s.lookAnswer d p st)

end Sys2Proof.Machine
end

