-- ==== Sys2Proof/Machine/Ether.lean ====
section
/-!
DEFINITION. Ethernet frames that carry UDP over IPv4, sent and received: readout datagrams (Table 11.7) and the control
messages of the management ports (R529, R530).
-/
namespace Sys2Proof.Machine

/-- The value of bytes i to j − 1, most significant first. -/
def beAt (l : List Byte) (i j : Nat) : Nat := beBytes ((l.drop i).take (j - i))

/-- One's complement sum of 16-bit words, most significant byte first. -/
def onesSum : List Byte → Nat
  | [] => 0
  | [a] => 256 * a.toNat
  | a :: b :: r => 256 * a.toNat + b.toNat + onesSum r

/-- Fold a sum to 16 bits and complement it. -/
def foldSum (n : Nat) : Nat :=
  let a := n % 65536 + n / 65536
  let b := a % 65536 + a / 65536
  let c := b % 65536 + b / 65536
  65535 - c

/-- CRC-32 of IEEE 802.3 over bytes, as the four bytes sent. -/
def ethFcs (l : List Byte) : List Byte :=
  let c := l.foldl (fun (c : Nat) b => (List.range 8).foldl (fun (c : Nat) i =>
    if (c + b.toNat / 2 ^ i) % 2 = 1 then c / 2 ^^^ 0xEDB88320 else c / 2) c) 0xFFFFFFFF
  toLe 4 (0xFFFFFFFF ^^^ c)

/-- Addresses of a frame: destination and source MAC address, IPv4 addresses, UDP ports. -/
structure EthFlow where
  dmac : Nat
  smac : Nat
  sip : Nat
  dip : Nat
  sport : Nat
  dport : Nat
deriving DecidableEq, Repr

/-- The flow back to the sender (R530). -/
def EthFlow.back (f : EthFlow) : EthFlow := ⟨f.smac, f.dmac, f.dip, f.sip, f.dport, f.sport⟩

/-- MAC address, IPv4 address and UDP port of the sender as one number. -/
def EthFlow.src (f : EthFlow) : Nat := (f.smac * 2 ^ 32 + f.sip) * 2 ^ 16 + f.sport

/-- What else the header of a datagram holds: a tag, the type of service byte, identification, flags and offset, time to
live, and whether the UDP checksum is sent. -/
structure IpMeta where
  tag : Option Nat
  tos : Nat
  ident : Nat
  flags : Nat
  ttl : Nat
  sum : Bool
deriving DecidableEq, Repr

/-- The sum over a UDP datagram with its pseudo header. -/
def udpSum (sip dip : Nat) (udp : List Byte) : Nat :=
  onesSum (toBe 4 sip ++ toBe 4 dip ++ toBe 2 17 ++ toBe 2 udp.length ++ udp)

/-- A UDP datagram: its checksum, or 0 where none is sent. -/
def udpBytes (f : EthFlow) (sum : Bool) (payload : List Byte) : List Byte :=
  let body := fun c => toBe 2 f.sport ++ toBe 2 f.dport ++ toBe 2 (payload.length + 8) ++ toBe 2 c ++ payload
  let ck := foldSum (udpSum f.sip f.dip (body 0))
  body (if sum then (if ck = 0 then 65535 else ck) else 0)

/-- An IPv4 header without options for n bytes of UDP. -/
def ipBytes (f : EthFlow) (h : IpMeta) (n : Nat) : List Byte :=
  let head := fun c => toBe 1 0x45 ++ toBe 1 h.tos ++ toBe 2 (n + 20) ++ toBe 2 h.ident ++ toBe 2 h.flags ++ toBe 1 h.ttl ++
    toBe 1 17 ++ toBe 2 c ++ toBe 4 f.sip ++ toBe 4 f.dip
  head (foldSum (onesSum (head 0)))

/-- A frame from destination address to FCS, padded to the 64 bytes of the shortest frame. -/
def udpFrame (f : EthFlow) (h : IpMeta) (payload : List Byte) : List Byte :=
  let udp := udpBytes f h.sum payload
  let tag := match h.tag with
    | some v => toBe 2 0x8100 ++ toBe 2 v
    | none => []
  let l := toBe 6 f.dmac ++ toBe 6 f.smac ++ tag ++ toBe 2 0x0800 ++ ipBytes f h udp.length ++ udp
  let padded := l ++ List.replicate (60 - l.length) 0
  padded ++ ethFcs padded

/-- The addresses of an untagged frame. -/
def frameFlow (l : List Byte) : EthFlow :=
  ⟨beAt l 0 6, beAt l 6 12, beAt l 26 30, beAt l 30 34, beAt l 34 36, beAt l 36 38⟩

/-- Is a frame a whole untagged IPv4 frame without options or fragmentation that carries UDP? From destination address to
FCS, with the checksums of IPv4 and UDP (log entry 82). -/
def udpGood (l : List Byte) : Bool :=
  let n := beAt l 16 18
  let u := beAt l 38 40
  let udp := (l.drop 34).take u
  decide (64 ≤ l.length) && (l.drop (l.length - 4) == ethFcs (l.take (l.length - 4))) && beAt l 12 14 == 0x0800 &&
    beAt l 14 15 == 0x45 && decide (n + 18 ≤ l.length) && beAt l 20 22 % 0x4000 == 0 && beAt l 23 24 == 17 &&
    foldSum (onesSum ((l.drop 14).take 20)) == 0 && decide (8 ≤ u ∧ u + 20 ≤ n) &&
    (beAt l 40 42 == 0 || foldSum (udpSum (beAt l 26 30) (beAt l 30 34) udp) == 0)

/-- The payload of the datagram in a frame. -/
def udpPayload (l : List Byte) : List Byte := (l.drop 42).take (beAt l 38 40 - 8)

end Sys2Proof.Machine
end

