-- ==== Sys2Proof/Machine/Line.lean ====
section
/-!
DEFINITION. Line coding of the links: 64b/66b blocks and their scrambler, the RS-FEC, the PRBS31 pattern, and the net
stream that a receiver takes from its line bits (spec/11_links.md, R444 to R449, R452, R471).
-/
namespace Sys2Proof.Machine

/-! ## GF(2^10) with x^10 + x^3 + 1 (R446) -/

/-- α times an element. -/
def gfDouble (a : Nat) : Nat := if 2 * a < 1024 then 2 * a else (2 * a) ^^^ 0x409
/-- The product of two elements. -/
def gfMul (a b : Nat) : Nat :=
  (List.range 10).foldl (fun (p : Nat) i => gfDouble p ^^^ (if b.testBit (9 - i) then a else 0)) 0
/-- The inverse of an element: its power 1022. -/
def gfInv (a : Nat) : Nat :=
  ((List.range 9).foldl (fun (x : Nat × Nat) _ => (gfMul x.1 (gfMul x.2 x.2), gfMul x.2 x.2)) (1, a)).1
/-- The powers of α from a on. -/
def gfPowers (a : Nat) : Nat → List Nat
  | 0 => []
  | n + 1 => a :: gfPowers (gfDouble a) n
/-- The value of a polynomial, highest power first. -/
def gfEval (l : List Nat) (x : Nat) : Nat := l.foldl (fun a c => gfMul a x ^^^ c) 0

/-! ## RS(132,128) (R446) -/

/-- g(x) = (x − α^0)(x − α^1)(x − α^2)(x − α^3), highest power first. -/
def rsGen : List Nat :=
  (gfPowers 1 4).foldl (fun (p : List Nat) r => List.zipWith (· ^^^ ·) (p ++ [0]) (0 :: p.map (fun c => gfMul c r))) [1]

/-- The 4 parity symbols of data symbols: the remainder of the data times x^4. -/
def rsParity (data : List Nat) : List Nat :=
  data.foldl (fun (r : List Nat) c =>
    let f := r.headD 0 ^^^ c
    List.zipWith (· ^^^ ·) (r.tail ++ [0]) (rsGen.tail.map (fun g => gfMul g f))) [0, 0, 0, 0]

/-- The syndrome of received symbols. -/
def rsSyndrome (l : List Nat) : List Nat := (gfPowers 1 4).map (gfEval l)

/-- Add a value to the symbol at a power. -/
def rsAdd (l : List Nat) (pow v : Nat) : List Nat := l.modify (l.length - 1 - pow) (· ^^^ v)

/-- The powers, below n, at which an error locator vanishes, with α at each. -/
def rsRoots (n s1 s2 : Nat) : List (Nat × Nat) :=
  ((List.range n).zip (gfPowers 1 n)).filter (fun e => gfMul e.2 e.2 ^^^ gfMul s1 e.2 ^^^ s2 == 0)

/-- Correct up to 2 symbols: the symbols and how many were corrected; none where that cannot be done. -/
def rsFix (l : List Nat) : Option (List Nat × Nat) :=
  match rsSyndrome l with
  | [a, b, c, d] =>
    if a = 0 ∧ b = 0 ∧ c = 0 ∧ d = 0 then some (l, 0)
    else
      let one := ((List.range l.length).zip (gfPowers 1 l.length)).find? (fun e =>
        gfMul a e.2 == b && gfMul b e.2 == c && gfMul c e.2 == d)
      match (if a = 0 then none else one) with
      | some e => some (rsAdd l e.1 a, 1)
      | none =>
        let det := gfMul b b ^^^ gfMul a c
        if det = 0 then none
        else
          let q := gfInv det
          match rsRoots l.length (gfMul q (gfMul a d ^^^ gfMul b c)) (gfMul q (gfMul b d ^^^ gfMul c c)) with
          | [x, y] =>
            let v := gfMul (gfInv (x.2 ^^^ y.2)) (b ^^^ gfMul a x.2)
            some (rsAdd (rsAdd l y.1 v) x.1 (a ^^^ v), 2)
          | _ => none
  | _ => none

/-- Bits as 10-bit symbols, most significant bit first (log entry 77). -/
def symbolsOf (n : Nat) (l : List Bool) : List Nat := (List.range n).map (fun i => ofBitsMsb ((l.drop (10 * i)).take 10))
/-- Symbols as bits. -/
def bitsOf (l : List Nat) : List Bool := l.flatMap (bitsMsb 10)

/-- A codeword of 1,280 data bits. -/
def fecEncode (data : List Bool) : List Bool := data ++ bitsOf (rsParity (symbolsOf 128 data))

/-- The data bits of a codeword as received, with how many symbols were corrected; none: it could not be corrected and is
passed as it is. -/
def fecDecode (bits : List Bool) : List Bool × Option Nat :=
  match rsFix (symbolsOf 132 bits) with
  | some r => ((bitsOf r.1).take 1280, some r.2)
  | none => (bits.take 1280, none)

/-! ## The scrambler x^58 + x^39 + 1 (R444) -/

/-- Scramble bits. -/
def scramble (s : BitVec 58) : List Bool → BitVec 58 × List Bool
  | [] => (s, [])
  | b :: r =>
    let o := b ^^ s.getLsbD 38 ^^ s.getLsbD 57
    let x := scramble ((s <<< 1) ||| BitVec.ofNat 58 (natB o)) r
    (x.1, o :: x.2)

/-- Descramble bits. -/
def descramble (s : BitVec 58) : List Bool → BitVec 58 × List Bool
  | [] => (s, [])
  | b :: r =>
    let x := descramble ((s <<< 1) ||| BitVec.ofNat 58 (natB b)) r
    (x.1, (b ^^ s.getLsbD 38 ^^ s.getLsbD 57) :: x.2)

/-! ## PRBS31 (R471; ITU-T O.150: x^31 + x^28 + 1, inverted; log entry 77) -/

/-- The next bit of the pattern before inversion. -/
def prbsNext (s : BitVec 31) : Bool := s.getLsbD 30 ^^ s.getLsbD 27
/-- The generator with a bit shifted in. -/
def prbsShift (s : BitVec 31) (b : Bool) : BitVec 31 := (s <<< 1) ||| BitVec.ofNat 31 (natB b)

/-- n bits of the pattern. -/
def prbsBits (s : BitVec 31) : Nat → BitVec 31 × List Bool
  | 0 => (s, [])
  | n + 1 =>
    let x := prbsBits (prbsShift s (prbsNext s)) n
    (x.1, (!prbsNext s) :: x.2)

/-- The checker: its first 31 bits set it, every later bit is compared; the bit errors seen. -/
def LineRx.prbsCheck (x : LineRx) : List Bool → LineRx × Nat
  | [] => (x, 0)
  | b :: r =>
    if x.seeded < 31 then ({ x with prbs := prbsShift x.prbs (!b), seeded := x.seeded + 1 } : LineRx).prbsCheck r
    else
      let y := ({ x with prbs := prbsShift x.prbs (prbsNext x.prbs) } : LineRx).prbsCheck r
      (y.1, y.2 + natB ((!b) != prbsNext x.prbs))

/-! ## The transmitter -/

/-- Blocks of 64 net bits, or codewords of 1,280, as long as the net bits fill them. -/
def LineTx.pack (fec : Bool) : Nat → LineTx → LineTx × List Bool
  | 0, x => (x, [])
  | k + 1, x =>
    let n := if fec then 1280 else 64
    if x.net.length < n then (x, [])
    else
      let a := scramble x.scr (x.net.take n)
      let y := LineTx.pack fec k { x with net := x.net.drop n, scr := a.1 }
      (y.1, (if fec then fecEncode a.2 else false :: true :: a.2) ++ y.2)

/-- Net bits go onto the line. -/
def LineTx.push (x : LineTx) (fec : Bool) (bits : List Bool) : LineTx × List Bool :=
  LineTx.pack fec (x.net.length + bits.length) { x with net := x.net ++ bits }

/-! ## The receiver -/

/-- What line bits bring: lock, losses of lock, blocks with a control or invalid header, symbols corrected, uncorrectable
codewords. -/
structure LineEv where
  lock : Bool
  lost : Nat
  blk : Nat
  cs : Nat
  uc : Nat
deriving DecidableEq, Repr

/-- Lock is lost: the net stream ends here, the search begins anew. -/
def LineRx.lose (x : LineRx) : LineRx := { x with good := 0, bad := [], uncor := 0, net := x.net ++ [none] }

/-- Payload bits come out of the descrambler, and into the net stream of a receiver with lock. -/
def LineRx.take (x : LineRx) (lock : Bool) (q : Nat) (payload : List Bool) : LineRx :=
  let a := descramble x.desc payload
  { x with desc := a.1, net := if lock then x.net ++ a.2.map (fun b => some (b, q)) else x.net }

/-- One block of 66 bits (R444, R445): a valid header is 01 or 10; without lock an invalid one moves the boundary by one
bit; a locked receiver loses lock at the 16th invalid header of any 64. -/
def LineRx.block (x : LineRx) (e : LineEv) : LineRx × LineEv :=
  let h0 := x.buf.headD false
  let h1 := (x.buf.drop 1).headD false
  let valid := h0 != h1
  let y := { x with buf := x.buf.drop 66 }
  let payload := (x.buf.drop 2).take 64
  if e.lock then
    let bad := ((!valid) :: x.bad).take 64
    let e1 := { e with blk := e.blk + natB (!(!h0 && h1)) }
    if 16 ≤ bad.count true then (y.lose, { e1 with lock := false, lost := e.lost + 1 })
    else (({ y with bad := bad } : LineRx).take true 0 payload, e1)
  else if valid then
    let z := ({ y with good := x.good + 1 } : LineRx).take false 0 payload
    if x.good + 1 < 64 then (z, e) else ({ z with good := 0, bad := [] }, { e with lock := true })
  else ({ x with buf := x.buf.drop 1, good := 0 }, e)

/-- One codeword of 1,320 bits (R446, R447): without lock a syndrome that is not zero moves the boundary by one bit, and the
4th zero syndrome in succession gives lock; a locked receiver loses lock at the 8th uncorrectable codeword in succession. -/
def LineRx.codeword (x : LineRx) (e : LineEv) : LineRx × LineEv :=
  let w := x.buf.take 1320
  let y := { x with buf := x.buf.drop 1320 }
  if e.lock then
    let r := fecDecode w
    match r.2 with
    | some n => (({ y with uncor := 0 } : LineRx).take true (min n 1) r.1, { e with cs := e.cs + n })
    | none =>
      let e1 := { e with uc := e.uc + 1 }
      if 8 ≤ x.uncor + 1 then (y.lose, { e1 with lock := false, lost := e.lost + 1 })
      else (({ y with uncor := x.uncor + 1 } : LineRx).take true 2 r.1, e1)
  else if rsSyndrome (symbolsOf 132 w) = [0, 0, 0, 0] then
    let z := ({ y with good := x.good + 1 } : LineRx).take false 0 (w.take 1280)
    if x.good + 1 < 4 then (z, e) else ({ z with good := 0, uncor := 0 }, { e with lock := true })
  else ({ x with buf := x.buf.drop 1, good := 0 }, e)

/-- Every whole block or codeword of the bits held. -/
def LineRx.run (fec : Bool) : Nat → LineRx → LineEv → LineRx × LineEv
  | 0, x, e => (x, e)
  | k + 1, x, e =>
    if x.buf.length < (if fec then 1320 else 66) then (x, e)
    else
      let a := if fec then x.codeword e else x.block e
      LineRx.run fec k a.1 a.2

/-- Line bits arrive. -/
def LineRx.arrive (x : LineRx) (fec lock : Bool) (bits : List Bool) : LineRx × LineEv :=
  LineRx.run fec (x.buf.length + bits.length) { x with buf := x.buf ++ bits } ⟨lock, 0, 0, 0, 0⟩

/-! ## The net stream (R456) -/

/-- The net stream from the next START bit on: fill, and what a loss of lock cut off, is passed over. -/
def fromStart : List (Option (Bool × Nat)) → List (Option (Bool × Nat))
  | some (false, q) :: r => some (false, q) :: r
  | _ :: r => fromStart r
  | [] => []

/-- The next n bits of a frame from the net stream: the bits, the stream after them, and whether lock was lost first. -/
def frameTake : Nat → List (Option (Bool × Nat)) → List (Bool × Nat) × List (Option (Bool × Nat)) × Bool
  | 0, l => ([], l, false)
  | _ + 1, [] => ([], [], false)
  | _ + 1, none :: r => ([], r, true)
  | n + 1, some b :: r =>
    let x := frameTake n r
    (b :: x.1, x.2)

end Sys2Proof.Machine
end

