-- ==== Sys2Proof/Machine/Links.lean ====
section
/-!
DEFINITION. The 512 links: Gylitu frames, deposits, egress slots, the deadline egress, lock, and Ethernet readout mode
(spec/11_links.md, R77 to R84).
-/
namespace Sys2Proof.Machine

/-! ## Bits of a frame (R450 to R453) -/

/-- CRC-10 of a frame's positions 1 on (R453). -/
def crc10 (l : List Bool) : Nat := crcBits 10 0x233 0x3FF l

/-- The bits of a frame of tick N (Table 11.2). -/
def frameBits (n : Tick) (flags : Nat) (words : List Word) : List Bool :=
  let body := bitsMsb 4 n.toNat ++ bitsMsb 9 flags ++ words.flatMap (fun w => bitsMsb 36 w.toNat)
  false :: body ++ bitsMsb 10 (crc10 body)

/-- Word i of received bits. -/
def bitsWord (l : List Bool) (i : Nat) : Word := wd (ofBitsMsb ((l.drop (14 + 36 * i)).take 36))

/-- The effective width of the arrival window, in units of 0.125 ns (R455). -/
def State.window (s : State) (n : Nat) : Int :=
  min (2 * (s.linkCfg n 14 5 : Int)) (min (25 * (s.period : Int) - 16) (if s.rate n = 0 then 512 else 1280))

/-! ## Deposits (R457 to R462) -/

/-- Deposit words of a tick into a tile's exchange memory from a word offset on: pairs from an even offset as whole
granules, an unpaired word by read-modify-write (R337); coin: in the cycles of the tile's own write (R334). -/
def Tile.depositAt (t : Tile) (n : Nat) (coin : Bool) (off : Nat) : List Word → Tile
  | [] => t
  | [w] => t.dataWrite 1 (off / 2) (0x200 + n) coin (wordMask off) (wordBits off w)
  | w :: v :: r =>
    if off % 2 = 0 then
      (t.dataWrite 1 (off / 2) (0x200 + n) coin (BitVec.allOnes 72) (wordBits 0 w ||| wordBits 1 v)).depositAt n coin (off + 2) r
    else (t.dataWrite 1 (off / 2) (0x200 + n) coin (wordMask off) (wordBits off w)).depositAt n coin (off + 1) (v :: r)

/-- Where an image's DEPOSIT records put the words of tick N of a link: die, physical tile and first exchange word of each
copy (R406). -/
def State.depositsOf (s : State) (im : Image) (n : Nat) (tick : Tick) : List (Nat × Nat × Nat) :=
  (im.deposits.filter (fun (r : ImgDeposit) => r.link = n)).flatMap (fun (r : ImgDeposit) =>
    let k := 2 ^ r.kc
    match r.members[tick.toNat % k]? with
    | none => []
    | some (lt, base, stride, nbm) =>
      let ds := slotsOf im.rigor lt
      (ds.2.flatMap (fun sl => s.tilesFor ds.1 sl tick)).map (fun p =>
        (ds.1, p, base + stride * ((tick.toNat / k) % (nbm + 1)))))

/-- Where they go: under the armed image to the tiles on which the tick belongs to it, under the standby image to the others
(R428). -/
def State.depositsAt (s : State) (n : Nat) (tick : Tick) : List (Nat × Nat × Nat) :=
  let of := fun (im : Option Image) (new : Bool) => match im with
    | none => []
    | some im => (s.depositsOf im n tick).filter (fun e => s.newOn e.1 e.2.1 tick == new)
  of (s.oldImage tick) false ++ of s.img.standby true

/-- Deposit words of tick N of a link, from word i of its frame on (R406, R460). -/
def State.depositFrom (s : State) (n : Nat) (tick : Tick) (i : Nat) (words : List Word) (coin : Bool) : State :=
  (s.depositsAt n tick).foldl (fun (s : State) e => s.onTile e.1 e.2.1 (fun t => t.depositAt n coin (e.2.2 + i) words)) s

/-- Deposit the words of tick N of a link. -/
def State.deposit (s : State) (n : Nat) (tick : Tick) (words : List Word) (coin : Bool) : State :=
  s.depositFrom n tick 0 words coin

/-- Is there a DEPOSIT record for a link at a tick? -/
def State.hasDeposit (s : State) (n : Nat) (tick : Tick) : Bool := s.depositsAt n tick != []

/-- Keep what the receiver reported for a tick; the reports of the last 512 ticks are kept. -/
def LinkSt.report (x : LinkSt) (r : RxTick) : LinkSt := { x with rx := (r :: x.rx).take 512 }

/-- A link has power and its mode is not off. -/
def State.lineOn (s : State) (n : Nat) : Bool := s.linkCfg n 1 0 != 0 && s.domainOn (n / 64) (9 + groupOf n)

/-- RXPHASE of the last frame seen (R463). -/
def State.setPhase (s : State) (n : Nat) (phase : Int) : State :=
  let v : Int := max (-2047) (min 2047 phase)
  (s.wf (aLink n 3) 18 7 (BitVec.ofInt 12 v).toNat).wf (aLink n 3) 19 19 1

/-! ## Lock (R445, R447, R686) -/

/-- A receiver has lock: a link that retrained after a change of RATE sends frames again (R442). -/
def State.lockGained (s : State) (n : Nat) : State :=
  (s.wf (aLink n 3) 1 0 3).onLink n (fun x => { x with retrain := false })

/-- A loss of lock is counted, the first after each commit logged with LINK_STAT (Table 11.9). -/
def State.lossCount (s : State) (n : Nat) : State :=
  let s1 := (s.wf (aLink n 3) 0 0 0).bump (aLink n 0x0B) 29 18 1
  if (s1.link n).lossLogged then s1
  else (s1.onLink n (fun x => { x with lossLogged := true })).mark (n / 64) 2 n 0x060
    (putFld (s1.rd (aLink n 3)) 6 2 (s1.wShown n)) 0 0

/-- Line bits reach the receiver of a link in frame mode: what they bring is counted, and lock follows them (R445 to
R447). -/
def State.lineIn (s : State) (n : Nat) (bits : List Bool) : State :=
  let r := (s.link n).rxl.arrive (s.linkCfg n 2 2 == 1) (s.rb (aLink n 3) 0) bits
  let s0 := if bits = [] then s else s.wf (aLink n 3) 1 1 1
  let s1 := (((s0.onLink n (fun x => { x with rxl := r.1 })).bump (aLink n 0x0B) 17 0 r.2.blk).bump
    (aLink n 0x0A) 17 0 r.2.cs).bump (aLink n 0x0A) 35 18 r.2.uc
  let s2 := (List.range r.2.lost).foldl (fun (s : State) _ => s.lossCount n) s1
  if r.2.lock then s2.lockGained n else s2

/-- The receiver seeks lock anew and what it held of the line is gone; a frame it was taking in ends here. -/
def LineRx.restart (x : LineRx) : LineRx :=
  { LineRx.reset with net := if x.frame.isSome then x.net ++ [none] else [], frame := x.frame }

/-! ## Frames (R456 to R459, R463) -/

/-- Status NONE for a tick, with W copies of LINK_SUBST deposited while the link group is powered (R443, R457, R458). -/
def State.noFrame (s : State) (n : Nat) (tick : Tick) (coin : Bool) : State :=
  let serv := s.inService n
  let powered := s.domainOn (n / 64) (9 + groupOf n)
  if !serv && !(s.hasDeposit n tick) then s
  else
    let words := List.replicate (s.linkW n) (s.rd (aLink n 1))
    let s1 := if powered then s.deposit n tick words coin else s
    let s2 := s1.onLink n (fun x => x.report ⟨tick, if serv then 2 else 3, words, false, 0⟩)
    if powered then s2.bump (aLink n 8) 35 18 1 else s2

/-- A tick that has been reported is reported no more. -/
def State.reported (s : State) (n : Nat) (tick : Tick) : Bool := (s.link n).rx.any (fun (x : RxTick) => x.tick == tick)

/-- Does the TICK of a frame matter and differ from its tick, or not stand yet (Table 11.4)? -/
def State.tickWrong (s : State) (n : Nat) (f : RxFrame) : Bool :=
  let bits := f.bits.map (fun b => b.1)
  s.linkCfg n 4 4 == 1 && decide (bits.length < 5 ∨ ofBitsMsb ((bits.drop 1).take 4) ≠ f.tick.toNat % 16)

/-- The words of a frame that have come, from its milestone on, are deposited as they arrive (R458); before that they wait in
the alignment buffer (R86). -/
def State.framePut (s : State) (n : Nat) (f : RxFrame) (coin : Bool) : State × RxFrame :=
  let come := min (s.linkW n) ((f.bits.length - 14) / 36)
  if f.inWin && notEarlier s.tick f.tick && decide (f.put < come) && s.inService n && !(s.reported n f.tick) &&
      !(s.tickWrong n f) then
    let bits := f.bits.map (fun b => b.1)
    (s.depositFrom n f.tick f.put ((List.range (come - f.put)).map (fun i => bitsWord bits (f.put + i))) coin,
      { f with put := come })
  else (s, f)

/-- A frame that began in the window of its tick has been taken in, or lock was lost within it: the rest of it is deposited and
it is given its status; with TCHK = 1 one whose TICK does not match is none, and so is one whose link is not in service any
more (R443, Table 11.4). -/
def State.frameEnd (s : State) (n : Nat) (f : RxFrame) (coin : Bool) : State :=
  let w := s.linkW n
  let bits := f.bits.map (fun b => b.1)
  let got := bits.length
  if !f.inWin || s.reported n f.tick then s
  else if !(s.inService n) then s.noFrame n f.tick coin
  else if s.tickWrong n f then
    let s1 := if got < 5 then s else s.bump (aLink n 9) 35 18 1
    if f.closed then s1.noFrame n f.tick coin else s1
  else
    let words := (List.range w).map (fun i => if 50 + 36 * i ≤ got then bitsWord bits i else s.rd (aLink n 1))
    let ok := ofBitsMsb ((bits.drop (14 + 36 * w)).take 10) == crc10 ((bits.drop 1).take (13 + 36 * w)) &&
      f.bits.all (fun b => b.2 != 2) && decide (24 + 36 * w ≤ got)
    let s1 := (s.depositFrom n f.tick f.put (words.drop f.put) coin).onLink n (fun x => x.report
      ⟨f.tick, if ok then 0 else 1, words, f.bits.any (fun b => b.2 == 1), ofBitsMsb ((bits.drop 5).take 9)⟩)
    if ok then s1 else s1.bump (aLink n 8) 17 0 1

/-- A frame ends, or a tick has none: at once if its milestone has come, else what is to be done waits in the alignment buffer
for that milestone (R86, R458). -/
def State.tickEnd (s : State) (n : Nat) (tick : Tick) (f : Option RxFrame) (coin : Bool) : State :=
  if notEarlier s.tick tick then (match f with
    | some f => s.frameEnd n f coin
    | none => s.noFrame n tick coin)
  else if f.any (fun (x : RxFrame) => !x.inWin) then s
  else s.onLink n (fun x => { x with align := x.align ++ [(tick, f, coin)] })

/-- A milestone: what has waited for it in the alignment buffers of a link is done, and the words that have come of a frame
being taken in are deposited. -/
def State.alignStep (s : State) (n : Nat) : State :=
  let x := s.link n
  let s1 := (x.align.filter (fun e => notEarlier s.tick e.1)).foldl (fun (s : State) e => s.tickEnd n e.1 e.2.1 e.2.2)
    (s.onLink n (fun y => { y with align := y.align.filter (fun e => !(notEarlier s.tick e.1)) }))
  match x.rxl.frame with
  | some f =>
    let r := s1.framePut n f false
    if r.2.put = f.put then s1 else r.1.onLink n (fun y => { y with rxl := { y.rxl with frame := some r.2 } })
  | none => s1

/-- Those of every link. -/
def State.alignSteps (s : State) : State :=
  ((s.links.filter (fun (e : Nat × LinkSt) => e.2.align != [] || e.2.rxl.frame.isSome)).map (fun (e : Nat × LinkSt) => e.1)).foldl
    (fun (s : State) n => s.alignStep n) s

/-- The frame being taken in, or the next one: its START bit reached the land phase quarter nanoseconds before the latest
admissible phase of a tick, and outside the window it is counted as misaligned (R456). -/
def State.frameStart (s : State) (n : Nat) (tick : Tick) (phase : Int) : State × Option RxFrame :=
  let x := (s.link n).rxl
  match x.frame with
  | some f => (s, some f)
  | none =>
    let l := fromStart x.net
    let s1 := s.onLink n (fun y => { y with rxl := { y.rxl with net := l } })
    if l = [] then (s1, none)
    else
      let inWin := decide (0 ≤ phase ∧ 2 * phase ≤ s.window n)
      let s2 := s1.setPhase n phase
      (if inWin then s2 else s2.bump (aLink n 9) 17 0 1, some ⟨tick, inWin, false, 0, []⟩)

/-- A receiver takes in the bits of one frame, 24 + 36W from its START bit, as far as they have come (R456). -/
def State.frameStep (s : State) (n : Nat) (tick : Tick) (phase : Int) (coin : Bool) : State :=
  match s.frameStart n tick phase with
  | (s1, none) => s1
  | (s1, some f) =>
    let all := 24 + 36 * s.linkW n
    let r := frameTake (all - f.bits.length) (s1.link n).rxl.net
    let f1 := { f with bits := f.bits ++ r.1 }
    let s2 := s1.onLink n (fun y => { y with rxl := { y.rxl with net := r.2.1 } })
    if r.2.2 || decide (all ≤ f1.bits.length) then
      (s2.onLink n (fun y => { y with rxl := { y.rxl with frame := none } })).tickEnd n f1.tick (some f1) coin
    else
      let q := s2.framePut n f1 coin
      q.1.onLink n (fun y => { y with rxl := { y.rxl with frame := some q.2 } })

/-- Line bits of Ethernet readout mode: the coding of Clauses 107 and 108 says whether they give or keep lock, how many symbols
are corrected and how many codewords cannot be; the spec does not give it bit by bit (free values, log entry 78). -/
def State.baseRIn (s : State) (n : Nat) (line : List Bool) : State :=
  let r := Config.baseR s.free line
  let s0 := if line = [] then s else s.wf (aLink n 3) 1 1 1
  let s1 := ({ s0 with free := s.free + 1 }.bump (aLink n 0x0A) 17 0 r.2.1).bump (aLink n 0x0A) 35 18 r.2.2
  if r.1 then s1.lockGained n else if s.rb (aLink n 3) 0 then s1.lossCount n else s1

/-- Line bits of a link (R444, R456, R471, R476): in frame mode they bring lock or loss of lock and at most one frame, in
Ethernet readout mode lock; in test mode 1 the PRBS31 checker counts their errors; in test mode 2 the receiver listens to its
own transmitter. No link
carries frames while an EXTEST-class instruction holds the lands (R653). -/
def State.ingress (s : State) (n tick : Nat) (phase : Int) (line : List Bool) (coin : Bool) : State :=
  if !(s.lineOn n) || s.clamped then s
  else if s.linkCfg n 16 15 = 1 then
    let r := (s.link n).rxl.prbsCheck line
    let s1 := (s.onLink n (fun x => { x with rxl := r.1 })).bump (aLink n 0x0C) 35 0 r.2
    if line = [] then s1 else s1.wf (aLink n 3) 1 1 1
  else if s.linkCfg n 16 15 ≠ 0 then s
  else if s.linkCfg n 1 0 ≠ 1 then s.baseRIn n line
  else (s.lineIn n line).frameStep n (BitVec.ofNat 48 tick) phase coin

/-- INGRESS_FRAME (R457). -/
def execIngressFrame (n tick : Nat) (phase : Int) (line : List Bool) (coin : Bool) (s : State) : Out :=
  live (linkOk n) s (fun s => s.ingress n tick phase line coin)

/-- The window of a tick closes: with no frame begun in it the tick has status NONE, once its milestone has come (R458). -/
def State.windowEnd (s : State) (n : Nat) (tick : Tick) (coin : Bool) : State :=
  if s.reported n tick then s
  else if (s.link n).align.any (fun e => e.1 == tick) then
    s.onLink n (fun y => { y with align := y.align.map (fun e =>
      if e.1 = tick then (e.1, e.2.1.map (fun (f : RxFrame) => { f with closed := true }), e.2.2) else e) })
  else match (s.link n).rxl.frame with
    | some f =>
      if f.inWin && f.tick == tick then s.onLink n (fun y => { y with rxl := { y.rxl with frame := some { f with closed := true } } })
      else s.tickEnd n tick none coin
    | none => s.tickEnd n tick none coin

/-- ARRIVAL_WINDOW_CLOSE (R458). -/
def execArrivalWindowClose (n tick : Nat) (coin : Bool) (s : State) : Out :=
  live (linkOk n) s (fun s => s.windowEnd n (BitVec.ofNat 48 tick) coin)

/-- Line bits of a link that seeks lock (R445, R447); in Ethernet readout mode lock is that of Clause 108. -/
def State.seekLock (s : State) (n : Nat) (line : List Bool) : State :=
  if !(s.lineOn n) || s.linkCfg n 16 15 != 0 || s.rb (aLink n 3) 0 then s
  else if s.linkCfg n 1 0 = 1 then s.lineIn n line
  else s.baseRIn n line

/-- LOCK_GAIN (R445). -/
def execLockGain (n : Nat) (line : List Bool) (s : State) : Out := live (linkOk n) s (fun s => s.seekLock n line)

/-- A frame being taken in ends with the lock. -/
def State.frameCut (s : State) (n : Nat) : State :=
  if (s.link n).rxl.frame.isSome then s.frameStep n 0 0 false else s

/-- Lock is lost by the line bits that arrive, or because the signal has gone (R445, R447). -/
def State.dropLock (s : State) (n : Nat) (line : List Bool) (gone : Bool) : State :=
  let s1 := if s.lineOn n && s.linkCfg n 16 15 == 0 && s.linkCfg n 1 0 == 1 then s.lineIn n line else s
  let s2 := if (gone || s.linkCfg n 1 0 == 2) && s1.rb (aLink n 3) 0 then
      (s1.onLink n (fun x => { x with rxl := x.rxl.restart })).lossCount n
    else s1
  (if gone then s2.wf (aLink n 3) 1 1 0 else s2).frameCut n

/-- LOCKLOSS (R445). -/
def execLockloss (n : Nat) (line : List Bool) (gone : Bool) (s : State) : Out :=
  live (linkOk n) s (fun s => s.dropLock n line gone)

/-- A link retrains: no lock, and after a change of RATE fill until it has lock again (R442, R686). -/
def State.retrainLink (s : State) (n : Nat) (rate : Bool) : State :=
  ((s.wf (aLink n 3) 0 0 0).onLink n (fun x => { x with
    rxl := x.rxl.restart, retrain := x.retrain || rate, txl := { x.txl with frac := 0, sent := none } })).frameCut n

/-! ## Egress slots (R78 to R81, R271, R433, R464) -/

/-- L of the channel in force on a link; none without one. -/
def State.chL (s : State) (n : Nat) : Option Nat := if s.rb (aLink n 7) 18 then some (s.rf (aLink n 7) 12 0) else none

/-- The deadline of the channel that tick N belongs to. -/
def State.deadline (s : State) (n : Nat) (tick : Tick) : Option Nat :=
  let x := s.link n
  if notEarlier tick x.newFrom then s.chL n
  else match x.old with
    | some (l, from_, _, _) => if notEarlier tick from_ then some l else none
    | none => none

/-- Has the slot of a tick closed: the island has observed milestone N + L − 1 (R78)? -/
def State.slotClosed (s : State) (n : Nat) (tick : Tick) : Bool :=
  match s.deadline n tick with
  | some l => notEarlier (s.link n).obs (tick + BitVec.ofNat 48 l - 1)
  | none => true

/-- Change the slot of a tick, making it if need be; lost: its slot went with the stack. -/
def onSlot (l : List Slot) (tick : Tick) (lost : Bool) (f : Slot → Slot) : List Slot :=
  match l with
  | [] => [f ⟨tick, [], false, false, false, false, lost⟩]
  | x :: r => if x.tick = tick then f x :: r else x :: onSlot r tick lost f

/-- The epoch that a write for a tick must carry (R433). -/
def State.egressEpoch (s : State) (n : Nat) (tick : Tick) : Nat :=
  let x := s.rd (aLink n 6)
  if notEarlier tick (s.link n).epSw then fld x 15 8 else fld x 7 0

/-! ## The delay area (R464, R512, R517) -/

/-- Is the slot of a tick one that lies in the delay area: L > 65 and milestone N + 64 has come? -/
def State.delayDue (s : State) (n : Nat) (tick : Tick) : Bool :=
  notEarlier s.tick (tick + 64) && (match s.deadline n tick with
    | some l => decide (65 < l)
    | none => false)

/-- First parcel of a slot in its die's delay area: a ring of 8,192 slots of 3 parcels per link (log entry 25). -/
def State.delayPlace (s : State) (n : Nat) (tick : Tick) : Nat :=
  gib (s.hgSum (n / 64) + 4) + n % 64 * 24576 + 3 * (tick.toNat % 8192)

/-- The slots of an access to a slot in the delay area: W words and a header (Table 12.6). -/
def State.delaySlots (s : State) (n : Nat) : Nat := (s.linkW n + 8) / 8

/-- Did the slot of a tick go with a lost stack before anything was written to it (R517)? -/
def State.slotLost (s : State) (n : Nat) (tick : Tick) : Bool :=
  s.delayDue n tick && (!(s.stackUp (n / 64)) || (match (s.link n).lostTo with
    | some a => notEarlier a tick
    | none => false))

/-- Change a slot of a link. -/
def State.onSlotOf (s : State) (n : Nat) (tick : Tick) (f : Slot → Slot) : State :=
  s.onLink n (fun x => { x with slots := onSlot x.slots tick (s.slotLost n tick) f })

/-- The slot of a tick, as it stands. -/
def State.slotAt (s : State) (n : Nat) (tick : Tick) : Option Slot := (s.link n).slots.find? (fun (y : Slot) => y.tick = tick)

/-- A slot moves into the delay area: the flags as a header, and its words, those not written as zeros. -/
def State.slotMove (s : State) (n : Nat) (y : Slot) : State :=
  let d := n / 64
  if s.stackUp d then
    let words := (List.range (s.linkW n)).map (fun i => SMap.get (fun _ => 0) y.words i)
    let s1 := (s.takeSlots d 4 (s.delaySlots n)).dwords d 4 (s.delayPlace n y.tick) 0
      (wd (natB y.wrote + 2 * natB y.epx + 4 * natB y.complete) :: words)
    s1.onSlotOf n y.tick (fun z => { z with inDelay := true, words := [] })
  else s.onSlotOf n y.tick (fun z => { z with inDelay := true, lost := true, words := [] })

/-- The writes of a slot that wait at the island. -/
def State.waiting (s : State) (n : Nat) (tick : Tick) : List EgWrite :=
  (s.die (n / 64)).delayed.filter (fun (w : EgWrite) => w.link == n && w.tick == tick)

/-- The island forgets the waiting writes of a slot. -/
def State.waitingGone (s : State) (n : Nat) (tick : Tick) : State :=
  s.onDie (n / 64) (fun x => { x with delayed := x.delayed.filter (fun (w : EgWrite) => !(w.link == n && w.tick == tick)) })

/-- The slots of a link are gone, with the writes that wait for them. -/
def State.slotsClear (s : State) (n : Nat) : State :=
  (s.onLink n (fun x => { x with slots := [] })).onDie (n / 64) (fun x =>
    { x with delayed := x.delayed.filter (fun (w : EgWrite) => w.link != n) })

/-- A slot is read back for its close, with the waiting writes merged in arrival order (R512). -/
def State.slotBack (s : State) (n : Nat) (tick : Tick) : State × Option Slot :=
  match s.slotAt n tick with
  | none => (s, none)
  | some y =>
    if y.inDelay && !y.lost then
      let d := n / 64
      let r := (s.takeSlots d 4 (s.delaySlots n)).dreads d 4 (s.delayPlace n tick) 1 (s.linkW n)
      let words := (s.waiting n tick).foldl (fun (l : List Word) (w : EgWrite) => l.set w.idx w.w) r.2.1
      (r.1.waitingGone n tick, some { y with words := (List.range words.length).zip words })
    else (s, some y)

/-- The oldest write that waits for a slot of a link is applied to it by read-modify-write (R512). -/
def State.delayApply (s : State) (n : Nat) : State :=
  let d := n / 64
  match (s.die d).delayed.find? (fun (w : EgWrite) => w.link == n) with
  | none => s
  | some w =>
    if s.slotsFree d 4 2 then
      let i := 1 + w.idx
      ((s.takeSlots d 4 2).dmerge d 4 (4 * s.delayPlace n w.tick + i / 2) (wordMask i) (wordBits i w.w)).onDie d
        (fun x => { x with delayed := x.delayed.erase w })
    else s

/-- The oldest slot of a channel with L > 65 whose milestone N + 64 has come moves into the delay area of the die's
stack, with a lost stack it is lost (R464, R517); with none to move the oldest waiting write is applied. -/
def State.toDelay (s : State) (n : Nat) : State :=
  match (s.link n).slots.find? (fun (x : Slot) => !x.inDelay && s.delayDue n x.tick) with
  | none => s.delayApply n
  | some y => if !(s.stackUp (n / 64)) || s.slotsFree (n / 64) 4 (s.delaySlots n) then s.slotMove n y else s

/-- SLOT_TO_DELAY_AREA (R464). -/
def execSlotToDelayArea (n : Nat) (s : State) : Out := live (linkOk n) s (fun s => s.toDelay n)

/-- A write or completion changes its slot; a slot of the delay area that has not been moved or made yet moves first,
and a word for one waits at the island (R464, R512). -/
def State.slotWrite (s : State) (w : EgWrite) : State :=
  let n := w.link
  let s1 := s.onSlotOf n w.tick (fun y =>
    if y.complete || y.lost then y
    else if w.complete then { y with complete := true }
    else if y.inDelay then { y with wrote := true }
    else { y with wrote := true, words := SMap.set (fun _ => 0) y.words w.idx w.w })
  match s.slotAt n w.tick with
  | some y =>
    if y.inDelay && !y.complete && !y.lost && !w.complete then
      s1.onDie (n / 64) (fun x => { x with delayed := x.delayed ++ [w] })
    else s1
  | none => match s1.slotAt n w.tick with
    | some y => if s.delayDue n w.tick && !y.lost then s1.slotMove n y else s1
    | none => s1

/-- A write or completion arrives at the egress island: late, of the wrong epoch, after completion, or applied. -/
def State.egressApply (s : State) (w : EgWrite) : State :=
  let n := w.link
  if s.slotClosed n w.tick then s.bump (aLink n 0x10) 35 18 1
  else if w.epoch % 256 ≠ s.egressEpoch n w.tick then
    (s.bump (aLink n 0x10) 17 0 1).onSlotOf n w.tick (fun y => { y with epx := true })
  else s.slotWrite w

/-- The island has no room for a write to the delay area: 256 wait on the die (R512), or its slot has still to move there and
the stack has no slots for that now (R511). -/
def State.islandFull (s : State) (w : EgWrite) : Bool :=
  !w.complete && !(s.slotClosed w.link w.tick) && s.delayDue w.link w.tick &&
    (decide (256 ≤ (s.die (w.link / 64)).delayed.length) ||
      (s.stackUp (w.link / 64) && !((s.slotAt w.link w.tick).any (fun (y : Slot) => y.inDelay || y.lost)) &&
        !(s.slotsFree (w.link / 64) 4 (s.delaySlots w.link))))

/-- The oldest write or completion of a tile reaches its egress island (R271), unless it has no room for it (R75, R512); a
late one is counted at the tile too (Table 6.7). -/
def State.egressArrive (s : State) (d p : Nat) : State :=
  match (s.tile d p).eg with
  | [] => s
  | w :: r =>
    if s.islandFull w then s
    else
      (s.onTile d p (fun t =>
        let u := { t with eg := r }
        if s.slotClosed w.link w.tick then u.bump 0x2A 35 18 1 else u)).egressApply w

/-- EGRESS_WRITE_ARRIVE (R79). -/
def execEgressWriteArrive (d p : Nat) (s : State) : Out := live (dieOk d && tileOk p) s (fun s => s.egressArrive d p)

/-! ## The deadline egress (R38, R81, R429, R465, R466) -/

/-- FLAGS of an egress frame (Table 11.3). -/
def egFlags (dflt reason epoch : Nat) : Nat := dflt + 2 * reason + 16 * (epoch % 32)

/-- The words of a default frame: the default action, then zeros (R465). -/
def defWords (w : Nat) (defs : List Word) : List Word := (List.range w).map (fun i => (defs[i]?).getD 0)

/-- The frame of a tick from its slot, if any (R81, R465, R466). -/
def slotFrame (at_ tick : Tick) (w epoch : Nat) (defs : List Word) (x : Option Slot) : Frame :=
  match x with
  | some y =>
    if y.lost then ⟨at_, tick, egFlags 1 1 epoch, defWords w defs⟩
    else if y.complete then ⟨at_, tick, egFlags 0 0 epoch, (List.range w).map (fun i => SMap.get (fun _ => 0) y.words i)⟩
    else ⟨at_, tick, egFlags 1 (if y.epx then 3 else if y.wrote then 2 else 1) epoch, defWords w defs⟩
  | none => ⟨at_, tick, egFlags 1 1 epoch, defWords w defs⟩

/-- The default action words of the channel in force. -/
def State.txDefs (s : State) (n : Nat) : List Word :=
  (List.range (s.rf (aLink n 7) 17 13)).map (fun i => s.rd (aLink n (0x20 + i)))

/-- The image epoch of the image whose channel is in force from newFrom on. -/
def State.newEpoch (s : State) (n : Nat) : Nat :=
  match s.imageAt (s.link n).newFrom with
  | some im => im.epoch
  | none => 0

/-- A tick's slot goes, with the writes that wait for it. -/
def State.slotGone (s : State) (n : Nat) (tick : Tick) : State :=
  (s.waitingGone n tick).onLink n (fun x => { x with slots := x.slots.filter (fun (y : Slot) => y.tick != tick) })

/-- A frame is built from the slot of a tick and waits for its milestone. -/
def State.build (s : State) (n : Nat) (at_ tick : Tick) (epoch : Nat) (defs : List Word) : State :=
  let r := s.slotBack n tick
  (r.1.slotGone n tick).onLink n (fun x => { x with built := x.built ++ [slotFrame at_ tick (s.linkW n) epoch defs r.2] })

/-- The island observes its next milestone M: the slot to be sent at M + 1 closes and its frame is built, under R429
during a swap. -/
def State.closeAt (s : State) (n : Nat) (m : Tick) : State :=
  let x := s.link n
  let s0 := s.onLink n (fun y => { y with obs := m })
  let m1 := m + 1
  let newT : Option Tick := match s.chL n with
    | some l => if notEarlier (m1 - BitVec.ofNat 48 l) x.newFrom then some (m1 - BitVec.ofNat 48 l) else none
    | none => none
  let oldT : Option (Tick × Nat × List Word) := match x.old with
    | some (l, from_, ep, defs) =>
      let t := m1 - BitVec.ofNat 48 l
      if laterTick x.newFrom t && notEarlier t from_ then some (t, ep, defs) else none
    | none => none
  match newT, oldT with
  | some t, o =>
    let s1 := s0.build n m1 t (s.newEpoch n) (s.txDefs n)
    match o with
    | some (t2, _, _) => (s1.bump (aLink n 0x0F) 35 18 1).slotGone n t2
    | none => s1.onLink n (fun y => { y with old := none })
  | none, some (t, ep, defs) => s0.build n m1 t ep defs
  | none, none =>
    match x.old, s.chL n with
    | some (l, _, _, _), some ln =>
      if laterTick x.newFrom (m1 - BitVec.ofNat 48 l) then s0
      else
        (s0.bump (aLink n 0x0F) 17 0 1).onLink n (fun y => { y with built := y.built ++
          [⟨m1, m1 - BitVec.ofNat 48 ln, egFlags 1 4 (s.newEpoch n), defWords (s.linkW n) (s.txDefs n)⟩] })
    | some (l, _, _, _), none =>
      if laterTick x.newFrom (m1 - BitVec.ofNat 48 l) then s0 else s0.onLink n (fun y => { y with old := none })
    | none, _ => s0

/-- SLOT_CLOSE: the island observes the oldest milestone it has not observed yet (R78). -/
def State.slotClose (s : State) (n : Nat) : State :=
  if laterTick s.tick (s.link n).obs then s.closeAt n ((s.link n).obs + 1) else s

/-- SLOT_CLOSE (R78). -/
def execSlotClose (n : Nat) (s : State) : Out := live (linkOk n) s (fun s => s.slotClose n)

/-- Local triggers that a decision frame fires (R493). -/
def State.triggers (s : State) (n : Nat) (f : Frame) : State :=
  let d := n / 64
  (List.range 4).foldl (fun (s : State) i =>
    let r := s.rd (aDram d (0x1C + i))
    if bitOf r 35 && fld r 8 0 == n && bitOf ((f.words[fld r 12 9]?).getD 0) (fld r 18 13) then
      { s with reqs := s.reqs ++ [(⟨f.tick, fld r 34 19, 0xFF00 + 4 * d + i, true, s.tick⟩, [0, 1, 2, 3, 4, 5, 6, 7])] }
    else s) s

/-- The bits of one tick on the line (R444, R446, R452, R471): a frame, if any, then fill, in blocks or codewords; in test
mode 1 the PRBS31 pattern; in test mode 2 the link's own receiver hears them too. In Ethernet readout mode the octets of the
tick go out, idle where none waits (R474), in the coding of Clauses 107 and 108, and their idle gives the link's own receiver
lock in test mode 2 (log entry 78). -/
def State.lineOut (s : State) (n : Nat) (frame : List Bool) : State :=
  if !(s.lineOn n) || s.clamped then s
  else
    let x := { (s.link n).txl with sent := some s.tick }
    let put := fun (y : LineTx) (l : List Bool) =>
      (s.onLink n (fun z => { z with txl := y })).emit (.line n l)
    if s.linkCfg n 16 15 = 1 then
      let t := x.frac + s.period * (if s.rate n = 0 then 20625 else 8250)
      let r := prbsBits x.prbs (t / 256)
      put { x with prbs := r.1, frac := t % 256 } r.2
    else if s.linkCfg n 1 0 = 1 then
      let t := x.frac + s.period * (if s.rate n = 0 then 625 else 250)
      let r := ({ x with frac := t % 8 } : LineTx).push (s.linkCfg n 3 3 == 1)
        (frame ++ List.replicate (t / 8 - frame.length) true)
      let s1 := put r.1 r.2
      if s.linkCfg n 16 15 = 2 then (s1.lineIn n r.2).onLink n (fun y => { y with rxl := { y.rxl with net := [] } }) else s1
    else
      let t := x.frac + s.period * 625
      let k := t / 64
      let l := x.octs.take k
      let s1 := (s.onLink n (fun z => { z with txl := { x with frac := t % 64, octs := x.octs.drop k } })).emit
        (.octets n (l ++ List.replicate (k - l.length) none))
      if s.linkCfg n 16 15 = 2 && !(s.rb (aLink n 3) 0) then s1.lockGained n else s1

/-- The transmitter at a milestone: a frame whose milestone has come is counted, and sent on a link that is in service, in
no test mode and not retraining for its rate (R38, R442, R443, R468, R471), with no EXTEST-class instruction in force
(R653); then the bits of the tick, fill where no frame is sent, once a milestone. -/
def State.frameSend (s : State) (n : Nat) : State :=
  match (s.link n).built.head?.filter (fun (f : Frame) => notEarlier s.tick f.at_) with
  | none => if (s.link n).txl.sent = some s.tick then s else s.lineOut n []
  | some f =>
    let s1 := s.onLink n (fun x => { x with built := x.built.tail })
    let dec := f.flags % 2 == 0
    let s2 := if dec then s1.wrap (aLink n 0x0D) 1 else s1.wrap (aLink n 0x0E) 1
    if s.inService n && s.linkCfg n 16 15 == 0 && !s.clamped && !(s.link n).retrain then
      let s3 := (s2.emit (.frame n f)).lineOut n (frameBits f.tick f.flags f.words)
      if dec then s3.triggers n f else s3
    else s2.lineOut n []

/-- EGRESS_FRAME_SEND (R38). -/
def execEgressFrameSend (n : Nat) (s : State) : Out := live (linkOk n) s (fun s => s.frameSend n)

/-! ## Ethernet readout mode (R472 to R476) -/

/-- Ethernet readout mode on a powered link. -/
def State.ethMode (s : State) (n : Nat) : Bool := s.linkCfg n 1 0 == 2 && s.domainOn (n / 64) (9 + groupOf n)

/-- A readout datagram on the line, from preamble to FCS (Table 11.7). -/
def State.readoutFrame (s : State) (n : Nat) (payload : List Byte) : List Byte :=
  let r := fun o => s.rd (aLink n (0x11 + o))
  let e7 := r 7
  let mac := fun a b => fld (r a) 23 0 * 2 ^ 24 + fld (r b) 23 0
  let f : EthFlow := ⟨mac 0 1, mac 2 3, fld (r 4) 31 0, fld (r 5) 31 0, fld (r 6) 15 0, fld (r 6) 31 16⟩
  let tag := if bitOf e7 14 then some (fld e7 17 15 * 8192 + fld e7 29 18) else none
  List.replicate 7 (0x55 : Byte) ++ 0xD5 ::
    udpFrame f ⟨tag, fld e7 13 8 * 4, (s.link n).ipid, 0x4000, fld e7 7 0, bitOf e7 30⟩ payload

/-- The next datagram handed to a link is sent, with 12 octets of idle after it, or counted as oversize (R474, R475); in a test mode, whose pattern holds the
line, and under an EXTEST-class instruction it waits (log entry 79). -/
def State.datagramSend (s : State) (n : Nat) : State :=
  match (s.link n).dgs with
  | [] => s
  | pl :: r =>
    if !(s.ethMode n) || s.linkCfg n 16 15 != 0 || s.clamped then s
    else
      let s1 := s.onLink n (fun x => { x with dgs := r })
      if s.rf (aLink n 0x19) 13 0 < pl.length + 28 then s1.bump (aLink n 0x1B) 35 18 1
      else
        let s2 := (s1.emit (.datagram n (s.readoutFrame n pl))).wrap (aLink n 0x1A) 1
        s2.onLink n (fun x => { x with
          ipid := (x.ipid + 1) % 65536,
          txl := { x.txl with octs := x.txl.octs ++ (s.readoutFrame n pl).map some ++ List.replicate 12 none } })

/-- DATAGRAM_SEND (R474). -/
def execDatagramSend (n : Nat) (s : State) : Out := live (linkOk n) s (fun s => s.datagramSend n)

/-- ETH_RX_DISCARD (R476). -/
def execEthRxDiscard (n : Nat) (s : State) : Out :=
  live (linkOk n) s (fun s => if s.ethMode n then s.bump (aLink n 0x1B) 17 0 1 else s)

end Sys2Proof.Machine
end

