-- ==== Sys2Proof/Machine/History.lean ====
section
/-!
DEFINITION. The history writer and the readout engine of each die (spec/12_history_and_table_store.md, R486 to R501).
-/
namespace Sys2Proof.Machine

/-! ## Writing (R487 to R492) -/

/-- A group's history writer. -/
def State.histOf (s : State) (d g : Nat) : HistSt := SMap.get (fun _ => HistSt.reset) (s.stack d).hist g
/-- Put a group's history writer back. -/
def State.setHist (s : State) (d g : Nat) (h : HistSt) : State :=
  s.onStack d (fun x => { x with hist := SMap.set (fun _ => HistSt.reset) x.hist g h })

/-- The index entry of a tick (Table 12.2). -/
def indexEntry (q w st : Nat) (valid : Bool) : BitVec 72 :=
  BitVec.ofNat 72 (q % 2 ^ 32 + 2 ^ 32 * (w - 1) + 2 ^ 36 * (st + 2 ^ 32 * natB valid))

/-- What the receiver of a link reported for a tick that a history writer stores: for one that a TICKSET has left behind,
before it. -/
def State.rxOf (s : State) (n : Nat) (tick : Tick) : Option RxTick :=
  let moved := (s.histOf (n / 64) (groupOf n)).moved.isSome
  (if moved then (s.link n).past ++ (s.link n).rx else (s.link n).rx).find? (fun (x : RxTick) => x.tick == tick)

/-- The statuses of a group's links at a tick, link index 0 lowest. -/
def State.groupStatus (s : State) (d g : Nat) (tick : Tick) : Nat :=
  (List.range 16).foldl (fun a i =>
    let n := 64 * d + 16 * g + i
    let st := if s.inService n then (match s.rxOf n tick with
      | some r => r.status % 4
      | none => 2) else 3
    a + st * 4 ^ i) 0

/-- The words of a tick that a link in service stores (R461): a link that came into service after the tick's window had
closed has received none, and stores copies of LINK_SUBST. -/
def State.histWords (s : State) (n : Nat) (tick : Tick) : List Word :=
  match s.rxOf n tick with
  | some r => r.words.take (s.linkW n)
  | none => List.replicate (s.linkW n) (s.rd (aLink n 1))

/-- Store the words of one link of a group. -/
def State.histLink (s : State) (d g i slot w : Nat) (tick : Tick) : State :=
  let n := 64 * d + 16 * g + i
  if s.inService n then s.dwords d 5 (s.ringStart d g + 2 * w * slot) (i * w) (s.histWords n tick) else s

/-- Is every link in service of a group done with a tick, as each is by milestone N + 2, and as each is with a tick before a
TICKSET? -/
def State.histReady (s : State) (d g : Nat) (tick : Tick) : Bool :=
  notEarlier s.tick (tick + 2) || (s.histOf d g).moved.isSome ||
    (List.range 16).all (fun i => !(s.inService (64 * d + 16 * g + i)) || (s.rxOf (64 * d + 16 * g + i) tick).isSome)

/-- The parcel slots of a step of a history writer (R508, Table 12.6). -/
def histSlots (step w : Nat) : Nat := if step = 1 then 2 * w else 1

/-- The writer after it has committed its tick: the next one, after the last tick before a TICKSET the new number. -/
def HistSt.next (h : HistSt) : HistSt := match h.moved with
  | some m => if h.tick = m.1 then ⟨true, m.2, 0, false, none⟩ else { h with tick := h.tick + 1, step := 0, held := false }
  | none => ⟨true, h.tick + 1, 0, false, none⟩

/-- At each milestone the writers that can store begin with its tick (R489). -/
def State.histBegin (s : State) : State :=
  if !s.tickValid then s
  else (List.range 32).foldl (fun (s : State) i =>
    let d := i / 4
    let g := i % 4
    if s.stackUp d && s.depth d g != 0 && !(s.histOf d g).active then s.setHist d g ⟨true, s.tick, 0, false, none⟩ else s) s

/-- One of the three steps that store a tick of a group (R489), when the stack has slots for it (R511). -/
def State.histStep (s : State) (d g : Nat) : State :=
  let dep := s.depth d g
  if !(s.tickValid && s.stackUp d) || dep == 0 then s
  else
    let h := s.histOf d g
    let tick := if h.active then h.tick else s.tick
    let slot := tick.toNat % dep
    let q := tick.toNat / dep
    let w := frameWords s.period (s.rf (aGrp d g 0) 0 0)
    let key := 4 * s.indexStart d g + slot
    let st := s.groupStatus d g tick
    if !(s.slotsFree d 3 (histSlots h.step w)) then s
    else
      let s1 := s.takeSlots d 3 (histSlots h.step w)
      if h.step = 0 then
        if (notEarlier s.tick tick || h.moved.isSome) && s.histReady d g tick then
          (s1.dwrite d key (indexEntry q w st false)).setHist d g { h with active := true, tick := tick, step := 1 }
        else s
      else if h.step = 1 then
        ((List.range 16).foldl (fun (s : State) i => s.histLink d g i slot w tick) s1).setHist d g { h with step := 2 }
      else (s1.dwrite d key (indexEntry q w st true)).setHist d g { h with active := true, tick := tick }.next

/-- HISTORY_WRITE (R489). -/
def execHistoryWrite (d g : Nat) (s : State) : Out := live (dieOk d && grpOk g) s (fun s => s.histStep d g)

/-- A tick that the die's writer has not committed by milestone N + 2 counts in HOLD once, however many of its groups still
wait; the first such event in a tick is logged, with the row of the history in Table 12.6 (R492). -/
def State.histHold (s : State) (d : Nat) : State :=
  ([0, 1, 2, 3] : List Nat).foldl (fun (s : State) g =>
    let h := s.histOf d g
    if h.active && !h.held && h.moved.isNone && notEarlier s.tick (h.tick + 2) then
      let s1 := s.setHist d g { h with held := true }
      if ([0, 1, 2, 3] : List Nat).any (fun i => i != g && (s.histOf d i).held && (s.histOf d i).tick == h.tick) then s1
      else (s1.bump (aDram d 0x17) 35 18 1).onceStack d 2 (fun s => s.mark d 4 0 0x032 1 3 0)
    else s) s

/-- HISTORY_HOLD (R492). -/
def execHistoryHold (d : Nat) (s : State) : Out := live (dieOk d) s (fun s => s.histHold d)

/-- Every index entry of a group becomes invalid, and no write-back restores one (R490, R518). -/
def State.histClear (s : State) (d g : Nat) : State :=
  let lo := 4 * s.indexStart d g
  let hi := 4 * gib (s.hgSum d + g + 1)
  (s.onStack d (fun x =>
    { x with gran := SMap.dropIf (fun k => decide (lo ≤ k ∧ k < hi)) x.gran,
             wb := x.wb.filter (fun (e : Nat × BitVec 72) => e.1 < lo ∨ hi ≤ e.1),
             hist := SMap.set (fun _ => HistSt.reset) x.hist g HistSt.reset })).flipAt d lo hi

/-! ## Requests (R493 to R495) -/

/-- A profile word of a die. -/
def State.prof (s : State) (d pf w : Nat) : Word := s.rd (aProf d pf w)
/-- The link indexes that a profile selects on a die, in increasing order. -/
def State.profLinks (s : State) (d pf : Nat) : List Nat :=
  (List.range 64).filter (fun i => if i < 32 then bitOf (s.prof d pf 0) i else bitOf (s.prof d pf 1) (i - 32))
/-- BEFORE, AFTER, DEST and ELINK of a profile. -/
def State.profCfg (s : State) (d pf : Nat) : Nat × Nat × Nat × Nat :=
  let w := s.prof d pf 2
  (fld w 6 0, fld w 13 7, fld w 14 14, fld w 20 15)

/-- A request that an engine discards (R495). -/
def State.reqBad (s : State) (d : Nat) (r : RdReq) : Bool :=
  let c := s.profCfg d r.prof
  decide (64 ≤ r.prof) || (c.2.2.1 == 0 && s.linkCfg (64 * d + c.2.2.2) 1 0 != 2) ||
    laterTick (r.tick + BitVec.ofNat 48 c.2.1) (s.tick + 4096)

/-- A request reaches an engine: discarded, without effect on this die, dropped for a full queue, or queued. -/
def State.engineTake (s : State) (d : Nat) (r : RdReq) : State :=
  if 64 ≤ r.prof then s.bump (aDram d 0x18) 26 18 1
  else if s.profLinks d r.prof = [] then s
  else if s.reqBad d r then s.bump (aDram d 0x18) 26 18 1
  else if 16 ≤ (s.stack d).queue.length then
    (s.bump (aDram d 0x18) 17 5 1).onceStack d 3 (fun s => s.mark d 4 0 0x071 (wd r.tag) (wd r.prof) 0)
  else s.onStack d (fun x => { x with queue := x.queue ++ [{ r with since := s.tick }] })

/-- Take the oldest request that engine d has not seen out of the list. -/
def takeReq (d : Nat) : List (RdReq × List Nat) → Option RdReq × List (RdReq × List Nat)
  | [] => (none, [])
  | (r, l) :: t =>
    if l.contains d then
      let l2 := l.filter (fun x => x != d)
      (some r, if l2.isEmpty then t else (r, l2) :: t)
    else
      let x := takeReq d t
      (x.1, (r, l) :: x.2)

/-- The oldest request not yet seen reaches engine d (R494). -/
def State.requestArrive (s : State) (d : Nat) : State :=
  let x := takeReq d s.reqs
  match x.1 with
  | none => s
  | some r => ({ s with reqs := x.2 }).engineTake d r

/-- READOUT_REQUEST (R494). -/
def execReadoutRequest (d : Nat) (s : State) : Out := live (dieOk d) s (fun s => s.requestArrive d)

/-! ## Records (R497, R498) -/

/-- The index entry of a tick in a group, if the slot holds that tick (R491): the statuses. -/
def State.indexRead (s : State) (d g : Nat) (tick : Tick) : State × Option Nat :=
  let dep := s.depth d g
  if dep = 0 ∨ s.stackUp d = false then (s, none)
  else
    let r := s.dread d 1 (4 * s.indexStart d g + tick.toNat % dep)
    let e := r.2.1
    (r.1, if bitOf e 68 && fld e 31 0 == tick.toNat / dep then some (fld e 67 36) else none)

/-- The words of the selected links of a group at a tick, in increasing link number, each with whether any is marked. -/
def State.linkWords (s : State) (d g w p : Nat) : List Nat → State × List (List Word × Bool)
  | [] => (s, [])
  | i :: l =>
    let a := s.dreads d 1 p ((i % 16) * w) w
    let b := a.1.linkWords d g w p l
    (b.1, a.2 :: b.2)

/-- The record of a tick that is gone (R498). -/
def goneRec (d : Nat) (tick : Tick) (off : Int) (i : Nat) : RdRec :=
  ⟨64 * d + i, Config.goneStatus tick.toNat (64 * d + i) % 4, off, [], false, true⟩

/-- The links of group g among link indexes of a die. -/
def inGroup (l : List Nat) (g : Nat) : List Nat := l.filter (fun i => i / 16 = g)

/-- The first read of the index entry of each group with a selected link (R498). -/
def State.firstReads (s : State) (d : Nat) (tick : Tick) (l : List Nat) : State × List (Option Nat) :=
  [0, 1, 2, 3].foldl (fun (a : State × List (Option Nat)) g =>
    if inGroup l g = [] then (a.1, a.2 ++ [none])
    else let b := a.1.indexRead d g tick; (b.1, a.2 ++ [b.2])) (s, [])

/-- The parcels of a slot of group g that the words of selected links lie in. -/
def slotParcels (w : Nat) (l : List Nat) : Nat :=
  ((List.range (2 * w)).filter (fun p => l.any (fun i => decide (i % 16 * w / 8 ≤ p ∧ p ≤ ((i % 16 + 1) * w - 1) / 8)))).length

/-- The slots that reading a tick of the window takes: per group the index entry twice, and the parcels of its selected links
(R509, Example 12.1); a group that has no history is not read (R498). -/
def State.readSlots (s : State) (d : Nat) (l : List Nat) : Nat :=
  [0, 1, 2, 3].foldl (fun a g =>
    if inGroup l g = [] ∨ s.depth d g = 0 ∨ s.stackUp d = false then a
    else a + 2 + slotParcels (frameWords s.period (s.rf (aGrp d g 0) 0 0)) (inGroup l g)) 0

/-- The records of a group's selected links at a tick, off ticks from the accepted one, after the first read of the index
entry: the words, the index entry again (R498). -/
def State.groupRecords (s : State) (d g : Nat) (tick : Tick) (off : Int) (l : List Nat) (first : Option Nat) :
    State × List RdRec :=
  if l = [] then (s, [])
  else match first with
    | none => (s, l.map (goneRec d tick off))
    | some st =>
      let w := frameWords s.period (s.rf (aGrp d g 0) 0 0)
      let r := s.linkWords d g w (s.ringStart d g + 2 * w * (tick.toNat % s.depth d g)) l
      let b := r.1.indexRead d g tick
      match b.2 with
      | none => (b.1, l.map (goneRec d tick off))
      | some _ => (b.1, (l.zip r.2).map (fun x => ⟨64 * d + x.1, (st / 4 ^ (x.1 % 16)) % 4, off, x.2.1, x.2.2, false⟩))

/-- The records of a tick, in increasing link number. -/
def State.records (s : State) (d : Nat) (tick : Tick) (off : Int) (l : List Nat) (idx : List (Option Nat)) :
    State × List RdRec :=
  [0, 1, 2, 3].foldl (fun (a : State × List RdRec) g =>
    let b := a.1.groupRecords d g tick off (inGroup l g) (idx.getD g none)
    (b.1, a.2 ++ b.2)) (s, [])

/-! ## Datagrams and host entries (R499, R500) -/

/-- Words in network pairs (Table 13.1). -/
def netPairs : List Word → List Byte
  | [] => []
  | [a] => toBe 9 (a.toNat * 2 ^ 36)
  | a :: b :: r => toBe 9 (a.toNat * 2 ^ 36 + b.toNat) ++ netPairs r

/-- A record's bytes (Table 12.4). -/
def RdRec.bytes (r : RdRec) : List Byte :=
  toBe 2 (r.link * 128 + r.status * 32 + r.words.length) ++ toBe 1 (natB r.pois + 2 * natB r.gone)
    ++ [BitVec.ofInt 8 r.off] ++ netPairs r.words

/-- The bytes of several records. -/
def recBytes (l : List RdRec) : List Byte := l.flatMap RdRec.bytes

/-- A datagram payload (Table 12.4). -/
def dgPayload (d : Nat) (q : RdReq) (seq : Nat) (last : Bool) (l : List RdRec) : List Byte :=
  toBe 2 1 ++ toBe 2 q.tag ++ toBe 6 q.tick.toNat ++ toBe 2 seq ++ toBe 1 d
    ++ toBe 1 (natB last + 2 * natB q.local_) ++ List.replicate 10 0 ++ recBytes l

/-- Add records to the one being packed, closing a datagram when the next record does not fit: the datagrams closed,
with what remains and the next number. -/
def packRecs (d : Nat) (q : RdReq) (room : Nat) : List RdRec → List RdRec → Nat → List (List Byte) × List RdRec × Nat
  | cur, [], seq => ([], cur, seq)
  | cur, r :: l, seq =>
    if cur ≠ [] ∧ room < (recBytes cur).length + r.bytes.length then
      let x := packRecs d q room [r] l (seq + 1)
      (dgPayload d q seq false cur :: x.1, x.2)
    else packRecs d q room (cur ++ [r]) l seq

/-- A record in word form (R500). -/
def RdRec.toWords (r : RdRec) : List Word :=
  wd (r.link + 2 ^ 9 * r.status + 2 ^ 11 * r.words.length + 2 ^ 16 * (BitVec.ofInt 8 r.off).toNat + 2 ^ 24 * natB r.pois
    + 2 ^ 25 * natB r.gone) :: r.words

/-- An entry of the host ring: header parcel, records, padding to a whole parcel (R500). -/
def ringEntry (d : Nat) (q : RdReq) (l : List RdRec) : List Word :=
  let body := l.flatMap RdRec.toWords
  let len := 1 + (body.length + 7) / 8
  [wd (q.tag + 2 ^ 16 * natB q.local_ + 2 ^ 17 * d), wd q.tick.toNat, wd (q.tick.toNat / 2 ^ 36), wd l.length, wd len, 0, 0, 0]
    ++ body ++ List.replicate (8 * (len - 1) - body.length) 0

/-- The end of a request: its last datagram or its host entry; the next request heads the queue. -/
def Stack.finish (x : Stack) (d : Nat) (v : RdSvc) (dest link : Nat) (now : Tick) : Stack :=
  let q := match x.queue.tail with
    | [] => []
    | r :: t => { r with since := now } :: t
  let y := { x with svc := none, queue := q }
  if dest = 0 then { y with dgs := y.dgs ++ [⟨link, now, dgPayload d v.req v.seq true v.recs⟩] }
  else { y with ring := some (ringEntry d v.req v.recs, 0) }

/-- The request that engine d serves: the one in service, else the head of its queue, from the first milestone after it
heads the queue on (R497). -/
def State.inServe (s : State) (d : Nat) : Option RdSvc :=
  let x := s.stack d
  match x.svc with
  | some v => some v
  | none => match x.queue with
    | r :: _ => if r.since = s.tick ∨ x.ring.isSome = true then none else some ⟨r, 0, [], 0, 0, []⟩
    | [] => none

/-- A datagram that no further record fits, of at least 4 bytes, is complete as its last record has been read (R499). -/
def closeFull (d : Nat) (q : RdReq) (room : Nat) (x : List (List Byte) × List RdRec × Nat) :
    List (List Byte) × List RdRec × Nat :=
  if x.2.1 ≠ [] ∧ room < (recBytes x.2.1).length + 4 then (x.1 ++ [dgPayload d q x.2.2 false x.2.1], [], x.2.2 + 1) else x

/-- The last slot of a tick of the window has been read: its records join those being packed, and a request whose window
has ended is finished. -/
def State.served (s : State) (d : Nat) (v : RdSvc) (tick : Tick) (off : Int) : State :=
  let c := s.profCfg d v.req.prof
  let r := s.records d tick off (s.profLinks d v.req.prof) v.idx
  let n := 64 * d + c.2.2.2
  let room := s.rf (aLink n 0x19) 13 0 - 28 - 24
  let pk0 := if c.2.2.1 = 0 then packRecs d v.req room v.recs r.2 v.seq else ([], v.recs ++ r.2, v.seq)
  let pk := if c.2.2.1 = 0 ∧ v.next + 1 ≤ c.1 + c.2.1 then closeFull d v.req room pk0 else pk0
  let v2 : RdSvc := ⟨v.req, v.next + 1, pk.2.1, pk.2.2, 0, []⟩
  r.1.onStack d (fun y =>
    let y1 := { y with svc := some v2, dgs := y.dgs ++ pk.1.map (fun p => (⟨n, s.tick, p⟩ : RdDg)) }
    if c.1 + c.2.1 < v2.next then y1.finish d v2 c.2.2.1 n s.tick else y1)

/-- Engine d reads on in the next tick of the window, within the RDP slots of the tick (R509, R511), and tick j not before
milestone j + 2 (R497). -/
def State.serve (s : State) (d : Nat) : State :=
  match s.inServe d with
  | none => s
  | some v0 =>
    let c := s.profCfg d v0.req.prof
    let off : Int := (v0.next : Int) - c.1
    let tick := v0.req.tick + BitVec.ofInt 48 off
    let l := s.profLinks d v0.req.prof
    let left := s.rf (aDram d 0) 33 24 - s.usedSlots d 5
    let need := s.readSlots d l - v0.done
    if !(notEarlier s.tick (tick + 2)) || (left == 0 && need != 0) then s
    else
      let a := if v0.idx = [] then s.firstReads d tick l else (s, v0.idx)
      let v := { v0 with idx := a.2 }
      let s1 := a.1.takeSlots d 5 (min left need)
      if left < need then s1.onStack d (fun y => { y with svc := some { v with done := v.done + left } })
      else s1.served d v tick off

/-- READOUT_SERVE (R497). -/
def execReadoutServe (d : Nat) (s : State) : Out := live (dieOk d) s (fun s => s.serve d)

/-- The oldest complete datagram is handed to its link, from the first milestone after its last record was read (R499). -/
def State.dgHand (s : State) (d : Nat) : State :=
  match (s.stack d).dgs with
  | [] => s
  | x :: r =>
    if x.ready = s.tick then s
    else (s.onStack d (fun y => { y with dgs := r })).onLink x.link (fun l => { l with dgs := l.dgs ++ [x.payload] })

/-- DATAGRAM_HAND (R499). -/
def execDatagramHand (d : Nat) (s : State) : Out := live (dieOk d) s (fun s => s.dgHand d)

/-- Write the parcels of an entry into the ring from a position on. -/
def State.ringWrite (s : State) (d base len : Nat) : Nat → Nat → List Word → State
  | 0, _, _ => s
  | n + 1, pos, l => (s.dwords d 4 (base + pos) 0 (l.take 8)).ringWrite d base len n ((pos + 1) % len) (l.drop 8)

/-- The engine writes its entry into the host ring, as many parcels in a tick as RDP leaves it (R508, R509), and moves its
pointer once all of it is written; it waits while the entry would reach the consumer pointer (R500, R501). -/
def State.hostEntry (s : State) (d : Nat) : State :=
  match (s.stack d).ring with
  | none => s
  | some (l, done) =>
    if !(s.stackUp d) then s.onStack d (fun x => { x with ring := none })
    else
      let base := s.rdbufStart d
      let size := s.storeStart d - base
      let hrp := s.rf (aDram d 0x19) 24 0
      let hrc := s.rf (aDram d 0x1A) 24 0
      let n := l.length / 8
      let room := if hrp = hrc then size else (hrc + size - hrp) % size
      if n < room then
        let k := min (n - done) (s.rf (aDram d 0) 33 24 - s.usedSlots d 5)
        let s1 := (s.takeSlots d 5 k).ringWrite d base size k ((hrp + done) % size) (l.drop (8 * done))
        if done + k < n then s1.onStack d (fun x => { x with ring := some (l, done + k) })
        else ((s1.onStack d (fun x => { x with ring := none })).wr (aDram d 0x19) (wd ((hrp + n) % size))).msix 4
      else s.onceStack d 4 (fun s => s.bump (aDram d 0x18) 35 27 1)

/-- HOST_RING_ENTRY (R500). -/
def execHostRingEntry (d : Nat) (s : State) : Out := live (dieOk d) s (fun s => s.hostEntry d)

end Sys2Proof.Machine
end

