-- ==== Sys2Proof/Machine/Image.lean ====
section
/-!
DEFINITION. Images: the words of an image source, header, directory, sections and records
(spec/10_timetables_tolls_contract.md, R402 to R406), the signature trailer and its checks
(spec/14_signed_images_identity_lifecycle.md, R557 to R559).
-/
namespace Sys2Proof.Machine

/-! ## Sources (R521) -/

/-- Word i of an image named as PKG_IMG_SRC names it: SPI NOR in packed little-endian form, or the DRAM window. None past
the device. -/
def State.srcWord (s : State) (src : Word) (i : Nat) : Option Word :=
  let a := fld src 35 2
  if fld src 1 0 = 0 then
    let b := 4 * a + 9 * (i / 2)
    if b + 9 ≤ 2 ^ 27 then
      let v := leBytes ((List.range 9).map (fun k => s.flashByte (b + k)))
      some (if i % 2 = 0 then wd v else wd (v / 2 ^ 36))
    else none
  else
    match s.winPlace (2 * a + i) with
    | none => none
    | some (d, p, w) =>
      if s.stackUp d then some (granWord (eccClass false ((s.stack d).gr (4 * p + w / 2))).2 w) else none

/-- n words from word i on. -/
def readWords (rd : Nat → Option Word) : Nat → Nat → Option (List Word)
  | _, 0 => some []
  | i, n + 1 => do
    let w ← rd i
    let r ← readWords rd (i + 1) n
    return w :: r

/-! ## Records (Table 10.2) -/

/-- A refusal: ERR code, section index, record index (R422). -/
structure ImgErr where
  err : Nat
  sec : Nat
  rec_ : Nat
deriving DecidableEq, Repr

/-- Field [hi:lo] of word k of a record. -/
def rfld (r : List Word) (k hi lo : Nat) : Nat := fld ((r[k]?).getD 0) hi lo

/-- Bits of a word from lo on are 0. -/
def zeroFrom (r : List Word) (k lo : Nat) : Bool := rfld r k 35 lo == 0

/-- Words of a record each have bits [35:lo] 0. -/
def allZeroFrom (lo : Nat) (l : List Word) : Bool := l.all (fun w => fld w 35 lo == 0)

/-- Where the segments of a TILE record lie: reads n of them from its remaining words; none where they do not fit or a
reserved bit is set. -/
def readSegs : Nat → List Word → Option (List (Nat × List Word))
  | 0, l => if l = [] then some [] else none
  | n + 1, l =>
    match l with
    | [] => none
    | h :: r =>
      let c := fld h 31 16
      if fld h 35 32 ≠ 0 ∨ r.length < c then none
      else (readSegs n (r.drop c)).map (fun x => (fld h 15 0, r.take c) :: x)

/-- Pairs of tile I/O word address and value. -/
def readPairs : List Word → List (Nat × Word)
  | a :: v :: r => (a.toNat, v) :: readPairs r
  | _ => []

/-- The bytes of program words, 4 a word. -/
def wordsBytes (l : List Word) : List Byte := l.flatMap (fun w => toLe 4 (fld w 31 0))

/-- A TILE record; none where its form is wrong (R404: the bytes of the last program word beyond NPROG are 0 too). -/
def parseTile (r : List Word) : Option ImgTile :=
  let kc := rfld r 1 11 9
  let nreg := rfld r 6 7 0
  let nprog := rfld r 6 25 8
  let pw := (nprog + 3) / 4
  let body := r.drop 8
  let prog := (body.drop (2 * nreg)).take pw
  if r.length < 8 + 2 * nreg + pw then none
  else if 4 < kc ∨ 2 ^ kc ≤ rfld r 1 15 12 ∨ rfld r 1 17 16 = 3 then none
  else if !(zeroFrom r 0 18 && zeroFrom r 1 26 && zeroFrom r 2 32 && zeroFrom r 4 26 && zeroFrom r 5 30 && zeroFrom r 6 26
      && zeroFrom r 7 8 && allZeroFrom 32 prog && ((wordsBytes prog).drop nprog).all (fun b => b == 0)) then none
  else (readSegs (rfld r 7 7 0) (body.drop (2 * nreg + pw))).map (fun segs =>
    { ltile := rfld r 1 8 0, kc := kc, j := rfld r 1 15 12, detour := rfld r 1 17 16, sprec := rfld r 1 25 18,
      entry := rfld r 2 15 0, saddr := rfld r 2 31 16, cyc := rfld r 3 17 0, hrsv := rfld r 3 35 18,
      start := rfld r 4 7 0, scyc := rfld r 4 25 8, acc := rfld r 5 11 0, byt := rfld r 5 29 12,
      regs := readPairs (body.take (2 * nreg)), prog := (wordsBytes prog).take nprog, segs := segs })

/-- A SIGNPOST record: the 4,096 bytes of a bank. -/
def parseSignpost (r : List Word) : Option (List Byte) :=
  if r.length = 1025 ∧ zeroFrom r 0 18 = true ∧ allZeroFrom 32 r.tail = true then some (wordsBytes r.tail) else none

/-- A ROUTE record. -/
def parseRoute (r : List Word) : Option ImgRoute :=
  let nd := rfld r 2 15 12
  if r.length ≠ 4 + nd ∨ nd = 0 ∨ rfld r 1 26 25 ≠ 0 then none
  else if !(zeroFrom r 0 18 && zeroFrom r 1 27 && zeroFrom r 2 20 && allZeroFrom 12 (r.drop 4)) then none
  else some
    { src := rfld r 1 8 0, rid := rfld r 1 20 9, transit := rfld r 1 24 21, diepath := 0, allow := rfld r 2 11 0,
      subn := rfld r 2 19 16, subv := (r[3]?).getD 0, dests := (r.drop 4).map (fun w => (fld w 8 0, fld w 11 9)) }

/-- A DEPOSIT record. -/
def parseDeposit (r : List Word) : Option ImgDeposit :=
  let kc := rfld r 1 11 9
  if 4 < kc ∨ r.length ≠ 2 + 2 ^ kc ∨ !(zeroFrom r 0 18 && zeroFrom r 1 12) then none
  else some
    { link := rfld r 1 8 0, kc := kc,
      members := (r.drop 2).map (fun w => (fld w 8 0, fld w 20 9, fld w 28 21, fld w 31 29)) }

/-- Reserved bits of a DEPOSIT record's member words. -/
def depositZero (r : List Word) : Bool := allZeroFrom 32 (r.drop 2)

/-- An EGRESS record. -/
def parseEgress (r : List Word) : Option ImgEgress :=
  let nd := rfld r 1 26 22
  if r.length ≠ 2 + nd ∨ 4096 < rfld r 1 21 9 ∨ !(zeroFrom r 0 18 && zeroFrom r 1 27) then none
  else some { link := rfld r 1 8 0, l := rfld r 1 21 9, ndef := nd, defs := r.drop 2 }

/-- A TABLE record; its extents are placed later (R503). -/
def parseTable (r : List Word) : Option ImgTable :=
  if r.length ≠ 10 ∨ 30 < rfld r 1 25 21 ∨ !(zeroFrom r 0 18 && zeroFrom r 1 26 && allZeroFrom 32 (r.drop 2)) then none
  else some
    { handle := rfld r 1 11 0, stack := rfld r 1 14 12, twin := rfld r 1 15 15 == 1, tstack := rfld r 1 18 16,
      lsz := rfld r 1 20 19, logn := rfld r 1 25 21, digest := (r.drop 2).map (fun w => w.toNat), base := 0, tbase := 0 }

/-- A STATE record. -/
def parseState (r : List Word) : Option ImgState :=
  let nr := rfld r 1 28 21
  if 32 < nr ∨ r.length ≠ 2 + nr ∨ !(zeroFrom r 0 18 && zeroFrom r 1 29 && allZeroFrom 32 (r.drop 2)) then none
  else some
    { ltile := rfld r 1 8 0, w := rfld r 1 20 9, ranges := (r.drop 2).map (fun w => (fld w 15 0, fld w 31 16)) }

/-! ## The whole image -/

/-- A parsed image: the image, where each record stands as (type, section, record), the word after its last record, and
the NEED word. -/
structure Parsed where
  im : Image
  org : List (Nat × Nat × Nat)
  nw : Nat
  need : Word
deriving DecidableEq, Repr

/-- Add a record to an image. -/
def Image.addRec (im : Image) (ty : Nat) (r : List Word) : Option Image :=
  if ty = 1 then (parseTile r).map (fun x => { im with tiles := im.tiles ++ [x] })
  else if ty = 2 then (parseSignpost r).map (fun x => { im with signposts := im.signposts ++ [x] })
  else if ty = 3 then (parseRoute r).map (fun x => { im with routes := im.routes ++ [x] })
  else if ty = 4 then
    if depositZero r then (parseDeposit r).map (fun x => { im with deposits := im.deposits ++ [x] }) else none
  else if ty = 5 then (parseEgress r).map (fun x => { im with egress := im.egress ++ [x] })
  else if ty = 6 then (parseTable r).map (fun x => { im with tables := im.tables ++ [x] })
  else if ty = 7 then (parseState r).map (fun x => { im with states := im.states ++ [x] })
  else none

/-- Read the records of a section: n of them from an offset on. -/
def readSection (rd : Nat → Option Word) (ty sec : Nat) : Nat → Nat → Nat → Parsed → Except ImgErr (Parsed × Nat)
  | 0, _, off, p => .ok (p, off)
  | n + 1, i, off, p =>
    match (do
      let w ← rd off
      let l ← (if fld w 17 0 = 0 then none else readWords rd off (fld w 17 0))
      let im ← p.im.addRec ty l
      return (im, fld w 17 0)) with
    | none => .error ⟨1, sec, i⟩
    | some (im, len) =>
      readSection rd ty sec n (i + 1) (off + len) { p with im := im, org := p.org ++ [(ty, sec, i)] }

/-- Read the sections from number i on; spans: the word ranges taken so far. -/
def readSections (rd : Nat → Option Word) (hdr : Nat) :
    Nat → Nat → List (Nat × Nat) → Parsed → Except ImgErr Parsed
  | 0, _, _, p => .ok p
  | n + 1, i, spans, p =>
    match rd (6 + 2 * i), rd (7 + 2 * i) with
    | some t, some o =>
      if fld t 35 26 ≠ 0 ∨ fld t 7 0 = 0 ∨ 7 < fld t 7 0 ∨ o.toNat < hdr then .error ⟨1, i, 0⟩
      else match readSection rd (fld t 7 0) i (fld t 25 8) 0 o.toNat p with
        | .error e => .error e
        | .ok (p1, stop) =>
          if spans.any (fun x => decide (o.toNat < x.2 ∧ x.1 < stop)) then .error ⟨1, i, 0⟩
          else
            let nw := if spans.all (fun x => decide (x.1 ≤ o.toNat)) then stop else p1.nw
            readSections rd hdr n (i + 1) ((o.toNat, stop) :: spans) { p1 with nw := nw }
    | _, _ => .error ⟨1, i, 0⟩

/-- The FORMAT check and the parsed image (R402 to R405, Table 10.7). -/
def parseImage (rd : Nat → Option Word) : Except ImgErr Parsed :=
  match readWords rd 0 6 with
  | none => .error ⟨1, 0, 0⟩
  | some h =>
    let ns := rfld h 5 7 0
    if (h[0]?).getD 0 ≠ 0o724307165041 ∨ rfld h 1 35 0 ≠ 1 ∨ rfld h 2 35 8 ≠ 0 ∨ rfld h 3 24 21 ≠ 0 ∨ rfld h 3 35 29 ≠ 0 ∨
        rfld h 4 35 14 ≠ 0 ∨ rfld h 5 35 8 ≠ 0 ∨ ns = 0 ∨ 64 < ns then .error ⟨1, 0, 0⟩
    else
      let im : Image :=
        { epoch := rfld h 2 7 0, need := rfld h 3 35 0, period := rfld h 4 9 0, minmode := rfld h 4 11 10,
          rigor := rfld h 4 12 12 == 1, swapok := rfld h 4 13 13 == 1, manifest := [], tiles := [], signposts := [],
          routes := [], deposits := [], egress := [], tables := [], states := [] }
      readSections rd (6 + 2 * ns) ns 0 [] ⟨im, [], 6 + 2 * ns, (h[3]?).getD 0⟩

/-- Where record k of a type stands. -/
def Parsed.at_ (p : Parsed) (err ty k : Nat) : ImgErr :=
  match (p.org.filter (fun x => x.1 = ty))[k]? with
  | some x => ⟨err, x.2.1, x.2.2⟩
  | none => ⟨err, 0, 0⟩

/-! ## The trailer (R557 to R559) -/

/-- A signature block: role, signature length, public key, signature. -/
structure SigBlock where
  role : Nat
  slen : Nat
  pk : List Byte
  sig : List Byte
deriving DecidableEq, Repr

/-- A trailer: manifest bytes and signature blocks. -/
structure Trailer where
  manifest : List Byte
  blocks : List SigBlock
deriving DecidableEq, Repr

/-- The manifest bytes of a trailer that could be read. -/
def trailerManifest (t : Except Nat Trailer) : List Byte := match t with
  | .ok x => x.manifest
  | .error _ => []

/-- The signature block at a word, if its form is right. -/
def readBlock (rd : Nat → Option Word) (i : Nat) : Option SigBlock := do
  let h ← rd i
  let pk ← readWords rd (i + 1) 17
  let len := fld h 12 1
  let sig ← (if fld h 35 13 = 0 ∧ allZeroFrom 32 pk = true ∧ 0 < len then readWords rd (i + 18) ((len + 3) / 4) else none)
  if allZeroFrom 32 sig then return ⟨fld h 0 0, len, wordsBytes pk, (wordsBytes sig).take len⟩ else none

/-- Read n signature blocks from a word on; the role that the first wrong one names. -/
def readBlocks (rd : Nat → Option Word) : Nat → Nat → Except Nat (List SigBlock)
  | 0, _ => .ok []
  | n + 1, i => match readBlock rd i with
    | none => .error (((rd i).map (fun h => fld h 0 0)).getD 0)
    | some b => (readBlocks rd n (i + 18 + (b.slen + 3) / 4)).map (fun r => b :: r)

/-- The trailer at word nw, if its form is right (check 1 of Table 14.6); else the role of the block concerned, 0 where the
fault lies in none (log entry 106). -/
def readTrailer (rd : Nat → Option Word) (nw : Nat) : Except Nat Trailer :=
  match rd nw, rd (nw + 1), readWords rd (nw + 2) 16 with
  | some m, some n, some mf =>
    if m = 0o724307165124 ∧ (n = 1 ∨ n = 2) ∧ allZeroFrom 32 mf = true then
      match readBlocks rd n.toNat (nw + 18) with
      | .error r => .error r
      | .ok [x, y] => if x.role = y.role then .error x.role else .ok ⟨wordsBytes mf, [x, y]⟩
      | .ok b => .ok ⟨wordsBytes mf, b⟩
    else .error 0
  | _, _, _ => .error 0

/-- The roles whose signature an image of a kind needs in a life-cycle state (Table 14.5); none where it is refused. -/
def rolesFor (kind lc : Nat) : Option (List Nat) :=
  if lc = 1 then some [0]
  else if lc = 2 ∨ lc = 3 then some (if kind = 1 then [1] else [0, 1])
  else none

/-- A required block's key hashes to the fused root of its role (check 7 of Table 14.6). -/
def State.keyFits (s : State) (b : SigBlock) : Bool :=
  hashBytes b.pk == (if b.role = 0 then s.bytesAt (aSec 0x10) 8 else s.bytesAt (aSec 0x18) 8)

/-- A block's key is of Table 14.1 and SLEN matches it (check 8). -/
def SigBlock.oidFits (b : SigBlock) : Bool := match oidHeight (pkOid b.pk) with
  | none => false
  | some h => b.slen == sigLen h

/-- The signature checks of Table 14.6 in order, each over every required block before the next (R559): none where the image passes, else DETAIL and ROLE. body: words 0 to
NW − 1. -/
def State.sigCheck (s : State) (kind nw : Nat) (body : List Word) (t : Except Nat Trailer) : Option (Nat × Nat) :=
  match t with
  | .error r => some (1, r)
  | .ok t =>
    let mf := t.manifest
    let bind := (mf.drop 48).take 16
    if mf.take 8 ≠ ascii [0x54, 0x47, 0x49, 0x4D, 0x41, 0x47, 0x45, 0x31] ∨ beBytes ((mf.drop 8).take 1) ≠ kind ∨
        (mf.drop 14).take 2 ≠ [0, 0] ∨ beBytes ((mf.drop 10).take 4) ≠ nw then some (2, 0)
    else if (mf.drop 16).take 32 ≠ hashBytes (packedLe body) then some (3, 0)
    else if bind ≠ List.replicate 16 0 ∧ bind ≠ s.devid.take 16 then some (4, 0)
    else if beBytes ((mf.drop 9).take 1) < s.rf aSecBoot 28 23 then some (5, 0)
    else match rolesFor kind s.lc with
      | none => some (6, 0)
      | some roles =>
        match roles.find? (fun r => !(t.blocks.any (fun (b : SigBlock) => b.role = r))) with
        | some r => some (6, r)
        | none =>
          let need := roles.filterMap (fun r => t.blocks.find? (fun (b : SigBlock) => b.role = r))
          let fails := fun (c : Nat) (f : SigBlock → Bool) =>
            (need.find? (fun (b : SigBlock) => !(f b))).map (fun (b : SigBlock) => (c, b.role))
          (fails 7 s.keyFits).or ((fails 8 SigBlock.oidFits).or (fails 9 (fun b => sigOk b.pk mf b.sig)))

/-- Record a refusal in SEC_IMGCHK: DETAIL, ROLE, KIND (R559). -/
def State.imgchk (s : State) (c : Nat × Nat) (kind : Nat) : State :=
  s.wr (aSec 0x42) (wd (c.1 + 16 * c.2 + 32 * (kind - 1)))

end Sys2Proof.Machine
end

