-- ==== Sys2Proof/Machine/Logbook.lean ====
section
/-!
DEFINITION. The logbook: queues, rings, sequence numbers, cursor windows and the flush to flash (spec/15_logbook.md,
R23, R28).
-/
namespace Sys2Proof.Machine

/-! ## Records (Tables 15.1 and 15.3) -/

/-- CLASS of a code: 0 INFO, 1 NOTICE, 2 TOLL, 3 FAULT, 4 SECURITY. -/
def markClass (code : Nat) : Nat :=
  if code = 0x021 then 0
  else if code = 0x030 ∨ code = 0x031 ∨ code = 0x032 then 2
  else if code = 0x043 ∨ code = 0x090 ∨ code = 0x091 then 4
  else if [0x002, 0x003, 0x020, 0x041, 0x042, 0x050, 0x051, 0x070].contains code then 3
  else 1

/-- Of a fault class: FAULT or SECURITY. -/
def faultClass (code : Nat) : Bool := decide (3 ≤ markClass code)

/-- Word j of a record. -/
def Rec.word (r : Rec) (j : Nat) : Word :=
  match j with
  | 0 => r.seq
  | 1 => wd r.m.tick.toNat
  | 2 => wd (r.m.tick.toNat / 2 ^ 36 + 2 ^ 12 * r.rep + 2 ^ 30 * natB r.m.tv)
  | 3 => wd (r.m.die + 8 * r.m.kind + 128 * r.m.index + 2 ^ 17 * min (r.m.tick - r.first).toNat (2 ^ 19 - 1))
  | 4 => wd (r.m.code + 4096 * markClass r.m.code)
  | 5 => r.m.d0
  | 6 => r.m.d1
  | 7 => r.m.d2
  | _ => 0

/-- Two waymarks are identical (R583); a GAP never is. -/
def sameMark (a b : Mark) : Bool :=
  a.code != 1 && a.die == b.die && a.kind == b.kind && a.index == b.index && a.code == b.code && a.d0 == b.d0
    && a.d1 == b.d1 && a.d2 == b.d2

/-- SEQ a is later than SEQ b (R581). -/
def laterSeq (a b : Word) : Bool := decide (1 ≤ (a - b).toNat ∧ (a - b).toNat ≤ 2 ^ 35 - 1)

/-! ## Units (R581 to R585) -/

/-- Put a logbook unit back. -/
def State.setLog (s : State) (d : Nat) (u : LogUnit) : State := { s with logs := SMap.set (fun _ => LogUnit.reset) s.logs d u }

/-- The unit that takes a waymark of a die: its own, or the lead's where the die has no healthy warden (R585). -/
def State.unitOf (s : State) (d : Nat) : Nat := if s.healthy d then d else s.lead

/-- LOG_SEQ.NEXT. -/
def State.seqNext (s : State) : Word := s.rd (aLog 0)

/-- One more occurrence of a record (R583). -/
def Rec.again (r : Rec) (m : Mark) : Rec :=
  { r with m := { r.m with tick := m.tick, tv := m.tv }, rep := min (r.rep + 1) (2 ^ 18 - 1) }

/-- Change the last element of a list. -/
def onLast {α : Type} (f : α → α) : List α → List α
  | [] => []
  | [a] => [f a]
  | a :: b :: r => a :: onLast f (b :: r)

/-- A record arrives at a unit: coalesced, queued or lost; the second component counts a loss. -/
def LogUnit.arrive (u : LogUnit) (m : Mark) : LogUnit × Nat :=
  let fresh : Rec := ⟨0, m, m.tick, 0⟩
  match u.queue.getLast?, u.ring.getLast? with
  | some (r, w), _ =>
    if sameMark m r.m then ({ u with queue := onLast (fun _ => (r.again m, w)) u.queue }, 0)
    else if u.queue.length < 8 then ({ u with queue := u.queue ++ [(fresh, false)] }, 0)
    else ({ u with lost := u.lost + 1, lostFirst := if u.lost = 0 then m.tick else u.lostFirst, lostLast := m.tick }, 1)
  | none, some r =>
    if sameMark m r.m then ({ u with queue := [(r.again m, true)] }, 0)
    else ({ u with queue := [(fresh, false)] }, 0)
  | none, none => ({ u with queue := [(fresh, false)] }, 0)

/-- Take the oldest raised waymark that goes to a unit out of the list. -/
def takeMark (p : Mark → Bool) : List Mark → Option (Mark × List Mark)
  | [] => none
  | m :: r => if p m then some (m, r) else (takeMark p r).map (fun x => (x.1, m :: x.2))

/-- The oldest waymark raised for the unit of die d arrives there (R582 to R585). -/
def State.markArrive (s : State) (d : Nat) : State :=
  match takeMark (fun m => s.unitOf m.die == d) s.marks with
  | none => s
  | some (m, r) =>
    let x := (s.log d).arrive m
    (({ s with marks := r }).setLog d x.1).bump (aLog (0x10 + d)) 34 17 x.2

/-- WAYMARK (R582). -/
def execWaymark (d : Nat) (s : State) : Out := live (dieOk d) s (fun s => s.markArrive d)

/-- A new record of a fault class starts a flush or extends one in progress (R588). -/
def State.flushFor (s : State) (q : Word) : State :=
  if s.flushTo.isSome || s.rb (aLog 1) 0 then { s with flushTo := some q } else s

/-- The unit of die d, while powered, writes the head of its queue into the ring with the next SEQ (R581, R582); a GAP takes
the freed entry after losses (R584). -/
def State.ringPut (s : State) (d : Nat) : State :=
  let u := s.log d
  match u.queue with
  | [] => s
  | (r, rewrite) :: q =>
    let n := s.seqNext
    let x := { r with seq := n }
    let gap : Rec := ⟨0, ⟨d, 7, 0, 1, wd u.lost, wd u.lostFirst.toNat, wd u.lostLast.toNat, s.tick, s.tickValid⟩, s.tick, 0⟩
    let q1 := if u.lost = 0 then q else q ++ [(gap, false)]
    let u1 := { u with queue := q1, lost := 0, lostFirst := 0, lostLast := 0 }
    let u2 := if rewrite then { u1 with ring := onLast (fun _ => x) u.ring }
      else if u.ring.length < 4096 then { u1 with ring := u.ring ++ [x] }
      else { u1 with ring := u.ring.drop 1 ++ [x], base := u.base + 1 }
    let s1 := (s.setLog d u2).wr (aLog 0) (n + 1)
    if !rewrite && faultClass r.m.code then (s1.msix 3).flushFor n else s1

/-- The logbook unit of die d is powered. -/
def State.logUp (s : State) (d : Nat) : Bool := s.domainOn d 15

/-- RING_WRITE (R581). -/
def execRingWrite (d : Nat) (s : State) : Out :=
  live (dieOk d) s (fun s => if s.logUp d then s.ringPut d else s)

/-! ## The cursor window (R586, R587) -/

/-- Master m's own cursor and window word. -/
def aCur (m o : Nat) : Nat := aMine m (aLog o)
/-- The record in a slot of a ring, by the absolute number of the slot. -/
def LogUnit.slot (u : LogUnit) (abs : Nat) : Option Rec := u.ring[(abs % 4096 + 4096 - u.base % 4096) % 4096]?
/-- A master's latch. -/
def State.latchOf (s : State) (m : Nat) : Option Latch := SMap.get (fun _ => none) s.latch m
/-- Set a master's latch. -/
def State.setLatch (s : State) (m : Nat) (x : Option Latch) : State := { s with latch := SMap.set (fun _ => none) s.latch m x }

/-- Position of the oldest record whose SEQ is not earlier than the cursor. -/
def findSeq (cur : Word) : Nat → List Rec → Option (Nat × Rec)
  | _, [] => none
  | i, r :: l => if laterSeq cur r.seq then findSeq cur (i + 1) l else some (i, r)

/-- A read of LOG_WIN0 by master m: latches a slot and returns word 0 (R586). -/
def State.win0 (s : State) (m : Nat) : State × Word :=
  let d := s.rf (aCur m 0x100) 2 0
  let cur := s.rd (aCur m 0x101)
  let u := s.log d
  match (if s.logUp d then findSeq cur 0 u.ring else none) with
  | none => (s.setLatch m (some ⟨d, none, true, false⟩), 0)
  | some (i, r) =>
    let lost := match u.ring.head? with
      | some o => laterSeq o.seq cur
      | none => false
    (s.setLatch m (some ⟨d, some (u.base + i, r.seq), false, lost⟩), r.seq)

/-- Reads of LOG_WIN1 to LOG_WIN7: the latched slot as it stands. -/
def State.winWord (s : State) (m j : Nat) : Word :=
  match s.latchOf m with
  | some ⟨d, some (abs, _), _, _⟩ => match (s.log d).slot abs with
    | some r => if s.logUp d then r.word j else 0
    | none => 0
  | _ => 0

/-- A read of LOG_WCHK by master m (R587). -/
def State.wchk (s : State) (m : Nat) : State × Word :=
  match s.latchOf m with
  | none => (s, 0)
  | some x =>
    let s1 := s.setLatch m none
    let info := 4 * natB x.endNoted + 8 * natB x.lostNoted
    match x.slot with
    | none => (s1, wd info)
    | some (abs, q) =>
      let now := (s.log x.die).slot abs
      if s.logUp x.die && (now.map (fun (r : Rec) => r.seq)) == some q then (s1.wr (aCur m 0x101) (q + 1), wd (1 + info))
      else (s1, wd (2 + info))

/-- A write of LOG_CURD by master m (R586). -/
def State.curdWrite (s : State) (m : Nat) (w : Word) : State :=
  let d := fld w 2 0
  let s1 := s.wf (aCur m 0x100) 2 0 d
  if bitOf w 3 then
    s1.wr (aCur m 0x101) (match (s1.log d).ring.head? with
      | some r => r.seq
      | none => s1.seqNext)
  else s1

/-! ## The logbook area of flash (R588 to R591) -/

/-- Byte offset of logbook sector k. -/
def sectAt (k : Nat) : Nat := 0x400_0000 + 65536 * k
/-- A logbook sector is erased. -/
def State.sectBlank (s : State) (k : Nat) : Bool :=
  s.flash.all (fun (e : Nat × Byte) => !(decide (sectAt k ≤ e.1 ∧ e.1 < sectAt (k + 1))))
/-- LOG_FL1.SECT. -/
def State.sect (s : State) : Nat := s.rf (aLog 3) 9 0
/-- LOG_FL1.NREC. -/
def State.nrec (s : State) : Nat := s.rf (aLog 3) 20 10
/-- The sectors after the one being filled, in order of use, without those skipped. -/
def State.sectsAhead (s : State) : List Nat :=
  ((List.range 1023).map (fun i => (s.sect + 1 + i) % 1024)).filter (fun k => !(s.badSect.contains k))
/-- Erased sectors ahead. -/
def State.erasedAhead (s : State) : Nat := (s.sectsAhead.takeWhile (fun k => s.sectBlank k)).length
/-- LOG_FL1.ERASED follows. -/
def State.showErased (s : State) : State := s.wf (aLog 3) 23 21 (min 7 s.erasedAhead)

/-- The 16-byte header of a sector for its use number. -/
def sectHeader (n : Nat) : List Byte := ascii [0x54, 0x47, 0x4C, 0x42] ++ toLe 4 n ++ List.replicate 8 0
/-- The number of a sector's use. -/
def State.sectUse (s : State) (k : Nat) : Nat := leBytes ((List.range 4).map (fun i => s.flashByte (sectAt k + 4 + i)))

/-- The sector that takes the next record: the one being filled, with its header written first, or the next erased one;
none while no erased sector is ahead. -/
def State.openSect (s : State) : Option State :=
  if s.nrec < 1820 ∧ s.badSect.contains s.sect = false then
    if s.sectBlank s.sect then some (s.program (sectAt s.sect) (sectHeader 0)) else some s
  else
    match s.sectsAhead.head? with
    | none => none
    | some k =>
      if s.sectBlank k then
        let n := (s.sectUse s.sect + 1) % 2 ^ 32
        some (((s.program (sectAt k) (sectHeader n)).wf (aLog 3) 9 0 k).wf (aLog 3) 20 10 0)
      else none

/-- A record slot of a sector holds a record: its bytes are not all 0xFF. -/
def State.slotUsed (s : State) (k i : Nat) : Bool :=
  (List.range 36).any (fun j => s.flashByte (sectAt k + 16 + 36 * i + j) != 0xFF)

/-- At start-up the lead warden goes on with the sector used last, at its first empty slot (log entry 86). -/
def State.findSect (s : State) : State :=
  let used := (List.range 1024).filter (fun k => !(s.sectBlank k))
  match used with
  | [] => s.showErased
  | a :: l =>
    let k := l.foldl (fun (b : Nat) k => if s.sectUse b < s.sectUse k then k else b) a
    let n := ((List.range 1820).find? (fun i => !(s.slotUsed k i))).getD 1820
    ((s.wf (aLog 3) 9 0 k).wf (aLog 3) 20 10 n).showErased

/-- The 36 bytes of a record. -/
def Rec.bytes (r : Rec) : List Byte := packedLe ((List.range 8).map r.word)

/-- Write one record to flash; it becomes the last one written. -/
def State.flashRec (s : State) (r : Rec) : Option State :=
  match s.openSect with
  | none => none
  | some s1 => some (((s1.program (sectAt s1.sect + 16 + 36 * s1.nrec) r.bytes).wf (aLog 3) 20 10 (s1.nrec + 1)).wr (aLog 2) r.seq)

/-- Write records until one finds no erased sector; how many were written. -/
def State.flashRecs (s : State) : List Rec → State × Nat
  | [] => (s, 0)
  | r :: l => match s.flashRec r with
    | some s1 => ((s1.flashRecs l).1, (s1.flashRecs l).2 + 1)
    | none => (s, 0)

/-- Insert a record in order of SEQ, counted from a base. -/
def insertRec (base : Word) (x : Rec) : List Rec → List Rec
  | [] => [x]
  | r :: l => if (x.seq - base).toNat < (r.seq - base).toNat then x :: r :: l else r :: insertRec base x l

/-- The unflushed records of every die: SEQ later than FSEQ, in SEQ order. -/
def State.unflushed (s : State) : List Rec :=
  let f := s.rd (aLog 2)
  (((List.range 8).flatMap (fun d => (s.log d).ring)).filter (fun (r : Rec) => laterSeq r.seq f)).foldl
    (fun (l : List Rec) x => insertRec f x l) []

/-- A failed program or erase at a byte offset: counted, logged, the sector skipped (R589). -/
def State.flashFail (s : State) (k off : Nat) : State :=
  ({ (s.bump (aLog 3) 35 24 1) with badSect := k :: s.badSect }).mark s.lead 7 0 0x003 (wd off) 0 0

/-- The flush in progress: every unflushed record up to the one that started it (R588). ok: the programs succeed. -/
def State.flush (s : State) (ok : Bool) : State :=
  match s.flushTo with
  | none => s
  | some q =>
    if s.pfwLow || !s.flashReach then s
    else
      match s.openSect with
      | none => s
      | some s1 =>
        if ok then
          let l := s1.unflushed.filter (fun (r : Rec) => !(laterSeq r.seq q))
          let r := s1.flashRecs l
          (if r.2 = l.length then { r.1 with flushTo := none } else r.1).showErased
        else (s1.flashFail s1.sect (sectAt s1.sect + 16 + 36 * s1.nrec)).showErased

/-- FLUSH (R588). -/
def execFlush (ok : Bool) (s : State) : Out := live true s (fun s => s.flush ok)

/-- The lead warden erases a sector while fewer than 2 are erased ahead (R589). -/
def State.sectorErase (s : State) (ok : Bool) : State :=
  let n := s.erasedAhead
  if s.pfwLow || !s.flashReach || decide (2 ≤ n) then s
  else match s.sectsAhead[n]? with
    | none => s
    | some k => (if ok then s.erase (sectAt k) 65536 else s.flashFail k (sectAt k)).showErased

/-- SECTOR_ERASE (R589). -/
def execSectorErase (ok : Bool) (s : State) : Out := live true s (fun s => s.sectorErase ok)

/-- Every waymark raised for a unit arrives and, while it is powered, every queued record is written: one of each in turn. -/
def State.settle (s : State) (d : Nat) : Nat → State
  | 0 => s
  | n + 1 => (if (s.markArrive d).logUp d then (s.markArrive d).ringPut d else s.markArrive d).settle d n

/-- PFW_N has been low for 1 µs (R590): PFW, then the youngest 40 unflushed records. A warden that cannot reach the flash
controller writes none; SHORT counts every unflushed record that is not written (R23). While some of the 40 are not, a flush in
progress stays, and resumes once PFW_N rises. -/
def State.pfwWarn (s : State) : State :=
  if s.pfwLow || !(s.rb (aLog 1) 1) then s
  else
    let d := s.unitOf s.lead
    let n := s.marks.length + 10
    let s1 := (({ s with pfwLow := true }).bump (aLog 4) 17 0 1).settle d n
    let s2 := (s1.mark s1.lead 7 0 0x002 (wd s1.unflushed.length) 0 0).settle d 10
    let all := s2.unflushed
    let last := all.drop (all.length - 40)
    let r := if s2.flashReach then s2.flashRecs last else (s2, 0)
    let s3 := if r.2 = last.length then { r.1 with flushTo := none } else r.1
    (s3.bump (aLog 4) 35 18 (all.length - r.2)).showErased

/-- PFW_N_RISE (R590): flushing goes on under R588 from the new FSEQ. -/
def execPfwNRise (s : State) : Out := live true s (fun s => { s with pfwLow := false })

/-- While the flash controller cannot be reached: one waymark a second (R23). -/
def State.flashErr (s : State) : State :=
  if s.flashReach then { s with flashErrAt := none }
  else if s.flashErrAt.any (fun a => decide (s.sym < a + symSec)) then s
  else ({ s with flashErrAt := some s.sym }).mark s.lead 7 0 0x003 0o777777777777 0 0

/-- FLASHERR (R23). -/
def execFlasherr (s : State) : Out := live true s (fun s => s.flashErr)

end Sys2Proof.Machine
end

