-- ==== Sys2Proof/Machine/Validate.lean ====
section
/-!
DEFINITION. The validator: placement, the path walk, routes, tolls and the checks of Table 10.7
(spec/10_timetables_tolls_contract.md R410, R411, R422, R427; spec/09 R374 to R379, R389; spec/12 R502 to R510;
spec/02 R91; spec/17 R634, R645).
-/
namespace Sys2Proof.Machine

/-! ## Placement (R20, R375, R604, R634, R645) -/

/-- What the warden holds of a tile: 0 healthy, 2 due, 3 retiring, 4 retired. -/
def State.tileFlag (s : State) (d p : Nat) : Nat :=
  let v := SMap.get (fun _ => 0) s.pwr.tile (tkey d p)
  if v = 6 then 2 else v

/-- A die that no Ibrak link reaches (R634). -/
def State.isolated (s : State) (d : Nat) : Bool :=
  (List.range 4).all (fun side => match sideDir d side with
    | some (l, _) => s.ibkOos l
    | none => true)

/-- A physical tile that can take a placement: neither due, retiring nor retired, its row on, not under test or waiting for
one, not on an isolated die (R607, R634, R639). -/
def State.tileHealthy (s : State) (d p : Nat) : Bool :=
  s.tileFlag d p == 0 && s.domainOn d (p / 8) && (s.die d).bist != some p && !(s.isolated d) &&
    !(s.pwr.suspect.contains (tkey d p) && !(s.tile d p).placed)

/-- A free tile that can take a slot: not placed, healthy, not bound by a detour. -/
def State.freeTile (s : State) (d p : Nat) : Bool :=
  s.tileHealthy d p && !(s.tile d p).placed && !((s.detoursOn d).any (fun (x : Detour) => x.to_ = p))

/-- The lowest-numbered healthy free lay-by of a die (R620, R645), of a pair under Rigor the first of the two, that is not
among those taken. -/
def State.freeLayby (s : State) (rigor : Bool) (d : Nat) (taken : List Nat) : Option Nat :=
  if rigor then ([64, 66, 68, 70] : List Nat).find? (fun b => s.freeTile d b && s.freeTile d (b + 1) && !(taken.contains b))
  else ([64, 65, 66, 67, 68, 69, 70, 71] : List Nat).find? (fun p => s.freeTile d p && !(taken.contains p))

/-- The slots of die d that an image places. -/
def Image.slotsUsed (im : Image) (d : Nat) : List Nat :=
  (List.range 64).filter (fun sl => im.tiles.any (fun (x : ImgTile) =>
    let y := slotsOf im.rigor x.ltile
    y.1 == d && y.2.contains sl))

/-- Place slots in rising order, each on its own tile, else on the lowest free healthy lay-by. -/
def placeSlots (ok : Nat → Bool) : List Nat → List Nat → List (Nat × Nat) → Option (List (Nat × Nat))
  | [], _, acc => some acc
  | sl :: r, free, acc =>
    if ok sl then placeSlots ok r free (acc ++ [(sl, sl)])
    else match free with
      | [] => none
      | q :: f => placeSlots ok r f (acc ++ [(sl, q)])

/-- Place pairs of slots, each on its own pair of tiles, else on the lowest free healthy lay-by pair. -/
def placePairs (ok : Nat → Bool) : List Nat → List Nat → List (Nat × Nat) → Option (List (Nat × Nat))
  | [], _, acc => some acc
  | q :: r, free, acc =>
    if ok (2 * q) && ok (2 * q + 1) then placePairs ok r free (acc ++ [(2 * q, 2 * q), (2 * q + 1, 2 * q + 1)])
    else match free with
      | [] => none
      | b :: f => placePairs ok r f (acc ++ [(2 * q, b), (2 * q + 1, b + 1)])

/-- The placement that arming an image gives die d; none where it has too few healthy tiles (R645). -/
def State.armPlace (s : State) (im : Image) (d : Nat) : Option (List (Nat × Nat)) :=
  let ok := s.tileHealthy d
  if im.rigor then
    placePairs ok ((List.range 32).filter (fun q => (im.slotsUsed d).contains (2 * q)))
      ([64, 66, 68, 70].filter (fun b => ok b && ok (b + 1))) []
  else placeSlots ok (im.slotsUsed d) ((List.range 8).map (fun i => 64 + i) |>.filter ok) []

/-- The slots of die d that move together under an image: each alone, or the pairs under Rigor. -/
def Image.units (im : Image) (d : Nat) : List (List Nat) :=
  if im.rigor then ((List.range 32).filter (fun q => (im.slotsUsed d).contains (2 * q))).map (fun q => [2 * q, 2 * q + 1])
  else (im.slotsUsed d).map (fun sl => [sl])

/-- The slots of die d that a swap to an image places on a lay-by, with the lay-bys (R620, R645): those whose tile is due or
otherwise not healthy. One whose tile runs stays on it where no lay-by is free (R622); none if another one finds no lay-by,
so that the die has too few healthy tiles. -/
def State.swapMoves (s : State) (im : Image) (d : Nat) : Option (List (Nat × Nat)) :=
  (im.units d).foldl (fun (r : Option (List (Nat × Nat))) u => match r with
    | none => none
    | some l =>
      if u.all (fun sl => s.tileHealthy d (s.phys d sl)) then some l
      else match s.freeLayby im.rigor d (l.map (fun e => e.2)) with
        | some q => some (l ++ (u.zip [q, q + 1]))
        | none => if u.any (fun sl => (s.tile d (s.phys d sl)).placed && s.clocked d (s.phys d sl)) then some l else none)
    (some [])

/-- Every die has the healthy tiles that an image needs, for its arming or for a swap to it (R645). -/
def State.placeable (s : State) (im : Image) : Bool :=
  (List.range 8).all (fun d => if s.armed then (s.swapMoves im d).isSome else (s.armPlace im d).isSome)

/-- The physical tile of a slot for an image: the one that a swap would give it while an image is armed, else the one that
arming would. -/
def State.planned (s : State) (im : Image) (d sl : Nat) : Nat :=
  if s.armed then (((s.swapMoves im d).bind (fun l => l.find? (fun x => x.1 = sl))).map (fun x => x.2)).getD (s.phys d sl)
  else match (s.armPlace im d).bind (fun l => (l.find? (fun x => x.1 = sl)).map (fun x => x.2)) with
    | some p => p
    | none => sl

/-- Die and first slot of a logical tile. -/
def slot0 (rigor : Bool) (lt : Nat) : Nat × Nat := let x := slotsOf rigor lt; (x.1, x.2.headD 0)

/-! ## The path walk (R411, code 0x08) -/

/-- What a stretch of path costs: issue cycles, instructions, sends per route handle, and (channel, handle) pairs sent
through. -/
structure Cost where
  cyc : Nat
  n : Nat
  sends : SMap Nat
  uses : List (Nat × Nat)
deriving DecidableEq, Repr

/-- Nothing. -/
def Cost.zero : Cost := ⟨0, 0, [], []⟩

/-- One stretch after another. -/
def Cost.add (a b : Cost) : Cost :=
  ⟨a.cyc + b.cyc, a.n + b.n,
   b.sends.foldl (fun (m : SMap Nat) e => SMap.set (fun _ => 0) m e.1 (SMap.get (fun _ => 0) m e.1 + e.2)) a.sends,
   a.uses ++ b.uses⟩

/-- The longer of two continuations, in every count. -/
def Cost.sup (a b : Cost) : Cost :=
  ⟨max a.cyc b.cyc, max a.n b.n,
   b.sends.foldl (fun (m : SMap Nat) e => SMap.set (fun _ => 0) m e.1 (max (SMap.get (fun _ => 0) m e.1) e.2)) a.sends,
   a.uses ++ b.uses⟩

/-- A stretch repeated k times; its instructions stand on the path once. -/
def Cost.times (a : Cost) (k : Nat) : Cost := { a with cyc := a.cyc * k, sends := a.sends.map (fun e => (e.1, e.2 * k)) }

/-- What the walk reads of a tile's record: program bytes, signpost bytes, which egress and route handles are bound with
VALID = 1. -/
structure VEnv where
  prog : Nat → Option Nat
  sp : Nat → Option Nat
  egh : Nat → Bool
  rth : Nat → Bool

/-- A directory entry of the record's signpost bank. -/
def VEnv.dir (e : VEnv) (k : Nat) : Option Nat :=
  some (leBytes ((List.range 8).map (fun i => BitVec.ofNat 8 ((e.sp (8 * k + i)).getD 0))))

/-- Operand bytes of a macro. -/
def VEnv.nops (e : VEnv) (k : Nat) : Nat := match e.dir k with
  | some v => (dirEntry v).nops
  | none => 0

/-- A move to ctl.jump, ctl.call or ctl.bc. -/
def isBranch (a : Nat) : Bool := a == 0x28 || a == 0x29 || a == 0x30

/-- Moves that may stand on a path at a level: no UNDEF, PRIV or LANE whatever the guards, immediate targets, bound
handles, no RETX. -/
def VEnv.movesOk (e : VEnv) (ms : List Move) (lvl : Nat) : Bool :=
  ms.all (fun (m : Move) => !(privStatic lvl m) && m.dst != 0x31 && (!(isBranch m.dst) || decide (0xE0 ≤ m.src)) &&
    (!(m.dst == 0xB1 || m.dst == 0xB2) || e.egh m.op) && (!(decide (0xC0 ≤ m.dst ∧ m.dst < 0xC4)) || e.rth m.op)) &&
  (laneTrap none [] ((lanesOf ms).filter (fun x => x.2.guard == 0))).isNone &&
  (decide (ms.length < 2) || ms.all (fun (m : Move) => !(resumable m.dst m.op) || m.guard != 0))

/-! A walk keeps the levels that may be in force: a guarded TCR write may or may not be made, and one whose value is no
immediate may give any level. An instruction is refused where every level that may be in force refuses it (log entry 71). -/

/-- Where the walk stands: address, levels that may be in force, TCR writes not yet complete (levels, whether the write is
made for sure, bundles to come), return addresses. -/
structure Walk where
  pc : Nat
  lvls : List Nat
  tcr : List (List Nat × Bool × Nat)
  rets : List Nat
deriving DecidableEq, Repr

/-- The TCR writes that complete as the next bundle issues (R289). -/
def Walk.step (w : Walk) : Walk :=
  { w with
    lvls := (w.tcr.filter (fun x => x.2.2 = 0)).foldl (fun (l : List Nat) x => if x.2.1 then x.1 else (l ++ x.1).eraseDups) w.lvls
    tcr := (w.tcr.filter (fun x => x.2.2 ≠ 0)).map (fun x => (x.1, x.2.1, x.2.2 - 1)) }

/-- The levels that a move to ctl.tcr gives, made at a level: a delegated pilot keeps DLG (R286). -/
def tcrLevels (m : Move) (lvl : Nat) : List Nat :=
  if m.src < 0xE0 then [0, 1, 2] else if lvl = 1 then [if bitOf m.imm 0 then 0 else 1] else [tcrLevel m.imm]

/-- The TCR writes of a bundle. -/
def Walk.writes (w : Walk) (ms : List Move) : Walk :=
  { w with tcr := w.tcr ++ ms.filterMap (fun (m : Move) =>
      if m.dst = 0x2E ∧ m.guard % 16 ≠ 8 then some ((w.lvls.flatMap (tcrLevels m)).eraseDups, m.guard == 0, 1) else none) }

/-- One bundle: a cycle and its sends. -/
def bundleCost (ms : List Move) : Cost :=
  let s := ms.filter (fun (m : Move) => decide (0xC0 ≤ m.dst ∧ m.dst < 0xC4))
  ⟨1, 0, s.foldl (fun (a : SMap Nat) (m : Move) => SMap.set (fun _ => 0) a m.op (SMap.get (fun _ => 0) a m.op + 1)) [],
   s.map (fun (m : Move) => (m.dst - 0xC0, m.op))⟩

/-- What a stretch of the path costs, and where the walk stands after it; none where the image is refused. -/
abbrev Stretch := Option (Cost × Walk)

/-- A bundle, at the levels named: those in force as it issues, or those of its expansion. -/
def VEnv.bundleWalk (v : VEnv) (lvls : List Nat) (ms : List Move) (w : Walk) : Stretch :=
  if lvls.any (v.movesOk ms) then some (bundleCost ms, w.step.writes ms) else none

/-- The body bundles of an expansion from a bank offset on; the expansion runs at the level of its macro (R190). -/
def VEnv.bodyWalk (v : VEnv) (lvls : List Nat) (e : DirEntry) (ops : List Byte) (o : Nat) : Nat → Nat → Walk → Stretch
  | 0, _, w => some (Cost.zero, w)
  | n + 1, off, w => match bodyBundle v.sp e ops o off with
    | .error _ => none
    | .ok (ms, q, u) =>
      if u.isSome then none
      else (v.bundleWalk lvls ms w).bind (fun x => (v.bodyWalk lvls e ops o n q x.2).map (fun y => (x.1.add y.1, y.2)))

/-- A macro on the path. -/
def VEnv.macroWalk (v : VEnv) (entry o : Nat) (w : Walk) : Stretch :=
  let ops := (List.range (v.nops entry)).map (fun k => BitVec.ofNat 8 ((v.prog (o + 1 + k)).getD 0))
  let lvls := w.step.lvls.filter (fun l => (macroCheck (v.dir entry) l entry o ops).isNone)
  if lvls.isEmpty then none
  else
    let e := dirEntry ((v.dir entry).getD 0)
    v.bodyWalk lvls e ops o (e.nbun + 1) e.body w

/-- Go over a stretch k times; its levels have settled after four, when no TCR write of an earlier pass is pending. -/
def again (f : Walk → Stretch) : Nat → Walk → Stretch
  | 0, w => some (Cost.zero, w)
  | n + 1, w => (f w).bind (fun x => match n with
    | 0 => some x
    | _ => (again f n x.2).map (fun y => (x.1, y.2)))

/-- A stretch gone over k times: its cost k times, its levels as they settle. -/
def timesWalk (f : Walk → Stretch) (k : Nat) (w : Walk) : Stretch := (again f (min k 4) w).map (fun x => (x.1.times k, x.2))

/-- Repetitions of an instruction: REP.s counts its largest count. -/
def repsOf (r : RepPre) : Nat := match r with
  | .none => 1
  | .repI n => n
  | .repS => 2 ^ 18 - 1

/-- One instruction: cost without its fetch stall, where the walk stands after it, fetch stall, address after it, moves;
none where the image is refused. -/
def VEnv.insWalk (v : VEnv) (inBody : Bool) (w : Walk) : Option (Cost × Walk × Nat × Nat × List Move) :=
  match insnOf v.prog v.nops inBody w.pc with
  | .error _ => none
  | .ok i =>
    let stall := (i.next - w.pc + 31) / 32 - 1
    if i.undef.isSome || (i.rep == .repS && w.step.lvls.all (fun l => l == 0)) then none
    else match i.body with
      | .bundle ms => (timesWalk (fun u => v.bundleWalk u.step.lvls ms u) (repsOf i.rep) w).map
        (fun x => ({ x.1 with n := 1 }, { x.2 with pc := i.next }, stall, i.next, ms))
      | .macro_ e o => (timesWalk (v.macroWalk e o) (repsOf i.rep) w).map
        (fun x => ({ x.1 with n := 1 }, { x.2 with pc := i.next }, stall, i.next, []))
      | _ => none

/-- n body instructions of a loop: cost of one iteration, where the walk stands after it, its fetch stalls. -/
def VEnv.loopBody (v : VEnv) : Nat → Walk → Option (Cost × Walk × Nat)
  | 0, w => some (Cost.zero, w, 0)
  | n + 1, w => match v.insWalk true w with
    | none => none
    | some (c, w1, st, _, _) => (v.loopBody n w1).map (fun r => (c.add r.1, r.2.1, st + r.2.2))

/-- A loop of count iterations over a body of n instructions at the walk's place (R154, R155, R168, R170). -/
def VEnv.loopWalk (v : VEnv) (n count : Nat) (w : Walk) : Stretch :=
  match v.loopBody n w with
  | none => none
  | some (c, w1, st) =>
    let stalls := if n ≤ 32 ∧ w1.pc - w.pc ≤ 256 then min st (st * count) else st * count
    (again (fun u => (v.loopBody n { u with pc := w.pc }).map (fun x => (x.1, x.2.1))) (min count 4) w).map
      (fun x => ({ c.times count with cyc := c.cyc * count + stalls }, x.2))

/-- Where the path goes on after a bundle whose instruction ends at nxt, and none where it is refused. A move to ctl.waitm
ends it; a guarded transfer and a ctl.bc are followed both ways. -/
def Walk.after (w : Walk) (nxt : Nat) (ms : List Move) : Option (List Walk) :=
  let ctl := ms.filter (fun (m : Move) => (isBranch m.dst || m.dst == 0x2A || m.dst == 0x2C) && m.guard % 16 != 8)
  let falls := ctl.all (fun (m : Move) => m.dst == 0x30 || m.guard != 0)
  if ctl.any (fun (m : Move) => m.dst == 0x2A) && w.rets.isEmpty then none
  else
    let to_ := ctl.filterMap (fun (m : Move) =>
      if m.dst = 0x28 ∨ m.dst = 0x30 then some { w with pc := m.imm.toNat }
      else if m.dst = 0x29 then some { w with pc := m.imm.toNat, rets := nxt :: w.rets }
      else if m.dst = 0x2A then some { w with pc := w.rets.headD 0, rets := w.rets.tail }
      else none)
    some (if falls then to_ ++ [{ w with pc := nxt }] else to_)

/-- The longest of several paths; none where one of them is refused. -/
def supAll : List (Option Cost) → Option Cost
  | [] => some Cost.zero
  | none :: _ => none
  | some c :: r => (supAll r).map (fun x => c.sup x)

/-- Walk a path to its ctl.waitm, over at most fuel instructions and prefixes. LOOP.i is no bundle of R289, LOOP.s is one.
Where a count may be 0 the path that executes nothing is followed beside the longest one. -/
def VEnv.walk (v : VEnv) : Nat → Walk → Option Cost
  | 0, _ => none
  | fuel + 1, w =>
    match insnOf v.prog v.nops false w.pc with
    | .error _ => none
    | .ok i =>
      if i.undef.isSome then none
      else match i.body with
        | .loopI count nb => match v.loopWalk (nb + 1) count { w with pc := i.next } with
          | none => none
          | some (c, w1) => (v.walk fuel w1).map (fun r => c.add r)
        | .loopS _ nb _ =>
          let w1 := { w.step with pc := i.next }
          if w1.lvls.all (fun l => l == 0) then none
          else match v.loopWalk (nb + 1) (2 ^ 18 - 1) w1 with
            | none => none
            | some (c, w2) =>
              let none_ := { w1 with pc := w2.pc }
              (supAll (v.walk fuel w2 :: (if none_ = w2 then [] else [v.walk fuel none_]))).map
                (fun r => ({ c with cyc := c.cyc + 1 }).add r)
        | _ => match v.insWalk false w with
          | none => none
          | some (c, w1, st, q, ms) => match w1.after q ms with
            | none => none
            | some l =>
              let none_ := { w.step with pc := q }
              let skip := if i.rep = .repS ∧ none_ ≠ w1 then [v.walk fuel none_] else []
              (supAll (l.map (fun x => v.walk fuel x) ++ skip)).map (fun r => ({ c with cyc := c.cyc + st }).add r)

/-- What the walk reads of a tile's record. -/
def Image.env (im : Image) (x : ImgTile) : VEnv :=
  { prog := fun a => if a < 0x8000 then (x.prog[a]?).map (fun b => b.toNat) else none,
    sp := fun o => if o < 4096 then some (((im.bankOf x).bind (fun b => b[o]?)).getD 0).toNat else none,
    egh := fun h => bitOf (x.reg (0x58 + h % 8)) 9, rth := fun r => bitOf (x.reg (0x60 + r % 64)) 14 }

/-- The routine's path, at service level from ENTRY; none where code 0x08 refuses it. -/
def Image.routineCost (im : Image) (x : ImgTile) : Option Cost :=
  match (im.env x).walk 65537 ⟨x.entry, [0], [], []⟩ with
  | some c => if c.n ≤ 65536 then some c else none
  | none => none

/-- The start code's path, at P0 from SADDR. -/
def Image.startCost (im : Image) (x : ImgTile) : Option Cost :=
  match (im.env x).walk 65537 ⟨x.saddr, [2], [], []⟩ with
  | some c => if c.n ≤ 65536 then some c else none
  | none => none

/-! ## Routes (R374 to R379) -/

/-- A hop of a route: die, junction, output port. -/
abbrev Hop := Nat × Nat × Nat

/-- The output port by which a route leaves junction j of die d toward junction jt of die dt: dies X first and then Y,
junctions X first and then Y (R374). -/
def hopOut (d j dt jt : Nat) : Nat :=
  if d % 4 < dt % 4 then 2
  else if dt % 4 < d % 4 then 4
  else if d / 4 < dt / 4 then 3
  else if dt / 4 < d / 4 then 1
  else if j % 8 < jt % 8 then 2
  else if jt % 8 < j % 8 then 4
  else if j / 8 < jt / 8 then 3
  else if jt / 8 < j / 8 then 1
  else 0

/-- The junction that an output port leads to: within the die, or across an Ibrak link. -/
def hopNext (d j out : Nat) : Option (Nat × Nat) :=
  match neighbour j out with
  | some k => some (d, k)
  | none => match sideDir d (out - 1) with
    | some (l, dir) => some ((dirTo l dir).1, edgeJunc (edgePos j (out - 1)) (dirTo l dir).2)
    | none => none

/-- The hops of a route to one destination. -/
def hopsTo (dt jt : Nat) : Nat → Nat → Nat → List Hop
  | 0, _, _ => []
  | n + 1, d, j =>
    let o := hopOut d j dt jt
    if o = 0 then [(d, j, 0)]
    else match hopNext d j o with
      | some (d1, j1) => (d, j, o) :: hopsTo dt jt n d1 j1
      | none => []

/-- The hops of a route to each destination, under the planned placement. -/
def State.routeHops (s : State) (im : Image) (r : ImgRoute) : List (List Hop) :=
  let a := slot0 im.rigor r.src
  r.dests.map (fun x =>
    let b := slot0 im.rigor x.1
    hopsTo b.1 (s.planned im b.1 b.2) 200 a.1 (s.planned im a.1 a.2))

/-- A hop that crosses an Ibrak link. -/
def isCross (h : Hop) : Bool := h.2.2 != 0 && (neighbour h.2.1 h.2.2).isNone

/-- The sum of ALLOW over the other routes through a hop's output port. -/
def otherAllow (all : List (ImgRoute × List (List Hop))) (r : ImgRoute) (p : Hop → Bool) : Nat :=
  (all.filter (fun x => x.1 != r && (x.2.any (fun (l : List Hop) => l.any p)))).foldl (fun a x => a + x.1.allow) 0

/-- TRANSIT × T covers the transit bound B of R378 for one destination's hops. In units of 1 / (8 × f) with f in steps of
0.2 GHz. -/
def State.transitOk (s : State) (im : Image) (all : List (ImgRoute × List (List Hop))) (r : ImgRoute) (l : List Hop) : Bool :=
  let w := (l.map (fun (h : Hop) => otherAllow all r (fun x => x == h))).foldl (· + ·) 0
  let cyc := 3 + 3 * l.length + w + 3
  let half := ((l.filter isCross).map (fun (h : Hop) =>
    let a := otherAllow all r (fun x => isCross x && x.1 == h.1 && x.2.2 == h.2.2)
    13 + (a + 13) / 14 + 20 * s.rf (aIbk (h.1, h.2.2 - 1) + 3) 21 18)).foldl (· + ·) 0
  let f := modeClk im.minmode
  decide (40 * cyc + 4 * half * f ≤ r.transit * im.period * 25 * f)

/-- Consecutive hops, as channel dependencies. -/
def hopPairs : List Hop → List (Hop × Hop)
  | a :: b :: r => (a, b) :: hopPairs (b :: r)
  | _ => []

/-- Drop the dependencies whose second channel leads nowhere further, again and again: a cycle is what is left (R374). -/
def hasCycle : Nat → List (Hop × Hop) → Bool
  | 0, l => !l.isEmpty
  | n + 1, l =>
    let r := l.filter (fun e => l.any (fun f => f.1 == e.2))
    if r.length = l.length then !l.isEmpty else hasCycle n r

/-! ## Relay groups and channels (R91, R409) -/

/-- The tiles whose records bind an egress handle to a link. -/
def Image.writers (im : Image) (n : Nat) : List ImgTile :=
  im.tiles.filter (fun (x : ImgTile) => (List.range 8).any (fun h => bitOf (x.reg (0x58 + h)) 9 && fld (x.reg (0x58 + h)) 8 0 == n))

/-- Two tiles of one relay group: named by one DEPOSIT record, or writers of one channel. -/
def Image.sameGroup (im : Image) (a b : Nat) : Bool :=
  im.deposits.any (fun (r : ImgDeposit) => r.members.any (fun m => m.1 = a) && r.members.any (fun m => m.1 = b)) ||
  im.egress.any (fun (e : ImgEgress) =>
    (im.writers e.link).any (fun (x : ImgTile) => x.ltile = a) && (im.writers e.link).any (fun (x : ImgTile) => x.ltile = b))

/-- The most TRANSIT on the way to a tile: the routes that end there, and those on the way to their sources; routes
between members of one relay group carry state to a later tick and do not count (R91). DESIGN CHOICE (log entry 88): where
routes form a cycle of tiles the sum is taken along the paths that visit no tile twice. -/
def Image.transitTo (im : Image) : Nat → List Nat → Nat → Nat
  | 0, _, _ => 0
  | n + 1, seen, t =>
    (im.routes.map (fun (r : ImgRoute) =>
      if r.dests.any (fun x => x.1 = t) ∧ seen.contains r.src = false ∧ im.sameGroup r.src t = false then
        r.transit + im.transitTo n (r.src :: seen) r.src
      else 0)).foldl max 0

/-! ## The checks of Table 10.7, in the order of their codes -/

/-- The first element that a check refuses, with its position. -/
def firstBad {α : Type} (bad : α → Bool) : Nat → List α → Option Nat
  | _, [] => none
  | i, x :: r => if bad x then some i else firstBad bad (i + 1) r

/-- Refuse under a code at the first record of a type that a check refuses. -/
def Parsed.refuse {α : Type} (p : Parsed) (err ty : Nat) (l : List α) (bad : α → Bool) : Option ImgErr :=
  (firstBad bad 0 l).map (fun i => p.at_ err ty i)

/-- Refuse the whole image under a code. -/
def refuseIf (err : Nat) (c : Bool) : Option ImgErr := if c then some ⟨err, 0, 0⟩ else none

/-- 0x03 NEED (R17). -/
def State.chkNeed (s : State) (p : Parsed) : Option ImgErr :=
  let beyond := fun hi lo => decide (s.rf 1 hi lo < fld p.need hi lo)
  refuseIf 3 (beyond 3 0 || beyond 10 4 || beyond 20 11 || beyond 28 25)

/-- 0x04 PERIOD (R57). -/
def State.chkPeriod (s : State) (p : Parsed) : Option ImgErr := refuseIf 4 (p.im.period != s.period)

/-- 0x05 MODE. -/
def State.chkMode (s : State) (p : Parsed) : Option ImgErr :=
  refuseIf 5 (p.im.minmode == 3 || (p.im.minmode == 2 && !(s.rb 2 0)) || (p.im.rigor && !(s.rb 2 1)))

/-- A register that a register pair may name (R407). -/
def pairReg (o : Nat) : Bool :=
  decide ((0x20 ≤ o ∧ o < 0x28) ∨ (0x30 ≤ o ∧ o < 0x38) ∨ o = 0x3F ∨ (0x58 ≤ o ∧ o < 0x60) ∨ (0x60 ≤ o ∧ o < 0xA0) ∨
    (0xA0 ≤ o ∧ o < 0xA8) ∨ (0x100 ≤ o ∧ o < 0x104) ∨ (0x108 ≤ o ∧ o < 0x10C))

/-- Logical tiles of the part under an image. -/
def Image.tileCount (im : Image) : Nat := if im.rigor then 256 else 512

/-- 0x06 SIZE: fields and ranges of TILE records, placements, isolated dies (R634, R645). -/
def State.chkSize (s : State) (p : Parsed) : Option ImgErr :=
  let im := p.im
  let badT := fun (x : ImgTile) =>
    decide (x.prog.length = 0 ∨ 32768 < x.prog.length ∨ 0x7FFF < x.entry ∨ 0x7FFF < x.saddr ∨ im.tileCount ≤ x.ltile) ||
    x.segs.any (fun (g : Nat × List Word) => decide (0x9000 < g.1 + g.2.length)) ||
    x.regs.any (fun (r : Nat × Word) => !(pairReg r.1)) ||
    decide (1 < (im.tiles.filter (fun (y : ImgTile) => y.ltile = x.ltile)).length) ||
    s.isolated (slotsOf im.rigor x.ltile).1 ||
    (List.range 8).any (fun h => bitOf (x.reg (0x58 + h)) 9 && s.isolated (fld (x.reg (0x58 + h)) 8 0 / 64))
  (p.refuse 6 1 im.tiles badT).orElse (fun _ =>
    (p.refuse 6 4 im.deposits (fun (r : ImgDeposit) => s.isolated (r.link / 64))).orElse (fun _ =>
      (p.refuse 6 5 im.egress (fun (e : ImgEgress) => s.isolated (e.link / 64))).orElse (fun _ =>
        refuseIf 6 (!(s.placeable im)))))

/-- The body bundles of a valid entry stand under R188. -/
def bodyOk (sp : Nat → Option Nat) (e : DirEntry) : Nat → Nat → Bool
  | 0, _ => true
  | n + 1, off => match bodyBundle sp e [] 0 off with
    | .error _ => false
    | .ok (ms, q, _) => ms.all (fun (m : Move) => !(noRepeat m.dst)) && bodyOk sp e n q

/-- 0x07 SIGNPOST (R182, R188). -/
def chkSignpost (p : Parsed) : Option ImgErr :=
  let badB := fun (b : List Byte) =>
    let sp := fun o => if o < 4096 then some ((b[o]?).getD 0).toNat else none
    (List.range 64).any (fun k =>
      let e := dirEntry (leBytes ((b.drop (8 * k)).take 8))
      e.valid && (e.bad || !(bodyOk sp e (e.nbun + 1) e.body)))
  (p.refuse 7 2 p.im.signposts badB).orElse (fun _ =>
    p.refuse 7 1 p.im.tiles (fun (x : ImgTile) => decide (x.sprec ≠ 255 ∧ p.im.signposts.length ≤ x.sprec)))

/-- 0x08 CODE. -/
def chkCode (p : Parsed) : Option ImgErr :=
  p.refuse 8 1 p.im.tiles (fun (x : ImgTile) => (p.im.routineCost x).isNone || (p.im.startCost x).isNone)

/-- The cycle budget of a tile (R410). -/
def Image.budget (im : Image) (kc : Nat) : Nat := 2 ^ kc * im.period * modeClk im.minmode * 5 / 8

/-- 0x09 BUDGET (R410, R411). -/
def chkBudget (p : Parsed) : Option ImgErr :=
  let im := p.im
  p.refuse 9 1 im.tiles (fun (x : ImgTile) =>
    let r := ((im.routineCost x).getD Cost.zero).cyc
    let st := ((im.startCost x).getD Cost.zero).cyc
    decide (im.budget x.kc < x.start + x.hrsv + x.cyc ∨ x.start < 4 + (32 * modeClk im.minmode + 99) / 100 ∨
      x.cyc < r ∨ x.scyc < st))

/-- 0x0A DEADLINE (R91). -/
def chkDeadline (p : Parsed) : Option ImgErr :=
  let im := p.im
  p.refuse 10 5 im.egress (fun (e : ImgEgress) => decide (e.l < 4) ||
    (im.writers e.link).any (fun (x : ImgTile) => decide (e.l < 2 ^ x.kc + 2 + im.transitTo im.tiles.length [x.ltile] x.ltile)))

/-- Sends of a path on the routes a tile's handles bind, summed per route. -/
def sendsOn (x : ImgTile) (c : Cost) (rid : Nat) : Nat :=
  (c.sends.filter (fun (e : Nat × Nat) => fld (x.reg (0x60 + e.1)) 11 0 == rid)).foldl (fun a e => a + e.2) 0

/-- 0x0B ROUTE (R374, R379, R411). -/
def State.chkRoute (s : State) (p : Parsed) : Option ImgErr :=
  let im := p.im
  let placed := fun lt => im.tiles.any (fun (x : ImgTile) => x.ltile = lt)
  let all := im.routes.map (fun (r : ImgRoute) => (r, s.routeHops im r))
  let deps := all.flatMap (fun x => x.2.flatMap hopPairs)
  let badR := fun (r : ImgRoute) =>
    !(placed r.src) || r.dests.any (fun x => !(placed x.1)) ||
    decide (1 < (im.routes.filter (fun (q : ImgRoute) => q.rid = r.rid ∧ im.dieOf q.src = im.dieOf r.src)).length) ||
    (s.routeHops im r).any (fun l => !(s.transitOk im all r l)) ||
    im.tiles.any (fun (x : ImgTile) => x.ltile == r.src && decide (
      r.allow < sendsOn x ((im.routineCost x).getD Cost.zero) r.rid ∨ r.allow < sendsOn x ((im.startCost x).getD Cost.zero) r.rid)) ||
    r.dests.any (fun x => im.routes.any (fun (q : ImgRoute) => decide (q.src ≠ r.src) && q.dests.contains x &&
      im.tiles.any (fun (y : ImgTile) => decide (y.ltile = r.src ∧ y.detour ≠ 0))))
  let badT := fun (x : ImgTile) =>
    (List.range 64).any (fun h => bitOf (x.reg (0x60 + h)) 14 && im.routes.any (fun (r : ImgRoute) =>
      decide (r.rid = fld (x.reg (0x60 + h)) 11 0 ∧ im.dieOf r.src = im.dieOf x.ltile ∧ r.src ≠ x.ltile))) ||
    (((im.routineCost x).getD Cost.zero).uses ++ ((im.startCost x).getD Cost.zero).uses).any
      (fun u => fld (x.reg (0x60 + u.2)) 13 12 != u.1)
  (p.refuse 11 3 im.routes badR).orElse (fun _ =>
    (p.refuse 11 1 im.tiles badT).orElse (fun _ => refuseIf 11 (hasCycle deps.length deps)))

/-- 0x0C NETTOLL (R389). -/
def State.chkNettoll (s : State) (p : Parsed) : Option ImgErr :=
  refuseIf 12 ((List.range 20).any (fun k =>
    let e := dirFrom (k / 2) (k % 2)
    decide (p.im.period * 25 / 4 * 14 <
      s.ibkAllow e 1 + s.ibkAllow e 2 + s.ibkAllow e 3 + 112 * s.rf (aIbk e + 3) 21 18)))

/-- 0x0D MEMTOLL (R510). -/
def State.chkMemtoll (s : State) (p : Parsed) : Option ImgErr :=
  refuseIf 13 ((List.range 8).any (fun d => s.stackUp d && decide (s.cap < s.stackToll p.im d)))

/-- Two DEPOSIT records overlap in a member for a tick. -/
def State.depositsClash (s : State) (a b : ImgDeposit) : Bool :=
  let k := 2 ^ a.kc
  a.kc == b.kc && (List.range k).any (fun j =>
    match a.members[j]?, b.members[j]? with
    | some (t, ba, sa, na), some (u, bb, sb, nb) => t == u && (List.range ((na + 1) * (nb + 1))).any (fun q =>
        let x := ba + sa * (q % (na + 1))
        let y := bb + sb * (q % (nb + 1))
        decide (x < y + s.linkW b.link ∧ y < x + s.linkW a.link))
    | _, _ => false)

/-- 0x0E DEPOSIT (R33, R406). -/
def State.chkDeposit (s : State) (p : Parsed) : Option ImgErr :=
  let im := p.im
  let badD := fun (r : ImgDeposit) =>
    decide (r.members.length ≠ 2 ^ r.kc) ||
    ((List.range r.members.length).zip r.members).any (fun (m : Nat × (Nat × Nat × Nat × Nat)) =>
      let lt := m.2.1
      decide (im.dieOf lt ≠ r.link / 64) ||
      !(im.tiles.any (fun (x : ImgTile) => decide (x.ltile = lt ∧ x.kc = r.kc ∧ x.j = m.1))) ||
      decide (1 < (r.members.filter (fun (y : Nat × Nat × Nat × Nat) => y.1 = lt)).length) ||
      decide (4096 < m.2.2.1 + m.2.2.2.1 * m.2.2.2.2 + s.linkW r.link)) ||
    decide (1 < (im.deposits.filter (fun (q : ImgDeposit) => q.link = r.link ∧ s.depositsClash r q = true)).length) ||
    im.deposits.any (fun (q : ImgDeposit) => q.link != r.link && s.depositsClash r q)
  p.refuse 14 4 im.deposits badD

/-- 0x0F EGRESS (R37, R409). -/
def State.chkEgress (s : State) (p : Parsed) : Option ImgErr :=
  let im := p.im
  let badT := fun (x : ImgTile) => (List.range 8).any (fun h =>
    bitOf (x.reg (0x58 + h)) 9 && decide (fld (x.reg (0x58 + h)) 8 0 / 64 ≠ im.dieOf x.ltile))
  let badE := fun (e : ImgEgress) =>
    let ws := im.writers e.link
    let kc := (ws.head?.map (fun (x : ImgTile) => x.kc)).getD 0
    decide (s.linkW e.link < e.ndef ∨ ws.length ≠ 2 ^ kc) || ws.any (fun (x : ImgTile) => decide (x.kc ≠ kc)) ||
    (List.range (2 ^ kc)).any (fun j => !(ws.any (fun (x : ImgTile) => decide (x.j = j))))
  (p.refuse 15 1 im.tiles badT).orElse (fun _ => p.refuse 15 5 im.egress badE)

/-- The STATE record of a logical tile. -/
def Image.stateOf (im : Image) (lt : Nat) : Option ImgState := im.states.find? (fun (x : ImgState) => x.ltile = lt)

/-- Granules that carried ranges touch. -/
def granulesOf (l : List (Nat × Nat)) : List Nat :=
  (l.flatMap (fun r => if r.2 = 0 then [] else
    (List.range ((r.1 + r.2 - 1) / 2 - r.1 / 2 + 1)).map (fun i => r.1 / 2 + i))).eraseDups

/-- 0x10 STATE. -/
def chkState (p : Parsed) : Option ImgErr :=
  let im := p.im
  p.refuse 16 1 im.tiles (fun (x : ImgTile) =>
    let st := im.stateOf x.ltile
    (x.detour == 1 && (match st with
      | some r => r.w == 0
      | none => true)) ||
    (x.detour == 2 && decide (im.budget x.kc <
      17 + (granulesOf ((st.map (fun r => r.ranges)).getD [])).length + x.start)))

/-- 0x11 SWAP: the first two checks of R427. -/
def State.chkSwap (s : State) (p : Parsed) : Option ImgErr :=
  match s.img.armed with
  | none => none
  | some old =>
    if !p.im.swapok then none
    else (refuseIf 17 (p.im.epoch != (old.epoch + 1) % 256)).orElse (fun _ =>
      p.refuse 17 1 p.im.tiles (fun (x : ImgTile) => decide (p.im.budget x.kc < x.scyc + x.start + x.hrsv + x.cyc)))

/-! ## Tables (R502 to R504) -/

/-- Two tables that share their extents (R503). -/
def sameTable (a b : ImgTable) : Bool :=
  a.handle == b.handle && a.lsz == b.lsz && a.logn == b.logn && a.stack == b.stack && a.twin == b.twin &&
  a.tstack == b.tstack && a.digest == b.digest

/-- The extents (base, parcels) that tables take on a stack. -/
def extentsOn (l : List ImgTable) (d : Nat) : List (Nat × Nat) :=
  l.flatMap (fun (t : ImgTable) =>
    (if t.stack = d then [(t.base, t.len)] else []) ++ (if t.twin ∧ t.tstack = d then [(t.tbase, t.len)] else []))

/-- The lowest base of the table store of a stack at which len parcels are free. -/
def State.lowestFree (s : State) (d len : Nat) (used : List (Nat × Nat)) : Option Nat :=
  let ok := fun p => decide (s.storeStart d ≤ p ∧ p + len ≤ parcels) && used.all (fun e => decide (e.1 + e.2 ≤ p ∨ p + len ≤ e.1))
  ((s.storeStart d :: used.map (fun e => e.1 + e.2)).filter ok).foldl (fun (a : Option Nat) p => match a with
    | none => some p
    | some q => some (min p q)) none

/-- Insert a table in order of handle. -/
def insertTable (x : ImgTable) : List ImgTable → List ImgTable
  | [] => [x]
  | t :: r => if x.handle < t.handle then x :: t :: r else t :: insertTable x r

/-- Place tables in increasing handle order; the handle of the first that overflows its area otherwise. -/
def State.placeTables (s : State) (armed : List ImgTable) : List ImgTable → List ImgTable → Except Nat (List ImgTable)
  | [], acc => .ok acc
  | t :: r, acc =>
    match armed.find? (fun a => sameTable a t) with
    | some a => s.placeTables armed r (acc ++ [{ t with base := a.base, tbase := a.tbase }])
    | none =>
      match s.lowestFree t.stack t.len (extentsOn (armed ++ acc) t.stack) with
      | none => .error t.handle
      | some b =>
        let t1 := { t with base := b, twin := false }
        if t.twin then
          match s.lowestFree t.tstack t.len (extentsOn (armed ++ acc ++ [t1]) t.tstack) with
          | none => .error t.handle
          | some c => s.placeTables armed r (acc ++ [{ t with base := b, tbase := c }])
        else s.placeTables armed r (acc ++ [{ t with base := b }])

/-- The words of a table copy as the store holds them. -/
def State.tableWords (s : State) (t : ImgTable) (d base : Nat) : List Word :=
  (List.range (2 ^ t.logn * 2 ^ t.lsz)).map (fun i =>
    granWord (eccClass false ((s.stack d).gr (4 * (base + i / 8) + i % 8 / 2))).2 i)

/-- A copy's contents match DIGEST (R504). -/
def State.copyOk (s : State) (t : ImgTable) (d base : Nat) : Bool :=
  hashBytes (packedLe (s.tableWords t d base)) == t.digest.flatMap (fun w => toLe 4 w)

/-- 0x12 TABLE: the image with its extents, or the refusal. -/
def State.chkTable (s : State) (p : Parsed) : Except ImgErr Image :=
  let im := p.im
  match p.refuse 18 6 im.tables (fun (t : ImgTable) => !(s.stackUp t.stack) || (t.twin && !(s.stackUp t.tstack))) with
  | some e => .error e
  | none =>
    let armed := match s.img.armed with
      | some a => a.tables
      | none => []
    let sorted := im.tables.foldl (fun (l : List ImgTable) x => insertTable x l) []
    match s.placeTables armed sorted [] with
    | .error h => .error (p.at_ 18 6 (im.tables.findIdx (fun (t : ImgTable) => t.handle = h)))
    | .ok ts =>
      match p.refuse 18 6 im.tables (fun (t : ImgTable) => match ts.find? (fun (x : ImgTable) => x.handle = t.handle) with
          | some x => !(s.copyOk x x.stack x.base) || (x.twin && !(s.copyOk x x.tstack x.tbase))
          | none => true) with
      | some e => .error e
      | none => .ok { im with tables := ts }

/-! ## The whole validation -/

/-- The checks 0x03 to 0x11 in order; the first refusal. -/
def State.checks (s : State) (p : Parsed) : Option ImgErr :=
  [s.chkNeed, s.chkPeriod, s.chkMode, s.chkSize, chkSignpost, chkCode, chkBudget, chkDeadline, s.chkRoute, s.chkNettoll,
    s.chkMemtoll, s.chkDeposit, s.chkEgress, chkState, s.chkSwap].findSome? (fun f => f p)

/-- What reading an image does to the stack that holds it: the words of its body and trailer (R480). -/
def State.sourceReads (s : State) (src : Word) (nw : Nat) : State :=
  let k := match readTrailer (s.srcWord src) nw with
    | .ok t => 18 + (t.blocks.map (fun (b : SigBlock) => 18 + (b.slen + 3) / 4)).foldl (· + ·) 0
    | .error _ => 2
  match (if fld src 1 0 = 0 then none else s.winPlace (2 * fld src 35 2)) with
  | some (d, p, w) => if s.stackUp d then s.dsweep d p ((w + nw + k + 7) / 8) else s
  | none => s

/-- What a LOAD reads of the stacks: the image, and the tables that it names where the checks before TABLE pass (R480,
R504). -/
def State.loadReads (s : State) (src : Word) : State :=
  let rd := s.srcWord src
  match parseImage rd with
  | .error _ => s.sourceReads src 6
  | .ok p =>
    let s1 := s.sourceReads src p.nw
    if (s.sigCheck 1 p.nw ((readWords rd 0 p.nw).getD []) (readTrailer rd p.nw)).isSome || (s.checks p).isSome then s1
    else match s.placeTables (match s.img.armed with
        | some a => a.tables
        | none => []) (p.im.tables.foldl (fun (l : List ImgTable) x => insertTable x l) []) [] with
      | .error _ => s1
      | .ok ts => ts.foldl (fun (s : State) t =>
          let s1 := if s.stackUp t.stack then s.dsweep t.stack t.base t.len else s
          if t.twin && s.stackUp t.tstack then s1.dsweep t.tstack t.tbase t.len else s1) s1

/-- Validate the image that a source holds (R422): the image as it will stand by, or the refusal with, for SIGN, what
SEC_IMGCHK records. -/
def State.validate (s : State) (src : Word) : Except (ImgErr × Option (Nat × Nat)) Image :=
  let rd := s.srcWord src
  match parseImage rd with
  | .error e => .error (e, none)
  | .ok p =>
    let t := readTrailer rd p.nw
    match s.sigCheck 1 p.nw ((readWords rd 0 p.nw).getD []) t with
    | some c => .error (⟨2, 0, 0⟩, some c)
    | none =>
      match s.checks p with
      | some e => .error (e, none)
      | none => match s.chkTable p with
        | .error e => .error (e, none)
        | .ok im => .ok { im with manifest := trailerManifest t }

end Sys2Proof.Machine
end

