-- ==== Sys2Proof/Machine/Place.lean ====
section
/-!
DEFINITION. Placing an image: loading a tile from its TILE record, the network tables of a placement, the inbound and
egress epochs and the egress channels (spec/10 R407, R408, R432, R433; spec/09 R370, R375, R376; spec/11 R467).
-/
namespace Sys2Proof.Machine

/-! ## Loading a tile (R407, R408, R644) -/

/-- A register with every field that can be written, loaded from a word; reserved encodings leave their field (R4). DESIGN
CHOICE (log entry 105): a load at placement raises no REFUSED for one. -/
def RegSpec.load (r : RegSpec) (cur w : Word) : Word :=
  r.fields.foldl (fun (a : Word) f =>
    if (f.acc == .rw || f.acc == .rws) && !(f.isBad (fld w f.hi f.lo)) then putFld a f.hi f.lo (fld w f.hi f.lo) else a) cur

/-- A register pair of a TILE record takes effect; a reserved encoding as RegSpec.load says (log entry 105). -/
def Tile.loadReg (t : Tile) (e : Nat × Word) : Tile :=
  match findReg regsTile e.1 with
  | some (r, _) => t.iow e.1 (r.load (t.ior e.1) e.2)
  | none => t

/-- The program into the standby instruction half, the signpost bytes into the standby bank. -/
def Tile.loadCode (t : Tile) (im : Image) (x : ImgTile) : Tile :=
  let t1 := t.loadBytes 2 ((x.prog.length + 7) / 8) 4096 x.prog
  match im.bankOf x with
  | some b => t1.loadBytes 3 ((b.length + 7) / 8) 512 b
  | none => t1

/-- The standby half and bank become active (R178), and the loop buffer empties (R169). -/
def Tile.turnCode (t : Tile) : Tile := { t with ihalf := !t.ihalf, sbank := !t.sbank, lbuf := none, lcap := none }

/-- A data segment. -/
def Tile.loadSeg (t : Tile) (a : Nat) : List Word → Tile
  | [] => t
  | w :: r => (t.writeWord 4 a w).loadSeg (a + 1) r

/-- The registers and data of a TILE record: register pairs, TILE_RTN, the tolls, the segments. -/
def Tile.loadRecord (t : Tile) (now : Tick) (x : ImgTile) : Tile :=
  let t1 := x.regs.foldl (fun (t : Tile) e => t.loadReg e) t
  let t2 := (((t1.iowf 0x100 15 0 x.entry).iowf 0x100 18 16 x.kc).iowf 0x100 22 19 x.j).iowf 0x100 23 23 1
  let t3 := (t2.iow 0x101 (wd ((x.cyc + x.hrsv) % 2 ^ 18 + 2 ^ 18 * x.scyc))).iow 0x102 (wd (x.acc + 2 ^ 12 * x.byt))
  x.segs.foldl (fun (t : Tile) e => t.loadSeg e.1 e.2) (t3.roffAll now)

/-- The tile begins its start code at P0 from SADDR (R408): TCR keeps its other fields, those of a steward write before it
included (R292, log entry 49). A halted tile stays halted until the warden resets it (R313). -/
def Tile.startCode (t : Tile) (x : ImgTile) : Tile :=
  { (t.iowf 0 0 0 0).quiet with
    pc := x.saddr, phase := if t.phase = .halt then .halt else .run, inRtn := false, firstRtn := true, soft := none,
    tcrQ := [], raised := none, placed := true, begAt := none, stopAt := none }

/-- Place a tile: load its code unless it is resident, make it active, load the record and start. first: the tick from
which it runs; ep: its placement epoch; kept: the image stands in the active half already. -/
def Tile.placeOn (t : Tile) (now : Tick) (im : Image) (x : ImgTile) (resident kept : Bool) (first : Tick) (ep : Nat) : Tile :=
  let t1 := if resident then t else t.loadCode im x
  let t2 := if resident && kept then t1 else t1.turnCode
  let t3 := (t2.loadRecord now x).startCode x
  { t3 with nextN := t3.firstTick first, epoch := ep, iepoch := im.epoch }

/-! ## Who sends to whom (R432, R433) -/

/-- The placement epoch of a slot (DIE_PLACE). -/
def State.placeEpoch (s : State) (d sl : Nat) : Nat := s.rf (aPlace d sl) 14 7

/-- Key of img.resident: a tile that holds the code of a logical tile. -/
def resKey (d p lt : Nat) : Nat := tkey d p + 1024 * lt

/-- A tile no longer holds the standby image's code. -/
def State.unload (s : State) (d p : Nat) : State :=
  { s with img := { s.img with resident := s.img.resident.filter (fun k => k % 1024 != tkey d p) } }

/-- The placement epoch of a logical tile. -/
def State.epochOf (s : State) (im : Image) (lt : Nat) : Nat := let a := slot0 im.rigor lt; s.placeEpoch a.1 a.2

/-- The epoch that the words of a tick from a logical tile carry: the new one from the switch of its detour on
(R434, R435). -/
def State.epochAt (s : State) (im : Image) (lt : Nat) (n : Tick) : Nat :=
  let a := slot0 im.rigor lt
  match (s.detoursOn a.1).find? (fun (x : Detour) => x.slot = a.2) with
  | some x => if notEarlier n x.switch then x.epoch else s.placeEpoch a.1 a.2
  | none => s.placeEpoch a.1 a.2

/-- The source of the route that an image brings to an inbound, if there is one. -/
def Image.feeds (im : Image) (lt i : Nat) : Option Nat :=
  (im.routes.find? (fun (r : ImgRoute) => r.dests.contains (lt, i))).map (fun (r : ImgRoute) => r.src)

/-- TILE_INBi of a tile: the epoch of its source, unless a register pair names the register (R407), always, or from tick
sw on with nothing accepted before (R434). -/
def State.inbFor (s : State) (im : Image) (x : ImgTile) (i : Nat) (sw : Option Tick) (cur : Word) : Word :=
  match im.feeds x.ltile i with
  | none => cur
  | some src =>
    let named := x.regs.any (fun (e : Nat × Word) => e.1 == 0xA0 + i)
    match sw with
    | some a => wd ((if named then fld cur 7 0 else s.epochAt im src a) + 255 * 2 ^ 8 + 2 ^ 16 * (a.toNat % 4096) + 2 ^ 28)
    | none => if named then cur else wd (s.epochOf im src + 255 * 2 ^ 8)

/-- Every inbound of a tile. -/
def State.inbAll (s : State) (im : Image) (x : ImgTile) (sw : Option Tick) (t : Tile) : Tile :=
  (List.range 8).foldl (fun (t : Tile) i => t.iow (0xA0 + i) (s.inbFor im x i sw (t.ior (0xA0 + i)))) t

/-- The physical tiles of a logical tile as DIE_PLACE has them. -/
def State.tilesOf (s : State) (im : Image) (lt : Nat) : List (Nat × Nat) :=
  let a := slotsOf im.rigor lt
  a.2.map (fun sl => (a.1, s.phys a.1 sl))

/-- Inbounds that take two epochs around a switch tick are noted (log entry 81). -/
def State.noteDual (s : State) (d p : Nat) (l : List Nat) (sw : Tick) : State :=
  let kept := s.img.dual.filter (fun e => !(e.1 == d && e.2.1 == p && l.contains e.2.2.1))
  { s with img := { s.img with dual := l.map (fun i => (d, p, i, sw)) ++ kept } }

/-- Place one logical tile on physical tile p of die d. A detour (sw) loads the armed image's record whatever code of the
standby image the tile holds, and that code is gone (R407). -/
def State.placeTile (s : State) (im : Image) (x : ImgTile) (d p : Nat) (first : Tick) (ep : Nat) (sw : Option Tick) : State :=
  let res := sw.isNone && s.img.resident.contains (resKey d p x.ltile)
  let s1 := (if sw.isSome then s.unload d p else s).setTile d p (s.inbAll im x sw ((s.tile d p).placeOn s.tick im x res s.img.inActive first ep))
  match sw with
  | some a => s1.noteDual d p (List.range 8) a
  | none => s1.noteDual d p [] 0

/-! ## The network tables of a placement (R370, R375, R376) -/

/-- The physical tiles that a slot's routes start at and lead to: the one DIE_PLACE names first, and the other tile of a
detour once that detour has both receive (R434). -/
def State.targets (s : State) (d sl : Nat) : List Nat :=
  let p := s.phys d sl
  match (s.detoursOn d).find? (fun (x : Detour) => x.slot = sl) with
  | some x => if notEarlier s.tick x.start then [p] ++ ([x.from_, x.to_].filter (fun q => q != p)) else [p]
  | none => [p]

/-- The hops of a route from one physical tile of its source to every tile it leads to, with the inbound. -/
def State.treeFrom (s : State) (im : Image) (r : ImgRoute) (p : Nat) : List (Hop × Nat) :=
  let a := slot0 im.rigor r.src
  r.dests.flatMap (fun x =>
    let b := slot0 im.rigor x.1
    (s.targets b.1 b.2).flatMap (fun q => (hopsTo b.1 q 200 a.1 p).map (fun h => (h, x.2))))

/-- The forwarding entry of one hop: VALID, OUT, INB at the tile, XNEXT onto an Ibrak link (Table 9.4). -/
def hopEntry (tid : Nat) (h : Hop) (i : Nat) : Word :=
  wd (1 + 2 ^ (1 + h.2.2) + (if h.2.2 = 0 then 2 ^ 6 * i else 0) + (if isCross h then 2 ^ 9 * tid else 0))

/-- Set the entries of a tree, each hop adding its output; where keep holds, the entry stays as it is. -/
def State.setHops (s : State) (bank d0 rid tid : Nat) (keep : Hop → Bool) (l : List (Hop × Nat)) : State :=
  l.foldl (fun (s : State) e =>
    if keep e.1 then s
    else
      let k := aNet e.1.1 e.1.2.1 bank (if e.1.1 = d0 then rid else tid)
      s.wr k (s.rd k ||| hopEntry tid e.1 e.2)) s

/-- The descriptor and entries of one route; the tree of the tile that a detour adds only fills junctions that the first
tree does not use. -/
def State.deriveRoute (s : State) (im : Image) (bank : Nat) (r : ImgRoute) (tid : Nat) : State :=
  let a := slot0 im.rigor r.src
  let ps := s.targets a.1 a.2
  let j := ps.headD 0
  let s1 := s.wr (aNet a.1 127 bank r.rid) (wd (1 + 2 * r.allow + 2 ^ 13 * r.transit + 2 ^ 17 * j))
  let main := s.treeFrom im r j
  let used := fun (h : Hop) => main.any (fun (e : Hop × Nat) => e.1.1 == h.1 && e.1.2.1 == h.2.1)
  (s1.setHops bank a.1 r.rid tid (fun _ => false) main).setHops bank a.1 r.rid tid used
    ((ps.drop 1).flatMap (fun q => s.treeFrom im r q))

/-- The ROUTE value of each route on the dies it crosses into: the lowest that none of them uses yet (log entry 17). -/
def State.transitIds (s : State) (im : Image) : List ImgRoute → List (Nat × Nat) → List (ImgRoute × Nat)
  | [], _ => []
  | r :: rest, used =>
    let a := slot0 im.rigor r.src
    let ds := (((s.targets a.1 a.2).flatMap (fun q => s.treeFrom im r q)).map (fun e => e.1.1)).filter (fun d => d != a.1)
    let free := fun n => ds.all (fun d => !(used.contains (d, n)))
    let tid := ((List.range 4096).find? free).getD 0
    (r, tid) :: s.transitIds im rest (ds.map (fun d => (d, tid)) ++ used)

/-- Is a register key a network table word of a bank? -/
def isNetKey (bank k : Nat) : Bool :=
  decide (0x100_0000_0000 ≤ k ∧ k < 0x200_0000_0000 ∧ (k - 0x100_0000_0000) / 4096 % 2 = bank)

/-- The warden derives the tables of an image's bank for the placement in force (R376). -/
def State.deriveNet (s : State) (im : Image) : State :=
  let bank := im.epoch % 2
  let ids := s.transitIds im im.routes (im.routes.map (fun (r : ImgRoute) => (im.dieOf r.src, r.rid)))
  ids.foldl (fun (s : State) e => s.deriveRoute im bank e.1 e.2) { s with regs := SMap.dropIf (isNetKey bank) s.regs }

/-- The tables of the standby image, whose bank is the one that the armed image does not use (R368, R376). -/
def State.deriveStandby (s : State) : State :=
  match s.img.armed, s.img.standby with
  | some old, some im => if old.epoch % 2 = im.epoch % 2 then s else s.deriveNet im
  | none, some im => s.deriveNet im
  | _, none => s

/-- The tables of the armed and of the standby image for the placement in force (R376). -/
def State.deriveAll (s : State) : State :=
  (match s.img.armed with
    | some im => s.deriveNet im
    | none => s).deriveStandby

/-! ## Egress channels (R82, R429, R433, R467) -/

/-- LINK_TXCH and LINK_TXDEF of an EGRESS record. -/
def State.setChannel (s : State) (e : ImgEgress) : State :=
  let n := e.link
  let s1 := s.wr (aLink n 7) (wd (e.l + 2 ^ 13 * e.ndef + 2 ^ 18))
  ((List.range e.ndef).zip e.defs).foldl (fun (s : State) x => s.wr (aLink n (0x20 + x.1)) x.2) s1

/-- The placement epoch of a link's first writer. -/
def State.writerEpoch (s : State) (im : Image) (n : Nat) : Nat :=
  match im.writers n with
  | [] => 0
  | x :: _ => s.epochOf im x.ltile

/-- LINK_TXEP: epochs before and from a switch tick, which the island keeps whole (R433). -/
def State.setTxep (s : State) (n old new : Nat) (sw : Tick) : State :=
  (s.wr (aLink n 6) (wd (old + 2 ^ 8 * new + 2 ^ 16 * (sw.toNat % 4096)))).onLink n (fun x => { x with epSw := sw })

/-- At arming each channel of the image begins with tick a; every other channel is absent (R84, R644). DESIGN CHOICE (log
entry 85): of two EGRESS records that name one link the last gives its channel. -/
def State.openChannels (s : State) (im : Image) (a : Tick) : State :=
  let s1 := (List.range 512).foldl (fun (s : State) n =>
    if s.rb (aLink n 7) 18 then s.wf (aLink n 7) 18 18 0 else s) s
  im.egress.foldl (fun (s : State) e =>
    let w := s.writerEpoch im e.link
    (((s.setChannel e).setTxep e.link w w a).slotsClear e.link).onLink e.link (fun x =>
      { x with built := [], newFrom := a, obs := a - 1, old := none, lostTo := none })) s1

/-- The channel of a link before the tick of a swap. -/
def State.chBefore (s : State) (n : Nat) (ep : Nat) : Option (Nat × Tick × Nat × List Word) :=
  (s.chL n).map (fun l => (l, (s.link n).newFrom, ep, s.txDefs n))

/-- At the milestone of a swap's tick a the channels of a die's links are in force for both images side by side (R429). DESIGN CHOICE (log
entry 85): of two EGRESS records that name one link the first gives its channel from the swap on. -/
def State.swapChannels (s : State) (d : Nat) (old new : Image) (a : Tick) : State :=
  (List.range 64).foldl (fun (s : State) i =>
    let n := 64 * d + i
    let e := new.egress.find? (fun (x : ImgEgress) => x.link = n)
    let b := s.chBefore n old.epoch
    match e, b with
    | none, none => s
    | none, some _ => (s.wf (aLink n 7) 18 18 0).onLink n (fun x => { x with newFrom := a, old := b })
    | some e, none =>
      let w := s.writerEpoch new n
      (((s.setChannel e).setTxep n w w a).slotsClear n).onLink n (fun x =>
        { x with built := [], newFrom := a, obs := a - 1, old := none, lostTo := none })
    | some e, some _ =>
      ((s.setChannel e).setTxep n (s.rf (aLink n 6) 15 8) (s.writerEpoch new n) a).onLink n (fun x =>
        { x with newFrom := a, old := b })) s

end Sys2Proof.Machine
end

