-- ==== Sys2Proof/Machine/Swap.lean ====
section
/-!
DEFINITION. The image commands: LOAD, ARM, SWAP, DISCARD and DISARM, their milestones, and the live swap
(spec/10 R424 to R430; spec/17 R642 to R646; spec/02 R57).
-/
namespace Sys2Proof.Machine

/-! ## PKG_IMG_STAT and PHASE -/

/-- A new PKG_IMG_STAT (SEPOCH is 0 while no valid standby image stands by); a change of any field other than CMDERR sends vector 2 (Table 13.4). -/
def State.setImgStat (s : State) (w : Word) : State :=
  let s1 := s.wr aImgStat w
  if putFld w 31 29 0 = putFld (s.rd aImgStat) 31 29 0 then s1 else s1.msix 2

/-- SBY. -/
def State.sby (s : State) : Nat := s.rf aImgStat 2 0
/-- CMDERR: a refused command changes nothing else (R424). -/
def State.cmdErr (s : State) (n : Nat) : State := s.wf aImgStat 31 29 n
/-- PKG_BOOT.PHASE. -/
def State.setPhase17 (s : State) (n : Nat) : State := s.wf aBoot 3 0 n
/-- A LOAD or an autoarm is in progress (R643). -/
def State.imgBusy (s : State) : Bool := s.img.loading.isSome || s.boot.auto != 0
/-- A swap is in progress. -/
def State.swapping (s : State) : Bool := s.img.swapAt.isSome
/-- AT of Table 10.9. -/
def State.cmdAt (s : State) : Tick := BitVec.ofNat 48 ((s.rd 0x82).toNat + 2 ^ 36 * s.rf 0x83 11 0)
/-- A milestone at least n ticks later than the current tick (R56, R425). -/
def State.ahead (s : State) (a : Tick) (n : Nat) : Bool := decide (n ≤ (a - s.tick).toNat ∧ (a - s.tick).toNat < 2 ^ 47)

/-! ## LOAD (R422, R642) -/

/-- A LOAD begins. -/
def State.loadStart (s : State) (src : Word) : State :=
  let s1 := { s with img := { s.img with standby := none, inActive := false, resident := [], loading := some src } }
  let s2 := s1.setImgStat (putFld (putFld (s1.rd aImgStat) 2 0 1) 28 21 0)
  if s2.armed then s2 else s2.setPhase17 8

/-- LOAD: refused in the wrong state. -/
def State.loadOp (s : State) : State :=
  if !s.ready || s.imgBusy || s.arming || s.swapping || s.img.disarmAt.isSome then s.cmdErr 1
  else s.loadStart (s.rd 0x80)

/-- An autoarm's image is refused: ERR = 3, and the part is in phase 7 (R643). -/
def State.autoFails (s : State) : State := (({ s with boot := { s.boot with auto := 0 } }).wf aBoot 7 4 3).setPhase17 7

/-- The code of every tile that the image places, in the standby half of the physical tile it will stand on. -/
def State.loadTiles (s : State) (im : Image) : State :=
  im.tiles.foldl (fun (s : State) x =>
    let a := slotsOf im.rigor x.ltile
    a.2.foldl (fun (s : State) sl =>
      let p := s.planned im a.1 sl
      let s1 := s.onTile a.1 p (fun t => t.loadCode im x)
      { s1 with img := { s1.img with resident := resKey a.1 p x.ltile :: s1.img.resident } }) s) s

/-- Loading ends: the image is valid and stands by, its code and network tables in place, or is refused with its code
(R376, R422, Table 10.7). -/
def State.loadEnd (s : State) : State :=
  match s.img.loading with
  | none => s
  | some src =>
    let s0 := { s with img := { s.img with loading := none } }
    let s1 := (if s0.armed then s0 else s0.setPhase17 7).loadReads src
    match s.validate src with
    | .error (e, sig) =>
      let w := putFld (putFld (s1.rd aImgStat) 2 0 3) 10 3 e.err
      let s2 := (s1.setImgStat w).wr 0x85 (wd (e.sec + 2 ^ 6 * e.rec_))
      let s3 : State := match sig with
        | some c => s2.imgchk c 1
        | none => s2
      if s3.boot.auto = 2 then s3.autoFails else s3
    | .ok im =>
      let s2 := { s1 with img := { s1.img with standby := some im } }
      let s3 := ((s2.setImgStat (putFld (putFld (s2.rd aImgStat) 2 0 2) 28 21 im.epoch)).loadTiles im).deriveStandby
      if s3.boot.auto = 2 then ({ s3 with boot := { s3.boot with auto := 3, autoDly := s3.rf 0xC1 28 13 } }).setPhase17 8
      else s3

/-- LOAD_DONE (R422). -/
def execLoadDone (s : State) : Out := live true s (fun s => s.loadEnd)

/-! ## ARM (R57, R425, R644, R645) -/

/-- The standby image needs more placements than a die has healthy tiles: refused with SIZE (R645). -/
def State.refuseSize (s : State) : State :=
  let s1 := { s with img := { s.img with standby := none, inActive := false, resident := [] } }
  (s1.setImgStat (putFld (putFld (putFld (s1.rd aImgStat) 2 0 3) 10 3 6) 28 21 0)).wr 0x85 0

/-- ARM at a milestone, for the steward or the lead warden. -/
def State.armTo (s : State) (a : Tick) : State :=
  match s.img.standby with
  | none => s.cmdErr 1
  | some im =>
    if !s.tickValid || im.period != s.period then s.cmdErr 6
    else if !(s.ahead a 16) then s.cmdErr 2
    else if !(s.placeable im) then s.refuseSize
    else ({ s with img := { s.img with armAt := some a } }).setPhase17 9

/-- ARM: accepted with a valid standby image, none armed and nothing else in progress (R425). -/
def State.armOp (s : State) : State :=
  if s.armed || s.sby != 2 || s.imgBusy || s.arming then s.cmdErr 1 else s.armTo s.cmdAt

/-- DIE_PLACE for an image: every slot on its own tile but those that lay-bys take (R375, R645). -/
def State.placeAll (s : State) (im : Image) : State :=
  (List.range 8).foldl (fun (s : State) d =>
    let l := (s.armPlace im d).getD []
    (List.range 64).foldl (fun (s : State) sl =>
      let p := match l.find? (fun x => x.1 = sl) with
        | some x => x.2
        | none => sl
      s.wf (aPlace d sl) 6 0 p) s) s

/-- Every tile of an image is placed and begins its start code. -/
def State.placeTiles (s : State) (im : Image) (first : Tick) : State :=
  im.tiles.foldl (fun (s : State) x =>
    let a := slotsOf im.rigor x.ltile
    a.2.foldl (fun (s : State) sl => s.placeTile im x a.1 (s.phys a.1 sl) first (s.placeEpoch a.1 (a.2.headD 0)) none) s) s

/-- Skipped ticks count anew from an ARM (Table 6.12). -/
def State.skpClear (s : State) : State :=
  (s.tiles.map (fun (e : Nat × Tile) => e.1)).foldl (fun (s : State) k =>
    s.onTile (k / 128) (k % 128) (fun t => { t.setSk 0xD4 0 with skp := 0 })) s

/-- Milestone AT of an accepted ARM (R644). -/
def State.armNow (s : State) : State :=
  match s.img.armAt, s.img.standby with
  | some a, some im =>
    if notEarlier s.tick a then
      let s1 := ((s.placeAll im).skpClear.placeTiles im a)
      let s2 := { s1 with img := { s1.img with
        armed := some im, standby := none, armAt := none, inActive := false, resident := [], switched := [] } }
      let w := putFld (putFld (putFld (putFld (s2.rd aImgStat) 2 0 0) 11 11 1) 20 13 im.epoch) 28 21 0
      (((s2.deriveNet im).openChannels im a).setImgStat w).setPhase17 10
    else s
  | _, _ => s

/-- ARM_AT (R644). -/
def execArmAt (s : State) : Out := live true s (fun s => s.armNow)

/-! ## DISCARD and DISARM (R424, R425, R646) -/

/-- DISCARD empties the standby. -/
def State.discardOp (s : State) : State :=
  if (s.sby != 2 && s.sby != 3) || s.imgBusy || s.arming || s.swapping then s.cmdErr 1
  else
    let s1 := { s with img := { s.img with standby := none, inActive := false, resident := [] } }
    s1.setImgStat (putFld (putFld (s1.rd aImgStat) 2 0 0) 28 21 0)

/-- DISARM: accepted while an image is armed and nothing else is in progress. -/
def State.disarmOp (s : State) : State :=
  if !s.armed || s.swapping || s.img.disarmAt.isSome || s.img.loading.isSome then s.cmdErr 1
  else if !(s.ahead s.cmdAt 16) then s.cmdErr 2
  else { s with img := { s.img with disarmAt := some s.cmdAt } }

/-- The tiles that an image places, as DIE_PLACE and the detours in progress have them. -/
def State.imageTiles (s : State) (im : Image) : List (Nat × Nat) :=
  im.tiles.flatMap (fun (x : ImgTile) =>
    let a := slotsOf im.rigor x.ltile
    a.2.flatMap (fun sl => match (s.detoursOn a.1).find? (fun (y : Detour) => y.slot = sl) with
      | some y => [(a.1, y.from_), (a.1, y.to_)]
      | none => [(a.1, s.phys a.1 sl)]))

/-- No channel from here on. -/
def State.closeChannels (s : State) : State :=
  (List.range 512).foldl (fun (s : State) n =>
    if s.rb (aLink n 7) 18 then
      ((s.wf (aLink n 7) 18 18 0).slotsClear n).onLink n (fun x => { x with built := [], old := none })
    else s) s

/-- An autoarm is in progress from here, with IMGOFF as it reads now (R643, R647). -/
def State.autoFrom (s : State) : State := { s with boot := { s.boot with auto := 1, autoOff := s.rf 0xC1 12 1 } }

/-- Phase 7; with AUTOARM = 1 an autoarm is in progress at once, which phase 8 shows (R643, R647, Table 17.1). -/
def State.enterReady (s : State) : State :=
  if s.rb 0xC1 0 then (s.setPhase17 8).autoFrom else s.setPhase17 7

/-- From milestone AT of a DISARM: the deadline egress stops and no further routine begins; once no routine is in
progress the image becomes the standby image (R646). -/
def State.disarmNow (s : State) : State :=
  match s.img.disarmAt, s.img.armed with
  | some a, some im =>
    if notEarlier s.tick a then
      let ts := s.imageTiles im
      let s1 := ts.foldl (fun (s : State) (e : Nat × Nat) => s.onTile e.1 e.2 (fun t => t.iowf 0x100 23 23 0)) s.closeChannels
      if ts.any (fun (e : Nat × Nat) => (s1.tile e.1 e.2).inRtn) then s1
      else
        let s2 := ts.foldl (fun (s : State) (e : Nat × Nat) => s.onTile e.1 e.2 (fun t => { t with placed := false })) s1
        let s3 := { s2 with img := { s2.img with
          armed := none, standby := some im, disarmAt := none, inActive := true, detours := [],
          resident := ts.filterMap (fun (e : Nat × Nat) => (s2.tileLogical e.1 e.2 im).map (fun lt => resKey e.1 e.2 lt)) } }
        (s3.setImgStat (putFld (putFld (putFld (s3.rd aImgStat) 2 0 2) 11 11 0) 28 21 im.epoch)).enterReady
    else s
  | _, _ => s

/-- DISARM_AT (R646). -/
def execDisarmAt (s : State) : Out := live true s (fun s => s.disarmNow)

/-! ## SWAP (R426 to R430) -/

/-- Every die on which an image places a tile, and so every die on which it drives a link, has a healthy warden (R27). -/
def State.wardensFor (s : State) (im : Image) : Bool :=
  im.tiles.all (fun (x : ImgTile) => s.healthy (im.dieOf x.ltile))

/-- The exchange words that an image deposits for one tick of a tile: (first, count) pairs (R406). -/
def State.depositRanges (s : State) (im : Image) (lt : Nat) (n : Tick) : List (Nat × Nat) :=
  im.deposits.filterMap (fun (r : ImgDeposit) =>
    let k := 2 ^ r.kc
    match r.members[n.toNat % k]? with
    | some (t, base, stride, nbm) =>
      if t = lt then some (base + stride * (n.toNat / k % (nbm + 1)), s.linkW r.link) else none
    | none => none)

/-- The first tick at or after a that a TILE record runs, and the last before a. -/
def ImgTile.tickFrom (x : ImgTile) (a : Tick) : Tick :=
  let k := 2 ^ x.kc
  a + BitVec.ofNat 48 ((x.j % k + k - a.toNat % k) % k)

/-- The third check of R427 for a swap tick: the deposits of a tile's first new tick meet those of its last old tick. -/
def State.swapClash (s : State) (old new : Image) (a : Tick) : Bool :=
  new.tiles.any (fun (x : ImgTile) =>
    match old.tiles.find? (fun (y : ImgTile) => y.ltile = x.ltile) with
    | none => false
    | some y =>
      let nr := s.depositRanges new x.ltile (x.tickFrom a)
      let prev := s.depositRanges old y.ltile (y.tickFrom a - BitVec.ofNat 48 (2 ^ y.kc))
      nr.any (fun u => prev.any (fun v => decide (u.1 < v.1 + v.2 ∧ v.1 < u.1 + u.2))))

/-- The next placement epoch (R431). -/
def nextEpoch (e : Nat) : Nat := (e + 1) % 255

/-- A detour is listed for a die. -/
def State.addDetour (s : State) (d : Nat) (x : Detour) : State :=
  { s with img := { s.img with detours := SMap.set (fun _ => []) s.img.detours d (s.detoursOn d ++ [x]) } }

/-- Slots whose tile is due or not healthy move to a lay-by with the swap, pairs under Rigor (R620, R645): the slot changes
tiles at the swap tick. A due tile retires as it has left. -/
def State.movePinned (s : State) (new : Image) (a : Tick) : State :=
  (List.range 8).foldl (fun (s : State) d =>
    ((s.swapMoves new d).getD []).foldl (fun (s : State) e =>
      let p := s.phys d e.1
      s.addDetour d ⟨e.1, p, e.2, true, a, a, nextEpoch (s.placeEpoch d e.1), true, s.tileFlag d p == 2⟩) s) s

/-- SWAP (R426, R427, R625, R645). -/
def State.swapOp (s : State) : State :=
  match s.img.armed, s.img.standby with
  | some old, some new =>
    let a := s.cmdAt
    if s.sby != 2 || s.imgBusy || s.swapping || s.img.disarmAt.isSome || s.updating ||
        !(s.wardensFor new && s.wardensFor old) then s.cmdErr 1
    else if (List.range 8).any (fun d => s.detoursOn d != []) then s.cmdErr 3
    else if !new.swapok then s.cmdErr 4
    else if !(s.ahead a 16) then s.cmdErr 2
    else if s.swapClash old new a then s.cmdErr 5
    else if !(s.placeable new) then s.refuseSize
    else
      let s1 := ({ s with img := { s.img with swapAt := some a, switched := [], swapDies := [] } }).movePinned new a
      (s1.setImgStat (putFld (s1.rd aImgStat) 12 12 1)).deriveAll
  | _, _ => s.cmdErr 1

/-- A write of CMD to PKG_IMG_CMD by a master that may write (Table 10.9); 0, 6 and 7 are reserved (R4). -/
def State.imgCmd (s : State) (w : Word) : State :=
  match fld w 2 0 with
  | 1 => s.loadOp
  | 2 => s.armOp
  | 3 => s.swapOp
  | 4 => s.discardOp
  | 5 => s.disarmOp
  | _ => s.refuse 0x81 w

/-- The TILE record that an image gives a physical tile; a slot on the move belongs to the tile it moves to. -/
def State.recordOn (s : State) (im : Image) (d p : Nat) : Option ImgTile :=
  match s.slotOf d p with
  | none => none
  | some sl =>
    if (s.detoursOn d).any (fun (x : Detour) => decide (x.slot = sl ∧ x.to_ ≠ p)) then none
    else im.tiles.find? (fun (x : ImgTile) => x.ltile = logicalOf im.rigor d sl)

/-- A tile stops: it begins no further routine. -/
def Tile.stop (t : Tile) : Tile := { t.iowf 0x100 23 23 0 with placed := false, stopAt := none }

/-- A tile waits for its first tick at or after a (R428). -/
def State.waitsFor (s : State) (d p : Nat) (a : Tick) : Bool :=
  let t := s.tile d p
  t.phase == .wait && t.level == 0 && !t.inRtn && t.raised.isNone && !(t.eventDue (s.partner d p).isSome) && notEarlier t.nextN a

/-- A tile follows a swap: one that the new image places loads it and runs its start code, which leaves its first routine
on time or late as it would have been; one that it does not place stops (R428). No swap is carried out on a die without a
healthy warden (R27). -/
def State.tileSwitch (s : State) (d p : Nat) : State :=
  let t := s.tile d p
  let due := decide (1 ≤ ticksSince s.tick t.nextN)
  match s.img.swapAt, s.img.standby with
  | some a, some im =>
    let go := fun (s : State) => { s with img := { s.img with switched := tkey d p :: s.img.switched } }
    if s.img.switched.contains (tkey d p) || !(s.healthy d) then s
    else match s.recordOn im d p with
      | some x =>
        let n := x.tickFrom a
        if (!t.placed || s.waitsFor d p a) && decide (1 ≤ ticksSince s.tick n) then
          (go (s.placeTile im x d p a ((s.slotOf d p).elim 0 (fun sl => s.placeEpoch d sl)) none)).onTile d p (fun u =>
            { u with begAt := some (if t.placed then t.waitAt else n + 1) })
        else s
      | none => if t.placed && s.waitsFor d p a && due then go (s.setTile d p t.stop) else s
  | _, _ => match t.stopAt with
    | some a => if s.waitsFor d p a && due && s.healthy d then s.setTile d p t.stop else s
    | none => s

/-- TILE_SWITCH (R428). -/
def execTileSwitch (d p : Nat) (s : State) : Out := live (dieOk d && tileOk p) s (fun s => s.tileSwitch d p)

/-- Every old frame of a link has been sent or dropped: its milestone has come, and none but a swap-gap frame is built and not
sent. -/
def State.oldGone (s : State) (n : Nat) (a : Tick) : Bool :=
  let x := s.link n
  (match x.old with
    | some (l, _, _, _) => notEarlier (x.obs + 1) (a - 1 + BitVec.ofNat 48 l)
    | none => true) && !(x.built.any (fun (f : Frame) => laterTick a f.tick && f.flags / 2 % 8 != 4))

/-- The tiles that only the old image places and that have not stopped yet run their ticks before S under it (R428). -/
def State.leaveAll (s : State) (old new : Image) (a : Tick) : State :=
  (s.imageTiles old).foldl (fun (s : State) e =>
    if (s.recordOn new e.1 e.2).isNone && (s.tile e.1 e.2).placed then s.onTile e.1 e.2 (fun t => { t with stopAt := some a })
    else s) s

/-- The swap has been carried out on every die on which either image has a tile (R27, log entry 102). -/
def State.swapReached (s : State) (old new : Image) : Bool :=
  (old.tiles.all (fun (x : ImgTile) => s.img.swapDies.contains (old.dieOf x.ltile))) &&
    new.tiles.all (fun (x : ImgTile) => s.img.swapDies.contains (new.dieOf x.ltile))

/-- SWAP_COMPLETE (R430): every tile that the new image places has switched and every old frame is gone. -/
def State.swapDone (s : State) : State :=
  match s.img.swapAt, s.img.armed, s.img.standby with
  | some a, some old, some im =>
    let all := im.tiles.all (fun (x : ImgTile) =>
      let y := slotsOf im.rigor x.ltile
      y.2.all (fun sl =>
        let p := match (s.detoursOn y.1).find? (fun (z : Detour) => z.slot = sl) with
          | some z => z.to_
          | none => s.phys y.1 sl
        s.img.switched.contains (tkey y.1 p)))
    if notEarlier s.tick a && all && s.swapReached old im && (List.range 512).all (fun n => s.oldGone n a) then
      let s0 := s.leaveAll old im a
      let s1 := { s0 with img := { s0.img with
        armed := some im, standby := none, swapAt := none, switched := [], swapDies := [], inActive := false, resident := [],
        leaving := some old } }
      let w := putFld (putFld (putFld (s1.rd aImgStat) 2 0 0) 12 12 0) 20 13 im.epoch
      s1.setImgStat (putFld w 28 21 0)
    else s
  | _, _, _ => s

/-- SWAP_COMPLETE (R430). -/
def execSwapComplete (s : State) : Out := live true s (fun s => s.swapDone)

/-! ## Autoarm (R643) -/

/-- The next step of an autoarm: the LOAD from flash, or with TICKVALID = 1 the ARM of the valid image; one that this refuses
with SIZE gives ERR = 3 as a LOAD that refuses it does. -/
def State.autoarm (s : State) : State :=
  if s.boot.auto = 1 then ({ s with boot := { s.boot with auto := 2 } }).loadStart (wd (65536 * s.boot.autoOff))
  else if s.boot.auto = 3 ∧ s.tickValid = true then
    let s1 := (({ s with boot := { s.boot with auto := 0 } }).setPhase17 7).armTo (s.tick + BitVec.ofNat 48 s.boot.autoDly)
    if s1.img.standby.isNone then s1.autoFails else s1
  else s

/-- AUTOARM (R643). -/
def execAutoarm (s : State) : Out := live true s (fun s => s.autoarm)

end Sys2Proof.Machine
end

