-- ==== Sys2Proof/Machine/Detour.lean ====
section
/-!
DEFINITION. Detours: a logical slot moves from its tile to a lay-by while it keeps answering, and the retirement of tiles
(spec/10 R431 to R436; spec/16 R618 to R622).
-/
namespace Sys2Proof.Machine

/-! ## Starting one -/

/-- May a detour of die d start: an image armed, no swap, DISARM or firmware update in progress, a healthy warden
(R27, R426, R625)? -/
def State.detoursAllowed (s : State) (d : Nat) : Bool :=
  s.armed && !s.swapping && s.img.disarmAt.isNone && !s.updating && s.healthy d

/-- The inbounds that receive from a logical tile: slot and inbound. -/
def Image.receivers (im : Image) (lt : Nat) : List ((Nat × Nat) × Nat) :=
  (im.routes.filter (fun (r : ImgRoute) => r.src = lt)).flatMap (fun (r : ImgRoute) => r.dests.flatMap (fun x =>
    let a := slotsOf im.rigor x.1
    a.2.map (fun sl => ((a.1, sl), x.2))))

/-- An inbound takes the old epoch before a tick and the new one from it on (R432). -/
def State.dualInb (s : State) (d p i old new : Nat) (sw : Tick) : State :=
  (s.noteDual d p [i] sw).onTile d p (fun t =>
    t.iow (0xA0 + i) (wd (new + 2 ^ 8 * old + 2 ^ 16 * (sw.toNat % 4096) + 2 ^ 28)))

/-- The tile that a detour brings a slot to, while its slot has not moved. -/
def State.comingTo (s : State) (d sl : Nat) : Option Detour :=
  (s.detoursOn d).find? (fun (y : Detour) => y.slot = sl && s.phys d sl != y.to_)

/-- The inbounds that receive from a tile take its old epoch before a tick and the new one from it on (R434, R435). A receiver
that a detour brings to a lay-by takes nothing before its own start D there, and the new epoch from D on if the switch comes
first; else switchComing gives it both epochs at the switch (log entry 103). -/
def State.switchReceivers (s : State) (im : Image) (lt old new : Nat) (sw : Tick) : State :=
  (im.receivers lt).foldl (fun (s : State) x =>
    let s1 := s.dualInb x.1.1 (s.phys x.1.1 x.1.2) x.2 old new sw
    match s.comingTo x.1.1 x.1.2 with
    | some y => if notEarlier y.start sw then s1.dualInb x.1.1 y.to_ x.2 255 new y.start else s1
    | none => s1) s

/-- At the switch tick of a sender, receivers that a detour has brought to a lay-by before it take both epochs. -/
def State.switchComing (s : State) (im : Image) (lt old new : Nat) (sw : Tick) : State :=
  (im.receivers lt).foldl (fun (s : State) x =>
    match s.comingTo x.1.1 x.1.2 with
    | some y => if laterTick sw y.start then s.dualInb x.1.1 y.to_ x.2 old new sw else s
    | none => s) s

/-- The inbounds that receive from a tile take one epoch. -/
def State.singleReceivers (s : State) (im : Image) (lt e : Nat) : State :=
  (im.receivers lt).foldl (fun (s : State) x =>
    let s1 := s.onTile x.1.1 (s.phys x.1.1 x.1.2) (fun t => (t.iowf (0xA0 + x.2) 28 28 0).iowf (0xA0 + x.2) 7 0 e)
    match s.comingTo x.1.1 x.1.2 with
    | some y => s1.onTile x.1.1 y.to_ (fun t => t.iowf (0xA0 + x.2) 7 0 e)
    | none => s1) s

/-- The egress channels that a tile writes take its old epoch before a tick and the new one from it on. -/
def State.switchChannels (s : State) (x : ImgTile) (old new : Nat) (sw : Tick) : State :=
  (List.range 8).foldl (fun (s : State) h =>
    if bitOf (x.reg (0x58 + h)) 9 then s.setTxep (fld (x.reg (0x58 + h)) 8 0) old new sw else s) s

/-- What the warden holds of a tile changes. -/
def State.setFlag (s : State) (d p v : Nat) : State :=
  { s with pwr := { s.pwr with tile := SMap.set (fun _ => 0) s.pwr.tile (tkey d p) v } }

/-- A tile is due for retirement (R618). -/
def State.isDue (s : State) (d p : Nat) : Bool := s.tileFlag d p == 2

/-- Begin a detour of slot sl of die d to lay-by q: q is placed and runs its start code, the receivers and channels switch
at sw. conv with warm-up from start, or with its freeze tick start = sw. retire: the old tile, if due, retires (R619). -/
def State.beginDetour (s : State) (im : Image) (x : ImgTile) (d sl q : Nat) (conv : Bool) (start sw : Tick)
    (retire : Bool) : State :=
  let e := s.placeEpoch d sl
  let e1 := nextEpoch e
  let retire := retire && s.isDue d (s.phys d sl)
  let s1 := s.addDetour d ⟨sl, s.phys d sl, q, conv, start, sw, e1, false, retire⟩
  let s2 := s1.placeTile im x d q (if conv then start else start + BitVec.ofNat 48 (2 ^ x.kc)) e1
    (some (if conv then start else sw))
  let s3 := if retire then s2.setFlag d (s.phys d sl) 3 else s2
  (s3.switchReceivers im x.ltile e e1 sw).switchChannels x e e1 sw

/-- The slots that move together: one, or a pair under Rigor with a lay-by pair (R604, R607). -/
def movesOfPair (rigor : Bool) (sl q : Nat) : List (Nat × Nat) :=
  if rigor then [(sl / 2 * 2, q / 2 * 2), (sl / 2 * 2 + 1, q / 2 * 2 + 1)] else [(sl, q)]

/-- Can slots move to lay-bys: each is placed and not on the move, each lay-by healthy and free? -/
def State.canMove (s : State) (d : Nat) (l : List (Nat × Nat)) : Bool :=
  l.all (fun e => decide (64 ≤ e.2 ∧ e.2 < 72) && s.freeTile d e.2 && (s.tile d (s.phys d e.1)).placed &&
    !((s.detoursOn d).any (fun (x : Detour) => x.slot = e.1)))

/-- The warden moves a pair that had a mismatch only while PWR_AGECFG.AUTO = 1 (R607). -/
def State.autoMoves (s : State) (d : Nat) (l : List (Nat × Nat)) : Bool :=
  s.rb (aPwr 0x48) 12 || l.all (fun e => !(s.pwr.suspect.contains (tkey d (s.phys d e.1))))

/-- The armed image's record of a slot. -/
def State.slotRecord (s : State) (d sl : Nat) : Option (Image × ImgTile) :=
  match s.img.armed with
  | none => none
  | some im => (im.tiles.find? (fun (x : ImgTile) => x.ltile = logicalOf im.rigor d sl)).map (fun x => (im, x))

/-- A convergent detour (R434): only for a slot with DETOUR = 1 and its declared warm-up W, at a named milestone to come. -/
def State.detourConv (s : State) (d sl q : Nat) (start : Tick) (w : Nat) (retire : Bool) : State :=
  match s.slotRecord d sl with
  | none => s
  | some (im, x) =>
    let l := movesOfPair im.rigor sl q
    if s.detoursAllowed d && x.detour == 1 && (im.stateOf x.ltile).any (fun (y : ImgState) => y.w == w) &&
        laterTick start s.tick && s.canMove d l && (retire || s.autoMoves d l) then
      l.foldl (fun (s : State) e => s.beginDetour im x d e.1 e.2 true start (start + BitVec.ofNat 48 w) retire) s
    else s

/-- A non-convergent detour (R435): only for a slot with DETOUR = 2, at a freeze tick to come that is the slot's own. -/
def State.detourFreeze (s : State) (d sl q : Nat) (f : Tick) (retire : Bool) : State :=
  match s.slotRecord d sl with
  | none => s
  | some (im, x) =>
    let l := movesOfPair im.rigor sl q
    if s.detoursAllowed d && x.detour == 2 && decide (f.toNat % 2 ^ x.kc = x.j) && laterTick f s.tick && s.canMove d l &&
        (retire || s.autoMoves d l) then
      l.foldl (fun (s : State) e => s.beginDetour im x d e.1 e.2 false f f retire) s
    else s

/-- DETOUR_CONVERGENT (R434). -/
def execDetourConvergent (d slot layby start w : Nat) (s : State) : Out :=
  live (dieOk d && slotOk slot && tileOk layby) s (fun s => s.detourConv d slot layby (BitVec.ofNat 48 start) w false)

/-- DETOUR_NONCONVERGENT (R435). -/
def execDetourNonconvergent (d slot layby freeze : Nat) (s : State) : Out :=
  live (dieOk d && slotOk slot && tileOk layby) s (fun s => s.detourFreeze d slot layby (BitVec.ofNat 48 freeze) false)

/-! ## The milestones of a detour -/

/-- The MIGRATE request word (R436). -/
def migrWord (x : Detour) : Word :=
  wd (x.switch.toNat % 4096 + 2 ^ 12 * natB (!x.conv) + 2 ^ 13 * x.epoch + 2 ^ 21 * x.to_)

/-- SUBN copies of SUBV leave the junction of the new tile on each route of the slot, for the frozen tick (R435), by the tables
of the new placement. DESIGN CHOICE (log entry 101): they wait at the end of the tile's outbound channel, which they can fill
past its 4 words. -/
def State.substitutes (s : State) (d : Nat) (x : Detour) : State :=
  match s.slotRecord d x.slot with
  | none => s
  | some (im, r) =>
    (im.routes.filter (fun (y : ImgRoute) => y.src = r.ltile)).foldl (fun (s : State) y =>
      let ch := match (List.range 64).find? (fun h => bitOf (r.reg (0x60 + h)) 14 && fld (r.reg (0x60 + h)) 11 0 == y.rid) with
        | some h => fld (r.reg (0x60 + h)) 13 12
        | none => 0
      let f := flitMake y.subv false x.epoch (x.start.toNat % 4096) y.rid (im.epoch % 2)
      (s.onTile d x.to_ (fun t => { t with outc := t.outc ++ List.replicate y.subn (s.flitIn d x.to_ ch f) })).reach d x.to_) s

/-- The milestone at which a slot's DIE_PLACE changes: D + W, or F + 1 of a non-convergent detour. -/
def Detour.moveAt (x : Detour) : Tick := if x.conv then x.switch else x.start + 1

/-- A detour's slot passes to its new tile: DIE_PLACE, the MIGRATE request to the old tile (none where
a swap moves the slot), the tables of the new placement, and then the substitutes. -/
def State.detourMove (s : State) (d : Nat) (x : Detour) : State :=
  let s1 := (s.wf (aPlace d x.slot) 6 0 x.to_).wf (aPlace d x.slot) 14 7 x.epoch
  let s2 := (if x.conv && x.start == x.switch then s1
    else s1.onTile d x.from_ (fun t => { t with migr := migrWord x, migrAt := some x.switch }.migrReady)).deriveAll
  if x.conv || x.slot % 2 == 1 && (s.img.armed.any (fun (im : Image) => im.rigor)) then s2 else s2.substitutes d x

/-- MIGRATE has been taken, or cannot be (at P0 with TCR.IE = 0). -/
def Tile.migrated (t : Tile) : Bool :=
  t.migrAt.isNone && (!(bitOf (t.ior 0x07) 1) || (t.level != 0 && !(bitOf t.tcr 3)))

/-- The warden tests a tile of a pair that had a mismatch as soon as it is free and no other test of its die is running
(R607). -/
def State.testSuspect (s : State) (d : Nat) : State :=
  match (s.die d).bist, (List.range 72).find? (fun p => s.pwr.suspect.contains (tkey d p) && !(s.tile d p).placed &&
      s.tileFlag d p == 0 && s.domainOn d (p / 8) && !((s.detoursOn d).any (fun (x : Detour) => x.to_ = p))) with
  | none, some p => s.onDie d (fun x => { x with bist := some p })
  | _, _ => s

/-- A detour is over: the old tile is free, or retired (R619) by its die's warden (R27), or put to the test (R607). -/
def State.endDetour (s : State) (d : Nat) (x : Detour) : State :=
  let s1 := { s with img := { s.img with
    detours := SMap.set (fun _ => []) s.img.detours d ((s.detoursOn d).filter (fun y => y != x)) } }
  let s2 := s1.onTile d x.from_ (fun t => { t.iowf 0x100 23 23 0 with placed := false })
  let s3 := if x.retire then s2.setFlag d x.from_ (if s.healthy d then 4 else 2) else s2
  (s3.testSuspect d).deriveAll

/-- The old tile has run its last tick, and has been parked. -/
def State.oldIdle (s : State) (d : Nat) (x : Detour) : Bool :=
  let t := s.tile d x.from_
  !t.placed || (!t.inRtn && notEarlier t.nextN x.switch && t.migrated)

/-- What a milestone does to one detour: both tiles receive from D on, receivers on the move follow its switch, the slot moves
at its milestone, and a convergent detour ends once the old tile has run its last tick. -/
def State.detourStep (s : State) (d : Nat) (x : Detour) : State :=
  let s0 := match s.slotRecord d x.slot with
    | some (im, r) => if s.tick = x.switch then s.switchComing im r.ltile (s.placeEpoch d x.slot) x.epoch x.switch else s
    | none => s
  let s1 := if s.tick = x.start then s0.deriveAll else s0
  let s2 := if notEarlier s.tick x.moveAt && (s1.phys d x.slot != x.to_) then s1.detourMove d x else s1
  if x.conv && laterTick s.tick x.switch && s2.oldIdle d x then s2.endDetour d x else s2

/-- Every detour at a milestone, on dies with a healthy warden (R27). -/
def State.detourSteps (s : State) : State :=
  (List.range 8).foldl (fun (s : State) d =>
    if s.healthy d then (s.detoursOn d).foldl (fun (s : State) x => s.detourStep d x) s else s) s

/-- 1,024 ticks past a switch tick no word of a tick before it is on its way, and the warden leaves the inbound the new epoch
alone: the comparison of R432 spans no more (log entry 81). -/
def State.dualSteps (s : State) : State :=
  let l := s.img.dual.filter (fun e => notEarlier s.tick (e.2.2.2 + 1024))
  { l.foldl (fun (s : State) e => s.onTile e.1 e.2.1 (fun t => t.iowf (0xA0 + e.2.2.1) 28 28 0)) s with
    img := { s.img with dual := s.img.dual.filter (fun e => !(notEarlier s.tick (e.2.2.2 + 1024))) } }

/-! ## The state copy (R435) -/

/-- The bits of granule g that carried ranges cover. -/
def rangeMask (l : List (Nat × Nat)) (g : Nat) : BitVec 72 :=
  let inR := fun (a : Nat) => l.any (fun r => decide (r.1 ≤ a ∧ a < r.1 + r.2))
  (if inR (2 * g) then wordMask 0 else 0) ||| (if inR (2 * g + 1) then wordMask 1 else 0)

/-- Copy the carried ranges granule by granule from one tile to another; a marked granule arrives marked. -/
def copyRanges (a b : Tile) (l : List (Nat × Nat)) : Tile × Tile :=
  (granulesOf l).foldl (fun (q : Tile × Tile) g =>
    let m := dataGran (2 * g)
    let r := q.1.read 4 m.1 m.2
    let b1 := q.2.write 4 m.1 m.2 (rangeMask l g) r.2.1
    (r.1, if r.2.2 then b1.poisonGran m.1 m.2 else b1)) (a, b)

/-- g0–g31, p1–p7 and ctl.n. -/
def copySocks (a b : Tile) : Tile :=
  ((List.range 32 ++ (List.range 7).map (fun i => 0x21 + i) ++ [0x2B]).foldl (fun (t : Tile) k => t.setSk k (a.sk k)) b)

/-- A detour whose slot has not moved is given up as its die loses its warden (R26, R27, log entry 102): the new tile is
free, receivers and channels keep the old epoch, and a tile that was to retire is due again. -/
def State.dropDetour (s : State) (d : Nat) (x : Detour) : State :=
  if s.phys d x.slot == x.to_ then s
  else
    let s1 := { s with img := { s.img with
      detours := SMap.set (fun _ => []) s.img.detours d ((s.detoursOn d).filter (fun y => y != x)) } }
    let s2 := s1.onTile d x.to_ Tile.stop
    let s3 := if s.tileFlag d x.from_ == 3 then
        s2.setFlag d x.from_ (if s.pwr.asked.contains (tkey d x.from_) then 6 else 2)
      else s2
    match s.slotRecord d x.slot with
    | some (im, r) =>
      if x.conv && x.start == x.switch then s3
      else
        let e := s.placeEpoch d x.slot
        ((s3.singleReceivers im r.ltile e).switchChannels r e e x.switch).deriveAll
    | none => s3

/-- Those of a die. -/
def State.dropDetours (s : State) (d : Nat) : State := (s.detoursOn d).foldl (fun (s : State) x => s.dropDetour d x) s

/-- The copy of a non-convergent detour: once the old tile waits, milestone F + 1 has come and MIGRATE has been taken. The
TG8512 makes it, with a healthy warden on the die or without. A tile that waited for it begins late if its milestone has
passed. -/
def State.copyEnd (s : State) (d sl : Nat) : State :=
  match (s.detoursOn d).find? (fun (x : Detour) => x.slot = sl), s.slotRecord d sl with
  | some x, some (im, r) =>
    if !x.conv && notEarlier s.tick (x.start + 1) && s.phys d sl == x.to_ && s.oldIdle d x then
      let q := copyRanges (s.tile d x.from_) (copySocks (s.tile d x.from_) (s.tile d x.to_))
        (((im.stateOf r.ltile).map (fun (y : ImgState) => y.ranges)).getD [])
      let w := if q.2.phase == .wait then { q.2 with waitAt := s.tick + 1 } else q.2
      ((s.setTile d x.from_ q.1).setTile d x.to_ w).endDetour d x
    else s
  | _, _ => s

/-- STATE_COPY_END (R435). -/
def execStateCopyEnd (d slot : Nat) (s : State) : Out := live (dieOk d && slotOk slot) s (fun s => s.copyEnd d slot)

/-! ## Retirement (R618 to R622) -/

/-- A due tile is moved off: its slot is detoured to the lowest-numbered healthy free lay-by and the tile retires; a tile
that carries nothing retires at once. A pinned slot (DETOUR = 0) stays (R620), and so does one without a lay-by (R622). -/
def State.retireMove (s : State) (d p : Nat) (start : Tick) : State :=
  let code := SMap.get (fun _ => 0) s.pwr.tile (tkey d p)
  if !(code == 6 || code == 2) || !(s.healthy d) || s.updating then s
  else if !(s.tile d p).placed then s.setFlag d p 4
  else if (code == 2 && !(s.rb (aPwr 0x48) 12)) || !(s.ahead start 64) then s
  else match s.slotOf d p with
    | none => s
    | some sl => match s.slotRecord d sl with
      | none => s
      | some (im, x) =>
        match s.freeLayby im.rigor d [] with
        | none => s
        | some q =>
          if x.detour = 1 then
            s.detourConv d sl q start (((im.stateOf x.ltile).map (fun (y : ImgState) => y.w)).getD 0) true
          else if x.detour = 2 then s.detourFreeze d sl q start true
          else s

/-- RETIREMENT_DETOUR (R619). start: the start milestone, or freeze tick, that the warden names. -/
def execRetirementDetour (d p start : Nat) (s : State) : Out :=
  live (dieOk d && tileOk p) s (fun s => s.retireMove d p (BitVec.ofNat 48 start))

end Sys2Proof.Machine
end

