-- ==== Sys2Proof/Machine/Power.lean ====
section
/-!
DEFINITION. Wardens and the lead role, operating modes, temperatures, power domains, the aging ledger and warden firmware
updates (spec/16_modes_aging_continuous_service.md, R22 to R28, R663 to R665).
-/
namespace Sys2Proof.Machine

/-! ## Wardens and the lead (R22, R26 to R28) -/

/-- The set of healthy wardens, as PKG_BOOT.HEALTHY shows it; the detours of a die that loses its warden are given up where
the slot has not moved (R27). -/
def State.setHealthy (s : State) (l : List Nat) : State :=
  let h := (List.range 8).filter (fun d => l.contains d)
  let s1 := ({ s with boot := { s.boot with healthy := h } }).wf aBoot 18 11 (h.foldl (fun a d => a + 2 ^ d) 0)
  (s.boot.healthy.filter (fun d => !(h.contains d))).foldl (fun (s : State) d => s.dropDetours d) s1

/-- The lead role passes to the warden of die d: waymark LEAD, and the attestation key begins anew (R28, R563). -/
def State.leadTo (s : State) (d : Nat) : State :=
  let old := s.lead
  if d = old then s
  else
    let s1 := (({ s with boot := { s.boot with lead := d } }).wf aBoot 10 8 d).akLost
    s1.mark d 0 0 0x080 (wd old) (wd d) 0

/-- The lead warden is no longer healthy: the lowest-numbered healthy warden takes over (R28). -/
def State.leadFails (s : State) : State :=
  if s.healthy s.lead then s
  else match (List.range 8).find? (fun d => s.healthy d) with
    | some d => s.leadTo d
    | none => s

/-- LEAD (R28). -/
def execLead (s : State) : Out := live true s (fun s => s.leadFails)

/-! ## Modes (R593 to R599, R663 to R665) -/

/-- PWR_MODE.REQ. -/
def State.reqMode (s : State) : Nat := s.rf (aPwr 0) 1 0
/-- PWR_MODE.CEIL. -/
def State.ceil (s : State) : Nat := s.rf (aPwr 0) 6 5
/-- The mode decided on: the lower of the request and the ceiling (R594). -/
def State.decided (s : State) : Nat := min s.reqMode s.ceil
/-- The Tj limit of a mode in °C (Table 16.1). -/
def tjLimit (m : Nat) : Int := if m = 0 then 80 else if m = 1 then 85 else 95
/-- VDD_CORE of a mode at start of life, in mV (Table 16.1). -/
def modeMv (m : Nat) : Nat := if m = 0 then 740 else if m = 1 then 800 else 880
/-- Tj of a die (PWR_TJd). -/
def State.tj (s : State) (d : Nat) : Int := (BitVec.ofNat 9 (s.rf (aPwr (8 + d)) 8 0)).toInt

/-- Time stamps of a condition over the dies: kept while it holds, begun now where it begins, 0 where it does not hold. -/
def sinceAll (m : SMap Nat) (now : Nat) (p : Nat → Bool) : SMap Nat :=
  (List.range 8).foldl (fun (m : SMap Nat) d =>
    let v := SMap.get (fun _ => 0) m d
    SMap.set (fun _ => 0) m d (if p d then (if v = 0 then now + 1 else v) else 0)) m

/-- The mode that the limits are held against: the one in force, or a lower one already decided on. -/
def State.modeNow (s : State) : Nat := min s.mode s.decided
/-- A die is above the limit of that mode. -/
def State.isHot (s : State) (d : Nat) : Bool := decide (tjLimit s.modeNow < s.tj d)
/-- A die is at least 10 °C below the limit of the mode above the ceiling. -/
def State.isCool (s : State) (d : Nat) : Bool := decide (s.tj d + 10 ≤ tjLimit (s.ceil + 1))

/-- Bring the thermal timers up to date; anew: they begin again. -/
def State.thermal (s : State) (anew : Bool) : State :=
  { s with pwr := { s.pwr with hot := sinceAll (if anew then [] else s.pwr.hot) s.sym s.isHot,
                               cool := sinceAll (if anew then [] else s.pwr.cool) s.sym s.isCool } }

/-- A decision on the mode: the ceiling moves, and the timers begin again (R599). -/
def State.setCeil (s : State) (c : Nat) : State :=
  let s1 := s.wf (aPwr 0) 6 5 c
  ({ s1 with pwr := { s1.pwr with decTick := s1.tick, decAt := s1.sym } }).thermal true

/-- The sensors of a die: Tj is the highest of the eight, TJMAX the highest since it was written (R600, Table 16.6); above
125 °C or below −45 °C the temperature source of Table 14.12 asserts. -/
def State.sample (s : State) (d : Nat) (l : List Int) : State :=
  match l with
  | [] => s
  | x :: r =>
    let t := r.foldl max x
    let a := aPwr (8 + d)
    let top := max t (BitVec.ofNat 9 (s.rf a 17 9)).toInt
    let s1 := ((s.wf a 8 0 (BitVec.ofInt 9 t).toNat).wf a 17 9 (BitVec.ofInt 9 top).toNat).thermal false
    if 125 < t ∨ t < -45 then s1.tamperEvent 2 else s1

/-- TJ_SAMPLE (R600). -/
def execTjSample (d : Nat) (temps : List Int) (s : State) : Out := live (dieOk d) s (fun s => s.sample d temps)

/-- How long a condition of a die has held, if it holds. -/
def State.heldFor (s : State) (m : SMap Nat) (d n : Nat) : Bool :=
  let v := SMap.get (fun _ => 0) m d
  decide (0 < v ∧ v ≤ s.sym + 1 ∧ n ≤ s.sym + 1 - v)

/-- The ceiling falls to the next lower mode, once die d has been above its limit for 1 ms (R599). -/
def State.ceilDown (s : State) (d : Nat) : State :=
  if 0 < s.modeNow ∧ s.heldFor s.pwr.hot d symMs = true then s.setCeil (s.modeNow - 1) else s

/-- CEILING_DOWN (R599). -/
def execCeilingDown (d : Nat) (s : State) : Out := live (dieOk d) s (fun s => s.ceilDown d)

/-- The ceiling rises by one mode with AUTOUP = 1, once every die has been cool for 10 s (R599). -/
def State.ceilUp (s : State) : State :=
  if s.rb (aPwr 0) 2 && decide (s.ceil < 2) && (List.range 8).all (fun d => s.heldFor s.pwr.cool d (10 * symSec)) then
    s.setCeil (s.ceil + 1)
  else s

/-- CEILING_UP (R599). -/
def execCeilingUp (s : State) : Out := live true s (fun s => s.ceilUp)

/-- The trim steps of a domain of a die (R617). -/
def State.trimOf (s : State) (d i : Nat) : Nat := SMap.get (fun _ => 0) s.pwr.trim (16 * d + i)
/-- The largest trim of any domain, in mV. -/
def State.maxTrim (s : State) : Nat := 5 * ((s.pwr.trim.map (fun (e : Nat × Nat) => e.2)).foldl max 0)
/-- The value V_C that the lead warden commands, in mV: that of the higher of the mode in force and the mode decided on,
plus the largest trim (R595, R596, R663). -/
def State.wantMv (s : State) : Nat := modeMv (max s.mode s.decided) + s.maxTrim
/-- LINEAR16 with exponent −12, to the nearest step (R664; log entry 18). -/
def linear16 (mv : Nat) : Nat := (mv * 4096 + 500) / 1000

/-- The lead warden reaches the I²C controller (R23). -/
def State.busReach (s : State) : Bool := s.flashReach

/-- The regulator stands at the voltage wanted: the latest command was acknowledged and named it. -/
def State.voltOk (s : State) : Bool := s.pwr.volt == s.wantMv && s.pwr.sentAt.isNone

/-- The lead warden sends VOUT_COMMAND, again each 1 ms until it is acknowledged (R665); a new value at once. -/
def State.vout (s : State) (ack : Bool) : State :=
  let early := match s.pwr.sentAt with
    | some t => decide (s.pwr.sentMv = s.wantMv ∧ s.sym < t + symMs)
    | none => false
  if s.voltOk = true ∨ early = true ∨ s.busReach = false then s
  else
    let s1 := s.land (.pmbus (linear16 s.wantMv))
    let s2 := { s1 with pwr := { s1.pwr with sentMv := s.wantMv } }
    if ack then { s2 with pwr := { s2.pwr with volt := s.wantMv, sentAt := none, ackAt := s.sym } }
    else { s2 with pwr := { s2.pwr with sentAt := some s.sym } }

/-- VOUT_COMMAND (R665). -/
def execVoutCommand (ack : Bool) (s : State) : Out := live true s (fun s => s.vout ack)

/-- MINMODE of the armed image, if one is armed. -/
def State.armedMin (s : State) : Option Nat := s.img.armed.map (fun (im : Image) => im.minmode)

/-- The mode in force changes: to a lower mode at the first milestone after the decision, to a higher one at the first
milestone at least 100 µs after the decision and after VDD_CORE has been commanded and acknowledged; below MINMODE it raises SLOWMODE
(R595, R596, R598, R665). -/
def State.modeChange (s : State) : State :=
  let m := s.decided
  let due := laterTick s.tick s.pwr.decTick &&
    (decide (m < s.mode) || (decide (s.mode < m ∧ s.pwr.decAt + symMs / 10 ≤ s.sym ∧ s.pwr.ackAt + symMs / 10 ≤ s.sym) && s.voltOk))
  if due then
    let s1 := s.wf (aPwr 0) 4 3 m
    match s.armedMin with
    | some mm => if m < mm then s1.mark s1.lead 0 0 0x033 (wd m) (wd mm) 0 else s1
    | none => s1
  else s

/-- MODE_CHANGE (R595). -/
def execModeChange (s : State) : Out := live true s (fun s => s.modeChange)

/-! ## Warden firmware (R559, R624, Table 17.2) -/

/-- The flash offset of a firmware slot (Table 17.2). -/
def fwSlotAt (slot : Nat) : Nat := if slot = 0 then 0x10_0000 else 0x90_0000

/-- Words of a firmware image at a source: NW is the word at which the trailer's magic stands first, at most what the
8 MiB slot holds (log entry 19). -/
def fwWords (rd : Nat → Option Word) (n : Nat) : Option Nat := (List.range n).find? (fun i => rd i == some 0o724307165124)

/-- The checks of Table 14.6 on a firmware image: its manifest, or DETAIL and ROLE. -/
def State.fwCheck (s : State) (rd : Nat → Option Word) : Except (Nat × Nat) (List Byte) :=
  match fwWords rd 1864135 with
  | none => .error (1, 0)
  | some nw =>
    let t := readTrailer rd nw
    match s.sigCheck 2 nw ((readWords rd 0 nw).getD []) t with
    | some c => .error c
    | none => .ok (trailerManifest t)

/-- Waymark FWREFUSED with SEC_IMGCHK (R559, Table 15.3). -/
def State.fwRefused (s : State) : State := s.mark s.lead 8 0 0x081 (s.rd (aSec 0x42)) 0 0

/-! ## Power domains (R608 to R612) -/

/-- State of a domain: 0 off, 1 powering or training, 2 on, 3 failed; 16 for the die's stack. -/
def State.domState (s : State) (d i : Nat) : Nat :=
  if i < 16 then s.rf (aPwr (0x18 + d)) (2 * i + 1) (2 * i) else s.rf (aPwr 0x20) (2 * d + 9) (2 * d + 8)
/-- Set it. -/
def State.setDom (s : State) (d i v : Nat) : State :=
  if i < 16 then s.wf (aPwr (0x18 + d)) (2 * i + 1) (2 * i) v else s.wf (aPwr 0x20) (2 * d + 9) (2 * d + 8) v

/-- The Ibrak links of a die. -/
def linksOfDie (d : Nat) : List Nat :=
  (List.range 10).filter (fun l => decide ((linkEnds l).1.1 = d ∨ (linkEnds l).2.1 = d))

/-- An Ibrak link that is in service goes out of service at once (R388, Table 16.4). -/
def State.ibkOff (s : State) (l : Nat) : State := if s.rb (aIbk (linkEnds l).1) 2 then s else s.linkDown l

/-- Both ends of an Ibrak link train from a fresh lane map with the retry count cleared (R387, R613). -/
def State.ibkTrain (s : State) (l : Nat) : State :=
  let s1 := s.setIbLink l ⟨0, true⟩
  s1.ibkBoth l (fun s a => s.wf a 4 0 2)

/-- A domain is off: what Table 16.4 says of it. -/
def State.domainOff (s : State) (d i : Nat) : State :=
  if i < 9 then
    (List.range 8).foldl (fun (s : State) x => (s.setTile d (8 * i + x) Tile.reset).unload d (8 * i + x)) s
  else if i < 13 then
    (List.range 16).foldl (fun (s : State) x =>
      let n := 64 * d + 16 * (i - 9) + x
      ((s.retrainLink n false).wf (aLink n 3) 1 0 0).onLink n (fun y => { y with txl := LineTx.reset })) s
  else if i = 13 ∨ i = 16 then s.stackLost d 1
  else if i = 14 then (linksOfDie d).foldl (fun (s : State) l => s.ibkOff l) s
  else (s.setHealthy (s.boot.healthy.filter (fun x => x != d))).leadFails

/-- A die whose last domain, number i, has gone off is switched off: vector 5 (R612). -/
def State.dieOff (s : State) (d i : Nat) : State :=
  if decide (i < 16) && (List.range 16).all (fun i => s.domState d i == 0 || s.domState d i == 3) then s.msix 5 else s

/-- The tiles of a row that has been switched on are free, but for retired ones (R621, Table 16.4). -/
def State.rowFree (s : State) (d i : Nat) : State :=
  (List.range 8).foldl (fun (s : State) x =>
    let s1 := s.setTile d (8 * i + x) Tile.reset
    if s.tileFlag d (8 * i + x) = 4 then s1
    else { s1 with pwr := { s1.pwr with tile := SMap.set (fun _ => 0) s1.pwr.tile (tkey d (8 * i + x)) 0 } }) s

/-- The warden of a die boots (Table 16.4): the firmware of the running slot is checked, and the warden that passes is healthy and
takes the lead if its die is the lowest; in BLANK it stays in mask ROM (log entry 20). -/
def State.wardenOn (s : State) (d : Nat) : State :=
  let join := fun (s : State) =>
    let s1 := s.setHealthy (d :: s.boot.healthy)
    if d < s1.lead ∨ s1.healthy s1.lead = false then s1.leadTo d else s1
  if s.lc = 0 then join s
  else match s.fwCheck (s.srcWord (wd (fwSlotAt (s.rf aBoot 19 19)))) with
    | .ok _ => join s
    | .error c => (s.imgchk c 2).fwRefused

/-- What a domain that has reached its supply brings up is up: its stack or its Ibrak links train no more; every link of its group
has lock, or 100 ms have passed as in phase 5 of start-up (R608, R609; log entry 109). -/
def State.domDone (s : State) (d i : Nat) : Bool :=
  if i = 13 ∨ i = 16 then s.stackState d != 1
  else if i = 14 then (linksOfDie d).all (fun l => !(s.rb (aIbk (linkEnds l).1) 1))
  else if 9 ≤ i ∧ i < 13 then
    (List.range 16).all (fun x => !(s.link (64 * d + 16 * (i - 9) + x)).rising) ||
      decide (SMap.get (fun _ => 0) s.pwr.bringUp (32 * d + i) + 100 * symMs ≤ s.sym + 1)
  else true

/-- PWR_DSTATd and PWR_STK, word offset o, whose stored value is w: a domain that still brings up its part shows 1 (R609). -/
def State.dstatShown (s : State) (o : Nat) (w : Word) : Word :=
  s.pwr.bringUp.foldl (fun (w : Word) e =>
    let d := e.1 / 32
    let i := e.1 % 32
    if s.domState d i ≠ 2 ∨ s.domDone d i = true then w
    else if i < 16 ∧ o = 0x18 + d then putFld w (2 * i + 1) (2 * i) 1
    else if i = 16 ∧ o = 0x20 then putFld w (2 * d + 9) (2 * d + 8) 1
    else w) w

/-- At a milestone: a link whose group has been switched on is in service once it has lock, and domains that have brought up
their part are on (R608, R609). -/
def State.bringUps (s : State) : State :=
  let locked := ((s.links.filter (fun (e : Nat × LinkSt) => e.2.rising)).map (fun (e : Nat × LinkSt) => e.1)).filter
    (fun n => s.rb (aLink n 3) 0)
  let s1 := locked.foldl (fun (s : State) n => s.onLink n (fun x => { x with rising := false })) s
  { s1 with pwr := { s1.pwr with bringUp := s1.pwr.bringUp.filter (fun e => !(s1.domDone (e.1 / 32) (e.1 % 32))) } }

/-- A domain that is powering has its supply (R609, Table 16.4): tiles are free, links of a group seek lock and are in service
from the first milestone after it, the stack trains, the Ibrak links train, the warden boots. -/
def State.domainReady (s : State) (d i : Nat) : State :=
  if s.domState d i ≠ 1 then s
  else
    let s0 := s.setDom d i 2
    let s1 := { s0 with pwr := { s0.pwr with bringUp := SMap.set (fun _ => 0) s0.pwr.bringUp (32 * d + i) (s0.sym + 1) } }
    if i < 9 then s1.rowFree d i
    else if i < 13 then
      (List.range 16).foldl (fun (s : State) x => s.onLink (64 * d + 16 * (i - 9) + x) (fun y => { y with rising := true })) s1
    else if i = 13 ∨ i = 16 then (if s1.stackPowered d then s1.wf (aDram d 3) 1 0 1 else s1)
    else if i = 14 then
      (linksOfDie d).foldl (fun (s : State) l =>
        if s.domainOn (linkEnds l).1.1 14 && s.domainOn (linkEnds l).2.1 14 then s.ibkTrain l else s) s1
    else if i = 15 then s1.wardenOn d
    else s1

/-- DOMAIN_READY (R609). i: domain 0 to 15 of the die, 16 its stack. -/
def execDomainReady (d i : Nat) (s : State) : Out := live (dieOk d && domOk i) s (fun s => s.domainReady d i)

/-- A domain's switch trips: it is off, shown as failed (R611). -/
def State.domainTrip (s : State) (d i : Nat) : State :=
  if s.domState d i = 0 ∨ s.domState d i = 3 then s
  else ((s.setDom d i 3).domainOff d i).dieOff d i

/-- DOMAIN_TRIP (R611). -/
def execDomainTrip (d i : Nat) (s : State) : Out := live (dieOk d && domOk i) s (fun s => (s.domainTrip d i).oneCycle s)

/-- May a domain be switched off by a commit (R610)? -/
def State.mayOff (s : State) (d i : Nat) : Bool :=
  if i < 9 then (List.range 8).all (fun x => !(s.tile d (8 * i + x)).placed)
  else if i = 15 then s.boot.healthy.any (fun x => x != d)
  else true

/-- One domain under a commit that sets its ON bit: switched off, switched on or tried again, or left as it is with
REFUSED, whose source is the domain (Table 15.2). a, bit: the register and the bit; v: the value committed. -/
def State.domainSet (s : State) (d i a bit : Nat) (on : Bool) (v : Word) : State :=
  let st := s.domState d i
  if on then (if st = 0 ∨ st = 3 then (s.wb a bit true).setDom d i 1 else s.wb a bit true)
  else if st = 0 ∨ st = 3 then (s.wb a bit false).setDom d i 0
  else if s.mayOff d i then (((s.wb a bit false).setDom d i 0).domainOff d i).dieOff d i
  else s.mark d 9 i 0x011 (wd a) v 0

/-- A staged ON field takes effect at a milestone. -/
def State.domainsCommit (s : State) (st : Stage) : State :=
  if st.key = aPwr 0x20 then
    (List.range 8).foldl (fun (s : State) d =>
      if bitOf st.mask d then s.domainSet d 16 st.key d (bitOf st.val d) st.val else s) s
  else
    (List.range 16).foldl (fun (s : State) i =>
      if bitOf st.mask i then s.domainSet (st.key - aPwr 0x10) i st.key i (bitOf st.val i) st.val else s) s

/-! ## Returning an Ibrak link (R613) -/

/-- A write of PWR_IBKRET by a master that may write: each 1 makes both ends of the link train, unless the die-links domain
of either end is off. -/
def State.ibkRet (s : State) (w : Word) : State :=
  (List.range 10).foldl (fun (s : State) l =>
    if bitOf w l && s.domainOn (linkEnds l).1.1 14 && s.domainOn (linkEnds l).2.1 14 then
      let cut := fun (s : State) => (s.dirFresh l 0).dirFresh l 1
      let s1 := if s.ibkUp l then cut s else s
      (s1.ibkTrain l).wf (aPwr 0x50) l l 1
    else s) s

/-! ## The aging ledger (R614 to R618, R623) -/

/-- Life rate at the limit of a mode, in hundredths (Table 16.1). -/
def lifeRate (m : Nat) : Nat := if m = 0 then 55 else if m = 1 then 100 else 350

/-- The factor 2 to the power (n / 10), in millionths and rounded down, by which the life rate scales with a temperature
difference of n degrees: the greatest m with m^10 at most 10^60 × 2^n (R614, log entry 9). -/
def agingFactor (n : Int) : Nat :=
  let fits := fun (m : Nat) => decide (m ^ 10 * 2 ^ (-n).toNat ≤ 10 ^ 60 * 2 ^ n.toNat)
  (List.range 48).foldl (fun (m : Nat) i => if fits (m + 2 ^ (47 - i)) then m + 2 ^ (47 - i) else m) 0

/-- One second of a die's ledger at its mean Tj (R614); PWR_LIFEd shows whole life-seconds. -/
def State.accrue (s : State) (d : Nat) (mean : Int) : State :=
  let v := SMap.get (fun _ => 0) s.pwr.life d + lifeRate s.mode * agingFactor (mean - tjLimit s.mode)
  ({ s with pwr := { s.pwr with life := SMap.set (fun _ => 0) s.pwr.life d v } }).wr (aPwr (0x40 + d)) (wd (v / 10 ^ 8))

/-- LEDGER_ACCRUE (R614). -/
def execLedgerAccrue (d : Nat) (mean : Int) (s : State) : Out := live (dieOk d) s (fun s => s.accrue d mean)

/-- LEDGER_WRITE (R615). -/
def execLedgerWrite (s : State) : Out := live true s (fun s => s.ledgerWrite)

/-- PFW (R590): the ledgers are written at each warning too (R615). -/
def execPfw (s : State) : Out := live true s (fun s => s.pfwWarn.ledgerWrite)

/-- PWR_AGECFG.SLMIN. -/
def State.slmin (s : State) : Nat := s.rf (aPwr 0x48) 7 0

/-- PWR_TRIMd shows a domain's steps. -/
def State.setTrim (s : State) (d i v : Nat) : State :=
  let s1 := { s with pwr := { s.pwr with trim := SMap.set (fun _ => 0) s.pwr.trim (16 * d + i) v } }
  if i < 9 then s1.wf (aPwr (0x28 + 2 * d)) (4 * i + 3) (4 * i) v
  else s1.wf (aPwr (0x29 + 2 * d)) (4 * (i - 9) + 3) (4 * (i - 9)) v

/-- A tile is due (R618); a free one is retired at once, but not during an update (R619, R625) nor on a die without a healthy
warden (R27). -/
def State.makeDue (s : State) (d p code : Nat) : State :=
  { s with pwr := s.pwr.makeDue (tkey d p) code ((s.tile d p).placed || s.updating || !(s.healthy d)) }

/-- A second has passed since the latest trim step of a domain (R617). -/
def State.trimDue (s : State) (d i : Nat) : Bool :=
  let v := SMap.get (fun _ => 0) s.pwr.trimAt (16 * d + i)
  decide (v = 0 ∨ v + symSec ≤ s.sym + 1)

/-- A domain's trim has been raised now. -/
def State.trimNow (s : State) (d i : Nat) : State :=
  { s with pwr := { s.pwr with trimAt := SMap.set (fun _ => 0) s.pwr.trimAt (16 * d + i) (s.sym + 1) } }

/-- A domain after its monitors have been read: slow are the positions below SLMIN. Its trim rises by one step, up to 12, at most once a second;
at 12 steps the slow tiles are due, and a slow warden is not healthy (R617, R618, R623). -/
def State.slowDomain (s : State) (d i : Nat) (slow : List Nat) : State :=
  if slow = [] then s
  else if s.trimOf d i < 12 then
    if s.trimDue d i then (s.setTrim d i (s.trimOf d i + 1)).trimNow d i else s
  else if i = 15 then s.setHealthy (s.boot.healthy.filter (fun x => x != d))
  else slow.foldl (fun (s : State) p => s.makeDue d p 2) s

/-- The warden of a die reads its monitors: 72 tiles and its own, in ps (R616). -/
def State.monitors (s : State) (d : Nat) (l : List Nat) : State :=
  let read := (List.range 73).filter (fun p => decide (p < l.length) && s.domainOn d (if p = 72 then 15 else p / 8))
  let s1 := { s with pwr := { s.pwr with slack := read.foldl (fun (m : SMap Nat) p =>
    SMap.set (fun _ => 0) m (tkey d p) (min 255 (l.getD p 0))) s.pwr.slack } }
  let slow := read.filter (fun p => decide (l.getD p 0 < s.slmin))
  (List.range 9).foldl (fun (s : State) i => s.slowDomain d i (slow.filter (fun p => p != 72 && p / 8 == i)))
    (s1.slowDomain d 15 (slow.filter (fun p => p == 72)))

/-- MONITOR_READ (R616 to R618, R623). -/
def execMonitorRead (d : Nat) (slacks : List Nat) (s : State) : Out :=
  live (dieOk d) s (fun s => if s.healthy d then s.monitors d slacks else s)

/-- PWR_TDAT of the tile that PWR_TIDX names: state 0 free, 1 placed, 2 due, 3 retiring, 4 retired, 5 pinned
and due; RETIRE reads 1 once it has been set (Tables 0.3, 16.6). -/
def State.tdat (s : State) : Word :=
  let x := s.rd (aPwr 0x49)
  let d := fld x 2 0
  let p := fld x 9 3
  let k := tkey d p
  let f := s.tileFlag d p
  let pinned := match s.slotOf d p with
    | some sl => (s.slotRecord d sl).any (fun r => r.2.detour == 0)
    | none => false
  let st := if f = 4 ∨ f = 3 then f
    else if f = 2 then (if (s.tile d p).placed && pinned then 5 else 2)
    else if (s.tile d p).placed then 1 else 0
  wd (SMap.get (fun _ => 0) s.pwr.slack k + 2 ^ 8 * st + 2 ^ 11 * SMap.get (fun _ => 0) s.pwr.ue k +
    2 ^ 15 * natB (s.pwr.asked.contains k))

/-- A write of PWR_TDAT by a master that may write: RETIRE = 1 sets the bit and makes the tile due (R618). -/
def State.tdatWrite (s : State) (w : Word) : State :=
  let x := s.rd (aPwr 0x49)
  let k := tkey (fld x 2 0) (fld x 9 3)
  if bitOf w 15 then
    ({ s with pwr := { s.pwr with asked := k :: s.pwr.asked.filter (fun j => j != k) } }).makeDue (fld x 2 0) (fld x 9 3) 6
  else s

/-- PWR_LAYBY: healthy free lay-bys of each die. -/
def State.laybys (s : State) : Word :=
  wd ((List.range 8).foldl (fun a d =>
    a + 2 ^ (4 * d) * ((List.range 8).filter (fun i => s.freeTile d (64 + i))).length) 0)

/-- UEMAX has been written: every tile that has reached it is due (R618). -/
def State.ueSweep (s : State) : State :=
  s.pwr.ue.foldl (fun (s : State) e =>
    if s.rf (aPwr 0x48) 11 8 ≤ e.2 then s.makeDue (e.1 / 128) (e.1 % 128) 2 else s) s

/-! ## Warden firmware update (R624 to R627) -/

/-- PWR_FW_STAT. -/
def aFwStat : Nat := aPwr 0x62

/-- FWREFUSED, and PHASE 4: the update ends (R559, R626). -/
def State.fwFail (s : State) : State :=
  let s1 := (s.wf aFwStat 2 0 4).wf aFwStat 13 6 0
  ({ s1 with pwr := { s1.pwr with fwDie := none } }).fwRefused

/-- The warden of die d restarts into its standby instruction half, its crossroads master reset with it (R399), and is not
healthy until it rejoins. -/
def State.fwRestart (s : State) (d : Nat) : State :=
  let s1 := (s.wf aFwStat 5 3 d).setHealthy (s.boot.healthy.filter (fun x => x != d))
  ({ s1 with pwr := { s1.pwr with fwDie := some d, fwAt := s1.sym } }).resetMaster (8 + d) 0 0 0

/-- Warden d runs the new firmware. -/
def State.fwDone (s : State) (d : Nat) : Bool := s.rb aFwStat (6 + d)

/-- The next step of phases 3 to 5 (Table 16.5): the highest healthy warden that is not the lead and not updated restarts;
then the lowest updated one takes the lead and the former lead restarts; then the standby slot becomes the boot slot. -/
def State.fwNext (s : State) : State :=
  match ((List.range 8).reverse).find? (fun d => s.healthy d && d != s.lead && !(s.fwDone d)) with
  | some d => s.fwRestart d
  | none =>
    if s.fwDone s.lead then
      let old := s.pwr.fwLead
      let s1 := if s.healthy old && decide (old < s.lead) then s.leadTo old else s
      let slot := 1 - s1.rf aBoot 19 19
      let s2 := ((s1.wf 0xC1 30 30 slot).wf aBoot 19 19 slot).wf aFwStat 2 0 3
      ({ s2 with sec := { s2.sec with fwManifest := s2.pwr.fwNew }, pwr := { s2.pwr with fwDie := none } }).saveBoot
    else match (List.range 8).find? (fun d => s.healthy d && s.fwDone d) with
      | some d =>
        let old := s.lead
        let s1 := ({ s with pwr := { s.pwr with fwLead := old } }).leadTo d
        s1.fwRestart old
      | none => s

/-- Copy the bytes of packed words into flash. -/
def State.flashWords (s : State) (a : Nat) (l : List Word) : State :=
  let bytes := packedLe l
  { s with flash := ((List.range bytes.length).zip bytes).foldl (fun (m : SMap Byte) e =>
      SMap.set (fun _ => 0xFF) m (a + e.1) e.2) s.flash }

/-- An accepted GO: the image is read (R480) and checked, written to the standby slot, and the first warden restarts (Table 16.5). -/
def State.fwStart (s : State) : State :=
  let src := s.rd (aPwr 0x60)
  let rd := s.srcWord src
  let n := (fwWords rd 1864135).getD 0
  let s0 := s.sourceReads src n
  match s.fwCheck rd with
  | .error c => (s0.imgchk c 2).fwFail
  | .ok mf =>
    let slot := fwSlotAt (1 - s.rf aBoot 19 19)
    let s1 := (s0.erase slot 0x80_0000).flashWords slot ((readWords rd 0 (n + 2000)).getD ((readWords rd 0 n).getD []))
    let s2 := { s1 with pwr := { s1.pwr with fwNew := mf, fwOld := s1.sec.fwManifest, fwLead := s1.lead } }
    (s2.wf aFwStat 2 0 2).fwNext

/-- A write of PWR_FW_CMD by a master that may write (R624); its flash writes wait while the controller cannot be reached
(R23). -/
def State.fwCmd (s : State) (w : Word) : State :=
  if !(bitOf w 0) then s
  else if s.updating then s.wf aFwStat 15 14 1
  else if s.swapping || (List.range 8).any (fun d => s.detoursOn d != []) then s.wf aFwStat 15 14 2
  else if s.boot.healthy.length < 2 then s.wf aFwStat 15 14 3
  else
    let s1 := s.wr aFwStat (putFld (wd (s.rf aFwStat 15 14 * 2 ^ 14)) 2 0 1)
    if s1.flashReach then s1.fwStart else s1.flashWait 2

/-- Flash writes that have waited for the controller are done once it can be reached (R23). -/
def State.flashSteps (s : State) : State :=
  if s.nvWait = [] ∨ s.flashReach = false then s
  else
    let s0 := { s with nvWait := [] }
    let s1 := if s.nvWait.contains 0 then s0.saveOwners else s0
    let s2 := if s.nvWait.contains 1 then s1.saveBoot else s1
    let s3 := if s.nvWait.contains 3 then s2.ledgerWrite else s2
    if s.nvWait.contains 2 then s3.fwStart else s3

/-- The restarting warden rejoins as healthy with the new firmware (R625). -/
def State.rejoin (s : State) (d : Nat) : State :=
  if s.updating && s.pwr.fwDie == some d then
    ((s.setHealthy (d :: s.boot.healthy)).wf aFwStat (6 + d) (6 + d) 1).fwNext
  else s

/-- WARDEN_REJOIN (R625). -/
def execWardenRejoin (d : Nat) (s : State) : Out := live (dieOk d) s (fun s => s.rejoin d)

/-- The restarting warden has not rejoined within 1 s: the update ends, the wardens run the previous firmware, the boot
slot is unchanged, FWREFUSED with SEC_IMGCHK = 0 (R626). -/
def State.rejoinTimeout (s : State) : State :=
  if s.updating && s.pwr.fwDie.isSome && decide (s.pwr.fwAt + symSec ≤ s.sym) then (s.wr (aSec 0x42) 0).fwFail else s

/-- FW_REJOIN_TIMEOUT (R626). -/
def execFwRejoinTimeout (s : State) : Out := live true s (fun s => s.rejoinTimeout)

end Sys2Proof.Machine
end

