-- ==== Sys2Proof/Machine/Boot.lean ====
section
/-!
DEFINITION. Power-up, the phases of start-up, the built-in self-test, the reset of a halted tile, and the test access port
(spec/17_startup_selftest_boundary_scan.md).
-/
namespace Sys2Proof.Machine

/-! ## PORST_N (R629, R667) -/

/-- The register words that fuses hold (Table 14.14, Table 12.7): the life cycle, identity and roots, the boot counter and
SVNMIN, rows repaired by fuse. SERVICE ends at a power-up: the part starts in OWNED. -/
def State.fuses (s : State) : SMap Word :=
  let keep := s.regs.filter (fun (e : Nat × Word) => decide (aSec 0 ≤ e.1 ∧ e.1 < aSec 0x20))
  let lc := if s.lc = 3 then SMap.set regReset keep (aSec 0) 2 else keep
  let boot := SMap.set regReset lc aSecBoot (wd (s.rf aSecBoot 10 0 + 2 ^ 23 * s.rf aSecBoot 28 23))
  (List.range 8).foldl (fun (m : SMap Word) d =>
    SMap.set regReset m (aDram d 0x15) (wd (2 ^ 12 * s.rf (aDram d 0x15) 23 12))) boot

/-- The part right after the rising edge of PORST_N: reset, but for what outlives it, with phase 0 of start-up in progress,
the flywheel generating the milestones (R60) and every vault being wiped (R358, R629, R630). -/
def State.powerUp (s : State) : State :=
  let s0 : State := { State.reset with
    pending := s.pending, held := false, regs := s.fuses, flash := s.flash, badSect := s.badSect,
    free := s.free, out := s.out, sec := { State.reset.sec with idSeed := s.sec.idSeed } }
  (s0.wb aTimStat 3 true).wipeAll 0

/-- PORST_N_RISE (R629). -/
def execPorstNRise (s : State) : Out := .next (if s.held then s.keepQueue s.powerUp else s)

/-- PORST_N_PULSE (R629). -/
def execPorstNPulse (s : State) : Out := live true s (fun s => s.powerUp)

/-! ## Start-up (R630 to R636, Table 17.1) -/

/-- Start-up stops: PHASE 15 and the reason. -/
def State.stopBoot (s : State) (err : Nat) : State := (s.wf aBoot 3 0 15).wf aBoot 7 4 err

/-- Set domains of every die to on. -/
def State.domainsOn (s : State) (l : List Nat) : State :=
  (List.range 8).foldl (fun (s : State) d => l.foldl (fun (s : State) i => s.setDom d i 2) s) s

/-- Phase 0: the wardens that passed their ROM check announce themselves and the lowest is the lead, which rebuilds the
identity root from the fused seeds, where there are any, and must be on die 0 or 1 to read the flash (R560, R630, R631). -/
def State.boot0 (s : State) (bad : List Nat) : State :=
  let rom := (List.range 8).filter (fun d => !(bad.contains d))
  match rom with
  | [] => s.stopBoot 1
  | d :: _ =>
    let s0 := ({ s.domainsOn [15] with boot := { s.boot with rom := rom, lead := d } }).wf aBoot 10 8 d
    let s1 := if s0.lc = 0 then s0 else s0.showIdentity
    if d < 2 then s1.wf aBoot 3 0 1 else s1.stopBoot 1

/-- What the lead reads from flash: PKG_BOOTCFG, the owner list, and the ledger record, of each pair the newer record that passes
its check (R544, R615, R641). -/
def State.readFlash (s : State) : State :=
  let s1 := ((s.wr 0xC1 s.headerWord).readOwners).readLedger
  let s2 := s1.pwr.trim.foldl (fun (s : State) e => s.setTrim (e.1 / 16) (e.1 % 16) e.2) s1
  (s1.pwr.life.foldl (fun (s : State) e => s.wr (aPwr (0x40 + e.1)) (wd (e.2 / 10 ^ 8))) s2).findSect

/-- The words of a firmware slot. -/
def State.slotWord (s : State) (slot : Nat) : Nat → Option Word := s.srcWord (wd (fwSlotAt slot))

/-- The lead runs the firmware of a slot and is healthy. -/
def State.runFirmware (s : State) (slot : Nat) (mf : List Byte) : State :=
  let s1 := (s.wf aBoot 19 19 slot).setHealthy [s.lead]
  ({ s1 with sec := { s1.sec with fwManifest := mf } }).wf aBoot 3 0 2

/-- Phase 1: the firmware of the boot slot, else of the other one; in BLANK the wardens go on in mask ROM
(R632, Table 14.5; log entry 20). -/
def State.boot1 (s : State) : State :=
  let s0 := s.readFlash
  if s0.lc = 0 then (s0.setHealthy [s0.lead]).wf aBoot 3 0 2
  else
    let b := s0.rf 0xC1 30 30
    match s0.fwCheck (s0.slotWord b) with
    | .ok mf => s0.runFirmware b mf
    | .error c =>
      let s1 := (s0.imgchk c 2).fwRefused
      match s1.fwCheck (s1.slotWord (1 - b)) with
      | .ok mf => s1.runFirmware (1 - b) mf
      | .error c2 => (s1.imgchk c2 2).fwRefused.stopBoot 2

/-- Phase 2: the Ibrak links train, and the other wardens that the lead reaches start their firmware; it waits while a
tamper source is asserted (R387, R633, R634, R636). bad: links 0 to 9 that fail to train, 32 + l a link whose exchange
fails, 48 + 2 l and 49 + 2 l a link with one and with two lanes on spares, 16 + d a warden that does not start. -/
def State.boot2 (s : State) (bad : List Nat) : State :=
  if s.sec.active ≠ [] then s
  else
    let s1 := s.domainsOn [14]
    let s2 := (List.range 10).foldl (fun (s : State) l =>
      let s1 := s.ibkBoth l (fun s a => s.wf a 8 5 l)
      let spare := if bad.contains (49 + 2 * l) then 2 else natB (bad.contains (48 + 2 * l))
      if bad.contains l then s1.linkDown l
      else if bad.contains (32 + l) then (s1.linkDown l).tamperEvent 4
      else s1.ibkBoth l (fun s a => s.wf a 4 0 (1 + 8 * spare))) s1
    let up := s2.boot.rom.filter (fun d => d == s2.lead || (!(bad.contains (16 + d)) && s2.xrReach s2.lead d))
    (s2.setHealthy up).wf aBoot 3 0 3

/-- Phase 3: the stacks train, and rows recorded for hard repair are repaired (R515, R632). bad: stacks that do not
train. -/
def State.boot3 (s : State) (bad : List Nat) : State :=
  let s1 := s.domainsOn [13, 16]
  let s2 := (List.range 8).foldl (fun (s : State) d =>
    let rows := SMap.get (fun _ => []) s.pwr.rows d
    if bad.contains d then (s.stackLost d 2).wf (aDram d 0x15) 32 32 (natB (decide (rows ≠ [])))
    else
      let s1 := (s.stackReturn d).bump (aDram d 0x15) 23 12 rows.length
      let s2 := s1.onStack d (fun x => { x with repaired := rows })
      { s2 with pwr := { s2.pwr with rows := SMap.set (fun _ => []) s2.pwr.rows d [] } }) s1
  (if s2.pwr.rows = s1.pwr.rows then s2 else s2.ledgerWrite).wf aBoot 3 0 4

/-- What the march test leaves of the junction buffers and egress slot buffers of a position. DESIGN CHOICE (log entry 100): the
slot buffers of position p, p below 64, are those of link p of its die. -/
def State.marched (s : State) (d p : Nat) : State :=
  let s1 := s.onJunc d p (fun _ => Junction.reset)
  if p < 64 then s1.slotsClear (64 * d + p) else s1

/-- The outcome of the self-test of a tile: free or retired; its memories and registers as reset leaves them, and the buffers
of its position zero (R637). -/
def State.tested (s : State) (d p : Nat) (pass : Bool) : State :=
  let s1 := ((s.setTile d p Tile.reset).unload d p).marched d p
  { s1 with pwr := { s1.pwr with
    suspect := s1.pwr.suspect.filter (fun k => k != tkey d p),
    tile := SMap.set (fun _ => 0) s1.pwr.tile (tkey d p) (if pass then 0 else 4),
    ue := if pass then SMap.set (fun _ => 0) s1.pwr.ue (tkey d p) 0 else s1.pwr.ue } }

/-- The self-test of a warden that passes: its memories and registers, but not its vault, and its junction's buffers
(R637, R638). -/
def State.wardenTested (s : State) (d : Nat) : State :=
  (s.marched d 72).onTile d 72 (fun t => { Tile.reset with
    gran := t.gran.filter (fun (e : Nat × Gran) => decide (0x10000 ≤ e.1 ∧ e.1 < 0x14000)),
    io := SMap.set Tile.ioReset [] 0x1E (t.ior 0x1E), vwipe := t.vwipe })

/-- Phase 4: every tile that is not retired is tested, with RETEST = 1 the retired ones too, and every warden
(R633, R638). bad: 128 d + p. -/
def State.boot4 (s : State) (bad : List Nat) : State :=
  let s1 := s.domainsOn [0, 1, 2, 3, 4, 5, 6, 7, 8, 9, 10, 11, 12]
  let s2 := (List.range 8).foldl (fun (s : State) d => (List.range 72).foldl (fun (s : State) p =>
    if s.tileFlag d p == 4 && !(s.rb 0xC1 29) then s else s.tested d p (!(bad.contains (tkey d p)))) s) s1
  let s3 := (List.range 8).foldl (fun (s : State) d => s.wardenTested d) s2
  ((s3.setHealthy (s3.boot.healthy.filter (fun d => !(bad.contains (tkey d 72))))).leadFails).wf aBoot 3 0 5

/-- Phase 5: the links have lock or 100 ms have passed; the part is ready (Table 17.1, R643). -/
def State.boot5 (s : State) : State :=
  (s.wf aBoot 35 20 (min 65535 ((s.sym - s.boot.edge) / symMs))).enterReady

/-- The phase of start-up in progress runs to its end. -/
def State.startup (s : State) (bad : List Nat) : State :=
  match s.rf aBoot 3 0 with
  | 0 => s.boot0 bad
  | 1 => s.boot1
  | 2 => s.boot2 bad
  | 3 => s.boot3 bad
  | 4 => s.boot4 bad
  | 5 => s.boot5
  | _ => s

/-- STARTUP (R632). -/
def execStartup (bad : List Nat) (s : State) : Out := live true s (fun s => (s.startup bad).oneCycle s)

/-- A write of PKG_BOOTCFG by a master that may write: in force at once, copied to the flash header (R4, R647). -/
def State.bootcfgWrite (s : State) (w : Word) : State :=
  let v := if fld w 28 13 < 16 then putFld (w &&& 0x3FFFFFFF) 28 13 (s.rf 0xC1 28 13) else w &&& 0x3FFFFFFF
  let s1 := s.wr 0xC1 (putFld v 30 30 (s.rf 0xC1 30 30))
  let s2 := s1.saveBoot
  if fld w 28 13 < 16 then s2.refuse 0xC1 w else s2

/-! ## DIE_BIST (R639) -/

/-- DIE_BIST of a die. -/
def aBist (d : Nat) : Nat := aDie d 0x200

/-- A write of DIE_BIST by a master that may write. DESIGN CHOICE (log entry 84): where the same write gives PHYS a reserved
value, its GO tests nothing. -/
def State.bistWrite (s : State) (d : Nat) (w : Word) : State :=
  let p := fld w 6 0
  if 72 ≤ p then s.refuse (aBist d) w
  else
    let s1 := s.wf (aBist d) 6 0 p
    if !(bitOf w 7) then s1
    else
      let f := s.tileFlag d p
      if (f == 0 || f == 4) && !(s.tile d p).placed && (s.die d).bist.isNone && s.domainOn d (p / 8) &&
          !((s.detoursOn d).any (fun (x : Detour) => x.to_ = p)) then
        (s1.wf (aBist d) 9 8 1).onDie d (fun x => { x with bist := some p })
      else s1.refuse (aBist d) w

/-- The self-test ends: its result moves the tile to free or to retired; one that the warden made under R607 does not show in
DIE_BIST. The next tile that waits for its test follows. -/
def State.bistDone (s : State) (d : Nat) (pass : Bool) : State :=
  match (s.die d).bist with
  | none => s
  | some p =>
    let s1 := (s.onDie d (fun x => { x with bist := none })).tested d p pass
    (if s.rf (aBist d) 9 8 = 1 then s1.wf (aBist d) 9 8 (if pass then 2 else 3) else s1).testSuspect d

/-- DIE_BIST_DONE (R639). -/
def execDieBistDone (d : Nat) (pass : Bool) (s : State) : Out := live (dieOk d) s (fun s => s.bistDone d pass)

/-! ## A halted tile (R640) -/

/-- The tile after the reset: TCR, TILE_IPEND and HALT; then the start code of its image from SADDR. -/
def Tile.haltReset (t : Tile) (x : Option ImgTile) : Tile :=
  let t1 := { ((t.iow 0 0).iow 0x07 0).iowf 0x09 0 0 0 with phase := .idle }
  match x with
  | some x => { t1.startCode x with firstRtn := t.firstRtn, placed := t.placed }
  | none => { t1 with raised := none, inRtn := false, tcrQ := [] }

/-- The warden resets a halted tile, and with it the master of its window port (R399), at most once a second; a tile that halts again within that second is due (R618). -/
def State.haltedReset (s : State) (d p : Nat) : State :=
  let t := s.tile d p
  let last := SMap.get (fun _ => 0) s.pwr.lastReset (tkey d p)
  if t.phase != .halt then s
  else if last ≠ 0 ∧ s.sym + 1 < last + symSec then s.makeDue d p 2
  else
    let x := match s.tileImage d p with
      | some im => if t.placed then s.recordOn im d p else none
      | none => none
    let s1 := (s.setTile d p (t.haltReset x)).resetMaster (if p = 72 then 8 + d else 0x80 + 72 * d + p) 0 0 0
    { s1 with pwr := { s1.pwr with lastReset := SMap.set (fun _ => 0) s1.pwr.lastReset (tkey d p) (s.sym + 1) } }

/-- HALTED_TILE_RESET (R640). -/
def execHaltedTileReset (d p : Nat) (s : State) : Out := live (dieOk d && tileOk p) s (fun s => s.haltedReset d p)

/-! ## The test access port (R648 to R653) -/

/-- Bits as the TAP shifts them out, least significant first. -/
def tapBits (n v : Nat) : List Bool := (bitsMsb n v).reverse

/-- The instructions that hold the output lands: EXTEST, CLAMP, HIGHZ, EXTEST_PULSE and EXTEST_TRAIN. -/
def holdsLands (ir : Nat) : Bool := ir == 0 || ir == 3 || ir == 4 || ir == 5 || ir == 6

/-- A new instruction in each die's register at Update-IR, die 0 first (R648); leaving an EXTEST-class one releases the lands
and every link retrains (R653). -/
def State.tapIrs (s : State) (l : List Nat) : State :=
  let hold := l.any holdsLands
  let s1 := { s with tap := { s.tap with ir := l, clamped := hold } }
  if s.tap.clamped && !hold then (List.range 512).foldl (fun (s : State) n => s.retrainLink n false) s1 else s1

/-- The same instruction on all eight dies. -/
def State.tapIr (s : State) (ir : Nat) : State := s.tapIrs (List.replicate 8 ir)

/-- Test-Logic-Reset: IDCODE (R648). -/
def State.tapReset (s : State) : State := s.tapIr 2

/-- BYPASS on all eight dies: one bit each. -/
def State.tapBypass (s : State) : State := (s.tapIr 0x3F).emit (.tdo (List.replicate 8 false))

/-! ### The boundary registers (R651, Table 17.8) -/

/-- A signal land, or pair of lands, that boundary cells serve. -/
inductive Land where
  | linkTx (n : Nat)
  | linkRx (n : Nat)
  | pcieTx (ep lane : Nat)
  | pcieRx (ep lane : Nat)
  | ethTx (port : Nat)
  | ethRx (port : Nat)
  | tm (i : Nat)
  | refclk (d : Nat)
  | pcieRefclk (ep : Nat)
  | perstN (ep : Nat)
  | porstN
  | pfwN
  | tampN
  | spiSck
  | spiCsN
  | spiIo (i : Nat)
  | i2cScl
  | i2cSda
deriving DecidableEq, Repr

/-- What a boundary cell does: a driven value, its enable, an input of IEEE 1149.1, the test receiver of IEEE 1149.6 that
detects the edges of EXTEST_PULSE and EXTEST_TRAIN. -/
inductive BCell where
  | data
  | enable
  | input
  | edge
deriving DecidableEq, Repr

/-- The cells of a land (R651): an AC-coupled transmit pair 2, a receive pair 1 with its test receiver, an input 1, an output
2, a bidirectional land 3, an open-drain land 2. -/
def Land.cells (x : Land) : List BCell := match x with
  | .linkTx _ => [.data, .enable]
  | .pcieTx _ _ => [.data, .enable]
  | .ethTx _ => [.data, .enable]
  | .linkRx _ => [.edge]
  | .pcieRx _ _ => [.edge]
  | .ethRx _ => [.edge]
  | .tm _ => [.edge]
  | .spiSck => [.data, .enable]
  | .spiCsN => [.data, .enable]
  | .spiIo _ => [.data, .enable, .input]
  | .i2cScl => [.data, .input]
  | .i2cSda => [.data, .input]
  | _ => [.input]

/-- The lands of the eight lanes of an endpoint, with its reference clock. -/
def pcieLands (ep : Nat) : List Land :=
  (List.range 8).flatMap (fun i => [.pcieTx ep i, .pcieRx ep i]) ++ [.pcieRefclk ep]

/-- The lands of a die in the order of Table 17.8. DESIGN CHOICE (log entry 99): a segment's cells lie in that order, the first
nearest TDI, and the cells of one land as R651 names them. -/
def landsOf (d : Nat) : List Land :=
  (List.range 64).flatMap (fun i => [.linkTx (64 * d + i), .linkRx (64 * d + i)]) ++ [.refclk d] ++ (match d with
    | 0 => pcieLands 0 ++ [.tm 0, .perstN 0, .porstN, .pfwN, .tampN, .spiSck, .spiCsN, .spiIo 0, .spiIo 1, .spiIo 2, .spiIo 3,
        .i2cScl, .i2cSda]
    | 1 => pcieLands 1 ++ [.perstN 1]
    | 2 => [.ethTx 0, .ethRx 0]
    | 3 => [.ethTx 1, .ethRx 1]
    | 4 => [.tm 1]
    | _ => [])

/-- The cells of a die's boundary register, from TDI on (Table 17.8). -/
def segment (d : Nat) : List (Land × BCell) := (landsOf d).flatMap (fun x => x.cells.map (fun c => (x, c)))

/-- The cells of the chain from TDO back: die 7, next to TDO, first (R648). -/
def chainCells : List (Land × BCell) := ([7, 6, 5, 4, 3, 2, 1, 0] : List Nat).flatMap (fun d => (segment d).reverse)

/-- What a cell captures: PORST_N, PFW_N and TAMP_N as the part knows them, of any other land the level, or the edge that a
test receiver has detected, which is the outside's (log entry 8). -/
def State.cellIn (s : State) (x : Land × BCell) (free : Bool) : Bool := match x.1 with
  | .porstN => !s.held
  | .pfwN => !s.pfwLow
  | .tampN => !(s.sec.active.contains 3)
  | _ => free

/-- What the 1,627 boundary cells capture, from TDO back. -/
def State.capture (s : State) : State × List Bool :=
  ({ s with free := s.free + 1627 }, ((List.range 1627).zip chainCells).map (fun x => s.cellIn x.2 (Config.freeScan (s.free + x.1))))

/-- What an output land holds while an EXTEST-class instruction is in force: the value of its data cell where its enable
lets it drive; nothing under HIGHZ (R653). -/
def State.landHolds (s : State) (x : Land) : Option Bool :=
  let v := fun (c : BCell) => ((chainCells.zip s.tap.bsr).find? (fun y => y.1 == (x, c))).map (fun y => y.2)
  if s.clamped && !(s.tap.ir.contains 4) && (v .enable).getD true then v .data else none

/-- A scan of the boundary register: it captures the lands, and as many bits go out as come in; what stands in it at Update-DR
is what an EXTEST-class instruction drives (R651, R653). The bit nearest TDO comes first. -/
def State.tapScan (s : State) (ir : Nat) (tdi : List Bool) : State :=
  let c := (s.tapIr ir).capture
  let l := c.2 ++ tdi
  ({ c.1 with tap := { c.1.tap with bsr := l.drop tdi.length } }).emit (.tdo (l.take tdi.length))

/-- EXTEST (R650). -/
def execExtest (tdi : List Bool) (s : State) : Out :=
  live true s (fun s => if s.extestOk then s.tapScan 0 tdi else s.tapBypass)
/-- SAMPLE/PRELOAD (R650). -/
def execSamplePreload (tdi : List Bool) (s : State) : Out := live true s (fun s => s.tapScan 1 tdi)
/-- IDCODE: 32 bits from each of the eight dies (R649). -/
def execIdcode (s : State) : Out :=
  live true s (fun s => (s.tapIr 2).emit (.tdo ((List.range 8).flatMap (fun _ => tapBits 32 0x1851276F))))
/-- CLAMP (R650). -/
def execTapClamp (s : State) : Out :=
  live true s (fun s => if s.extestOk then (s.tapIr 3).emit (.tdo (List.replicate 8 false)) else s.tapBypass)
/-- HIGHZ (R650). -/
def execHighz (s : State) : Out :=
  live true s (fun s => if s.extestOk then (s.tapIr 4).emit (.tdo (List.replicate 8 false)) else s.tapBypass)
/-- EXTEST_PULSE (R650). -/
def execExtestPulse (tdi : List Bool) (s : State) : Out :=
  live true s (fun s => if s.extestOk then s.tapScan 5 tdi else s.tapBypass)
/-- EXTEST_TRAIN (R650). -/
def execExtestTrain (tdi : List Bool) (s : State) : Out :=
  live true s (fun s => if s.extestOk then s.tapScan 6 tdi else s.tapBypass)
/-- BOOTSTAT: PKG_BOOT from each die (R650). -/
def execBootstat (s : State) : Out :=
  live true s (fun s => (s.tapIr 0x11).emit (.tdo ((List.range 8).flatMap (fun _ => tapBits 36 (s.rd aBoot).toNat))))
/-- INTSCAN, in BLANK: a bit of the internal scan chains, whose content and length the spec does not give (log entry 8). -/
def execIntscan (s : State) : Out :=
  live true s (fun s => if s.lc = 0 then
    ({ s.tapIr 0x20 with free := s.free + 1 }).emit (.tdo [Config.freeScan s.free]) else s.tapBypass)
/-- BYPASS (R650). -/
def execBypass (s : State) : Out := live true s (fun s => s.tapBypass)

end Sys2Proof.Machine
end

