-- ==== Sys2Proof/Machine/Timing.lean ====
section
/-!
DEFINITION. The timing inputs, markers, messages and the tick number (spec/02_ticks_milestones_deadlines.md).
-/
namespace Sys2Proof.Machine

/-- A timing input. -/
def State.tm (s : State) (i : Nat) : TimIn := if i = 0 then s.tm0 else s.tm1
/-- Change a timing input. -/
def State.setTm (s : State) (i : Nat) (x : TimIn) : State := if i = 0 then { s with tm0 := x } else { s with tm1 := x }
/-- PKG_TIM_ERRn of an input. -/
def aTimErr (i : Nat) : Nat := 0x45 + i
/-- Eligible (PKG_TIM_STAT.ELIGn). -/
def State.elig (s : State) (i : Nat) : Bool := s.rb aTimStat i
/-- Milestones come from the flywheel. -/
def State.flywheel (s : State) : Bool := s.rb aTimStat 3
/-- The input that ACTIVE names. -/
def State.active (s : State) : Nat := s.rf aTimStat 2 2
/-- Is the input supplying the milestones? -/
def State.supplies (s : State) (i : Nat) : Bool := !s.flywheel && s.active == i

/-- Count code errors (R44). -/
def State.codeErrs (s : State) (i n : Nat) : State := s.bump (aTimErr i) 23 12 n

/-- Input i becomes the supplying input (R60, R63 to R65); first: the milestones move in one step (R60). -/
def State.supply (s : State) (i : Nat) (first : Bool) : State :=
  let s1 := ((s.wb aTimStat 2 (i == 1)).wb aTimStat 3 false).wb aTimStat 4 true
  let s2 := { s1 with supplied := true, slewLeft := if first then 0 else (s.tm i).off }
  s2.setTm i { s2.tm i with faultRun := 0 }

/-- An input is no longer eligible; a supplying input that is dropped leaves the flywheel, or the other eligible input
with AUTOSW = 1 (R62, R63). -/
def State.loseInput (s : State) (i : Nat) : State :=
  let was := s.supplies i
  let s1 := ((s.wb aTimStat i false).wf aTimStat 19 8 0).setTm i { s.tm i with run := 0, faultRun := 0, newly := false }
  if was then
    let o := 1 - i
    let s2 := (s1.wb aTimStat 3 true).wb aTimStat 4 false
    if s2.rb aTimCfg 11 && s2.elig o then
      (s2.supply o false).mark (4 * i) 3 i 0x020 (wd i) (wd o) 0
    else s2.mark (4 * i) 3 i 0x020 (wd i) 7 0
  else s1

/-- An expected position of an input: the tick before it ends and the next begins. filled says whether the position
held a correctly placed marker, bad whether a symbol fault of R63 fell in the tick that ends. A tick whose marker is
missing or misplaced counts as one fault at its own expected position; one with only a symbol fault counts as it
ends. -/
def State.inputTick (s : State) (i : Nat) (filled bad : Bool) : State :=
  let x := s.tm i
  let run := if filled then x.run + 1 else 0
  let missRun := if filled then 0 else x.missRun + 1
  let ended := if x.marked then x.faultRun else if bad then x.faultRun + 1 else 0
  let lacks := !filled || x.early
  let faultRun := if lacks then ended + 1 else ended
  let x1 := { x with run := run, missRun := missRun, faultRun := faultRun, fault := false, marked := lacks, early := false,
                     tracking := x.tracking && decide (missRun < 4) }
  let s1 := s.setTm i x1
  if s.elig i then
    if (bad || lacks) && (!s.supplies i || decide (4 ≤ faultRun)) then s1.loseInput i else s1
  else if 64 ≤ run then (s1.wb aTimStat i true).setTm i { x1 with newly := true }
  else s1

/-- A marker on an input (R45, R58, R62). The first marker an input delivers, and a marker PERIOD symbols after the
previous expected position, is correctly placed; any other is misplaced, sets no milestone and is counted in CODE: it
is the late marker of the tick where that has none, and otherwise makes the next tick a fault (R63). DESIGN CHOICE (log
entry 88): the first marker, which has no position before it, does not count among the 64 ticks of R62. -/
def State.markerAt (s : State) (i pos errs : Nat) (off : Int) : State :=
  let s1 := s.codeErrs i errs
  let x := s1.tm i
  if !x.tracking && !s1.supplies i then
    s1.setTm i { x with tracking := true, missRun := 0, run := 0, marked := false, early := false, off := off }
  else if pos = s.period then
    (s1.setTm i { x with tracking := true, off := off }).inputTick i true (x.fault || decide (errs ≠ 0))
  else (s1.codeErrs i 1).setTm i { x with tracking := true, fault := x.fault || decide (errs ≠ 0),
                                          early := x.early || !x.marked }

/-- MARKER (R45). -/
def execMarker (inp pos codeErrs : Nat) (offset : Int) (s : State) : Out :=
  live (inpOk inp) s (fun s => s.markerAt inp pos codeErrs offset)

/-- An expected position passes with no marker (R58): MISS counts on the supplying input, and on another input only
while it is tracking. DESIGN CHOICE (log entry 104): FLYWHEEL stays 0 while the flywheel generates the milestones of 1 to 3
missing markers, and reads 1 only from the drop of R63 on. -/
def State.missAt (s : State) (i errs : Nat) : State :=
  let s1 := s.codeErrs i errs
  let x := s1.tm i
  if x.tracking || s1.supplies i then (s1.bump (aTimErr i) 11 0 1).inputTick i false (x.fault || decide (errs ≠ 0)) else s1

/-- MARKER_MISSING (R58). -/
def execMarkerMissing (inp codeErrs : Nat) (s : State) : Out :=
  live (inpOk inp) s (fun s => s.missAt inp codeErrs)

/-- The CRC-16 of a message (Table 2.2). -/
def crc16 (l : List Byte) : Nat := crcBits 16 0x1021 0xFFFF (l.flatMap (fun b => bitsMsb 8 b.toNat))

/-- A message that R47 does not discard: its TYPE and payload. ended: its end arrived within 64 symbols of its start. -/
def parseMsg (l : List Byte) (ended : Bool) : Option (Nat × List Byte) :=
  match l with
  | ty :: len :: r =>
    let want := if ty = 1 then 6 else 10
    if ended ∧ (ty = 1 ∨ ty = 2) ∧ len.toNat = want ∧ r.length = want + 2 ∧
       crc16 (ty :: len :: r.take want) = beBytes (r.drop want) then some (ty.toNat, r.take want)
    else none
  | _ => none

/-- Does the part act on a message from the input (R49, R61)? -/
def State.actsOn (s : State) (i ty : Nat) : Bool :=
  s.supplies i || (s.flywheel && s.supplied && s.active == i && (ty == 2 || s.elig i))

/-- The number the next milestone takes. -/
def State.nextTick (s : State) : Tick := match s.tickLoad with
  | some t => t
  | none => s.tick + 1

/-- An accepted TICKSET (R54, R55). DESIGN CHOICE (log entry 88): of both numbers that R55 has the waymark give, the count is
the one that the next milestone takes, because that is the number compared. -/
def State.ticksetMsg (s : State) (i : Nat) (n : Tick) : State :=
  if s.armed || s.arming then
    if n = s.nextTick then s
    else
      let c := s.nextTick
      (s.bump (aTimErr i) 35 24 1).mark (4 * i) 3 i 0x022 (wd c.toNat) (wd n.toNat)
        (wd ((c.toNat / 2 ^ 36) * 4096 + n.toNat / 2 ^ 36))
  else ({ s with tickLoad := some n }).wb aTimStat 5 true

/-- An accepted ACCEPT becomes a readout request for every engine (R50, R493). -/
def State.acceptMsg (s : State) (pl : List Byte) : State :=
  { s with reqs := s.reqs ++ [(⟨BitVec.ofNat 48 (beBytes (pl.take 6)), beBytes ((pl.drop 6).take 2),
      beBytes (pl.drop 8), false, s.tick⟩, [0, 1, 2, 3, 4, 5, 6, 7])] }

/-- A message ends on an input (R46 to R50, R61). -/
def State.message (s : State) (i : Nat) (l : List Byte) (ended : Bool) : State :=
  match parseMsg l ended with
  | none => s.bump (aTimErr i) 35 24 1
  | some (ty, pl) =>
    if s.actsOn i ty then
      if ty = 1 then s.ticksetMsg i (BitVec.ofNat 48 (beBytes pl)) else s.acceptMsg pl
    else s

/-- TICKSET (R54). -/
def execTickset (inp : Nat) (bytes : List Byte) (ended : Bool) (s : State) : Out :=
  live (inpOk inp) s (fun s => s.message inp bytes ended)

/-- ACCEPT (R50). -/
def execAccept (inp : Nat) (bytes : List Byte) (ended : Bool) (s : State) : Out :=
  live (inpOk inp) s (fun s => s.message inp bytes ended)

/-- Choose a supplying input when the part runs on the flywheel (R60, R64). -/
def State.choose (s : State) : State :=
  let n0 := s.tm0.newly
  let n1 := s.tm1.newly
  let s1 := { s with tm0 := { s.tm0 with newly := false }, tm1 := { s.tm1 with newly := false } }
  if s.flywheel && (n0 || n1) && (!s.supplied || s.rb aTimCfg 12) then
    let pref := s.rf aTimCfg 10 10
    let i := if s.elig 0 && s.elig 1 then pref else if s.elig 0 then 0 else 1
    if s.elig i then s1.supply i (!s.supplied) else s1
  else s1

/-- Close up to 2 ps of the slew; SLEWING clears within 50 ps (R65, R66). -/
def State.slew (s : State) : State :=
  let left := if s.slewLeft > 2 then s.slewLeft - 2 else if s.slewLeft < -2 then s.slewLeft + 2 else 0
  let s1 := { s with slewLeft := left }
  if s.rb aTimStat 4 && decide (-50 ≤ left ∧ left ≤ 50) then
    (s1.wb aTimStat 4 false).mark (4 * s.active) 3 s.active 0x021 (wd s.active) 0 0
  else s1

/-- TMSKEW (Table 2.6), units of 10 ps, 0 unless both inputs are eligible. DESIGN CHOICE (log entry 88): the skew is rounded
toward zero, and one that does not fit the 12 bits wraps. DESIGN CHOICE (log entry 104): it is measured anew at each milestone
only, so it still reads 0 from the marker that makes the second input eligible until the next milestone. -/
def State.skew (s : State) : State :=
  if s.elig 0 && s.elig 1 then
    s.wf aTimStat 19 8 (BitVec.ofInt 12 (Int.tdiv (s.tm1.off - s.tm0.off) 10)).toNat
  else s.wf aTimStat 19 8 0

/-- A TICKSET moves the tick number: a history writer stores the ticks up to the last one before it and goes on with the new
number (R489). -/
def Stack.tickMoved (x : Stack) (old new : Tick) : Stack :=
  { x with hist := x.hist.map (fun (e : Nat × HistSt) =>
      (e.1, if !e.2.active then e.2
        else if laterTick e.2.tick old then { e.2 with tick := new }
        else { e.2 with moved := some ((e.2.moved.map (fun (m : Tick × Tick) => m.1)).getD old, new) })) }

/-- A TICKSET moves the tick number: the reports of the ticks before it are those of no tick to come, and a frame or an empty
window of the tick that the next milestone begins is that of its new number (R55, R275). -/
def LinkSt.tickMoved (x : LinkSt) (old new : Tick) : LinkSt :=
  let f := fun (t : Tick) => if t = old + 1 then new else t
  let g := fun (y : RxFrame) => { y with tick := f y.tick }
  { x with rx := [], past := x.rx, align := x.align.map (fun e => (f e.1, e.2.1.map g, e.2.2)),
           rxl := { x.rxl with frame := x.rxl.frame.map g } }

/-- The timing part of a milestone: who supplies, the slew, the tick number and the clock (R53, R60, R64, R65); the flywheel
keeps the period measured last (R59). -/
def State.timeStep (s : State) : State :=
  let s1 := (s.choose.slew).skew
  let s2 := if s.nextTick = s.tick + 1 then s1
    else { s1 with drams := s1.drams.map (fun (e : Nat × Stack) => (e.1, e.2.tickMoved s.tick s.nextTick)),
                   links := s1.links.map (fun (e : Nat × LinkSt) => (e.1, e.2.tickMoved s.tick s.nextTick)) }
  let per := if s1.flywheel && s1.supplied && decide (0 < s1.measured) then s1.measured else s1.period
  { s2 with tick := s.nextTick, tickLoad := none, sym := s.sym + per, measured := if s1.flywheel then s1.measured else per }

/-- A read of PKG_TIM_TICK0 latches the high bits for the reading master (R71, R539). -/
def State.readTick0 (s : State) (m : Nat) : State × Word :=
  (s.wr (aMine m 0x44) (wd (s.tick.toNat / 2 ^ 36)), wd s.tick.toNat)

/-- The fault counters that a write of PKG_TIM_CNTCLR clears (R72). -/
def State.clearErrs (s : State) (w : Word) : State :=
  let s1 := if bitOf w 0 then s.wr (aTimErr 0) 0 else s
  if bitOf w 1 then s1.wr (aTimErr 1) 0 else s1

end Sys2Proof.Machine
end

