-- ==== Sys2Proof/Machine/Milestone.lean ====
section
/-!
DEFINITION. The milestone: the tick number, milestone-class and commit-class fields taking effect with the refusals that
the chapters name, and what begins anew with each tick (spec/00 R6 to R10, R682; spec/02 R53, R67; spec/06 R267, R274;
spec/11 R439 to R442; spec/12 R483, R490; spec/16 R594, R610).
-/
namespace Sys2Proof.Machine

/-! ## Commit instances (R682, Table 19.2) -/

/-- The COMMIT register of the instance that a staged field belongs to, by the field's register key. -/
def commitOf (k : Nat) : Nat :=
  if 0x200_0000_0000 ≤ k then aDram ((k - 0x200_0000_0000) / 256 % 8) 2
  else if 0x100_0000_0000 ≤ k then aDie ((k - 0x100_0000_0000) / 0x10_0000 % 8) 0x102
  else if k < 0x1_0000 then 0x41
  else if k < 0x1_0000_0000 then aPwr 1
  else
    let d := (k - 0x1_0000_0000) / 0x2000_0000 % 8
    let o := k % 0x2000_0000
    if o < 0x1_0000 then aDie d 0x102
    else if o < 0x2_0000 then aDram d 2
    else if o < 0x3_0000 then aGrp d ((o - 0x2_0000) / 0x100) 1
    else aLink (64 * d + (o - 0x3_0000) / 0x40) 2

/-- A write of GO = 1 to a COMMIT register: the instance's staged fields are held for the next milestone, and PENDING is
1 (R8, R10). -/
def State.commitGo (s : State) (c : Nat) (w : Word) : State :=
  if bitOf w 0 then
    State.wf { s with going := stageAll s.going (s.staged.filter (fun (x : Stage) => commitOf x.key == c)),
                      staged := s.staged.filter (fun (x : Stage) => commitOf x.key != c) } c 1 1 1
  else s

/-- Is a register key a COMMIT register of region 0 or 1? -/
def isCommitReg (k : Nat) : Bool :=
  match blockOf k with
  | some (.pkg, o) => o == 0x41
  | some (.pwr, o) => o == 1
  | some (.die, o) => o == 0x102
  | some (.dram, o) => o == 2
  | some (.group, o) => o == 1
  | some (.link, o) => o == 2
  | _ => false

/-- The link that a key of a link block belongs to. -/
def linkOfKey (k : Nat) : Nat := 64 * ((k - 0x1_0000_0000) / 0x2000_0000 % 8) + (k % 0x2000_0000 - 0x3_0000) / 0x40

/-- Every PENDING clears; a commit of a link block lets its next loss of lock be logged again (Table 15.3). -/
def State.pendingDone (s : State) : State :=
  (s.regs.filter (fun (e : Nat × Word) => isCommitReg e.1 && bitOf e.2 1)).foldl (fun (s : State) e =>
    let s1 := s.wf e.1 1 1 0
    match blockOf e.1 with
    | some (.link, _) => s1.onLink (linkOfKey e.1) (fun x => { x with lossLogged := false })
    | _ => s1) s

/-! ## Fields that take effect, and refusals: a refused commit names the register and the value it would have taken -/

/-- A staged field takes effect. -/
def State.put (s : State) (x : Stage) : State := s.wr x.key (x.apply (s.rd x.key))

/-- The bits of a mask left without a field. -/
def Stage.without (x : Stage) (m : Word) : Stage := { x with mask := x.mask &&& ~~~m }

/-- Would the staged field change any of the bits m? -/
def Stage.changes (x : Stage) (cur m : Word) : Bool := (x.apply cur ^^^ cur) &&& m != 0

/-- Until an input first supplies the milestones, ACTIVE reads as PREF (R60). -/
def State.activePref (s : State) : State := if s.supplied then s else s.wb aTimStat 2 (s.rb aTimCfg 10)

/-- PKG_TIM_CFG: PERIOD is refused while an image is armed or an ARM is pending (R67); as SLEW goes to 1 an input that is
eligible already can end the flywheel (Table 2.4). -/
def State.putTim (s : State) (x : Stage) : State :=
  let on := !(s.rb aTimCfg 12) && bitOf (x.apply (s.rd aTimCfg)) 12
  let s0 := if on then
      { s with tm0 := { s.tm0 with newly := s.elig 0 }, tm1 := { s.tm1 with newly := s.elig 1 } }
    else s
  if (s.armed || s.arming) && x.changes (s.rd x.key) (maskOf 9 0) then
    ((s0.put (x.without (maskOf 9 0))).refuse x.key (x.apply (s.rd x.key))).activePref
  else (s0.put x).activePref

/-- PWR_MODE: the ceiling takes REQ, which is the decision of R594. -/
def State.putMode (s : State) (x : Stage) : State := let s1 := s.put x; s1.setCeil s1.reqMode

/-- The links of a group. -/
def linksOf (d g : Nat) : List Nat := (List.range 16).map (fun i => 64 * d + 16 * g + i)

/-- Does the armed image name a link in a DEPOSIT or EGRESS record (R441)? -/
def State.named (s : State) (n : Nat) : Bool :=
  match s.img.armed with
  | some im => im.deposits.any (fun (r : ImgDeposit) => r.link = n) || im.egress.any (fun (r : ImgEgress) => r.link = n)
  | none => false

/-- LINK_GCFG.RATE: refused while the armed image names a link of the group; a change retrains every link of it. -/
def State.putGroup (s : State) (x : Stage) : State :=
  let d := (x.key - 0x1_0000_0000) / 0x2000_0000 % 8
  let l := linksOf d ((x.key % 0x2000_0000 - 0x2_0000) / 0x100)
  if !(x.changes (s.rd x.key) (maskOf 0 0)) then s.put x
  else if l.any (fun n => s.named n) then s.refuse x.key (x.apply (s.rd x.key))
  else l.foldl (fun (s : State) n => s.retrainLink n true) (s.put x)

/-- MODE, FECRX, FECTX and TEST of LINK_CFG. -/
def linkModeMask : Word := maskOf 3 0 ||| maskOf 16 15
/-- Those of them whose change costs the receiver its lock (R686). -/
def linkLockMask : Word := maskOf 2 0 ||| maskOf 16 15

/-- LINK_CFG: the fields of R441 of a named link, and Ethernet readout mode in a 10.3125 Gbaud group (R439), are refused;
a change of MODE, FECRX or TEST retrains the receiver (R686), one of the fields of R441 starts
the transmitter's bits anew. -/
def State.putLinkCfg (s : State) (n : Nat) (x : Stage) : State :=
  let cur := s.rd x.key
  if s.named n && x.changes cur linkModeMask then (s.put (x.without linkModeMask)).refuse x.key (x.apply (s.rd x.key))
  else
    let bad := x.changes cur (maskOf 1 0) && fld (x.apply cur) 1 0 == 2 && s.rate n == 1
    let y := if bad then x.without (maskOf 1 0) else x
    let s0 := if y.changes cur linkLockMask then (s.put y).retrainLink n false else s.put y
    let s1 := if y.changes cur linkModeMask then s0.onLink n (fun z => { z with txl := { z.txl with net := [], frac := 0 } }) else s0
    if bad then s1.refuse x.key (x.apply cur) else s1

/-- A word of a link block; a change of an LINK_ETH field starts the IPv4 identification at 0 (R475); a committed switch tick
is the nearest with its low bits (log entry 80). -/
def State.putLink (s : State) (x : Stage) : State :=
  let n := linkOfKey x.key
  let o := x.key % 0x40
  if o = 0 then s.putLinkCfg n x
  else if 0x11 ≤ o ∧ o ≤ 0x19 ∧ x.changes (s.rd x.key) (BitVec.allOnes 36) = true then
    (s.put x).onLink n (fun y => { y with ipid := 0 })
  else if o = 6 then
    let sw := fld (x.apply (s.rd x.key)) 27 16
    (s.put x).onLink n (fun y => { y with epSw := s.tick - 2048 + BitVec.ofNat 48 ((sw + 2048 + 4096 - s.tick.toNat % 4096) % 4096) })
  else s.put x

/-- The HG fields of DRAM_HCFG. -/
def hgMask : Word := maskOf 23 0

/-- DRAM_HCFG: no HG field changes if H would exceed 240, or if any would change while an image is armed (R483). -/
def State.putHcfg (s : State) (x : Stage) : State :=
  let cur := s.rd x.key
  let v := x.apply cur
  if (decide (240 < fld v 5 0 + fld v 11 6 + fld v 17 12 + fld v 23 18) || s.armed) && x.changes cur hgMask then
    (s.put (x.without hgMask)).refuse x.key (x.apply (s.rd x.key))
  else s.put x

/-- One committed register. -/
def State.putStage (s : State) (x : Stage) : State :=
  if 0x100_0000_0000 ≤ x.key then s.put x
  else match blockOf x.key with
    | some (.pkg, _) => s.putTim x
    | some (.pwr, o) => if o = 0 then s.putMode x else s.domainsCommit x
    | some (.dram, o) => if o = 0 then s.putHcfg x else s.put x
    | some (.group, _) => s.putGroup x
    | some (.link, _) => s.putLink x
    | _ => s.put x

/-- Is a staged field the rate of a link group? Rates take effect before the modes of their links (R439). -/
def Stage.isRate (x : Stage) : Bool :=
  match blockOf x.key with
  | some (.group, _) => decide (x.key < 0x100_0000_0000)
  | _ => false

/-- What a group's history rests on: W, its ring and its index area (R486, R490). -/
def State.histArea (s : State) (d g : Nat) : Nat × Nat × Nat × Nat :=
  (frameWords s.period (s.rf (aGrp d g 0) 0 0), s.ringStart d g, s.hg d g, s.indexStart d g)

/-- Every staged field whose milestone this is takes effect, PENDING clears, and a group whose W or area has changed
begins its history anew (R6, R7, R10, R490). -/
def State.fieldsApply (s : State) : State :=
  let l := s.mile ++ s.going.filter Stage.isRate ++ s.going.filter (fun (x : Stage) => !x.isRate)
  let s1 := l.foldl (fun (s : State) x => s.putStage x) ({ s with mile := [], going := [] }).pendingDone
  (List.range 32).foldl (fun (t : State) i =>
    if s.histArea (i / 4) (i % 4) = s1.histArea (i / 4) (i % 4) then t else t.histClear (i / 4) (i % 4)) s1

/-! ## Tiles at a milestone -/

/-- A descriptor word that R267 refuses: KSH + KW > 36 or KW + KW2 > 32. -/
def lkdBad (w : Word) : Bool := decide (36 < fld w 5 0 + fld w 10 6 ∨ 32 < fld w 10 6 + fld w 15 11)

/-- A staged tile register that its rule refuses: a lookup descriptor, be its word B staged, or already in force (R267); an egress
handle bound to another die's link (R274). -/
def Tile.stageBad (t : Tile) (d : Nat) (x : Stage) : Bool :=
  let v := x.apply (t.ior x.key)
  if 0x30 ≤ x.key ∧ x.key < 0x38 then
    if x.key % 2 = 1 then lkdBad v
    else !(t.going.any (fun (y : Stage) => y.key == x.key + 1)) && lkdBad (t.ior (x.key + 1))
  else if 0x58 ≤ x.key ∧ x.key < 0x60 then bitOf v 9 && fld v 8 0 / 64 != d
  else false

/-- Does the descriptor of a staged word stay unchanged because its other word is refused? -/
def Tile.stageDropped (t : Tile) (d : Nat) (l : List Stage) (x : Stage) : Bool :=
  decide (0x30 ≤ x.key ∧ x.key < 0x38 ∧ x.key % 2 = 0) && l.any (fun (y : Stage) => y.key == x.key + 1 && t.stageBad d y)

/-- A staged field takes effect. -/
def Tile.put (t : Tile) (x : Stage) : Tile := t.iow x.key (x.apply (t.ior x.key))

/-- The committed fields of a tile take effect, but for those refused. -/
def Tile.commitApply (t : Tile) (d p : Nat) : Tile :=
  t.going.foldl (fun (u : Tile) x =>
    if t.stageBad d x then u.refuse d p x.key (x.apply (u.ior x.key)) else if t.stageDropped d t.going x then u else u.put x)
    (Tile.iowf { t with going := [] } 0x3F 1 1 0)

/-- The milestone-class fields take effect; TILE_RTN.EN going to 1 assigns the tile its first tick, the one before this
milestone or after it, and a change of its relay group the first tick of the new group (R6, R88). -/
def Tile.mileApply (t : Tile) (now : Tick) : Tile :=
  let u := t.mile.foldl (fun (u : Tile) x => u.put x) { t with mile := [] }
  if u.en && !t.en then { u with nextN := u.firstTick (now - 1) }
  else if u.iof 0x100 22 16 ≠ t.iof 0x100 22 16 then { u with nextN := u.firstTick u.nextN }
  else u

/-- What begins anew with each tick: TICKF and held accesses (R336, R414); outside a routine the slots that neither this
tick nor a routine still to come can name are forgotten. -/
def Tile.tickNew (t : Tile) (now : Tick) : Tile :=
  let u := { t.iowf 0x15 30 30 0 with
    lkReq := t.lkReq.map (fun (r : LkReq) => { r with held := false }),
    port := t.port.map (fun (r : PortReq) => { r with held := false }) }
  let keep := fun (x : Nat × Tick) => x.2 == now || (notEarlier x.2 t.nextN && notEarlier now x.2)
  if u.inRtn then u else { u with cpl := u.cpl.filter keep, wr := u.wr.filter keep }

/-- A tile at a milestone. -/
def Tile.atMilestone (t : Tile) (now : Tick) (d p : Nat) : Tile := ((t.tickNew now).mileApply now).commitApply d p

/-- Every tile at a milestone. -/
def State.tilesAt (s : State) : State :=
  (s.tiles.map (fun (e : Nat × Tile) => e.1)).foldl (fun (s : State) k =>
    s.onTile (k / 128) (k % 128) (fun t => t.atMilestone s.tick (k / 128) (k % 128))) s

/-! ## Per-tick counts -/

/-- The counts and once-per-tick flags of a die begin anew; the tile under self-test and the writes not applied stay. -/
def DieSt.tickNew (x : DieSt) : DieSt := { DieSt.reset with bist := x.bist, delayed := x.delayed }
/-- Those of an Ibrak direction. -/
def IbkDir.tickNew (x : IbkDir) : IbkDir := { x with used := [0, 0, 0, 0], replays := 0, tolled := [] }
/-- Those of a stack. -/
def Stack.tickNew (x : Stack) : Stack := { x with used := [], flags := [] }

/-- Words that wait beyond an allowance are counted anew, oldest first (R377). -/
def State.reachAll (s : State) : State :=
  ((s.tiles.filter (fun (e : Nat × Tile) => e.2.outc != [])).map (fun (e : Nat × Tile) => e.1)).foldl
    (fun (s : State) k => s.reach (k / 128) (k % 128)) s

/-- The counts of the tick begin anew; an Ibrak link that has come up takes traffic again (R377, R390, R397, R613). -/
def State.tickNew (s : State) : State :=
  let s1 := ((List.range 8).foldl (fun (s : State) d => (s.onDie d DieSt.tickNew).onStack d Stack.tickNew) s).reachAll
  let s2 := (List.range 20).foldl (fun (s : State) i => s.onDir (i / 2) (i % 2) IbkDir.tickNew) s1
  (List.range 10).foldl (fun (s : State) l =>
    if (s.ibLink l).returning && s.ibkUp l then s.setIbLink l { s.ibLink l with returning := false } else s) s2

/-- At the milestone of a swap's tick the egress channels of both images come into force side by side (R429); on a die without
a healthy warden not before it has one (R27, log entry 102). -/
def State.swapAtMilestone (s : State) : State :=
  match s.img.swapAt, s.img.armed, s.img.standby with
  | some a, some old, some new =>
    let ds := (List.range 8).filter (fun d => notEarlier s.tick a && s.healthy d && !(s.img.swapDies.contains d))
    if ds = [] then s
    else
      let s1 := { s with img := { s.img with swapDies := ds ++ s.img.swapDies } }
      (ds.foldl (fun (s : State) d => s.swapChannels d old new s.tick) s1).deriveAll
  | _, _, _ => s

/-- Milestone M (R53): the tick number advances, staged fields take effect, detours and a swap take their steps. -/
def State.atMilestone (s : State) : State :=
  s.restoreAll.timeStep.tickNew.fieldsApply.tilesAt.detourSteps.dualSteps.swapAtMilestone.bringUps.alignSteps.histBegin.secSteps.flashSteps

end Sys2Proof.Machine
end

