-- ==== Sys2Proof/Machine/Bus.lean ====
section
/-!
DEFINITION. The crossroads as its masters use it: the address map, reads and writes of registers, tiles and the DRAM
window, responses, bursts, the reset of a master, and the commands that are writes of one register
(spec/09 R391 to R401, spec/13 R537 to R541, spec/19 R677 to R682, and the register rules of the other chapters).
-/
namespace Sys2Proof.Machine

/-! ## Who reaches what (R391, R392, R396, R635, R681) -/

/-- Is the master there: JTAG only in SERVICE (R391)? -/
def State.hasMaster (s : State) (m : Nat) : Bool := m != 4 || s.service

/-- The master is there, and no drain of it is in progress (R400). -/
def State.isMaster (s : State) (m : Nat) : Bool := !(s.draining m) && s.hasMaster m

/-- Phase 2 of start-up has not ended (R635). -/
def State.early (s : State) : Bool := decide (s.rf aBoot 3 0 < 3 ∨ s.rf aBoot 3 0 = 15)

/-- The die whose crossroads serves a register address (R392). -/
def State.servedBy (s : State) (addr : Nat) : Nat := if addr < 0x1_0000_0000 then s.lead else addr % 0x1_0000_0000 / 0x2000_0000

/-- A die that is switched off (R612). -/
def State.dark (s : State) (d : Nat) : Bool := (List.range 16).all (fun i => s.domState d i == 0 || s.domState d i == 3)

/-- Does master m reach die d (R396, Table 9.8)? -/
def State.reaches (s : State) (m d : Nat) : Bool := !(s.dark (masterDie m)) && !(s.dark d) && s.xrReach (masterDie m) d

/-- The words that a control master reaches before phase 2 has ended: PKG_ID, PKG_CAP0, PKG_CAP1, PKG_BOOT (R635). -/
def earlyWord (addr : Nat) : Bool := decide (addr < 3 ∨ addr = aBoot)

/-- Is an address out of reach of a control master because phase 2 has not ended (R635)? -/
def State.shut (s : State) (m addr : Nat) : Bool := s.early && decide (m < 5) && !(earlyWord addr)

/-- Does master m reach a register address: early words at any time, any other where its die is reached? -/
def State.regReach (s : State) (m addr : Nat) : Bool :=
  !(s.shut m addr) && (s.early && earlyWord addr || s.reaches m (s.servedBy addr))

/-- The key of a register word for master m: its own instance of a per-master word (R538, R566, R586, R682); none for a
master that has no instance. -/
def ownKey (b : Block) (r : RegSpec) (m addr : Nat) : Option Nat :=
  if !r.perMaster then some addr
  else if (if b = .log then curOk m else mbOk m) then some (aMine m addr) else none

/-- Does a table name a register at an address of region 0 or 1? -/
def regNamed (addr : Nat) : Bool := (blockOf addr).any (fun x => (findReg x.1.regs x.2).isSome)

/-- The register of region 0 or 1 at an address, and its key for master m (R677, R678). -/
def regAt (m addr : Nat) : Option (Block × RegSpec × Nat) :=
  match blockOf addr with
  | none => none
  | some (b, o) => match findReg b.regs o with
    | none => none
    | some (r, _) => (ownKey b r m addr).map (fun k => (b, r, k))

/-- The physical tiles, the space and the address of a region-2 or region-3 address (R392, R680): the primary first. -/
def State.tileAt (s : State) (addr : Nat) : Option (Nat × List Nat × Nat) :=
  let a := addr % 0x8_0000
  if addr / 0x1_0000_0000 = 3 then
    let d := addr / 0x2000_0000 % 8
    let p := addr / 0x40_0000 % 128
    if addr / 0x8_0000 % 8 ≠ 0 ∨ 72 < p then none else some (d, [p], a)
  else
    let t := addr / 0x80_0000 % 512
    let rigor := s.img.armed.any (fun (im : Image) => im.rigor)
    if addr / 0x8_0000 % 16 ≠ 0 ∨ (rigor = true ∧ 256 ≤ t) then none
    else
      let x := slotsOf rigor t
      some (x.1, x.2.map (fun sl => s.phys x.1 sl), a)

/-- Is the tile's row, or its warden, powered and cleared (R681)? -/
def State.rowOn (s : State) (d p : Nat) : Bool := s.domainOn d (if p = 72 then 15 else p / 8)

/-! ## Reads of registers -/

/-- LEFT of OWN_STAT: whole milliseconds that remain of the lease (R548). -/
def State.leaseLeft (s : State) : Nat := if s.steward = 7 then 0 else min 65535 ((s.own.leaseEnd - s.sym) / symMs)

/-- LOG_DSTATd, LOG_DOLDd and LOG_DNEWd of a die (Table 15.5). -/
def State.logDie (s : State) (o : Nat) : Word :=
  let u := s.log (o % 8)
  if o < 0x18 then
    wd (u.ring.length + 2 ^ 13 * u.queue.length + 2 ^ 35 * natB (s.logUp (o % 8))) ||| (s.rd (aLog o) &&& maskOf 34 17)
  else match (if o < 0x20 then u.ring.head? else u.ring.getLast?) with
    | some r => r.seq
    | none => 0

/-- LINK_GSTAT: the group's PLL is locked while the group is powered; LOCKMAP. -/
def State.groupStat (s : State) (d g : Nat) : Word :=
  wd ((List.range 16).foldl (fun a i => a + 2 ^ (1 + i) * natB (s.rb (aLink (64 * d + 16 * g + i) 3) 0))
    (natB (s.domainOn d (9 + g))))

/-- LINK_EQSTAT of a link that is powered and not off: what the equalizers and the eye monitor stand at is the receiver's
(log entry 8); with ADAPT = 0 the equalizer setting is held (R469). Of any other link the value stands. -/
def State.eqStat (s : State) (n : Nat) : State × Word :=
  if s.lineOn n then
    let v := wd (Config.freeAnalog s.free).toNat
    let w := if s.rb (aLink n 4) 0 then v else (v &&& ~~~(maskOf 5 0)) ||| (s.rd (aLink n 5) &&& maskOf 5 0)
    (s.fresh.wr (aLink n 5) w, w)
  else (s, s.rd (aLink n 5))

/-- DRAM_TDD: the copy on a stack of the table that DRAM_TDX names (R504). -/
def State.tableShown (s : State) (d : Nat) : Word :=
  let h := s.rf (aDram d 0x22) 11 0
  match (s.img.armed.map (fun (im : Image) => im.tables)).getD [] |>.find? (fun (r : ImgTable) =>
      r.handle = h ∧ (r.stack = d ∨ (r.twin = true ∧ r.tstack = d))) with
  | some r => if r.stack = d then wd (r.base + 2 ^ 33) else wd (r.tbase + 2 ^ 33 + 2 ^ 34)
  | none => 0

/-- The key of the network table word that DIE_NET_IDX names, and the bits it has (Tables 9.3, 9.4). -/
def State.netPlace (s : State) (d : Nat) : Nat × Word :=
  let x := s.rd (aDie d 0x100)
  (aNet d (fld x 19 13) (fld x 12 12) (fld x 11 0), if fld x 19 13 = 127 then maskOf 23 0 else maskOf 20 0)

/-- With INC = 1, ENTRY advances by 1 after each access of DIE_NET_DATA (R401). -/
def State.netNext (s : State) (d : Nat) : State :=
  let a := aDie d 0x100
  if s.rb a 20 then s.wf a 11 0 (s.rf a 11 0 + 1) else s

/-- The key of the profile word that DRAM_RPX names, and the bits it has (Table 12.3). -/
def State.profPlace (s : State) (d : Nat) : Nat × Word :=
  let x := s.rd (aDram d 0x20)
  let w := fld x 7 6
  (aProf d (fld x 5 0) w, if w < 2 then maskOf 31 0 else if w = 2 then maskOf 20 0 else 0)

/-- With INC = 1, WORD and then PROF advance after each access of DRAM_RPD (R519). -/
def State.profNext (s : State) (d : Nat) : State :=
  let a := aDram d 0x20
  if s.rb a 8 then
    let s1 := s.wf a 7 6 (s.rf a 7 6 + 1)
    if s.rf a 7 6 = 3 then s1.wf a 5 0 (s.rf a 5 0 + 1) else s1
  else s

/-- A WO field reads 0 (Table 0.3). -/
def RegSpec.shown (r : RegSpec) (w : Word) : Word :=
  r.fields.foldl (fun (a : Word) f => if f.acc == .wo then a &&& ~~~(maskOf f.hi f.lo) else a) w

/-- What a read of a register of region 0 or 1 returns to master m, and what it does. -/
def State.regView (s : State) (m addr : Nat) (b : Block) (r : RegSpec) (k : Nat) : State × Word :=
  let o := ((blockOf addr).map (fun x => x.2)).getD 0
  let d := addr % 0x1_0000_0000 / 0x2000_0000
  match b with
  | .pkg =>
    if o = 0x43 then s.readTick0 m
    else if o = 0x44 then (s, s.rd (aMine m 0x44))
    else (s, r.shown (s.rd k))
  | .own => if o = 0 then (s, putFld (s.rd k) 21 6 s.leaseLeft) else (s, r.shown (s.rd k))
  | .log =>
    if o = 0x108 then s.win0 m
    else if 0x108 < o ∧ o < 0x110 then (s, s.winWord m (o - 0x108))
    else if o = 0x110 then s.wchk m
    else if 0x10 ≤ o ∧ o < 0x28 then (s, s.logDie o)
    else (s, r.shown (s.rd k))
  | .pwr =>
    if o = 0x4A then (s, s.tdat)
    else if o = 0x4B then (s, s.laybys)
    else if 0x18 ≤ o ∧ o ≤ 0x20 then (s, s.dstatShown o (r.shown (s.rd k)))
    else (s, r.shown (s.rd k))
  | .die => if o = 0x101 then (s.netNext d, s.rd (s.netPlace d).1) else (s, r.shown (s.rd k))
  | .dram =>
    if o = 0x21 then (s.profNext d, s.rd (s.profPlace d).1)
    else if 8 ≤ o ∧ o < 12 then (s, wd (s.depth d (o - 8)))
    else if o = 0x18 then (s, putFld (s.rd k) 4 0 (s.stack d).queue.length)
    else if o = 0x23 then (s, s.tableShown d)
    else (s, r.shown (s.rd k))
  | .group => if o = 2 then (s, s.groupStat d (addr % 0x400 / 0x100)) else (s, r.shown (s.rd k))
  | .link =>
    if o = 3 then (s, putFld (s.rd k) 6 2 (s.wShown (linkOfKey addr)))
    else if o = 5 then s.eqStat (linkOfKey addr)
    else (s, r.shown (s.rd k))
  | _ => (s, r.shown (s.rd k))

/-- A read of region 0 or 1: state, response code, word. -/
def State.regRead (s : State) (m addr : Nat) : State × Nat × Word :=
  if !(s.regReach m addr) then (s, 2, 0)
  else match regAt m addr with
    | none => (s, 2, 0)
    | some (b, r, k) => let x := s.regView m addr b r k; (x.1, 0, x.2)

/-! ## Writes of registers -/

/-- A write under the access codes and effect classes (R1 to R7). -/
def State.genWrite (s : State) (r : RegSpec) (k addr : Nat) (w : Word) : State :=
  let x := r.write (s.rd k) w
  let s1 := { s.wr k x.val with staged := stageAdd s.staged k x.commit w, mile := stageAdd s.mile k x.mile w }
  if x.refused then s1.refuse addr w else s1

/-- A write of LINK_EQ: TXPRE + TXPOST > TXMAIN is a reserved combination, which leaves the whole register (R4, R470); as
ADAPT goes to 0 the equalizer setting in force is kept (R469). -/
def State.eqWrite (s : State) (r : RegSpec) (k : Nat) (w : Word) : State :=
  if fld w 10 5 < fld w 4 1 + fld w 15 11 then s.refuse k w
  else (if s.rb k 0 && !(bitOf w 0) then (s.eqStat (linkOfKey k)).1 else s).genWrite r k k w

/-- A write of DIE_NET_DATA: staged for the word that DIE_NET_IDX names (R401). -/
def State.netWrite (s : State) (d : Nat) (w : Word) : State :=
  let x := s.netPlace d
  State.netNext { s with staged := stageAdd s.staged x.1 x.2 w } d

/-- A write of DRAM_RPD: staged for the profile word that DRAM_RPX names (R496). -/
def State.profWrite (s : State) (d : Nat) (w : Word) : State :=
  let x := s.profPlace d
  State.profNext { s with staged := stageAdd s.staged x.1 x.2 w } d

/-- Words of a claim mailbox that the verification reads: PK and SIG (R547). -/
def isClaimWord (o : Nat) : Bool := decide ((0x110 ≤ o ∧ o < 0x121) ∨ (0x200 ≤ o ∧ o < 0x500))

/-- A permitted write of a register of region 0 or 1. -/
def State.regPut (s : State) (m addr : Nat) (b : Block) (r : RegSpec) (k : Nat) (w : Word) : State :=
  let o := ((blockOf addr).map (fun x => x.2)).getD 0
  let d := addr % 0x1_0000_0000 / 0x2000_0000
  match b with
  | .pkg =>
    if o = 0x41 then s.commitGo addr w
    else if o = 0x47 then s.clearErrs w
    else if o = 0x81 then s.imgCmd w
    else if o = 0xC1 then s.bootcfgWrite w
    else s.genWrite r k addr w
  | .sec => if o = 0x100 then s.secCmd m w else s.genWrite r k addr w
  | .own =>
    if o = 1 then s.renew w
    else if o = 2 then s.handOver w
    else if o = 0x90 then s.lcmd w
    else if o = 0x100 then s.chal m w
    else if o = 0x102 then s.claimGo m w
    else if isClaimWord o && s.mbResult m == 1 then s
    else s.genWrite r k addr w
  | .log => if o = 0x100 then s.curdWrite m w else s.genWrite r k addr w
  | .pwr =>
    if o = 1 then s.commitGo addr w
    else if o = 0x48 then (s.genWrite r k addr w).ueSweep
    else if o = 0x4A then s.tdatWrite w
    else if o = 0x50 then s.ibkRet w
    else if o = 0x61 then s.fwCmd w
    else s.genWrite r k addr w
  | .die =>
    if o = 0x101 then s.netWrite d w
    else if o = 0x102 then s.commitGo addr w
    else if o = 0x200 then s.bistWrite d w
    else s.genWrite r k addr w
  | .dram =>
    if o = 2 then s.commitGo addr w
    else if o = 4 then (if bitOf w 0 then s.stackLost d 3 else s)
    else if o = 0x14 then (if parcels ≤ fld w 32 0 then s.refuse addr w else s.genWrite r k addr w)
    else if o = 0x21 then s.profWrite d w
    else s.genWrite r k addr w
  | .group => if o = 1 then s.commitGo addr w else s.genWrite r k addr w
  | .link =>
    if o = 2 then s.commitGo addr w
    else if o = 4 then s.eqWrite r k w
    else s.genWrite r k addr w
  | .tile => s.genWrite r k addr w

/-- A write of region 0 or 1: state and response code. A per-master word is the master's own to write (R537); any other
write is refused whole unless the writer is permitted (R2), a mailbox word by a master that has none included. -/
def State.regWrite (s : State) (m addr : Nat) (w : Word) : State × Nat :=
  if !(s.regReach m addr) then (s, 2)
  else match regAt m addr with
    | none => if regNamed addr && !(s.mayWrite m addr) then (s.denied m addr 0, 3) else (s, 2)
    | some (b, r, k) =>
      if r.perMaster || s.mayWrite m addr then (s.regPut m addr b r k w, 0) else (s.denied m addr 0, 3)

/-! ## Tiles and the DRAM window -/

/-- May a write from outside the tile change TCR: the tile has halted, or is not placed and free or retired (R292)? DESIGN
CHOICE (log entry 98): a warden, which no image places, counts as not placed and free. -/
def State.tcrOpen (s : State) (d p : Nat) : Bool :=
  (s.tile d p).phase == .halt || (!(s.tile d p).placed && (s.tileFlag d p == 0 || s.tileFlag d p == 4))

/-- A write of a tile register by master m at the address named: R292 for TILE_TCR, R175 for
TILE_SP_DATA (the access advances TILE_SP_ADDR all the same, R192). -/
def State.tileRegWrite (s : State) (m d p o named : Nat) (w : Word) : State × Nat :=
  let t := s.tile d p
  if !(s.mayWrite m named) then (s.denied m named 0, 3)
  else if o = 0 then
    if s.tcrOpen d p then (s.setTile d p (t.setTcr (s.partner d p).isSome w), 0) else (s.denied m named 0, 3)
  else if o = 0x41 ∧ t.sealedCode 3 t.spOff = true then
    ((s.setTile d p t.spNext).denied m (aTile d p 0x41) (wd (aTileSp d p 3 t.spOff)), 3)
  else (s.setTile d p (t.regWrite s.tick d p o 4 w), 0)

/-- A write into one tile: code. -/
def State.tileWrite (s : State) (m d p a named : Nat) (w : Word) (coin : Bool) : State × Nat :=
  if s.rowOn d p = false ∨ 0x4_0000 ≤ a then (s, 2)
  else if a < 0x1_0000 then
    if 0x8000 ≤ a ∨ (tileReg p a).isNone = true then (s, 2) else s.tileRegWrite m d p a named w
  else let r := s.dataAccess m d p a named true w coin; (r.1, r.2.1)

/-- A read from one tile: code, word. TCR shows RIG as the tile itself would find it (Table 7.1). -/
def State.tileRead (s : State) (m d p a named : Nat) (coin : Bool) : State × Nat × Word :=
  if s.rowOn d p = false ∨ 0x4_0000 ≤ a then (s, 2, 0)
  else if a < 0x1_0000 then
    if 0x8000 ≤ a ∨ (tileReg p a).isNone = true then (s, 2, 0)
    else
      let r := (s.tile d p).regRead a 4
      (s.setTile d p r.1, natB r.2.2, if a = 0 then tcrShow (s.partner d p).isSome r.2.1 else r.2.1)
  else s.dataAccess m d p a named false 0 coin

/-- A write of region 2 or 3: under Rigor both tiles of the pair (R680); refused for one, it is refused whole (R2). -/
def State.tilesWrite (s : State) (m addr : Nat) (w : Word) : State × Nat :=
  match s.tileAt addr with
  | none => (s, 2)
  | some (d, ps, a) =>
    if s.reaches m d then
      match ps.find? (fun p => (s.tileWrite m d p a addr w false).2 == 3) with
      | some p => s.tileWrite m d p a addr w false
      | none => ps.foldl (fun (x : State × Nat) p =>
          let r := x.1.tileWrite m d p a addr w false
          (r.1, if x.2 = 0 then r.2 else x.2)) (s, 0)
    else (s, 2)

/-- A read of region 2 or 3, from the primary under Rigor. -/
def State.tilesRead (s : State) (m addr : Nat) : State × Nat × Word :=
  match s.tileAt addr with
  | none => (s, 2, 0)
  | some (d, ps, a) => if s.reaches m d then s.tileRead m d (ps.headD 0) a addr false else (s, 2, 0)

/-! ## Transactions (R393, R395) -/

/-- A readout engine writes its own readout buffer (R537). -/
def State.ownBuffer (s : State) (m addr : Nat) : Bool :=
  decide (16 ≤ m ∧ m < 24) && (match s.winPlace addr with
    | some (d, p, _) => d == m - 16 && decide (s.rdbufStart d ≤ p ∧ p < s.storeStart d)
    | none => false)

/-- A write of words of one granule of the DRAM window: state and response code (R484, R485). -/
def State.busDram (s : State) (m addr : Nat) (l : List Word) : State × Nat :=
  let d := addr / 0x1_0000_0000 % 16 - 8
  let a := addr % 0x10_0000_0000
  if (s.early = true ∧ m < 5) ∨ s.reaches m d = false ∨ (s.winPlace a).isNone = true ∨ s.stackUp d = false then (s, 2)
  else if s.mayWrite m a || s.ownBuffer m a then s.winWrite a l
  else (s.denied m a 0, 3)

/-- A read of n words of one granule of the DRAM window: state, response code, words. -/
def State.busDramRead (s : State) (m addr n : Nat) : State × Nat × List Word :=
  let d := addr / 0x1_0000_0000 % 16 - 8
  if (s.early = true ∧ m < 5) ∨ s.reaches m d = false then (s, 2, List.replicate n 0)
  else s.winRead (addr % 0x10_0000_0000) n

/-- A write of one word at a package word address: state and response code. -/
def State.busWrite (s : State) (m addr : Nat) (w : Word) : State × Nat :=
  let r := addr / 0x1_0000_0000 % 16
  let a := addr % 0x10_0000_0000
  if r < 2 then s.regWrite m a w
  else if s.early = true ∧ m < 5 then (s, 2)
  else if r < 4 then s.tilesWrite m a w
  else if r < 8 then (s, 2)
  else s.busDram m a [w]

/-- A read of one word at a package word address: state, response code and word. -/
def State.busRead (s : State) (m addr : Nat) : State × Nat × Word :=
  let r := addr / 0x1_0000_0000 % 16
  let a := addr % 0x10_0000_0000
  if r < 2 then s.regRead m a
  else if s.early = true ∧ m < 5 then (s, 2, 0)
  else if r < 4 then s.tilesRead m a
  else if r < 8 then (s, 2, 0)
  else let x := s.busDramRead m a 1; (x.1, x.2.1, x.2.2.headD 0)

/-- The class of a master in DIE_XR_TOLLm. -/
def xrClass (m : Nat) : Nat := if m < 5 then 1 else if m < 16 then 0 else if m < 24 then 3 else 2

/-- A transaction's beats count at the die where it starts; the first beyond the class's allowance in a tick raises
NETTOLL, and OVER counts the tick (R397). -/
def State.xrBeats (s : State) (m n : Nat) : State :=
  let d := masterDie m
  let c := xrClass m
  let a := aDie d (0x120 + c)
  let used := (s.die d).beats.getD c 0 + n
  let s1 := s.onDie d (fun x => { x with beats := x.beats.set c used })
  if s.rf a 17 0 < used then
    s1.once d (10 + c) (fun s => (s.bump a 35 18 1).mark d 6 (masterCode m) 0x031 4 (wd c) 0)
  else s1

/-- The die whose crossroads serves an address (R392). -/
def State.targetDie (s : State) (addr : Nat) : Option Nat :=
  let r := addr / 0x1_0000_0000 % 16
  let a := addr % 0x10_0000_0000
  if r < 2 then some (s.servedBy a)
  else if r < 4 then (s.tileAt a).map (fun x => x.1)
  else if r < 8 then none
  else some (r - 8)

/-- The transaction's units on the links that it crossed (R362, R382): s0 is the state in which it set out. -/
def State.xrCross (s s0 : State) (m addr out back : Nat) : State :=
  match s0.targetDie addr with
  | none => s
  | some b => match s0.pathUsed (masterDie m) b with
    | none => s
    | some path => s.crossOn (masterDie m) b 3 (Config.xrUnits out) (Config.xrUnits back) path

/-- A write of one word as a transaction of master m: performed, recorded where it started, answered. -/
def State.xrWrite (s : State) (m addr : Nat) (w : Word) : State × Nat :=
  let r := (s.xrBeats m 1).busWrite m addr w
  ((r.1.record m addr r.2).xrCross s m addr 1 0, r.2)

/-- A read of one word as a transaction of master m. -/
def State.xrRead (s : State) (m addr : Nat) : State × Nat × Word :=
  let r := (s.xrBeats m 1).busRead m addr
  ((r.1.record m addr r.2.1).xrCross s m addr 0 1, r.2.1, if r.2.1 < 2 then r.2.2 else 0)

/-! ### Bursts -/

/-- The response of a transaction from those of its words: the first that is neither OK nor POISON, else POISON if any. -/
def worstCode (l : List Nat) : Nat :=
  match l.find? (fun c => decide (2 ≤ c)) with
  | some c => c
  | none => if l.contains 1 then 1 else 0

/-- Words written in address order; a burst whose first word is DENIED writes nothing. -/
def State.wordsWrite (s : State) (m : Nat) : Nat → List Word → State × List Nat
  | _, [] => (s, [])
  | a, w :: l =>
    let r := s.busWrite m a w
    if r.2 = 3 then (r.1, [3])
    else
      let q := r.1.wordsWrite m (a + 1) l
      (q.1, r.2 :: q.2)

/-- Beats written to the DRAM window in address order, each a whole granule (R393, R480). -/
def State.beatsWrite (s : State) (m : Nat) : Nat → List Word → State × List Nat
  | a, x :: y :: l =>
    let r := s.busDram m a [x, y]
    if r.2 = 3 then (r.1, [3])
    else
      let q := r.1.beatsWrite m (a + 2) l
      (q.1, r.2 :: r.2 :: q.2)
  | _, _ => (s, [])

/-- Words read in address order: state, codes, words. -/
def State.wordsRead (s : State) (m : Nat) : Nat → Nat → State × List Nat × List Word
  | _, 0 => (s, [], [])
  | a, n + 1 =>
    let r := s.busRead m a
    let q := r.1.wordsRead m (a + 1) n
    (q.1, r.2.1 :: q.2.1, r.2.2 :: q.2.2)

/-- Beats read from the DRAM window in address order, each granule once (R393, R480): state, codes, words. -/
def State.beatsRead (s : State) (m : Nat) : Nat → Nat → State × List Nat × List Word
  | _, 0 => (s, [], [])
  | a, n + 1 =>
    let r := s.busDramRead m a 2
    let q := r.1.beatsRead m (a + 2) n
    (q.1, r.2.1 :: r.2.1 :: q.2.1, r.2.2.getD 0 0 :: r.2.2.getD 1 0 :: q.2.2)

/-- The beats of a burst that are written from the data of it. -/
def State.burstWrite (s : State) (m addr : Nat) (l : List Word) : State × List Nat :=
  if 8 ≤ addr / 0x1_0000_0000 % 16 then s.beatsWrite m addr l else s.wordsWrite m addr l

/-- The beats of a burst that are read. -/
def State.burstRead (s : State) (m addr beats : Nat) : State × List Nat × List Word :=
  if 8 ≤ addr / 0x1_0000_0000 % 16 then s.beatsRead m addr beats else s.wordsRead m addr (2 * beats)

/-- Is a burst misaligned: an odd start, a 32-word boundary crossed, or a space whose words are 4 bytes apart (R392,
R393, Table 9.8)? -/
def burstBad (addr beats : Nat) : Bool :=
  let r := addr / 0x1_0000_0000 % 16
  let sp := addr / 0x1_0000 % 8
  decide (addr % 2 = 1 ∨ 32 < addr % 32 + 2 * beats ∨ ((r = 2 ∨ r = 3) ∧ (sp = 2 ∨ sp = 3)))

/-- A burst of master m: the codes of its words and, for a read, the words. -/
def State.burst (s : State) (m addr beats : Nat) (write : Bool) (data : List Word) : State × List Nat × List Word :=
  let s1 := s.xrBeats m beats
  let n := 2 * beats
  if burstBad addr beats then (s1.record m addr 5, List.replicate n 5, if write then [] else List.replicate n 0)
  else if write then
    let r := s1.burstWrite m addr ((List.range n).map (fun i => data.getD i 0))
    ((r.1.record m addr (worstCode r.2)).xrCross s m addr n 0, if r.2.headD 0 = 3 then List.replicate n 3 else r.2, [])
  else
    let r := s1.burstRead m addr beats
    let c := worstCode r.2.1
    ((r.1.record m addr c).xrCross s m addr 0 n, r.2.1, if c < 2 then r.2.2 else List.replicate n 0)

/-- A transaction of master m: beats 0 for one word, else a burst (R393, R395). -/
def State.transact (s : State) (m addr beats : Nat) (write : Bool) (data : List Word) : State × Nat × List Word :=
  if beats = 0 then
    if write then let r := s.xrWrite m addr (data.headD 0); (r.1, r.2, [])
    else let r := s.xrRead m addr; (r.1, r.2.1, [r.2.2])
  else
    let r := s.burst m addr beats write data
    (r.1, worstCode r.2.1, r.2.2)

/-! ### Turns of the roundabout (R397, R400) -/

/-- The target port of an address, within the package: package blocks, die blocks, tiles, memory controller (R391). -/
def State.portOf (s : State) (addr : Nat) : Nat :=
  let r := addr / 0x1_0000_0000 % 16
  match s.targetDie addr with
  | none => 32
  | some d => 4 * d + (if r < 2 then r else if r < 4 then 2 else 3)

/-- Has the class of master m beats left in this tick? -/
def State.xrLeft (s : State) (m : Nat) : Bool :=
  decide ((s.die (masterDie m)).beats.getD (xrClass m) 0 < s.rf (aDie (masterDie m) (0x120 + xrClass m)) 17 0)

/-- The transaction whose master comes soonest after the master served last; of one master, its oldest. -/
def soonest (last : Nat) : List XrReq → Option XrReq
  | [] => none
  | r :: l => match soonest last l with
    | none => some r
    | some q => if (q.master + 1023 - last) % 1024 < (r.master + 1023 - last) % 1024 then some q else some r

/-- Is an access to the DRAM window one that has to wait, since its stack has no slack left in this tick (R511)? -/
def State.slotsShort (s : State) (addr : Nat) : Bool :=
  decide (8 ≤ addr / 0x1_0000_0000 % 16) && s.stackUp (addr / 0x1_0000_0000 % 8) &&
    !(s.slotsFree (addr / 0x1_0000_0000 % 8) 8 1)

/-- The transaction that a target port serves next: a master whose class has used its allowance is passed over while one
whose class has some left waits (R397). -/
def State.nextTurn (s : State) (port : Nat) : Option XrReq :=
  let l := s.xrq.filter (fun (r : XrReq) => s.portOf r.addr = port ∧ s.slotsShort r.addr = false)
  let within := l.filter (fun (r : XrReq) => s.xrLeft r.master)
  soonest (SMap.get (fun _ => 1023) s.xrLast port) (if within = [] then l else within)

/-- Let the former steward's writes act, or let them act no more (R549). -/
def State.actFor (s : State) (m : Option Nat) : State := { s with own := { s.own with acting := m } }

/-- A master gets its answer; JTAG finds it in the register of CRACCESS: the response, and the data of a read (R652). -/
def State.answer (s : State) (m code : Nat) (l : List Word) : State :=
  let s1 := s.emit (.resp m code l)
  if m = 4 then
    let c := putFld s1.tap.cr 75 73 code
    { s1 with tap := { s1.tap with cr := match l with
      | [w] => putFld c 35 0 w.toNat
      | _ => c } }
  else s1

/-- A transaction is performed and answered; a write that its master issued as steward is performed although stewardship has
ended since (R549). -/
def State.perform (s : State) (r : XrReq) : State :=
  let former := r.auth && r.write && s.steward != r.master
  let x := (if former then s.actFor (some r.master) else s).transact r.master r.addr r.beats r.write r.data
  (if former then x.1.actFor none else x.1).answer r.master x.2.1 x.2.2

/-- n turns of a target port. -/
def State.turns (s : State) (port : Nat) : Nat → State
  | 0 => s
  | n + 1 => match s.nextTurn port with
    | none => s
    | some r =>
      let s1 := { s with xrq := s.xrq.erase r, xrLast := SMap.set (fun _ => 1023) s.xrLast port r.master }
      (s1.perform r).turns port n

/-- The transactions that wait for a target port. -/
def State.atPort (s : State) (port : Nat) : Nat := (s.xrq.filter (fun (q : XrReq) => s.portOf q.addr = port)).length

/-- With a new tick's slots the memory controllers serve what has waited for them (R511). -/
def State.memPorts (s : State) : State :=
  (List.range 8).foldl (fun (s : State) d => s.turns (4 * d + 3) (s.atPort (4 * d + 3))) s

/-- MILESTONE (R53). -/
def execMilestone (s : State) : Out := live true s (fun s => s.atMilestone.memPorts.oneCycle s)

/-- The turns of a target port before that of its master's newest transaction r, which leaves the queue as its turn comes: n
turns at most. -/
def State.turnOf (s : State) (port : Nat) (r : XrReq) : Nat → State
  | 0 => { s with xrq := s.xrq.erase r }
  | n + 1 => match s.nextTurn port with
    | none => { s with xrq := s.xrq.erase r }
    | some q =>
      let s1 := { s with xrq := s.xrq.erase q, xrLast := SMap.set (fun _ => 1023) s.xrLast port q.master }
      if q.master = r.master ∧ s1.xrq.all (fun x => x.master != r.master || s.portOf x.addr != port) = true then s1
      else (s1.perform q).turnOf port r n

/-- A transaction of a port, a scan or a window is performed as its turn comes at its target port (R394, R397): after what its
master has waiting there and what comes before it in the roundabout; then the port serves what else waits. -/
def State.inTurn {α : Type} (s : State) (r : XrReq) (f : State → State × α) : State × α :=
  let r1 := { r with auth := r.master == s.steward }
  let port := s.portOf r.addr
  let s1 := { s with xrq := s.xrq ++ [r1] }
  let x := f (s1.turnOf port r1 (s1.atPort port))
  (x.1.turns port (x.1.atPort port), x.2)

/-- A read of one word in its turn. -/
def State.turnRead (s : State) (m addr : Nat) : State × Nat × Word :=
  s.inTurn ⟨m, addr, 0, false, [], false⟩ (fun s => s.xrRead m addr)
/-- A write of one word in its turn. -/
def State.turnWrite (s : State) (m addr : Nat) (w : Word) : State × Nat :=
  s.inTurn ⟨m, addr, 0, true, [w], false⟩ (fun s => s.xrWrite m addr w)
/-- A burst in its turn. -/
def State.turnBurst (s : State) (m addr beats : Nat) (write : Bool) (data : List Word) : State × List Nat × List Word :=
  s.inTurn ⟨m, addr, beats, write, data, false⟩ (fun s => s.burst m addr beats write data)

/-- A master issues a transaction: it waits while a drain of the master is in progress (R400) or its target port is busy;
else the port serves all that wait for it. -/
def State.issue (s : State) (r0 : XrReq) (busy : Bool) : State :=
  let r := { r0 with auth := r0.master == s.steward }
  if !(s.hasMaster r.master) then s
  else if s.draining r.master then { s with parked := s.parked ++ [.xact r] }
  else
    let s1 := { s with xrq := s.xrq ++ [r] }
    if busy then s1
    else s1.turns (s.portOf r.addr) (s1.atPort (s.portOf r.addr))

/-- CROSSROADS_TRANSACTION (R393 to R397, R400). busy: the target port serves another transaction. -/
def execCrossroadsTransaction (m addr beats : Nat) (write : Bool) (data : List Word) (busy : Bool) (s : State) : Out :=
  live (masterOk m) s (fun s => s.issue ⟨m, addr, beats, write, data, false⟩ busy)

/-- The writes that a former steward issued before the end are performed (R549). -/
def State.formerWrites (s : State) : State :=
  let l := s.xrq.filter (fun (r : XrReq) => r.auth && r.write && r.master != s.steward)
  l.foldl (fun (s : State) r => s.perform r) { s with xrq := s.xrq.filter (fun (r : XrReq) => !(l.contains r)) }

/-- CLAIM_RESULT (R546); no write of the next steward comes before those of the former one (R549). -/
def execClaimResult (m : Nat) (s : State) : Out := live (mbOk m) s (fun s => s.formerWrites.claimEnd m)

/-- A register write as a command: its effect and the response. -/
def State.doWrite (s : State) (m addr : Nat) (w : Word) : State := s.issue ⟨m, addr, 0, true, [w], false⟩ false

/-- A register read as a command. -/
def State.doRead (s : State) (m addr : Nat) : State := s.issue ⟨m, addr, 0, false, [], false⟩ false

/-- A read or a write as a command. -/
def State.doAccess (s : State) (m addr : Nat) (write : Bool) (w : Word) : State :=
  if write then s.doWrite m addr w else s.doRead m addr

/-! ## Window requests of tiles (R258, R259, R684) -/

/-- The answer of a request reaches the tile: its code and word. -/
def Tile.winAnswer (t : Tile) (r : PortReq) (code : Nat) (w : Word) : Tile :=
  let t1 := { t with port := t.port.tail }
  let t2 := if code = 0 then t1 else t1.winFail r
  if r.store || r.drop then t2 else t2.setRes 0x93 (if code < 2 then w else 0) (code != 0)

/-- The tiles that an answer goes to, primary first: a pair under Rigor that waits for the same request receives one
answer (R605, R606). -/
def State.answerTo (s : State) (d p : Nat) : List Nat :=
  match s.partner d p with
  | some q =>
    if bitOf (s.tile d p).tcr 7 && bitOf (s.tile d q).tcr 7 && (s.tile d p).port.head? == (s.tile d q).port.head? then
      (if s.isPrimary d p then [p, q] else [q, p])
    else [p]
  | none => [p]

/-- The oldest window request of a tile is performed and answered, or is unanswered (timeout); a held one waits for its
milestone (R414). -/
def State.windowAnswer (s : State) (d p : Nat) (timeout : Bool) : State :=
  match (s.tile d p).port with
  | [] => s
  | r :: _ =>
    let to_ := s.answerTo d p
    let q0 := to_.headD p
    let m := if q0 = 72 then 8 + d else 0x80 + 72 * d + q0
    if r.held || s.draining m then s
    else
      let x := if timeout then ((s.xrBeats m 1).record m r.addr 4, 4, (0 : Word))
        else if r.store then let y := s.turnWrite m r.addr r.w; (y.1, y.2, 0)
        else s.turnRead m r.addr
      to_.foldl (fun (s : State) q => s.onTile d q (fun t => t.winAnswer r x.2.1 x.2.2)) x.1

/-- IO_WINDOW_ANSWER (R684). -/
def execIoWindowAnswer (d p : Nat) (s : State) : Out :=
  live (dieOk d && tileOk p) s (fun s => s.windowAnswer d p false)

/-- A transaction of master m that is not answered in time ends TIMEOUT: one that waits leaves the queue, its beats count, a
read is answered with zero data (R395). -/
def State.abandon (s : State) (m addr : Nat) (write : Bool) : State :=
  let x := s.xrq.find? (fun (r : XrReq) => r.master = m ∧ r.addr = addr ∧ r.write = write)
  let n := (x.map (fun (r : XrReq) => r.beats)).getD 0
  let s1 := match x with
    | some r => { s with xrq := s.xrq.erase r }
    | none => s
  ((s1.xrBeats m (max 1 n)).record m addr 4).answer m 4 (if write then [] else List.replicate (max 1 (2 * n)) 0)

/-- CROSSROADS_TIMEOUT (R395, Table 9.8): a tile's oldest window request, or a transaction of another master, is not
answered within 65,536 crossroads cycles. -/
def execCrossroadsTimeout (m addr : Nat) (write : Bool) (s : State) : Out :=
  live (masterOk m) s (fun s =>
    if 0x80 ≤ m then s.windowAnswer (masterDie m) ((m - 0x80) % 72) true
    else if decide (8 ≤ m) && decide (m < 16) &&
        ((s.tile (m - 8) 72).port.head?.map (fun (r : PortReq) => (r.addr, r.store)) == some (addr, write)) then
      s.windowAnswer (m - 8) 72 true
    else if s.isMaster m then s.abandon m addr write
    else s)

/-! ## The reset of a master (R399, R400) -/

/-- What the targets had accepted of a transaction in flight is performed: the beats of a write, or a read whose data is
discarded; its beats count at the die where it started (R397). x: address, write, beats (0 for one word), beats accepted,
data. -/
def State.flightBeats (s : State) (m : Nat) (x : Nat × Bool × Nat × Nat × List Word) : State :=
  let s1 := s.xrBeats m (max 1 x.2.2.1)
  let n := x.2.2.2.1
  if n = 0 then s1
  else if x.2.2.1 = 0 then
    if x.2.1 then (s1.busWrite m x.1 (x.2.2.2.2.headD 0)).1 else (s1.busRead m x.1).1
  else if x.2.1 then (s1.burstWrite m x.1 ((List.range (2 * n)).map (fun i => x.2.2.2.2.getD i 0))).1
  else (s1.burstRead m x.1 n).1

/-- A management Ethernet port's session is gone. -/
def State.dropSession (s : State) (p : Nat) : State :=
  let s1 := s.wf (aOwn (0xA4 + 8 * p)) 0 0 0
  if p = 0 then { s1 with eth0 := none } else { s1 with eth1 := none }

/-- OWN_PCIEm_STAT of an endpoint. -/
def aPcieStat (ep : Nat) : Nat := aOwn (0xC0 + 4 * ep)

/-- After a hot reset, a link down or a function level reset the endpoint's link is down or has trained: which is free
(Tables 13.2, 13.12, log entry 83). -/
def State.relink (s : State) (ep : Nat) : State :=
  let w := (Config.freeWord s.free).toNat
  s.fresh.wr (aPcieStat ep) (if w % 5 = 0 then 0 else wd (w % 5 + 8 * 2 ^ (w / 5 % 4)))

/-- Master m is reset with transactions in flight. -/
def State.masterReset (s : State) (m : Nat) (flight : List (Nat × Bool × Nat × Nat × List Word)) : State :=
  let s1 := flight.foldl (fun (s : State) x => s.flightBeats m x) s
  let writes := (flight.filter (fun (x : Nat × Bool × Nat × Nat × List Word) => x.2.1)).map
    (fun (x : Nat × Bool × Nat × Nat × List Word) => x.2.2.2.1)
  let beats := writes.foldl (· + ·) 0
  let last := writes.getLast?.getD 0
  let s2 := s1.resetMaster m flight.length beats last
  if m = 2 ∨ m = 3 then s2.dropSession (m - 2) else if m < 2 then s2.relink m else s2

/-- A reset of a master that is one; one that comes while the master is drained finds nothing in flight, and what has waited
since is not performed. TRST_N low, the reset of JTAG, also takes the TAP to Test-Logic-Reset, which selects
IDCODE and releases the lands (R648, R653, log entry 87). -/
def State.resetCmd (s : State) (m : Nat) (flight : List (Nat × Bool × Nat × Nat × List Word)) : State :=
  let s1 := if m = 4 then s.tapReset else s
  if s.hasMaster m then s1.masterReset m (if s.draining m then [] else flight) else s1

/-- MASTER_RESET (R399). flight: the transactions in flight: address, write, beats, accepted beats, data. -/
def execMasterReset (m : Nat) (flight : List (Nat × Bool × Nat × Nat × List Word)) (s : State) : Out :=
  live (masterOk m) s (fun s => s.resetCmd m flight)

/-! ## The data side of a tile as a master reaches it (R328 to R332) -/

/-- Does an address of a tile's block name something that master m reaches on the tile (R391, R392, R396, R635, R681)? -/
def State.sideOk (s : State) (m d p addr : Nat) : Bool :=
  !(s.early && decide (m < 5)) && s.reaches m d && s.rowOn d p && decide (addr < 0x8_0000)

/-- The transaction of a data-side access: counted, performed, recorded where it started, its units on the links between. -/
def State.sideAccess (s : State) (m d p addr : Nat) (write : Bool) (w : Word) (coin : Bool) : State × Nat × List Word :=
  let n := aTile d p addr
  let s1 := s.xrBeats m 1
  if !(s1.sideOk m d p addr) then (s1.record m n 2, 2, if write then [] else [0])
  else if write then
    let r := s1.tileWrite m d p addr n w coin
    ((r.1.record m n r.2).xrCross s m n 1 0, r.2, [])
  else
    let r := s1.tileRead m d p addr n coin
    ((r.1.record m n r.2.1).xrCross s m n 0 1, r.2.1, [if r.2.1 < 2 then r.2.2 else 0])

/-- A data-side access of a master, in its turn at the crossroads (R397); one of a master that is drained waits (R400). -/
def State.sideTurn (s : State) (m d p addr : Nat) (write : Bool) (w : Word) (coin : Bool) : State :=
  let q : XrReq := ⟨m, aTile d p addr, 0, write, [w], m == s.steward⟩
  if !(s.hasMaster m) then s
  else if s.draining m then { s with parked := s.parked ++ [.xact q] }
  else
    let r := s.inTurn q (fun s => s.sideAccess m d p addr write w coin)
    r.1.answer m r.2.1 r.2.2

/-- DATA_SIDE_ACCESS (R329 to R336). coin: the access falls in the cycle of the tile's own write of the granule, or within its
read-modify-write. -/
def execDataSideAccess (agent d p addr : Nat) (write : Bool) (w : Word) (coin : Bool) (s : State) : Out :=
  live (masterOk agent && dieOk d && tileOk p) s (fun s => s.sideTurn agent d p addr write w coin)

/-- A data-side access that its tile has left waiting for 4,096 cycles is abandoned, and answered TIMEOUT (R330); one that
reaches no tile waits for none. -/
def State.sideTimeout (s : State) (m d p addr : Nat) (write : Bool) : State :=
  if !(s.isMaster m) then s
  else
    let c := if s.sideOk m d p addr then 4 else 2
    ((s.xrBeats m 1).record m (aTile d p addr) c).answer m c (if write then [] else [0])

/-- DATA_SIDE_TIMEOUT (R330): abandoned after 4,096 tile cycles, answered TIMEOUT, a read with zero data (R395). -/
def execDataSideTimeout (agent d p addr : Nat) (write : Bool) (s : State) : Out :=
  live (masterOk agent && dieOk d && tileOk p) s (fun s => s.sideTimeout agent d p addr write)

/-! ## Commands that are one access -/

/-- REGISTER_WRITE (R1 to R4). -/
def execRegisterWrite (m addr : Nat) (w : Word) (s : State) : Out := live (masterOk m) s (fun s => s.doWrite m addr w)
/-- PKG_TIM_COMMIT (R69). -/
def execPkgTimCommit (m : Nat) (w : Word) (s : State) : Out := live (masterOk m) s (fun s => s.doWrite m 0x41 w)
/-- TILE_COMMIT (R266). -/
def execTileCommit (m d p : Nat) (w : Word) (s : State) : Out :=
  live (masterOk m && dieOk d && tileOk p) s (fun s => s.doWrite m (aTile d p 0x3F) w)
/-- DIE_NET_COMMIT (R401). -/
def execDieNetCommit (m d : Nat) (w : Word) (s : State) : Out :=
  live (masterOk m && dieOk d) s (fun s => s.doWrite m (aDie d 0x102) w)
/-- DRAM_COMMIT (R519). -/
def execDramCommit (m d : Nat) (w : Word) (s : State) : Out :=
  live (masterOk m && dieOk d) s (fun s => s.doWrite m (aDram d 2) w)
/-- LINK_GCOMMIT (R477). -/
def execLinkGcommit (m d g : Nat) (w : Word) (s : State) : Out :=
  live (masterOk m && dieOk d && grpOk g) s (fun s => s.doWrite m (aGrp d g 1) w)
/-- LINK_COMMIT (R478). -/
def execLinkCommit (m n : Nat) (w : Word) (s : State) : Out :=
  live (masterOk m && linkOk n) s (fun s => s.doWrite m (aLink n 2) w)
/-- PWR_COMMIT (R628). -/
def execPwrCommit (m : Nat) (w : Word) (s : State) : Out := live (masterOk m) s (fun s => s.doWrite m (aPwr 1) w)
/-- TICK0_READ (R71). -/
def execTick0Read (m : Nat) (s : State) : Out := live (masterOk m) s (fun s => s.doRead m 0x43)
/-- PKG_TIM_CNTCLR (R72). -/
def execPkgTimCntclr (m : Nat) (w : Word) (s : State) : Out := live (masterOk m) s (fun s => s.doWrite m 0x47 w)
/-- NET_DATA_ACCESS (R401). -/
def execNetDataAccess (m d : Nat) (write : Bool) (w : Word) (s : State) : Out :=
  live (masterOk m && dieOk d) s (fun s => s.doAccess m (aDie d 0x101) write w)
/-- RPD_ACCESS (R496). -/
def execRpdAccess (m d : Nat) (write : Bool) (w : Word) (s : State) : Out :=
  live (masterOk m && dieOk d) s (fun s => s.doAccess m (aDram d 0x21) write w)
/-- TILE_SP_DATA (R192). -/
def execTileSpData (m d p : Nat) (write : Bool) (w : Word) (s : State) : Out :=
  live (masterOk m && dieOk d && tileOk p) s (fun s => s.doAccess m (aTile d p 0x41) write w)
/-- DBELL_WRITE (R304). -/
def execDbellWrite (m d p : Nat) (w : Word) (s : State) : Out :=
  live (masterOk m && dieOk d && tileOk p) s (fun s => s.doWrite m (aTile d p 0x08) w)
/-- DROPLK: TILE_POP with only DROPLK (R264). -/
def execDroplk (m d p : Nat) (w : Word) (s : State) : Out :=
  live (masterOk m && dieOk d && tileOk p) s (fun s => s.doWrite m (aTile d p 0x2C) (w &&& maskOf 3 0))
/-- DROPIN: TILE_POP with only DROPIN (R281). -/
def execDropin (m d p : Nat) (w : Word) (s : State) : Out :=
  live (masterOk m && dieOk d && tileOk p) s (fun s => s.doWrite m (aTile d p 0x2C) (w &&& maskOf 11 4))
/-- TILE_TCR_WRITE (R292). -/
def execTileTcrWrite (m d p : Nat) (w : Word) (s : State) : Out :=
  live (masterOk m && dieOk d && tileOk p) s (fun s => s.doWrite m (aTile d p 0) w)
/-- POISON (R349). -/
def execPoison (m d p : Nat) (w : Word) (s : State) : Out :=
  live (masterOk m && dieOk d && tileOk p) s (fun s => s.doWrite m (aTile d p 0x1C) w)
/-- LOAD (R422, R642). -/
def execLoad (m : Nat) (s : State) : Out := live (masterOk m) s (fun s => s.doWrite m 0x81 1)
/-- ARM (R57, R644). -/
def execArm (m : Nat) (s : State) : Out := live (masterOk m) s (fun s => s.doWrite m 0x81 2)
/-- SWAP (R426). -/
def execSwap (m : Nat) (s : State) : Out := live (masterOk m) s (fun s => s.doWrite m 0x81 3)
/-- DISCARD (R424). -/
def execDiscard (m : Nat) (s : State) : Out := live (masterOk m) s (fun s => s.doWrite m 0x81 4)
/-- DISARM (R425). -/
def execDisarm (m : Nat) (s : State) : Out := live (masterOk m) s (fun s => s.doWrite m 0x81 5)
/-- DRAM_RETIRE (R517). -/
def execDramRetire (m d : Nat) (w : Word) (s : State) : Out :=
  live (masterOk m && dieOk d) s (fun s => s.doWrite m (aDram d 4) w)
/-- WIN0_READ (R586). -/
def execWin0Read (m : Nat) (s : State) : Out := live (curOk m) s (fun s => s.doRead m (aLog 0x108))
/-- WCHK_READ (R587). -/
def execWchkRead (m : Nat) (s : State) : Out := live (curOk m) s (fun s => s.doRead m (aLog 0x110))
/-- OLDEST (R586). -/
def execOldest (m : Nat) (w : Word) (s : State) : Out := live (curOk m) s (fun s => s.doWrite m (aLog 0x100) w)
/-- CHAL: a write of OWN_MB_CHAL with GO = 1 (R545). -/
def execChal (m : Nat) (s : State) : Out := live (mbOk m) s (fun s => s.doWrite m (aOwn 0x100) 1)
/-- CLAIM (R545). -/
def execClaim (m : Nat) (w : Word) (s : State) : Out := live (mbOk m) s (fun s => s.doWrite m (aOwn 0x102) w)
/-- RENEW (R548). -/
def execRenew (m : Nat) (w : Word) (s : State) : Out := live (masterOk m) s (fun s => s.doWrite m (aOwn 1) w)
/-- HANDOVER (R550). -/
def execHandover (m : Nat) (w : Word) (s : State) : Out := live (masterOk m) s (fun s => s.doWrite m (aOwn 2) w)
/-- SET: OWN_LCMD with OP = 1 and GO = 1, KIDX and HT from w (R543). -/
def execKeySet (m : Nat) (w : Word) (s : State) : Out :=
  live (masterOk m) s (fun s => s.doWrite m (aOwn 0x90) (putFld (putFld w 4 3 1) 7 7 1))
/-- REMOVE: OWN_LCMD with OP = 2 and GO = 1 (R543). -/
def execKeyRemove (m : Nat) (w : Word) (s : State) : Out :=
  live (masterOk m) s (fun s => s.doWrite m (aOwn 0x90) (putFld (putFld w 4 3 2) 7 7 1))
/-- NONCE: SEC_MB_CMD with OP = 1 and GO = 1 (R567). -/
def execNonce (m : Nat) (s : State) : Out := live (mbOk m) s (fun s => s.doWrite m (aSec 0x100) 9)
/-- ATTEST (R568). -/
def execAttest (m : Nat) (s : State) : Out := live (mbOk m) s (fun s => s.doWrite m (aSec 0x100) 10)
/-- LCREQ (R570). -/
def execLcreq (m : Nat) (s : State) : Out := live (mbOk m) s (fun s => s.doWrite m (aSec 0x100) 11)
/-- SVN (R571). -/
def execSvn (m : Nat) (s : State) : Out := live (mbOk m) s (fun s => s.doWrite m (aSec 0x100) 12)
/-- PWR_IBKRET (R613). -/
def execPwrIbkret (m : Nat) (w : Word) (s : State) : Out := live (masterOk m) s (fun s => s.doWrite m (aPwr 0x50) w)
/-- TILE_RETIRE (R618). -/
def execTileRetire (m : Nat) (w : Word) (s : State) : Out := live (masterOk m) s (fun s => s.doWrite m (aPwr 0x4A) w)
/-- FW_UPDATE (R624). -/
def execFwUpdate (m : Nat) (w : Word) (s : State) : Out := live (masterOk m) s (fun s => s.doWrite m (aPwr 0x61) w)
/-- PKG_BOOTCFG_WRITE (R647). -/
def execPkgBootcfgWrite (m : Nat) (w : Word) (s : State) : Out := live (masterOk m) s (fun s => s.doWrite m 0xC1 w)
/-- DIE_BIST (R639). -/
def execDieBist (m d : Nat) (w : Word) (s : State) : Out :=
  live (masterOk m && dieOk d) s (fun s => s.doWrite m (aDie d 0x200) w)

/-! ## CRACCESS (R652) -/

/-- Is a transaction of CRACCESS still pending: at its target port, or behind a drain? -/
def State.scanPends (s : State) : Bool :=
  s.xrq.any (fun (r : XrReq) => r.master == 4) || s.parked.any (fun (x : Parked) => x.master == 4)

/-- CRACCESS: TDO gives the bypass bits of dies 7 to 1, then die 0's register (R648, Table 17.7). A transaction still pending
captures response 7 and is kept, and no other is issued (log entry 75); one waits at a port where others wait. Outside SERVICE
the instruction is BYPASS. -/
def State.craccess (s : State) (dr : BitVec 76) : State :=
  if !s.service then s.tapBypass
  else
    let cr := if s.scanPends then putFld s.tap.cr 75 73 7 else s.tap.cr
    let s1 := (s.tapIrs (0x10 :: List.replicate 7 0x3F)).emit (.tdo (List.replicate 7 false ++ tapBits 76 cr.toNat))
    if s.scanPends then s1
    else
      let a := fld dr 71 36
      State.issue { s1 with tap := { s1.tap with cr := dr } } ⟨4, a, 0, bitOf dr 72, [wd (fld dr 35 0)], false⟩
        (decide (s.atPort (s.portOf a) ≠ 0))

/-- CRACCESS (R652). -/
def execCraccess (dr : BitVec 76) (s : State) : Out := live true s (fun s => s.craccess dr)

end Sys2Proof.Machine
end

