-- ==== Sys2Proof/Machine/Ports.lean ====
section
/-!
DEFINITION. The control ports: PCI Express reads and writes with their latches and MSI-X tables, and the sessions and
messages of the management Ethernet ports (spec/13_control_ports_stewardship.md, R520 to R536).
-/
namespace Sys2Proof.Machine

/-! ## PCI Express (R522 to R528) -/

/-- What an endpoint supports and how it identifies itself (Table 13.2): generation and lanes of its link, functions,
identifiers, the largest payload and read request in bytes, MSI-X vectors, error reporting and ECRC, and what it lacks. -/
structure PcieCaps where
  gen : Nat
  lanes : Nat
  functions : Nat
  vendor : BitVec 16
  device : BitVec 16
  revision : Nat
  classCode : BitVec 24
  subVendor : BitVec 16
  subDevice : BitVec 16
  maxPayload : Nat
  maxRead : Nat
  vectors : Nat
  aer : Bool
  ecrc : Bool
  other : List String
deriving DecidableEq, Repr

/-- Table 13.2 for M0 and M1, the revision being PKG_ID.STEP; no other optional capability (R522). What a host writes in
configuration space, where ECRC and AER are enabled, no command of the table carries (log entry 83). -/
def State.pcieCaps (s : State) : PcieCaps :=
  { gen := 4, lanes := 8, functions := 1, vendor := 0x1F7A, device := 0x8512, revision := s.rf 0 19 16, classCode := 0x118000,
    subVendor := 0x1F7A, subDevice := 0x8512, maxPayload := 512, maxRead := 4096, vectors := 8, aer := true, ecrc := true,
    other := [] }

/-- The containers that a request touches: package word address, first byte, byte after the last. A byte offset is eight
times a package word address (R677), so that BAR2 begins at 2^38; BAR4 begins at 2^39. -/
def containers (off len : Nat) : List (Nat × Nat × Nat) :=
  if len = 0 then []
  else (List.range ((off + len - 1) / 8 - off / 8 + 1)).map (fun i =>
    let c := off / 8 + i
    (c, if i = 0 then off % 8 else 0, min 8 (off + len - 8 * c)))

/-- Whole granules from the head of a list on, within one 32-word block: the beats of the burst they make (R526). -/
def runBeats : List (Nat × Nat × Nat) → Nat
  | (a, 0, 8) :: (b, 0, 8) :: r => if a % 2 = 0 ∧ b = a + 1 then 1 + (if b % 32 = 31 then 0 else runBeats r) else 0
  | _ => 0

/-- The bytes of a container: the word in bits [35:0], little-endian (Table 13.1). -/
def wideBytes (w : Word) : List Byte := toLe 8 w.toNat

/-- The latch of R524 after a container's low half has been read: the upper bits and the response of the word; a word that
could not be read latches nothing (DESIGN CHOICE, log entry 97). -/
def State.setUp (s : State) (ep a code : Nat) (w : Word) : State :=
  s.setPcie ep { s.pcie ep with up := if code < 2 then some (a, w.toNat / 2 ^ 32, code) else none }

/-- A read of one container from byte lo to hi: the latch of R524, which keeps the mark of a word read with POISON. -/
def State.pcieWord (s : State) (ep : Nat) (x : Nat × Nat × Nat) : State × Nat × List Byte :=
  let a := x.1
  let part := fun (l : List Byte) => (l.drop x.2.1).take (x.2.2 - x.2.1)
  match (s.pcie ep).up.filter (fun u => decide (4 ≤ x.2.1) && u.1 == a) with
  | some (_, v, c) => (s, c, part (toLe 8 (v * 2 ^ 32)))
  | none =>
    let r := s.turnRead ep a
    (if x.2.1 = 0 ∧ x.2.2 = 4 then r.1.setUp ep a r.2.1 r.2.2 else r.1, r.2.1, part (wideBytes r.2.2))

/-- The words of a read request in increasing address order; runs of whole granules go out as bursts (R526). -/
def State.pcieReads (s : State) (ep : Nat) : Nat → List (Nat × Nat × Nat) → State × List Nat × List Byte
  | 0, _ => (s, [], [])
  | _ + 1, [] => (s, [], [])
  | n + 1, x :: l =>
    let b := runBeats (x :: l)
    if b = 0 then
      let r := s.pcieWord ep x
      let q := r.1.pcieReads ep n l
      (q.1, r.2.1 :: q.2.1, r.2.2 ++ q.2.2)
    else
      let r := s.turnBurst ep x.1 b false []
      let q := r.1.pcieReads ep n (l.drop (2 * b - 1))
      (q.1, r.2.1 ++ q.2.1, r.2.2.flatMap wideBytes ++ q.2.2)

/-- A byte of BAR4: the MSI-X table at 0, the pending bits at 0x2000 (Table 13.3). -/
def PcieSt.bar4 (x : PcieSt) (k : Nat) : Byte :=
  if k < 128 then SMap.get msixReset x.table k
  else if k = 0x2000 then BitVec.ofNat 8 ((List.range 8).foldl (fun a v => a + 2 ^ v * natB (x.pba.contains v)) 0)
  else 0

/-- Write bytes of the MSI-X table; a vector that is pending and no longer masked is sent. -/
def State.bar4Write (s : State) (ep k : Nat) (data : List (Option Byte)) : State :=
  let x := s.pcie ep
  let t := ((List.range data.length).zip data).foldl (fun (m : SMap Byte) (e : Nat × Option Byte) =>
    match e.2 with
    | some b => if k + e.1 < 128 then SMap.set msixReset m (k + e.1) b else m
    | none => m) x.table
  let y := { x with table := t }
  let go := y.pba.filter (fun v => !(y.masked v))
  (List.range 8).foldl (fun (s : State) v => if go.contains v then s.land (.msix ep v) else s)
    (s.setPcie ep { y with pba := y.pba.filter (fun v => y.masked v) })

/-- The first code that is 2 NOTARGET or 4 TIMEOUT decides the completion of a read (R527): status 1 Unsupported Request,
4 Completer Abort; else the bytes, with EP for a word read with POISON. -/
def completion (codes : List Nat) (bytes : List Byte) : Nat × Bool × List Byte :=
  match codes.find? (fun c => c == 2 || c == 4) with
  | some c => (if c = 2 then 1 else 4, false, [])
  | none => (0, codes.contains 1, bytes)

/-- A request shows that the endpoint's link is up: where OWN_PCIEm_STAT gives it as down, the speed and width it has trained
to are free (Table 13.12, log entry 83). -/
def State.trained (s : State) (ep : Nat) : State :=
  if s.rf (aPcieStat ep) 2 0 != 0 then s
  else
    let w := (Config.freeWord s.free).toNat
    s.fresh.wr (aPcieStat ep) (wd (1 + w % 4 + 8 * 2 ^ (w / 4 % 4)))

/-- A read request of an endpoint (R524, R526, R527). -/
def State.pcieRead (s : State) (ep off len : Nat) : State :=
  if s.draining ep then { s with parked := s.parked ++ [.pcieRead ep off len] }
  else if s.pcieCaps.maxRead < len then s.land (.cpl ep 1 false [])
  else if 2 ^ 39 ≤ off then
    s.land (.cpl ep 0 false ((List.range len).map (fun i => (s.pcie ep).bar4 (off - 2 ^ 39 + i))))
  else
    let l := containers off len
    let r := s.pcieReads ep l.length l
    let c := completion r.2.1 r.2.2
    r.1.land (.cpl ep c.1 c.2.1 c.2.2)

/-- PCIE_READ (R524). -/
def execPcieRead (ep off len : Nat) (s : State) : Out := live (epOk ep) s (fun s => (s.trained ep).pcieRead ep off len)

/-- OWN_PCIEm_CNT of an endpoint. -/
def aPcieCnt (ep : Nat) : Nat := aOwn (0xC1 + 4 * ep)

/-- A written word that did not end OK is counted (R527). -/
def State.errw (s : State) (ep : Nat) (codes : List Nat) : State :=
  s.bump (aPcieCnt ep) 35 18 (codes.filter (fun c => c != 0)).length

/-- The low half that an endpoint holds, or none. -/
def State.setLow (s : State) (ep : Nat) (x : Option (Nat × Nat)) : State := s.setPcie ep { s.pcie ep with low := x }

/-- The containers that a write touches, with the eight bytes of each, none where its byte enable is 0. -/
def writeParts (off : Nat) (data : List (Option Byte)) : List (Nat × List (Option Byte)) :=
  ((containers off data.length).map (fun (x : Nat × Nat × Nat) =>
    (x.1, (List.range 8).map (fun i => (if 8 * x.1 + i < off then none else data.getD (8 * x.1 + i - off) none))))).filter
    (fun (x : Nat × List (Option Byte)) => x.2.any (fun b => b.isSome))

/-- The value of a container's bytes. -/
def partVal (l : List (Option Byte)) : Nat := leBytes (l.map (fun b => b.getD 0))

/-- Does a write cover bytes 0–4; exactly bytes 0–3; exactly bytes 4–7; the whole container? -/
def coversWord (l : List (Option Byte)) : Bool := (l.take 5).all (fun b => b.isSome)
def coversLow (l : List (Option Byte)) : Bool := (l.take 4).all (fun b => b.isSome) && (l.drop 4).all (fun b => b.isNone)
def coversHigh (l : List (Option Byte)) : Bool := (l.take 4).all (fun b => b.isNone) && (l.drop 4).all (fun b => b.isSome)
def coversAll (l : List (Option Byte)) : Bool := l.all (fun b => b.isSome)

/-- A write of one container's bytes (R525). -/
def State.pcieByte (s : State) (ep a : Nat) (l : List (Option Byte)) : State :=
  let held := (s.pcie ep).low
  let s1 := s.setLow ep none
  if coversWord l then
    let r := s1.turnWrite ep a (wd (partVal l))
    r.1.errw ep [r.2]
  else if coversLow l then s1.setLow ep (some (a, partVal l))
  else match held with
    | some (c, v) =>
      if c = a ∧ coversHigh l = true then
        let r := s1.turnWrite ep a (wd (v + partVal l))
        r.1.errw ep [r.2]
      else s1.bump (aPcieCnt ep) 17 0 1
    | none => s1.bump (aPcieCnt ep) 17 0 1

/-- The containers of a write request in increasing address order (R526). -/
def State.pcieWrites (s : State) (ep : Nat) : Nat → List (Nat × List (Option Byte)) → State
  | 0, _ => s
  | _ + 1, [] => s
  | n + 1, x :: l =>
    let b := runBeats ((x :: l).map (fun (y : Nat × List (Option Byte)) => (y.1, 0, if coversAll y.2 then 8 else 0)))
    if b = 0 then (s.pcieByte ep x.1 x.2).pcieWrites ep n l
    else
      let ws := ((x :: l).take (2 * b)).map (fun (y : Nat × List (Option Byte)) => wd (partVal y.2))
      let r := (s.setLow ep none).turnBurst ep x.1 b true ws
      (r.1.errw ep r.2.1).pcieWrites ep n (l.drop (2 * b - 1))

/-- A write request of an endpoint, up to the 512 bytes of its largest payload (Table 13.2). -/
def State.pcieWrite (s : State) (ep off : Nat) (data : List (Option Byte)) : State :=
  if s.pcieCaps.maxPayload < data.length then s
  else if s.draining ep then { s with parked := s.parked ++ [.pcieWrite ep off data] }
  else if 2 ^ 39 ≤ off then (s.setLow ep none).bar4Write ep (off - 2 ^ 39) data
  else
    let l := writeParts off data
    if l = [] then s.setLow ep none else s.pcieWrites ep l.length l

/-- PCIE_WRITE (R525). data: the bytes in address order, none where the byte enable is 0. -/
def execPcieWrite (ep off : Nat) (data : List (Option Byte)) (s : State) : Out :=
  live (epOk ep) s (fun s => (s.trained ep).pcieWrite ep off data)

/-! ## Management Ethernet (R529 to R536) -/

/-- A word of a port's registers. -/
def aEth (p o : Nat) : Nat := aOwn (0xA0 + 8 * p + o)
/-- The session of a port. -/
def State.eth (s : State) (p : Nat) : Option EthSess := if p = 0 then s.eth0 else s.eth1
/-- Put a session, shown in OWN_ETHp_SESS. -/
def State.setEth (s : State) (p : Nat) (x : EthSess) : State :=
  let s1 := s.wr (aEth p 4) (wd (1 + 2 * x.last))
  if p = 0 then { s1 with eth0 := some x } else { s1 with eth1 := some x }

/-- A control message (Table 13.5). -/
structure EthMsg where
  op : Nat
  session : Nat
  seq : Nat
  count : Nat
  addr : Nat
  data : List Byte
deriving DecidableEq, Repr

/-- The fields of a message, whatever its length. -/
def ethFields (l : List Byte) : EthMsg :=
  ⟨beAt l 3 4, beAt l 4 8, beAt l 8 10, beAt l 10 12, beAt l 16 24 % 2 ^ 36, l.drop 24⟩

/-- Bytes of n words in network pair form. -/
def pairLen (n : Nat) : Nat := 9 * ((n + 1) / 2)

/-- Is a message well formed: MAGIC, VER, a known OP, and the length that OP and COUNT give (Table 13.7)? -/
def ethGood (l : List Byte) : Bool :=
  let m := ethFields l
  decide (24 ≤ l.length) && beAt l 0 2 == 0x5447 && beAt l 2 3 == 1 &&
    (if m.op = 0x11 then decide (m.count ≤ 1024) && m.data.length == pairLen m.count
     else (m.op == 1 || m.op == 2 || m.op == 3 || m.op == 0x10) && m.data.length == 0) &&
    (m.op != 1 || m.count == 0)

/-- A response message. -/
def ethResp (m : EthMsg) (session seq count status fidx : Nat) (words : List Word) : List Byte :=
  toBe 2 0x5447 ++ toBe 1 1 ++ toBe 1 m.op ++ toBe 4 session ++ toBe 2 seq ++ toBe 2 count ++ toBe 1 status ++
    toBe 2 fidx ++ toBe 1 0 ++ toBe 8 m.addr ++ netPairs words

/-- A response that reports why a request was not performed. -/
def ethRefusal (m : EthMsg) (status : Nat) : List Byte := ethResp m m.session m.seq m.count status 0xFFFF []

/-- Words from network pair form. -/
def fromPairs : Nat → List Byte → List Word
  | 0, _ => []
  | n + 1, l =>
    let v := beBytes (l.take 9)
    wd (v / 2 ^ 36) :: wd v :: fromPairs n (l.drop 9)

/-- A port's discard count (R529, R534). -/
def State.rxDisc (s : State) (p : Nat) : State := s.bump (aEth p 5) 17 0 1

/-- A session ends: its port's master is reset (R535). -/
def State.endSession (s : State) (p : Nat) : State := (s.dropSession p).resetMaster (2 + p) 0 0 0

/-- A response frame: to the sender, from the addresses that the request was sent to (R530). What no rule gives of its header
(type of service, identification, time to live, whether DF is set and the UDP checksum sent) is free (log entry 82). -/
def ethAnswer (f : EthFlow) (w : BitVec 32) (z : Bool × Bool) (l : List Byte) : List Byte :=
  udpFrame f.back ⟨none, w.toNat % 256, w.toNat / 256 % 65536, if z.1 then 0x4000 else 0, w.toNat / 2 ^ 24, z.2⟩ l

/-- The port answers a request (R530). -/
def State.ethSend (s : State) (p : Nat) (f : EthFlow) (l : List Byte) : State :=
  let w := Config.freeWord s.free
  let z := Config.freeWord s.fresh.free
  s.fresh.fresh.land (.eth p (ethAnswer f w (z.getLsbD 0, z.getLsbD 1) l))

/-- OPEN (R533): a session where there is none, or in place of the source's own; the token is random. -/
def State.ethOpen (s : State) (p : Nat) (f : EthFlow) (m : EthMsg) : State :=
  let mine := (s.eth p).map (fun (x : EthSess) => x.src)
  if m.seq ≠ 0 then s.ethSend p f (ethRefusal m 0x10)
  else if mine.isSome ∧ mine ≠ some f.src then s.ethSend p f (ethRefusal m 0x11)
  else
    let s1 := if mine.isSome then s.endSession p else s
    let tok := Config.freeWord s1.free
    let resp := ethResp m tok.toNat 0 1 0 0xFFFF [wd (s1.rf (aEth p 3) 31 16)]
    (s1.fresh.setEth p ⟨f.src, tok, 0, resp, s1.sym⟩).ethSend p f resp

/-- Words read one by one from an address on: codes and words. -/
def State.ethReads (s : State) (m : Nat) : Nat → Nat → State × List Nat × List Word
  | _, 0 => (s, [], [])
  | a, n + 1 =>
    let r := s.turnRead m a
    let q := r.1.ethReads m ((a + 1) % 2 ^ 36) n
    (q.1, r.2.1 :: q.2.1, r.2.2 :: q.2.2)

/-- Words written one by one: codes. -/
def State.ethWrites (s : State) (m : Nat) : Nat → List Word → State × List Nat
  | _, [] => (s, [])
  | a, w :: l =>
    let r := s.turnWrite m a w
    let q := r.1.ethWrites m ((a + 1) % 2 ^ 36) l
    (q.1, r.2 :: q.2)

/-- STATUS and FIDX from the codes of the words: the first that did not end OK. -/
def ethStatus (codes : List Nat) : Nat × Nat :=
  match codes.findIdx? (fun c => c != 0) with
  | some i => (codes.getD i 0, i)
  | none => (0, 0xFFFF)

/-- A request of the session is performed: the state and its response. -/
def State.ethPerform (s : State) (p : Nat) (m : EthMsg) : State × List Byte :=
  if m.op = 0x10 then
    let r := s.ethReads (2 + p) m.addr m.count
    let c := ethStatus r.2.1
    (r.1, ethResp m m.session m.seq m.count c.1 c.2 r.2.2)
  else if m.op = 0x11 then
    let r := s.ethWrites (2 + p) m.addr ((fromPairs ((m.count + 1) / 2) m.data).take m.count)
    let c := ethStatus r.2
    (r.1, ethResp m m.session m.seq m.count c.1 c.2 [])
  else (s, ethResp m m.session m.seq m.count 0 0xFFFF [])

/-- The largest COUNT of a READ (R536). -/
def State.readMax (s : State) (p : Nat) : Nat := if s.rb (aEth p 3) 32 then 1024 else 320

/-- A request within a session (R534): performed, repeated, or refused; one that comes while the port's master is drained
waits (R400). -/
def State.ethInSession (s : State) (p : Nat) (f : EthFlow) (frame : List Byte) (x : EthSess) (m : EthMsg) : State :=
  if m.seq = x.last then (s.setEth p { x with since := s.sym }).ethSend p f x.resp
  else if m.seq ≠ (x.last + 1) % 65536 then s.ethSend p f (ethRefusal m 0x10)
  else if m.op = 0x10 ∧ s.readMax p < m.count then s.ethSend p f (ethRefusal m 0x12)
  else if s.draining (2 + p) then { s with parked := s.parked ++ [.eth p frame] }
  else
    let r := s.ethPerform p m
    let s1 := (r.1.setEth p ⟨f.src, x.token, m.seq, r.2, s.sym⟩).ethSend p f r.2
    if m.op = 2 then s1.endSession p else s1

/-- A control message from a source (R531 to R536). -/
def State.ethRequest (s : State) (p : Nat) (f : EthFlow) (frame l : List Byte) : State :=
  let m := ethFields l
  if !(ethGood l) then s.ethSend p f (ethRefusal m 0x13)
  else if m.op = 1 then s.ethOpen p f m
  else match s.eth p with
    | none => s.ethSend p f (ethRefusal m 0x14)
    | some x =>
      if x.src ≠ f.src ∨ m.session ≠ x.token.toNat then s.rxDisc p else s.ethInSession p f frame x m

/-- Does the port accept a frame (R529)? -/
def State.ethAccepts (s : State) (p : Nat) (frame : List Byte) : Bool :=
  let f := frameFlow frame
  let ip := s.rf (aEth p 2) 31 0
  udpGood frame && f.dmac == s.rf (aEth p 0) 23 0 * 2 ^ 24 + s.rf (aEth p 1) 23 0 && f.dport == s.rf (aEth p 3) 15 0 &&
    (ip == 0 || f.dip == ip)

/-- A port receives a frame, from destination address to FCS; one that it does not accept is discarded and counted (R529). -/
def State.ethFrame (s : State) (p : Nat) (frame : List Byte) : State :=
  if s.ethAccepts p frame then s.ethRequest p (frameFlow frame) frame (udpPayload frame) else s.rxDisc p

/-- OPEN (R533). -/
def execEthOpen (port : Nat) (frame : List Byte) (s : State) : Out := live (portOk port) s (fun s => s.ethFrame port frame)
/-- CLOSE (R535). -/
def execEthClose (port : Nat) (frame : List Byte) (s : State) : Out := live (portOk port) s (fun s => s.ethFrame port frame)
/-- KEEPALIVE (R532). -/
def execEthKeepalive (port : Nat) (frame : List Byte) (s : State) : Out :=
  live (portOk port) s (fun s => s.ethFrame port frame)
/-- READ (R532). -/
def execEthRead (port : Nat) (frame : List Byte) (s : State) : Out := live (portOk port) s (fun s => s.ethFrame port frame)
/-- WRITE (R532). -/
def execEthWrite (port : Nat) (frame : List Byte) (s : State) : Out := live (portOk port) s (fun s => s.ethFrame port frame)

/-- ETH_DISCARD (R529): a frame that the port does not accept, or a request with a wrong token or source (R534), is counted. -/
def execEthDiscard (port : Nat) (frame : List Byte) (s : State) : Out := live (portOk port) s (fun s => s.ethFrame port frame)

/-- The session has been idle for TO milliseconds (R535). -/
def State.sessionTimeout (s : State) (p : Nat) : State :=
  match s.eth p with
  | some x => if s.due (x.since + s.rf (aEth p 3) 31 16 * symMs) then (s.bump (aEth p 5) 29 18 1).endSession p else s
  | none => s

/-- SESSION_TIMEOUT (R535). -/
def execSessionTimeout (port : Nat) (s : State) : Out := live (portOk port) s (fun s => s.sessionTimeout port)

/-! ## The end of a drain (R399, R400) -/

/-- A request that has waited for the end of its master's drain is served as a new one. -/
def State.unpark (s : State) (x : Parked) : State :=
  match x with
  | .xact r => s.issue r false
  | .pcieRead ep off len => s.pcieRead ep off len
  | .pcieWrite ep off data => s.pcieWrite ep off data
  | .eth port frame => s.ethFrame port frame

/-- The drain of master m ends, and the requests that waited for it are served in the order issued. -/
def State.drained (s : State) (m : Nat) : State :=
  let s1 := s.drainEnd m
  if s1.draining m then s1
  else
    let s2 := { s1 with parked := s1.parked.filter (fun (x : Parked) => x.master ≠ m) }
    (s1.parked.filter (fun (x : Parked) => x.master = m)).foldl (fun (s : State) x => s.unpark x) s2

/-- XRDRAIN (R399, R400). -/
def execXrdrain (m : Nat) (s : State) : Out := live (masterOk m) s (fun s => s.drained m)

end Sys2Proof.Machine
end

