-- ==== Sys2Proof/Machine/Dispatch.lean ====
section
/-!
DEFINITION. The dispatch: one arm for each command, each a direct call of its meaning.
-/
namespace Sys2Proof.Machine

/-- The effect of a command on everything but the queue. -/
def exec (i : Instr) (s : State) : Host.Outcome State Fault Refusal :=
  match i with
  | .marker inp pos codeErrs offset => Sys2Proof.Machine.execMarker inp pos codeErrs offset s
  | .markerMissing inp codeErrs => Sys2Proof.Machine.execMarkerMissing inp codeErrs s
  | .tickset inp bytes ended => Sys2Proof.Machine.execTickset inp bytes ended s
  | .accept inp bytes ended => Sys2Proof.Machine.execAccept inp bytes ended s
  | .milestone => Sys2Proof.Machine.execMilestone s
  | .registerWrite m addr w => Sys2Proof.Machine.execRegisterWrite m addr w s
  | .pkgTimCommit m w => Sys2Proof.Machine.execPkgTimCommit m w s
  | .tileCommit m d p w => Sys2Proof.Machine.execTileCommit m d p w s
  | .dieNetCommit m d w => Sys2Proof.Machine.execDieNetCommit m d w s
  | .dramCommit m d w => Sys2Proof.Machine.execDramCommit m d w s
  | .linkGcommit m d g w => Sys2Proof.Machine.execLinkGcommit m d g w s
  | .linkCommit m n w => Sys2Proof.Machine.execLinkCommit m n w s
  | .pwrCommit m w => Sys2Proof.Machine.execPwrCommit m w s
  | .tick0Read m => Sys2Proof.Machine.execTick0Read m s
  | .pkgTimCntclr m w => Sys2Proof.Machine.execPkgTimCntclr m w s
  | .netDataAccess m d write w => Sys2Proof.Machine.execNetDataAccess m d write w s
  | .rpdAccess m d write w => Sys2Proof.Machine.execRpdAccess m d write w s
  | .tileSpData m d p write w => Sys2Proof.Machine.execTileSpData m d p write w s
  | .dbellWrite m d p w => Sys2Proof.Machine.execDbellWrite m d p w s
  | .droplk m d p w => Sys2Proof.Machine.execDroplk m d p w s
  | .dropin m d p w => Sys2Proof.Machine.execDropin m d p w s
  | .tileTcrWrite m d p w => Sys2Proof.Machine.execTileTcrWrite m d p w s
  | .poison m d p w => Sys2Proof.Machine.execPoison m d p w s
  | .bundle d p ext => Sys2Proof.Machine.execBundle d p ext s
  | .repI d p => Sys2Proof.Machine.execRepI d p s
  | .repS d p => Sys2Proof.Machine.execRepS d p s
  | .loopI d p => Sys2Proof.Machine.execLoopI d p s
  | .loopS d p ext => Sys2Proof.Machine.execLoopS d p ext s
  | .seal d p => Sys2Proof.Machine.execSeal d p s
  | .signpostMacro d p => Sys2Proof.Machine.execSignpostMacro d p s
  | .trapEntry d p => Sys2Proof.Machine.execTrapEntry d p s
  | .latebus d p => Sys2Proof.Machine.execLatebus d p s
  | .toll d p => Sys2Proof.Machine.execToll d p s
  | .doorbell d p => Sys2Proof.Machine.execDoorbell d p s
  | .migrate d p => Sys2Proof.Machine.execMigrate d p s
  | .routineBegin d p => Sys2Proof.Machine.execRoutineBegin d p s
  | .waitmResume d p => Sys2Proof.Machine.execWaitmResume d p s
  | .overrun d p => Sys2Proof.Machine.execOverrun d p s
  | .skip d p => Sys2Proof.Machine.execSkip d p s
  | .abandon d p => Sys2Proof.Machine.execAbandon d p s
  | .tollEvent d p => Sys2Proof.Machine.execTollEvent d p s
  | .storeRetire d p => Sys2Proof.Machine.execStoreRetire d p s
  | .writeBack d p coin => Sys2Proof.Machine.execWriteBack d p coin s
  | .scrubStep d p => Sys2Proof.Machine.execScrubStep d p s
  | .dataSideAccess agent d p addr write w coin => Sys2Proof.Machine.execDataSideAccess agent d p addr write w coin s
  | .dataSideTimeout agent d p addr write => Sys2Proof.Machine.execDataSideTimeout agent d p addr write s
  | .vaultWipe d cause => Sys2Proof.Machine.execVaultWipe d cause s
  | .vaultWipeEnd d => Sys2Proof.Machine.execVaultWipeEnd d s
  | .flitForward d j inp out flip => Sys2Proof.Machine.execFlitForward d j inp out flip s
  | .inboundArrive d p inb => Sys2Proof.Machine.execInboundArrive d p inb s
  | .ibrakBlockReceive l dir flip => Sys2Proof.Machine.execIbrakBlockReceive l dir flip s
  | .retrain l => Sys2Proof.Machine.execRetrain l s
  | .crossroadsTransaction m addr beats write data busy => Sys2Proof.Machine.execCrossroadsTransaction m addr beats write data busy s
  | .crossroadsTimeout m addr write => Sys2Proof.Machine.execCrossroadsTimeout m addr write s
  | .ioWindowAnswer d p => Sys2Proof.Machine.execIoWindowAnswer d p s
  | .lookupAnswer d p st => Sys2Proof.Machine.execLookupAnswer d p st s
  | .masterReset m flight => Sys2Proof.Machine.execMasterReset m flight s
  | .xrdrain m => Sys2Proof.Machine.execXrdrain m s
  | .load m => Sys2Proof.Machine.execLoad m s
  | .loadDone => Sys2Proof.Machine.execLoadDone s
  | .arm m => Sys2Proof.Machine.execArm m s
  | .swap m => Sys2Proof.Machine.execSwap m s
  | .discard m => Sys2Proof.Machine.execDiscard m s
  | .disarm m => Sys2Proof.Machine.execDisarm m s
  | .armAt => Sys2Proof.Machine.execArmAt s
  | .disarmAt => Sys2Proof.Machine.execDisarmAt s
  | .tileSwitch d p => Sys2Proof.Machine.execTileSwitch d p s
  | .swapComplete => Sys2Proof.Machine.execSwapComplete s
  | .detourConvergent d slot layby start w => Sys2Proof.Machine.execDetourConvergent d slot layby start w s
  | .detourNonconvergent d slot layby freeze => Sys2Proof.Machine.execDetourNonconvergent d slot layby freeze s
  | .stateCopyEnd d slot => Sys2Proof.Machine.execStateCopyEnd d slot s
  | .ingressFrame n tick phase line coin => Sys2Proof.Machine.execIngressFrame n tick phase line coin s
  | .arrivalWindowClose n tick coin => Sys2Proof.Machine.execArrivalWindowClose n tick coin s
  | .egressWriteArrive d p => Sys2Proof.Machine.execEgressWriteArrive d p s
  | .slotClose n => Sys2Proof.Machine.execSlotClose n s
  | .egressFrameSend n => Sys2Proof.Machine.execEgressFrameSend n s
  | .slotToDelayArea n => Sys2Proof.Machine.execSlotToDelayArea n s
  | .lockGain n line => Sys2Proof.Machine.execLockGain n line s
  | .lockloss n line gone => Sys2Proof.Machine.execLockloss n line gone s
  | .datagramSend n => Sys2Proof.Machine.execDatagramSend n s
  | .ethRxDiscard n => Sys2Proof.Machine.execEthRxDiscard n s
  | .historyWrite d g => Sys2Proof.Machine.execHistoryWrite d g s
  | .historyHold d => Sys2Proof.Machine.execHistoryHold d s
  | .readoutRequest d => Sys2Proof.Machine.execReadoutRequest d s
  | .readoutServe d => Sys2Proof.Machine.execReadoutServe d s
  | .datagramHand d => Sys2Proof.Machine.execDatagramHand d s
  | .hostRingEntry d => Sys2Proof.Machine.execHostRingEntry d s
  | .refresh d => Sys2Proof.Machine.execRefresh d s
  | .dramScrubStep d => Sys2Proof.Machine.execDramScrubStep d s
  | .rowRepair d parcel spares => Sys2Proof.Machine.execRowRepair d parcel spares s
  | .stackTollOver d row => Sys2Proof.Machine.execStackTollOver d row s
  | .dramRetire m d w => Sys2Proof.Machine.execDramRetire m d w s
  | .stacklost d cause => Sys2Proof.Machine.execStacklost d cause s
  | .stackReturn d => Sys2Proof.Machine.execStackReturn d s
  | .rebuildEnd d => Sys2Proof.Machine.execRebuildEnd d s
  | .pcieRead ep off len => Sys2Proof.Machine.execPcieRead ep off len s
  | .pcieWrite ep off data => Sys2Proof.Machine.execPcieWrite ep off data s
  | .ethOpen port frame => Sys2Proof.Machine.execEthOpen port frame s
  | .ethClose port frame => Sys2Proof.Machine.execEthClose port frame s
  | .ethKeepalive port frame => Sys2Proof.Machine.execEthKeepalive port frame s
  | .ethRead port frame => Sys2Proof.Machine.execEthRead port frame s
  | .ethWrite port frame => Sys2Proof.Machine.execEthWrite port frame s
  | .ethDiscard port frame => Sys2Proof.Machine.execEthDiscard port frame s
  | .sessionTimeout port => Sys2Proof.Machine.execSessionTimeout port s
  | .chal m => Sys2Proof.Machine.execChal m s
  | .claim m w => Sys2Proof.Machine.execClaim m w s
  | .claimResult m => Sys2Proof.Machine.execClaimResult m s
  | .renew m w => Sys2Proof.Machine.execRenew m w s
  | .leaseExpiry => Sys2Proof.Machine.execLeaseExpiry s
  | .handover m w => Sys2Proof.Machine.execHandover m w s
  | .handoverWindowClose => Sys2Proof.Machine.execHandoverWindowClose s
  | .keySet m w => Sys2Proof.Machine.execKeySet m w s
  | .keyRemove m w => Sys2Proof.Machine.execKeyRemove m w s
  | .nonce m => Sys2Proof.Machine.execNonce m s
  | .attest m => Sys2Proof.Machine.execAttest m s
  | .lcreq m => Sys2Proof.Machine.execLcreq m s
  | .svn m => Sys2Proof.Machine.execSvn m s
  | .attestKeyBegin => Sys2Proof.Machine.execAttestKeyBegin s
  | .attestKeyReady => Sys2Proof.Machine.execAttestKeyReady s
  | .tamper src => Sys2Proof.Machine.execTamper src s
  | .waymark d => Sys2Proof.Machine.execWaymark d s
  | .ringWrite d => Sys2Proof.Machine.execRingWrite d s
  | .win0Read m => Sys2Proof.Machine.execWin0Read m s
  | .wchkRead m => Sys2Proof.Machine.execWchkRead m s
  | .oldest m w => Sys2Proof.Machine.execOldest m w s
  | .flush ok => Sys2Proof.Machine.execFlush ok s
  | .sectorErase ok => Sys2Proof.Machine.execSectorErase ok s
  | .pfw => Sys2Proof.Machine.execPfw s
  | .flasherr => Sys2Proof.Machine.execFlasherr s
  | .lead => Sys2Proof.Machine.execLead s
  | .ceilingDown d => Sys2Proof.Machine.execCeilingDown d s
  | .ceilingUp => Sys2Proof.Machine.execCeilingUp s
  | .modeChange => Sys2Proof.Machine.execModeChange s
  | .voutCommand ack => Sys2Proof.Machine.execVoutCommand ack s
  | .domainReady d dom => Sys2Proof.Machine.execDomainReady d dom s
  | .domainTrip d dom => Sys2Proof.Machine.execDomainTrip d dom s
  | .pwrIbkret m w => Sys2Proof.Machine.execPwrIbkret m w s
  | .ledgerAccrue d mean => Sys2Proof.Machine.execLedgerAccrue d mean s
  | .ledgerWrite => Sys2Proof.Machine.execLedgerWrite s
  | .monitorRead d slacks => Sys2Proof.Machine.execMonitorRead d slacks s
  | .tileRetire m w => Sys2Proof.Machine.execTileRetire m w s
  | .retirementDetour d p start => Sys2Proof.Machine.execRetirementDetour d p start s
  | .fwUpdate m w => Sys2Proof.Machine.execFwUpdate m w s
  | .fwRejoinTimeout => Sys2Proof.Machine.execFwRejoinTimeout s
  | .porstNRise => Sys2Proof.Machine.execPorstNRise s
  | .porstNPulse => Sys2Proof.Machine.execPorstNPulse s
  | .startup bad => Sys2Proof.Machine.execStartup bad s
  | .autoarm => Sys2Proof.Machine.execAutoarm s
  | .pkgBootcfgWrite m w => Sys2Proof.Machine.execPkgBootcfgWrite m w s
  | .dieBist m d w => Sys2Proof.Machine.execDieBist m d w s
  | .dieBistDone d pass => Sys2Proof.Machine.execDieBistDone d pass s
  | .haltedTileReset d p => Sys2Proof.Machine.execHaltedTileReset d p s
  | .extest tdi => Sys2Proof.Machine.execExtest tdi s
  | .samplePreload tdi => Sys2Proof.Machine.execSamplePreload tdi s
  | .idcode => Sys2Proof.Machine.execIdcode s
  | .tapClamp => Sys2Proof.Machine.execTapClamp s
  | .highz => Sys2Proof.Machine.execHighz s
  | .extestPulse tdi => Sys2Proof.Machine.execExtestPulse tdi s
  | .extestTrain tdi => Sys2Proof.Machine.execExtestTrain tdi s
  | .craccess dr => Sys2Proof.Machine.execCraccess dr s
  | .bootstat => Sys2Proof.Machine.execBootstat s
  | .intscan => Sys2Proof.Machine.execIntscan s
  | .bypass => Sys2Proof.Machine.execBypass s
  | .tamperDeassert src => Sys2Proof.Machine.execTamperDeassert src s
  | .pfwNRise => Sys2Proof.Machine.execPfwNRise s
  | .ibrakTrainEnd l lanesBad authOk => Sys2Proof.Machine.execIbrakTrainEnd l lanesBad authOk s
  | .ibrakBlockSend l dir flips => Sys2Proof.Machine.execIbrakBlockSend l dir flips s
  | .tjSample d temps => Sys2Proof.Machine.execTjSample d temps s
  | .wardenRejoin d => Sys2Proof.Machine.execWardenRejoin d s

end Sys2Proof.Machine
end

