-- ==== Sys2Proof/Safety.lean ====
section
/-!
DEFINITION. The conditions and relations that claims are stated with: when the part serves a master's access, and what a
command leaves as it was.
-/
namespace Sys2Proof.Machine

/-- The toll register that counts a master's beats (R397): the one register that any access of the master may change
beside the one it names. -/
def aToll (m : Nat) : Nat := aDie (masterDie m) (0x120 + xrClass m)

/-- The register at an address of region 0 or 1 is there for master m: the part is out of reset, the master is there and none
of its drains runs, phase 2 of start-up has ended, and the die that serves the address (for a package register the lead
warden's) is one of the eight and is reached. -/
def Reached (m addr : Nat) (s : State) : Prop :=
  s.held = false ∧ s.isMaster m = true ∧ s.early = false ∧ s.servedBy addr < 8 ∧ s.reaches m (s.servedBy addr) = true

/-- No other transaction waits at the target port of an address (R397). -/
def Alone (addr : Nat) (s : State) : Prop := ∀ r ∈ s.xrq, s.portOf r.addr ≠ s.portOf addr

/-- A transaction of master m to the register at an address of region 0 or 1 is served when it is issued. -/
def Served (m addr : Nat) (s : State) : Prop := Reached m addr s ∧ Alone addr s

/-- A write of the register is served and permitted (R2, R537). -/
def Permitted (m addr : Nat) (s : State) : Prop := Served m addr s ∧ s.mayWrite m addr = true

/-- A transaction of master m to a register of physical tile p of die d is served when it is issued (R392, R681). -/
def TileServed (m d p : Nat) (s : State) : Prop :=
  s.held = false ∧ s.isMaster m = true ∧ s.early = false ∧ s.reaches m d = true ∧ s.rowOn d p = true ∧
  Alone (aTile d p 0) s

/-- Every register word but those that p names reads as before. -/
def RegsBut (p : Nat → Prop) (s t : State) : Prop := ∀ q, ¬ p q → t.rd q = s.rd q

/-- Every physical tile but that of key k is as before. -/
def TilesBut (k : Nat) (s t : State) : Prop := ∀ e q, tkey e q ≠ k → t.tile e q = s.tile e q

/-- The stores beside registers and tiles are as before: flash, what outlives a power-up, stacks, links, junctions,
Ibrak links, logbook rings. -/
def StoresKept (s t : State) : Prop :=
  t.flash = s.flash ∧ t.drams = s.drams ∧ t.links = s.links ∧ t.juncs = s.juncs ∧ t.ibk = s.ibk ∧
  t.ibl = s.ibl ∧ t.logs = s.logs

/-- The stores beside registers and tiles are as before but for the units that the access of a master puts into the queues
of the Ibrak links it crosses (R362, R382). -/
def AccessKept (s t : State) : Prop :=
  t.flash = s.flash ∧ t.drams = s.drams ∧ t.links = s.links ∧ t.juncs = s.juncs ∧
  (∀ l dir, { t.dir l dir with queue := (s.dir l dir).queue } = s.dir l dir) ∧ t.ibl = s.ibl ∧ t.logs = s.logs

/-- A register access answered OK that changed no register but those named, and no tile and no store. -/
def RegsOnly (m : Nat) (p : Nat → Prop) (data : List Word) (s t : State) : Prop :=
  RegsBut (fun q => p q ∨ q = aToll m) s t ∧ t.tiles = s.tiles ∧ AccessKept s t ∧ t.tick = s.tick ∧
  t.out = s.out ++ [.resp m 0 data]

/-- An access of a register of one tile answered OK that changed no other tile, no store, and no register outside the tile
but the master's toll count. -/
def TileAnswered (m d p : Nat) (data : List Word) (s t : State) : Prop :=
  RegsBut (fun q => q = aToll m) s t ∧ TilesBut (tkey d p) s t ∧ AccessKept s t ∧ t.tick = s.tick ∧
  t.out = s.out ++ [.resp m 0 data]

/-- A command of one tile that changed nothing but that tile, the waymarks raised and the count of findings. -/
def TileOnly (d p : Nat) (s t : State) : Prop :=
  t.regs = s.regs ∧ TilesBut (tkey d p) s t ∧ StoresKept s t ∧ t.tick = s.tick ∧ t.out = s.out ∧ t.img = s.img

/-- A tile that issues plainly: no expansion, repetition, loop, seal or stepped operation in progress, no bytes kept of one,
nothing that a RETX restored, no TCR write under way, no software trap pending, no poisoned result. -/
def Tile.PlainIssue (t : Tile) : Prop :=
  t.exp = none ∧ t.rep = none ∧ t.loop = none ∧ t.sealed = false ∧ t.stepping = false ∧ t.hold = none ∧ t.rsmRep = none ∧
  t.rsmMc = none ∧ t.tcrQ = [] ∧ t.soft = none ∧ t.psn = []

/-- Tile p of die d, outside any pair, is to issue the plain bundle i of one move m from a register or a literal, and v is the
word that the move carries; every granule of its instruction memory is a clean codeword. -/
def State.OneMove (s : State) (d p : Nat) (i : Insn) (m : Move) (v : Word) : Prop :=
  s.held = false ∧ d < 8 ∧ p < 73 ∧ s.canIssue d p (s.tile d p) = true ∧ s.partner d p = none ∧ (s.tile d p).PlainIssue ∧
  (s.tile d p).insn (s.tile d p).level = .ok i ∧ i.undef = none ∧ i.sealed = false ∧ i.rep = .none ∧ i.body = .bundle [m] ∧
  (m.src < 0x20 ∨ 0xE0 ≤ m.src) ∧ v = (if 0xE0 ≤ m.src then m.imm else (s.tile d p).sk m.src) ∧
  ∀ k, eccSyn ((s.tile d p).gr 2 k) = 0

/-- The tile as a bundle that issues at cycle c finds it: what the last bcopy step wrote is in memory, and the buffered
stores that are due have retired (R241, R246). -/
def Tile.atIssue (t : Tile) (c : Nat) : Tile := { t.bcpFlush with bid := t.bid + 1 }.sbAt c

/-- A bundle of tile p of die d that issued at cycle c is over: nothing outside the tile changed, its memories and registers
are as u has them, and no socket changed but those that P names and the tol counts. -/
def BundledAs (d p c : Nat) (u : Tile) (P : Nat → Prop) (s t : State) : Prop :=
  TileOnly d p s t ∧ c < (t.tile d p).clk ∧ (t.tile d p).gran = u.gran ∧ (t.tile d p).io = u.io ∧
  ∀ q, ¬ P q → ¬ (0xD0 ≤ q ∧ q < 0xD8) → (t.tile d p).sk q = (s.tile d p).sk q

/-- As BundledAs, of a bundle that leaves memories and registers as it found them. -/
def Bundled (d p c : Nat) (P : Nat → Prop) (s t : State) : Prop := BundledAs d p c ((s.tile d p).atIssue c) P s t

/-- The tile runs on at an address, and nothing is raised. -/
def Tile.RunsOn (t : Tile) (a : Nat) : Prop := t.pc = a ∧ t.raised = none ∧ t.phase = .run

/-- The life-cycle request in a master's security mailbox (Table 14.11). -/
def State.lcInput (s : State) (m : Nat) : LcReq := lcReq ((s.bytesAt (aMine m (aSec 0x200)) 741).take 144)

/-- The outcome that R572 gives the request of operation op in a master's security mailbox, GO having found a nonce live. -/
def State.lcOutcome (s : State) (m op : Nat) (nonce : Option (List Byte)) : Nat :=
  let pk := s.bytesAt (aMine m (aSec 0x110)) 17
  let len := match oidHeight (pkOid pk) with
    | some h => sigLen h
    | none => 0
  s.lcCheck m op (s.lcInput m) nonce pk
    (((s.bytesAt (aMine m (aSec 0x200)) 741).drop 144).take len)

/-- The newer of the two records from a flash offset on holds l, and no flash outside the two has changed (R544, R615); the
numbers of a record have not run out (log entry 12). -/
def RecordSaved (a : Nat) (l : List Byte) (s t : State) : Prop :=
  ((∀ x, s.newerRecord a = some x → x.1 + 2 < 2 ^ 64) → l.length ≤ 65492 → ∃ n, t.newerRecord a = some (n, l)) ∧
  ∀ b, b < a ∨ a + 0x2_0000 ≤ b → t.flashByte b = s.flashByte b

/-- A tile that waits where it may follow a swap whose tick is a: no routine runs, nothing is raised or due, and its next
tick is one of the new image's (R428). -/
def State.waitsForSwap (s : State) (d p : Nat) (a : Tick) : Prop :=
  (s.tile d p).phase = .wait ∧ (s.tile d p).level = 0 ∧ (s.tile d p).inRtn = false ∧ (s.tile d p).raised = none ∧
  (s.tile d p).eventDue (s.partner d p).isSome = false ∧ notEarlier (s.tile d p).nextN a = true

/-- Line bits bring a link in frame mode one whole frame: l its bits, each with what became of its codeword, and rest the net
stream after them (R456). -/
def State.Hears (s : State) (n : Nat) (line : List Bool) (l : List (Bool × Nat)) (rest : List (Option (Bool × Nat))) : Prop :=
  s.lineOn n = true ∧ s.clamped = false ∧ s.linkCfg n 16 15 = 0 ∧ s.linkCfg n 1 0 = 1 ∧
  ((s.lineIn n line).link n).rxl.frame = none ∧ fromStart ((s.lineIn n line).link n).rxl.net = l.map some ++ rest ∧
  l.length = 24 + 36 * s.linkW n

/-- A whole frame of W words as received is whole: its CRC is that of its bits, and no codeword of it was uncorrectable
(R453, R459). -/
def frameGood (w : Nat) (l : List (Bool × Nat)) : Bool :=
  (ofBitsMsb (((l.map (fun b => b.1)).drop (14 + 36 * w)).take 10) ==
    crc10 (((l.map (fun b => b.1)).drop 1).take (13 + 36 * w))) && l.all (fun b => b.2 != 2)

/-- The words of tick N of a link went to the places that the DEPOSIT records name, those of different tiles, and to no other
tile (R406). -/
def Deposited (n : Nat) (tick : Tick) (words : List Word) (coin : Bool) (s t : State) : Prop :=
  ((s.depositsAt n tick).map (fun e => tkey e.1 e.2.1)).Nodup →
    (∀ e ∈ s.depositsAt n tick, t.tile e.1 e.2.1 =
      { (s.tile e.1 e.2.1).depositAt n coin e.2.2 words with marks := [] }) ∧
    ∀ d p, tkey d p ∉ (s.depositsAt n tick).map (fun e => tkey e.1 e.2.1) → t.tile d p = s.tile d p

/-- The stored granules of a slot in the delay area: for its W words and the header before them, f gives the data of each
granule, and none needs correction (R464). -/
def State.DelayClean (s : State) (n : Nat) (tick : Tick) (f : Nat → BitVec 72) : Prop :=
  ∀ i, i ≤ s.linkW n → eccClass false ((s.stack (n / 64)).gr (4 * s.delayPlace n tick + i / 2)) = (.clean, f (i / 2))

/-- A frame that a management Ethernet port accepts, with the next request m of its session x (R529, R534), while no drain of
the port's master runs. -/
def State.EthNext (s : State) (p : Nat) (frame : List Byte) (x : EthSess) (m : EthMsg) : Prop :=
  s.ethAccepts p frame = true ∧ ethGood (udpPayload frame) = true ∧ m = ethFields (udpPayload frame) ∧ s.eth p = some x ∧
  x.src = (frameFlow frame).src ∧ m.session = x.token.toNat ∧ m.seq ≠ x.last ∧ m.seq = (x.last + 1) % 65536 ∧
  s.draining (2 + p) = false

/-- The port answers a frame with one response message. -/
def Answers (p : Nat) (frame body : List Byte) (s t : State) : Prop :=
  ∃ w z, t.out = s.out ++ [.eth p (ethAnswer (frameFlow frame) w z body)]

/-- A waymark REFUSED (code 0x011) stands in the queue of its die for a register and the value that was refused (R6). -/
def Refused (a : Nat) (v : Word) (t : State) : Prop := ∃ k ∈ t.marks, k.code = 0x011 ∧ k.d0 = wd a ∧ k.d1 = v

/-- The block's queue holds only commands that name parts it has. -/
def State.queueOk (s : State) : Prop := ∀ i ∈ s.pending, i.wf = true

end Sys2Proof.Machine
end

