-- ==== Sys2Proof/Certificates/Slice0/Obligations.lean ====
section
/-!
DEFINITION. The statements for the provers, one for each claim, each with the rules of spec/ it is about.
-/
open Sys2Proof Sys2Proof.Machine

/-- For every command i and state s, step of s with i at the front of its queue is exec of i on s with the queue's rest;
on an empty queue the block idles (the model's choice, log entry 1). (spec/INDEX.md, spec/00_scope.md) -/
def Obligations.StepRunsFrontCommand : Prop :=
  (∀ (i : Instr) (s : State), step (s.withFront i) = exec i s) ∧ ∀ s : State, s.pending = [] → step s = .next s

/-- In reset (PORST_N low) every command that names parts the part has, other than PORST_N_RISE, leaves the whole state
as it is (model's reading, log entry 2); PORST_N_RISE takes the part out of reset with PHASE 0 of start-up and
TICKVALID 0, and keeps the flash contents. (R629) -/
def Obligations.HeldPartIgnoresCommands : Prop :=
  (∀ (i : Instr) (s : State), s.held = true → i.wf = true → i ≠ .porstNRise → exec i s = .next s) ∧
  ∀ s : State, s.held = true → ∃ t, exec .porstNRise s = .next t ∧ t.held = false ∧ t.rf aBoot 3 0 = 0 ∧
    t.tickValid = false ∧ t.flash = s.flash ∧ t.pending = s.pending

/-- exec answers a next state, with the queue as it was, for exactly the commands whose operands name dies, tiles,
links, ports, stacks and masters that the part has; any other command stops with noSuchPart, and nothing is ever
refused. (spec/00_scope.md, spec/01_the_part_as_a_whole.md) -/
def Obligations.AnswersExactlyWellFormed : Prop :=
  ∀ (i : Instr) (s : State), (i.wf = true → ∃ t, exec i s = .next t ∧ t.pending = s.pending) ∧
    (i.wf = false → exec i s = .fault .noSuchPart)

/-- If every waiting command names only parts the block has, a step answers a next state (never a fault, never a
refusal), the next state's queue is the rest of the queue in order, and it satisfies the same condition.
(spec/00_scope.md, spec/01_the_part_as_a_whole.md) -/
def Obligations.QueueInvariantKept : Prop :=
  ∀ s : State, s.queueOk → ∃ t, step s = .next t ∧ t.queueOk ∧ t.pending = s.pending.tail

/-- Right after power-up the queue is empty, PORST_N is low, nothing is listed in flash or in a tile's memories, and
every field of every register, of the part and of its tiles, holds the reset value of its table: PKG_ID names the
part, the period is 8 symbols, the tick is not valid, nobody is steward; the state satisfies the queue invariant.
From the PORST_N edge on the milestones come from the flywheel, FLYWHEEL is 1, and the tick number is 0. The empty
flash, and the value 0 of a field whose reset comes from a fuse, from flash or from the ledger record, are the
model's choice (log entry 5). (R60, R70, R629, spec/02_ticks_milestones_deadlines.md,
spec/19_register_map_summary.md) -/
def Obligations.ResetState : Prop :=
  State.reset.queueOk ∧ State.reset.pending = [] ∧ State.reset.held = true ∧ State.reset.flash = [] ∧
  State.reset.tiles = [] ∧ State.reset.tick = 0 ∧ State.reset.rf 0 15 0 = 0x8512 ∧ State.reset.tickValid = false ∧
  State.reset.period = 8 ∧ State.reset.steward = 7 ∧ (∀ p, (State.reset.tile 0 p).sk 0x20 = 1) ∧
  (∀ (m a : Nat) (b : Block) (r : RegSpec) (k : Nat), masterOk m = true → regAt m a = some (b, r, k) →
    ∀ f ∈ r.fields, f.ixr = 0 → State.reset.rf k f.hi f.lo = f.rst) ∧
  (∀ (d p o i : Nat) (r : RegSpec), findReg regsTile o = some (r, i) →
    ∀ f ∈ r.fields, f.ixr = 0 → (State.reset.tile d p).iof o f.hi f.lo = f.rst) ∧
  ∃ t, exec .porstNRise State.reset = .next t ∧ t.flywheel = true ∧ t.tickValid = false ∧ t.tick = 0 ∧ t.queueOk

/-- On an input that tracks or supplies, a marker at any position other than PERIOD adds one to CODE beside the code
errors it came with (saturating at 4,095), raises no milestone and leaves the tick; a marker at PERIOD with no code
error, no earlier fault and no misplaced marker in the tick, on an eligible input, lengthens its run of correct
markers by one, ends its run of missing ones and changes no register. An expected position that passes with no
marker adds one to MISS of the input, saturating at 4,095, if the input supplies or tracks; on any other input MISS
stays. (R45, R44, R58) -/
def Obligations.MarkersCounted : Prop :=
  ((∀ (s : State) (i pos errs : Nat) (off : Int), s.held = false → i < 2 →
    ((s.tm i).tracking = true ∨ s.supplies i = true) → pos ≠ s.period →
    ∃ t, exec (.marker i pos errs off) s = .next t ∧
      t.rf (aTimErr i) 23 12 = min 4095 (s.rf (aTimErr i) 23 12 + errs + 1) ∧
      RegsBut (fun q => q = aTimErr i) s t ∧ t.tick = s.tick ∧ t.tiles = s.tiles ∧ t.out = s.out) ∧
  ∀ (s : State) (i : Nat) (off : Int), s.held = false → i < 2 → (s.tm i).tracking = true → (s.tm i).fault = false → (s.tm i).early = false →
    s.elig i = true →
    ∃ t, exec (.marker i s.period 0 off) s = .next t ∧ (t.tm i).run = (s.tm i).run + 1 ∧ (t.tm i).missRun = 0 ∧
      (t.tm i).tracking = true ∧ (∀ q, t.rd q = s.rd q) ∧ t.tick = s.tick) ∧
  (∀ (s : State) (i errs : Nat), s.held = false → i < 2 →
    ∃ t, exec (.markerMissing i errs) s = .next t ∧ t.tick = s.tick ∧
      t.rf (aTimErr i) 11 0 = if (s.tm i).tracking = true ∨ s.supplies i = true then min 4095 (s.rf (aTimErr i) 11 0 + 1)
        else s.rf (aTimErr i) 11 0)

/-- With no image armed and no ARM pending, a well-formed TICKSET on an input that the part acts on loads the tick
number, so that the next milestone takes the number carried, and sets TICKVALID; the tick in force stays until that
milestone. (R54) -/
def Obligations.TicksetLoadsNextTick : Prop :=
  ∀ (s : State) (i : Nat) (l pl : List Byte), s.held = false → i < 2 → parseMsg l true = some (1, pl) →
    s.actsOn i 1 = true → s.armed = false → s.arming = false →
    ∃ t, exec (.tickset i l true) s = .next t ∧ t.nextTick = BitVec.ofNat 48 (beBytes pl) ∧ t.tickValid = true ∧
      t.tick = s.tick ∧ RegsBut (fun q => q = aTimStat) s t ∧
      ∃ u, exec .milestone t = .next u ∧ u.tick = BitVec.ofNat 48 (beBytes pl)

/-- At a milestone with no tick number loaded by a TICKSET, the 48-bit tick number advances by one modulo 2^48. A field
held by a COMMIT comes into force and PENDING clears: PKG_TIM_CFG, but for PERIOD while an image is armed or an ARM
is pending; DRAM_HCFG, but for the HG fields if their sum exceeds 240 or an image is armed; LINK_CFG, but for MODE,
FECRX, FECTX and TEST of a link that the armed image names, and MODE 2 in a group of 10.3125 Gbaud; a lookup
descriptor of a tile, but for one with KSH + KW > 36 or KW + KW2 > 32; what is refused stays, with waymark REFUSED,
the register and the value it would have taken. A milestone-class field of TILE_RTN comes into force. While an input
supplies, the slew closes by up to 2 ps, and SLEWING clears within 50 ps with waymark 0x021. (R6, R7, R10, R53, R65,
R66, R67, R267, R439, R441, R483) -/
def Obligations.MilestoneAdvancesTick : Prop :=
  (∀ s : State, s.held = false → s.tickLoad = none →
    ∃ t, exec .milestone s = .next t ∧ t.tick.toNat = (s.tick.toNat + 1) % 2 ^ 48) ∧
  (∀ (s : State) (x : Stage), s.held = false → s.mile = [] → s.going = [x] →
    ∃ t, exec .milestone s = .next t ∧ t.going = [] ∧
      (x.key = aTimCfg → t.rb 0x41 1 = false ∧
        if (s.armed || s.arming) = true ∧ x.changes (s.rd x.key) (maskOf 9 0) = true then
          t.rd x.key = (x.without (maskOf 9 0)).apply (s.rd x.key) ∧ Refused x.key (x.apply (s.rd x.key)) t
        else t.rd x.key = x.apply (s.rd x.key)) ∧
      (∀ d v, d < 8 → x.key = aDram d 0 → v = x.apply (s.rd x.key) → t.rb (aDram d 2) 1 = false ∧
        if (240 < fld v 5 0 + fld v 11 6 + fld v 17 12 + fld v 23 18 ∨ s.armed = true) ∧
            x.changes (s.rd x.key) (maskOf 23 0) = true then
          t.rd x.key = (x.without (maskOf 23 0)).apply (s.rd x.key) ∧ Refused x.key v t
        else t.rd x.key = v) ∧
      ∀ n, n < 512 → x.key = aLink n 0 → t.rb (aLink n 2) 1 = false ∧
        if s.named n = true ∧ x.changes (s.rd x.key) (maskOf 3 0 ||| maskOf 16 15) = true then
          t.rd x.key = (x.without (maskOf 3 0 ||| maskOf 16 15)).apply (s.rd x.key) ∧ Refused x.key (x.apply (s.rd x.key)) t
        else if x.changes (s.rd x.key) (maskOf 1 0) = true ∧ fld (x.apply (s.rd x.key)) 1 0 = 2 ∧ s.rate n = 1 then
          t.rd x.key = (x.without (maskOf 1 0)).apply (s.rd x.key) ∧ Refused x.key (x.apply (s.rd x.key)) t
        else t.rd x.key = x.apply (s.rd x.key)) ∧
  (∀ (s : State) (d p : Nat) (x : Stage), s.held = false → d < 8 → p < 73 → (∀ e, e < 8 → s.detoursOn e = []) →
    ((s.tile d p).mile = [] → (s.tile d p).going = [x] → 0x30 ≤ x.key → x.key < 0x38 →
      ∃ t, exec .milestone s = .next t ∧ bitOf ((t.tile d p).ior 0x3F) 1 = false ∧
        if lkdBad (if x.key % 2 = 1 then x.apply ((s.tile d p).ior x.key) else (s.tile d p).ior (x.key + 1)) = true then
          (t.tile d p).ior x.key = (s.tile d p).ior x.key ∧
            Refused (aTile d p x.key) (x.apply ((s.tile d p).ior x.key)) t
        else (t.tile d p).ior x.key = x.apply ((s.tile d p).ior x.key)) ∧
    ((s.tile d p).mile = [x] → (s.tile d p).going = [] → x.key = 0x100 →
      ∃ t, exec .milestone s = .next t ∧ (t.tile d p).ior x.key = x.apply ((s.tile d p).ior x.key) ∧
        (t.tile d p).mile = [])) ∧
  ∀ s : State, s.held = false → s.flywheel = false →
    ∃ t, exec .milestone s = .next t ∧
      t.slewLeft = (if 2 < s.slewLeft then s.slewLeft - 2 else if s.slewLeft < -2 then s.slewLeft + 2 else 0) ∧
      (s.rb aTimStat 4 = true →
        if -50 ≤ t.slewLeft ∧ t.slewLeft ≤ 50 then
          t.rb aTimStat 4 = false ∧ ∃ k ∈ t.marks, k.code = 0x021 ∧ k.d0 = wd s.active
        else t.rb aTimStat 4 = true)

/-- An accepted ACCEPT is passed to the readout engines of all eight stacks, with the tick, the profile and the tag it
carries and the number of the milestone after which its end arrived; no register and no tile changes. (R50) -/
def Obligations.AcceptReachesReadout : Prop :=
  ∀ (s : State) (i : Nat) (l pl : List Byte), s.held = false → i < 2 → parseMsg l true = some (2, pl) →
    s.actsOn i 2 = true →
    ∃ t, exec (.accept i l true) s = .next t ∧ t.regs = s.regs ∧ t.tiles = s.tiles ∧
      t.reqs = s.reqs ++ [(⟨BitVec.ofNat 48 (beBytes (pl.take 6)), beBytes ((pl.drop 6).take 2), beBytes (pl.drop 8), false,
        s.tick⟩, [0, 1, 2, 3, 4, 5, 6, 7])]

/-- A served read of PKG_TIM_TICK0 by master m answers the 36 low bits of the tick and latches the 12 high bits in the
master's own PKG_TIM_TICK1; no other register changes but the master's toll count. A permitted write of
PKG_TIM_CNTCLR sets PKG_TIM_ERRn to 0 for each input whose bit is 1 and leaves the other; no other register changes
but the master's toll count. (R71, R72) -/
def Obligations.TickReadAndCounterClear : Prop :=
  (∀ (s : State) (m : Nat), masterOk m = true → Served m 0x43 s →
    ∃ t, exec (.tick0Read m) s = .next t ∧ t.rd (aMine m 0x44) = wd (s.tick.toNat / 2 ^ 36) ∧
      RegsOnly m (fun q => q = aMine m 0x44) [wd s.tick.toNat] s t) ∧
  (∀ (s : State) (m : Nat) (w : Word), masterOk m = true → Permitted m 0x47 s →
    ∃ t, exec (.pkgTimCntclr m w) s = .next t ∧
      (∀ i, i < 2 → t.rd (aTimErr i) = if bitOf w i then 0 else s.rd (aTimErr i)) ∧
      RegsOnly m (fun q => q = aTimErr 0 ∨ q = aTimErr 1) [] s t)

/-- A permitted write with GO = 1 of PKG_TIM_COMMIT, DIE_NET_COMMIT, DRAM_COMMIT, LINK_GCOMMIT, LINK_COMMIT or
PWR_COMMIT sets PENDING = 1, holds what is staged for that instance for the next milestone, leaves every other
staged field staged, and changes no field in force: no other register but the master's toll count, no tile, no
store. (R8, R10, R69, R401, R519, R477, R478, R628) -/
def Obligations.CommitSetsPending : Prop :=
  ∀ (s : State) (m d g n : Nat) (w : Word), masterOk m = true → d < 8 → g < 4 → n < 512 → bitOf w 0 = true →
    ∀ x ∈ ([(.pkgTimCommit m w, 0x41), (.dieNetCommit m d w, aDie d 0x102), (.dramCommit m d w, aDram d 2),
      (.linkGcommit m d g w, aGrp d g 1), (.linkCommit m n w, aLink n 2), (.pwrCommit m w, aPwr 1)] : List (Instr × Nat)),
      Permitted m x.2 s →
      ∃ t, exec x.1 s = .next t ∧ t.rb x.2 1 = true ∧
        t.going = stageAll s.going (s.staged.filter (fun (y : Stage) => commitOf y.key == x.2)) ∧
        t.staged = s.staged.filter (fun (y : Stage) => commitOf y.key != x.2) ∧
        RegsOnly m (fun q => q = x.2) [] s t

/-- A permitted write of LINK_RXERR0 of link n is in force at once; one of LINK_CFG stages the fields of the word that
name no reserved encoding, leaves the value in force, and raises waymark REFUSED with the register and the value
exactly when a field named one; both answer OK and change no other register but the master's toll count. A write to
any register of regions 0 and 1 by a master that is served but not permitted, of a word that is not the master's own
(a per-master word of which the master has no instance included, log entry 60), ends DENIED: no register changes but
the master's toll count and the two words in which its die records the response with its address, nothing is staged,
and the last waymark is DENIED with the master's code and the register. A write to an address of those regions at
which no table names a register, or at which the permitted master has no instance of one, ends NOTARGET, recorded in
the same way. (R1, R2, R4, R5, R7, R395, R537, R678) -/
def Obligations.RegisterWriteByClass : Prop :=
  ∀ (s : State) (m n a : Nat) (w : Word), masterOk m = true → n < 512 → a < 0x2_0000_0000 →
    (Permitted m (aLink n 8) s →
      ∃ t, exec (.registerWrite m (aLink n 8) w) s = .next t ∧ t.rd (aLink n 8) = w ∧ t.staged = s.staged ∧
        RegsOnly m (fun q => q = aLink n 8) [] s t) ∧
    (Permitted m (aLink n 0) s →
      ∃ t, exec (.registerWrite m (aLink n 0) w) s = .next t ∧ RegsOnly m (fun _ => False) [] s t ∧
        t.staged = stageAdd s.staged (aLink n 0) (maskOf 4 2 ||| (if fld w 1 0 = 3 then 0 else maskOf 1 0) |||
          (if fld w 14 5 = 0 then 0 else maskOf 14 5) ||| (if fld w 16 15 = 3 then 0 else maskOf 16 15)) w ∧
        (if fld w 1 0 = 3 ∨ fld w 14 5 = 0 ∨ fld w 16 15 = 3 then
          ∃ k, t.marks.getLast? = some k ∧ k.code = 0x011 ∧ k.die = n / 64 ∧ k.kind = 2 ∧ k.index = n ∧
            k.d0 = wd (aLink n 0) ∧ k.d1 = w
         else ∀ k ∈ t.marks, k ∈ s.marks ∨ k.code = 0x031)) ∧
    (Served m a s → regNamed a = true → (∀ (b : Block) (r : RegSpec) (k : Nat), regAt m a = some (b, r, k) → r.perMaster = false) →
      s.mayWrite m a = false →
      ∃ t x, exec (.registerWrite m a w) s = .next t ∧
        RegsBut (fun q => q = aToll m ∨ q = aDie (masterDie m) 0x124 ∨ q = aDie (masterDie m) 0x125) s t ∧
        t.rd (aDie (masterDie m) 0x124) = wd a ∧ t.rf (aDie (masterDie m) 0x125) 2 0 = 3 ∧
        t.rf (aDie (masterDie m) 0x125) 10 3 = masterCode m ∧ t.staged = s.staged ∧ t.mile = s.mile ∧
        t.going = s.going ∧ t.tiles = s.tiles ∧ AccessKept s t ∧ t.out = s.out ++ [.resp m 3 []] ∧
        t.marks.getLast? = some x ∧ x.code = 0x010 ∧ x.d0 = wd (masterCode m) ∧ x.d1 = wd a) ∧
    (Served m a s → regAt m a = none → regNamed a = false ∨ s.mayWrite m a = true →
      ∃ t, exec (.registerWrite m a w) s = .next t ∧
        RegsBut (fun q => q = aToll m ∨ q = aDie (masterDie m) 0x124 ∨ q = aDie (masterDie m) 0x125) s t ∧
        t.rd (aDie (masterDie m) 0x124) = wd a ∧ t.rf (aDie (masterDie m) 0x125) 2 0 = 2 ∧
        t.rf (aDie (masterDie m) 0x125) 10 3 = masterCode m ∧ t.staged = s.staged ∧ t.tiles = s.tiles ∧
        AccessKept s t ∧ t.out = s.out ++ [.resp m 2 []])

/-- A permitted write of TILE_COMMIT with GO = 1 holds everything the tile has staged for the next milestone, stages
nothing on, and shows PENDING; every tile register but TILE_COMMIT stays. A permitted write of TILE_DBELL sets its
message and the pending doorbell and changes no other tile register. Both leave every other tile and every store.
(R8, R10, R266, Table 7.8) -/
def Obligations.TileCommitAndDoorbell : Prop :=
  ∀ (s : State) (m d p : Nat) (w : Word), masterOk m = true → d < 8 → p < 73 → TileServed m d p s →
    (s.mayWrite m (aTile d p 0x3F) = true → bitOf w 0 = true →
      ∃ t, exec (.tileCommit m d p w) s = .next t ∧ TileAnswered m d p [] s t ∧
        bitOf ((t.tile d p).ior 0x3F) 1 = true ∧ (t.tile d p).staged = [] ∧
        (t.tile d p).going = stageAll (s.tile d p).going (s.tile d p).staged ∧
        ∀ q, q ≠ 0x3F → (t.tile d p).ior q = (s.tile d p).ior q) ∧
    (s.mayWrite m (aTile d p 8) = true →
      ∃ t, exec (.dbellWrite m d p w) s = .next t ∧ TileAnswered m d p [] s t ∧ (t.tile d p).ior 8 = w ∧
        bitOf ((t.tile d p).ior 7) 0 = true ∧
        ∀ q, q ≠ 7 → q ≠ 8 → (t.tile d p).ior q = (s.tile d p).ior q)

/-- A permitted write of TILE_POP discards, with DROPLK, the head word of each of the four lookup streams whose bit is
1, and with DROPIN the head word of each of the eight inbounds whose bit is 1, leaving the words behind them and
every other port in order, no tile register and nothing else. (R264, R281) -/
def Obligations.PopDiscardsHeads : Prop :=
  ∀ (s : State) (m d p : Nat) (w : Word), masterOk m = true → d < 8 → p < 73 → TileServed m d p s →
    s.mayWrite m (aTile d p 0x2C) = true →
    (∃ t, exec (.droplk m d p w) s = .next t ∧ TileAnswered m d p [] s t ∧ (t.tile d p).io = (s.tile d p).io ∧
      (t.tile d p).inb = (s.tile d p).inb ∧
      ∀ i, i < 4 → (t.tile d p).lkw.filter (fun (x : WordAt) => x.port == i) =
        if bitOf w i then ((s.tile d p).lkw.filter (fun (x : WordAt) => x.port == i)).tail
        else (s.tile d p).lkw.filter (fun (x : WordAt) => x.port == i)) ∧
    ∃ t, exec (.dropin m d p w) s = .next t ∧ TileAnswered m d p [] s t ∧ (t.tile d p).io = (s.tile d p).io ∧
      (t.tile d p).lkw = (s.tile d p).lkw ∧
      ∀ i, i < 8 → (t.tile d p).inb.filter (fun (x : WordAt) => x.port == i) =
        if bitOf w (4 + i) then ((s.tile d p).inb.filter (fun (x : WordAt) => x.port == i)).tail
        else (s.tile d p).inb.filter (fun (x : WordAt) => x.port == i)

/-- A write of TILE_TCR from outside the tile by a permitted master leaves the tile as it is and raises a DENIED
waymark, unless the tile is halted, or not placed with PWR_TDAT.STATE free or retired; then TCR holds at once the
bits of the word that its table gives it (RIG only with a pair partner), and no other tile register changes. That
the discarded write is answered DENIED (response 3) is the model's reading (log entry 30), and that a warden counts
as not placed and free its choice (log entry 98). (R292) -/
def Obligations.TcrWriteFromOutside : Prop :=
  ∀ (s : State) (m d p : Nat) (w : Word), masterOk m = true → d < 8 → p < 73 → TileServed m d p s →
    s.mayWrite m (aTile d p 0) = true →
    ∃ t, exec (.tileTcrWrite m d p w) s = .next t ∧ TilesBut (tkey d p) s t ∧ AccessKept s t ∧
      if (s.tile d p).phase = .halt ∨ ((s.tile d p).placed = false ∧ (s.tileFlag d p = 0 ∨ s.tileFlag d p = 4)) then
        (t.tile d p).tcr = (if (s.partner d p).isSome then w &&& 0x0FFFF3FFF else putFld (w &&& 0x0FFFF3FFF) 7 7 0) ∧
        (∀ q, q ≠ 0 → (t.tile d p).ior q = (s.tile d p).ior q) ∧ t.out = s.out ++ [.resp m 0 []]
      else t.tiles = s.tiles ∧ t.out = s.out ++ [.resp m 3 []] ∧
        ∃ k, t.marks.getLast? = some k ∧ k.code = 0x010 ∧ k.d0 = wd (masterCode m) ∧ k.d1 = wd (aTile d p 0)

/-- With no armed flip mask over it, a permitted write of TILE_POISON with GO = 1 leaves in the granule named its data
bits, corrected if they were correctable, with the poison mark; TILE_MEMUE and every other granule stay. (R349) -/
def Obligations.PoisonMarksGranule : Prop :=
  ∀ (s : State) (m d p : Nat) (w : Word), masterOk m = true → d < 8 → p < 73 → TileServed m d p s →
    s.mayWrite m (aTile d p 0x1C) = true → granNameOk p w = true → bitOf w 17 = true →
    (s.tile d p).flipOn (fld w 16 14) (fld w 13 0) = false →
    ∃ t, exec (.poison m d p w) s = .next t ∧ TileAnswered m d p [] s t ∧
      (t.tile d p).gr (fld w 16 14) (fld w 13 0) =
        eccPoison (eccClass (memCode (fld w 16 14)) ((s.tile d p).gr (fld w 16 14) (fld w 13 0))).2 ∧
      (t.tile d p).ior 0x12 = (s.tile d p).ior 0x12 ∧
      ∀ k, k ≠ (s.tile d p).gkey (fld w 16 14) (fld w 13 0) →
        SMap.get (fun _ => 0) (t.tile d p).gran k = SMap.get (fun _ => 0) (s.tile d p).gran k

/-- A served read of TILE_SP_DATA of a granule that is a codeword answers its four bytes little-endian; a permitted
write, outside the active bank or at P0, with no flip mask armed, stores the four bytes, so that the granule at that
place is the codeword of data that hold them; a write into the active bank at P1 ends DENIED and changes no memory;
each advances TILE_SP_ADDR by one word, wrapping within the bank, and leaves the other tiles and stores. That a
discarded write is answered DENIED and advances the address is the model's reading (log entry 30). A served read
answers the word in force that DIE_NET_IDX (or DRAM_RPX) names; a permitted write stages that word and leaves the
one in force; after either, with INC = 1, the index (of DRAM_RPX the word, then the profile) has advanced by one; no
other register changes but the master's toll count. That a write advances the index too is the model's reading (log
entry 61). (R192, R175, R401, R496, R519) -/
def Obligations.IndexedDataAccess : Prop :=
  (∀ (s : State) (m d p : Nat) (w : Word), masterOk m = true → d < 8 → p < 73 → TileServed m d p s →
    (∀ x : BitVec 72, (s.tile d p).gr 3 ((s.tile d p).spOff / 8) = eccEncode x →
      ∃ t, exec (.tileSpData m d p false w) s = .next t ∧
        TileAnswered m d p [wd (fld x (8 * ((s.tile d p).spOff % 8) + 31) (8 * ((s.tile d p).spOff % 8)))] s t ∧
        (t.tile d p).iof 0x40 11 2 = ((s.tile d p).iof 0x40 11 2 + 1) % 1024 ∧ (t.tile d p).gran = (s.tile d p).gran) ∧
    (s.mayWrite m (aTile d p 0x41) = true → (s.tile d p).sealedCode 3 (s.tile d p).spOff = false →
      (∀ i, (s.tile d p).flipOn 3 i = false) →
      ∀ x : BitVec 72, (s.tile d p).gr 3 ((s.tile d p).spOff / 8) = eccEncode x →
      ∃ t, exec (.tileSpData m d p true w) s = .next t ∧ TileAnswered m d p [] s t ∧
        (t.tile d p).iof 0x40 11 2 = ((s.tile d p).iof 0x40 11 2 + 1) % 1024 ∧
        (t.tile d p).gr 3 ((s.tile d p).spOff / 8) =
          eccEncode (putFld x (8 * ((s.tile d p).spOff % 8) + 31) (8 * ((s.tile d p).spOff % 8)) (fld w 31 0))) ∧
    (s.mayWrite m (aTile d p 0x41) = true → (s.tile d p).sealedCode 3 (s.tile d p).spOff = true →
      ∃ t, exec (.tileSpData m d p true w) s = .next t ∧ t.out = s.out ++ [.resp m 3 []] ∧
        TilesBut (tkey d p) s t ∧ AccessKept s t ∧ (t.tile d p).gran = (s.tile d p).gran ∧
        (t.tile d p).iof 0x40 11 2 = ((s.tile d p).iof 0x40 11 2 + 1) % 1024)) ∧
  (∀ (s : State) (m d : Nat) (w : Word), masterOk m = true → d < 8 →
    (Served m (aDie d 0x101) s →
      ∃ t, exec (.netDataAccess m d false w) s = .next t ∧
        RegsOnly m (fun q => q = aDie d 0x100) [s.rd (s.netPlace d).1] s t ∧
        t.rf (aDie d 0x100) 11 0 = (s.rf (aDie d 0x100) 11 0 + natB (s.rb (aDie d 0x100) 20)) % 4096) ∧
    (Permitted m (aDie d 0x101) s →
      ∃ t, exec (.netDataAccess m d true w) s = .next t ∧ RegsOnly m (fun q => q = aDie d 0x100) [] s t ∧
        t.staged = stageAdd s.staged (s.netPlace d).1 (s.netPlace d).2 w ∧
        t.rf (aDie d 0x100) 11 0 = (s.rf (aDie d 0x100) 11 0 + natB (s.rb (aDie d 0x100) 20)) % 4096) ∧
    (Served m (aDram d 0x21) s →
      ∃ t, exec (.rpdAccess m d false w) s = .next t ∧
        RegsOnly m (fun q => q = aDram d 0x20) [s.rd (s.profPlace d).1] s t ∧
        4 * t.rf (aDram d 0x20) 5 0 + t.rf (aDram d 0x20) 7 6 =
          (4 * s.rf (aDram d 0x20) 5 0 + s.rf (aDram d 0x20) 7 6 + natB (s.rb (aDram d 0x20) 8)) % 256) ∧
    (Permitted m (aDram d 0x21) s →
      ∃ t, exec (.rpdAccess m d true w) s = .next t ∧ RegsOnly m (fun q => q = aDram d 0x20) [] s t ∧
        t.staged = stageAdd s.staged (s.profPlace d).1 (s.profPlace d).2 w ∧
        4 * t.rf (aDram d 0x20) 5 0 + t.rf (aDram d 0x20) 7 6 =
          (4 * s.rf (aDram d 0x20) 5 0 + s.rf (aDram d 0x20) 7 6 + natB (s.rb (aDram d 0x20) 8)) % 256))

/-- A tile ready to issue, outside any loop, repetition, expansion and pair, whose next instruction is a plain bundle of
one move from a register or a literal, completes it. To a register, an operand socket or an accumulator half, the
destination holds the value if the guard is true and keeps its own if not. With the guard true: an alu operation
that does not trap sets the result, the carry socket and, at P0, the flags; a store enters the store buffer; a load
of a tile that buffers none gives the word, nonet or granule of memory; an io load gives the tile register, an io
store writes it as the register says, and an access of the window joins the port's requests; a look appends its
request; lnk.et and lnk.ec append the egress word or completion and note the slot; msh.s puts the flit into its
channel, with the entry that it met; ctl.jump, bc, call and ret go on at their target, call with its frame written,
ret with the saved words restored; ctl.waitm waits for the next milestone, and at P1 the routine ends; a software
trap is raised; RETX restores TCR, flags, pc, a pending TCR write, the wait and a loop in progress. No other socket
but the tol counts changes, no memory and no tile register but as the bundle found them (the buffered stores due by
its issue retired), and nothing outside the tile. Model's choices in it: a word that a bcopy held is written before
(log entry 34), a partial store-buffer hit (log entry 67). (R95, R99, R184, R199, R236, R256, R257, R262, R269,
R276, R294, R316) -/
def Obligations.BundleMovesRegister : Prop :=
  ∀ (s : State) (d p ext : Nat) (i : Insn) (m : Move) (v : Word), s.OneMove d p i m v →
    ((m.dst < 0x20 ∨ (0x38 ≤ m.dst ∧ m.dst < 0x80 ∧ sockKind m.dst = some .rw)) →
      ∃ t c, exec (.bundle d p ext) s = .next t ∧ Bundled d p c (fun q => q = m.dst) s t ∧ (t.tile d p).RunsOn i.next ∧
        (t.tile d p).sk m.dst = (if (s.tile d p).guardOk m = true then v else (s.tile d p).sk m.dst)) ∧
    ((s.tile d p).guardOk m = true →
      (∀ b x, (b = 0x38 ∨ b = 0x40 ∨ b = 0x48 ∨ b = 0x50) → m.dst = b + 2 →
        aluOp m.op ((s.tile d p).sk b) ((s.tile d p).sk (b + 1)) v = some x →
        (x.ovf && x.v && bitOf (s.tile d p).tcr 4) = false →
        ∃ t c, exec (.bundle d p ext) s = .next t ∧ (t.tile d p).RunsOn i.next ∧
          Bundled d p c (fun q => q = b + 3 ∨ q = b + 4 ∨ q = 0x32) s t ∧
          (t.tile d p).sk (b + 3) = x.r ∧ (t.tile d p).sk (b + 4) = wdB x.c ∧
          (t.tile d p).sk 0x32 = (if (s.tile d p).level = 0 then (s.tile d p).sk 0x32 else flagsOf x.r x.c x.v)) ∧
      (∀ b q, (b = 0x80 ∨ b = 0x88) → m.dst = b + 2 → bitOf ((s.tile d p).ior 0x1E) 0 = false →
        (s.tile d p).map (p == 72) (effAddr ((s.tile d p).sk b) v) = some q →
        (0x21 ≤ m.op → m.op ≤ 0x2F →
          ∃ t c, exec (.bundle d p ext) s = .next t ∧ Bundled d p c (fun _ => False) s t ∧ (t.tile d p).RunsOn i.next ∧
            (t.tile d p).sb =
              (((s.tile d p).atIssue c).sbPush q (m.op - 0x20) ((s.tile d p).sk (b + 1)) c).sb) ∧
        (∀ g, (s.tile d p).sb = [] →
          eccClass false ((s.tile d p).bcpFlush.gr (dataGran q).1 (dataGran q).2) = (.clean, g) →
          ((m.op = 0 ∨ (4 ≤ m.op ∧ m.op < 12)) →
            ∃ t c, exec (.bundle d p ext) s = .next t ∧ Bundled d p c (fun k => k = b + 3) s t ∧
              (t.tile d p).RunsOn i.next ∧ (t.tile d p).sk (b + 3) =
                (if m.op = 0 then granWord g q else if m.op < 8 then wd (nonet (granWord g q) (m.op % 4))
                  else sxWord 9 (nonet (granWord g q) (m.op % 4)))) ∧
          (m.op = 2 → (s.tile d p).map2 (p == 72) (effAddr ((s.tile d p).sk b) v) = some q →
            ∃ t c, exec (.bundle d p ext) s = .next t ∧ Bundled d p c (fun k => k = b + 3 ∨ k = b + 4) s t ∧
              (t.tile d p).RunsOn i.next ∧ (t.tile d p).sk (b + 3) = granWord g 0 ∧
              (t.tile d p).sk (b + 4) = granWord g 1))) ∧
      (∀ e r, m.dst = 0x92 → e = effAddr ((s.tile d p).sk 0x90) v → e < 0x8000 → e ≠ 0x41 → tileReg p e = some r →
        (m.op = 0 →
          ∃ t c, exec (.bundle d p ext) s = .next t ∧ Bundled d p c (fun q => q = 0x93) s t ∧
            (t.tile d p).RunsOn i.next ∧ (t.tile d p).sk 0x93 =
              (if e = 0 then tcrShow false ((s.tile d p).ior 0) else ((s.tile d p).atIssue c).ior e)) ∧
        (m.op = 0x10 → e ≠ 0 → (s.tile d p).level ≠ 0 ∨ r.1.hasRws = false →
          ∃ t c, exec (.bundle d p ext) s = .next t ∧ (t.tile d p).RunsOn i.next ∧
            BundledAs d p c (((s.tile d p).atIssue c).regWrite s.tick d p e 1 ((s.tile d p).sk 0x91)) (fun _ => False) s t)) ∧
      (∀ e, m.dst = 0x92 → e = effAddr ((s.tile d p).sk 0x90) v → 0x8000 ≤ e → e < 0x10000 → (s.tile d p).level = 2 →
        (m.op = 0 ∨ m.op = 0x10) → (s.tile d p).port.length < 16 →
        ∃ t c, exec (.bundle d p ext) s = .next t ∧ Bundled d p c (fun _ => False) s t ∧ (t.tile d p).RunsOn i.next ∧
          (t.tile d p).port = (if m.op = 0x10 then s.tile d p else (s.tile d p).dropLoads).port ++
            [⟨m.op == 0x10, e, (s.tile d p).iof 0x28 20 0 * 2 ^ 15 + e % 2 ^ 15, (s.tile d p).sk 0x91, false,
              (s.tile d p).winHeld⟩]) ∧
      (m.dst = 0xA2 → m.op < 4 → bitOf ((s.tile d p).ior (0x30 + 2 * m.op)) 15 = true →
        (s.tile d p).lkHeld m.op + 2 ^ (s.tile d p).iof (0x30 + 2 * m.op) 13 12 ≤ 16 →
        ∃ t c r, exec (.bundle d p ext) s = .next t ∧ Bundled d p c (fun _ => False) s t ∧ (t.tile d p).RunsOn i.next ∧
          (t.tile d p).lkReq = (s.tile d p).lkReq ++ [r] ∧ r.stream = m.op ∧ r.held = (s.tile d p).lookHeld ∧
          r.left = 2 ^ (s.tile d p).iof (0x30 + 2 * m.op) 13 12 ∧
          ∀ x ka kb kw, s.tableOf d p ((s.tile d p).iof (0x30 + 2 * m.op) 11 0) = some x →
            kw = (s.tile d p).iof (0x31 + 2 * m.op) 10 6 →
            ka = ((s.tile d p).sk 0xA0).toNat / 2 ^ (s.tile d p).iof (0x31 + 2 * m.op) 5 0 % 2 ^ kw →
            kb = ((s.tile d p).sk 0xA1).toNat % 2 ^ (s.tile d p).iof (0x31 + 2 * m.op) 15 11 →
            r.home = (x.stack, x.base) ∧ r.off =
              (if bitOf ((s.tile d p).ior (0x30 + 2 * m.op)) 14 = true then kb * 2 ^ kw + ka else ka) % 2 ^ 36 %
                2 ^ x.logn * 2 ^ x.lsz) ∧
      (∀ x, (m.dst = 0xB1 ∨ m.dst = 0xB2) → (s.tile d p).slotAt m.op s.tick = some x → (s.tile d p).cpl.contains x = false →
        (s.tile d p).egFull = false → (m.dst = 0xB1 → ((s.tile d p).sk 0xB0).toNat < s.linkW x.1) →
        ∃ t c, exec (.bundle d p ext) s = .next t ∧ Bundled d p c (fun _ => False) s t ∧ (t.tile d p).RunsOn i.next ∧
          (t.tile d p).eg = (s.tile d p).eg ++ [if m.dst = 0xB1 then
            ⟨x.1, m.op, x.2, ((s.tile d p).sk 0xB0).toNat, v, (s.tile d p).epoch, false⟩
            else ⟨x.1, m.op, x.2, 0, 0, (s.tile d p).epoch, true⟩] ∧
          (t.tile d p).wr = (if m.dst = 0xB1 then slotAdd (s.tile d p).wr x else (s.tile d p).wr) ∧
          (t.tile d p).cpl = (if m.dst = 0xB2 then slotAdd (s.tile d p).cpl x else (s.tile d p).cpl)) ∧
      (∀ k, k < 4 → m.dst = 0xC0 + k → bitOf ((s.tile d p).ior (0x60 + m.op)) 14 = true →
        (s.tile d p).iof (0x60 + m.op) 13 12 = k → (s.tile d p).chFull k = false →
        ∃ t c x, exec (.bundle d p ext) s = .next t ∧ Bundled d p c (fun _ => False) s t ∧ (t.tile d p).RunsOn i.next ∧
          (t.tile d p).outc.getLast? = some x ∧ (t.tile d p).outc.length = (s.tile d p).outc.length + 1 ∧ x.port = k ∧
          x.flit = flitMake v false (s.tile d p).epoch ((s.tile d p).ctlTick s.tick).toNat
            ((s.tile d p).iof (0x60 + m.op) 11 0) (s.tile d p).iepoch ∧
          x.ent = some (s.rd (aNet d p (flitBank x.flit) (flitRoute x.flit)))) ∧
      (m.dst = 0x2F →
        ∃ t c, exec (.bundle d p ext) s = .next t ∧ Bundled d p c (fun _ => False) s t ∧ (t.tile d p).pc = i.next ∧
          (t.tile d p).phase = .run ∧ (t.tile d p).raised = some ⟨m.op, v, i.next, 0, false, true, false, c⟩) ∧
      (m.guard = 0 ∨ (s.tile d p).level ≠ 0 →
        (m.dst = 0x28 → v.toNat < 0x10000 →
          ∃ t c, exec (.bundle d p ext) s = .next t ∧ Bundled d p c (fun _ => False) s t ∧
            (t.tile d p).RunsOn v.toNat) ∧
        (∀ u k, m.dst = 0x29 → (s.tile d p).sb = [] →
          ((s.tile d p).atIssue 0).callOp m.op i.next 0 v = .ok (u, k) →
          ∃ t c, exec (.bundle d p ext) s = .next t ∧ BundledAs d p c u (fun _ => False) s t ∧
            (t.tile d p).RunsOn v.toNat) ∧
        (∀ u l sp a k, m.dst = 0x2A → (s.tile d p).sb = [] →
          ((s.tile d p).atIssue 0).retOp 0 = (u, .ok (l, sp, a, k)) →
          ∃ t c, exec (.bundle d p ext) s = .next t ∧
            BundledAs d p c (u.iowf 0x06 15 0 sp) (fun q => ∃ x ∈ l, x.1 = q) s t ∧
            (t.tile d p).RunsOn a ∧ ∀ x ∈ l, (t.tile d p).sk x.1 = x.2 &&& skMask x.1) ∧
        (m.dst = 0x2C →
          ∃ t c, exec (.bundle d p ext) s = .next t ∧ TileOnly d p s t ∧ (t.tile d p).phase = .wait ∧
            (t.tile d p).pc = i.next ∧ (t.tile d p).waitAt = s.tick + 1 ∧ (t.tile d p).raised = none ∧
            (t.tile d p).gran = ((s.tile d p).atIssue c).gran ∧
            ((s.tile d p).level = 0 → (t.tile d p).inRtn = false) ∧
            ((s.tile d p).level ≠ 0 → Bundled d p c (fun _ => False) s t))) ∧
      ((s.tile d p).level ≠ 0 → m.dst = 0x30 → v.toNat < 0x10000 →
        ∃ t c, exec (.bundle d p ext) s = .next t ∧ Bundled d p c (fun _ => False) s t ∧
          (t.tile d p).RunsOn (if bcCond m.op ((s.tile d p).sk 0x32) = some true then v.toNat else i.next)) ∧
      (∀ ent, m.dst = 0x31 → (s.tile d p).level ≠ 0 →
        ent = (if bitOf ((s.tile d p).ior 2) 16 then 0 else if bitOf ((s.tile d p).ior 2) 17 then 1 else 2) →
        retxBad (s.tile d p).tcr (retxKeep (s.tile d p).tcr ((s.tile d p).ior 3)) ent = false →
        (bitOf ((s.tile d p).ior 2) 15 = true →
          retxBad (s.tile d p).tcr (retxKeep (s.tile d p).tcr ((s.tile d p).ior 4)) ent = false) →
        ∃ t c, exec (.bundle d p ext) s = .next t ∧ TileOnly d p s t ∧ (t.tile d p).raised = none ∧
          (t.tile d p).gran = ((s.tile d p).atIssue c).gran ∧ (t.tile d p).pc = (s.tile d p).iof 1 15 0 ∧
          (t.tile d p).tcr = tcrMask false (retxKeep (s.tile d p).tcr ((s.tile d p).ior 3)) ∧
          (t.tile d p).sk 0x32 = wd ((s.tile d p).iof 2 3 0) ∧
          (t.tile d p).tcrQ = (if bitOf ((s.tile d p).ior 2) 15 then
            [(retxKeep (s.tile d p).tcr ((s.tile d p).ior 4), 2)] else []) ∧
          (t.tile d p).phase = (if bitOf ((s.tile d p).ior 2) 14 then .wait else .run) ∧
          (∀ q, q ≠ 0 → (t.tile d p).ior q = ((s.tile d p).atIssue c).ior q) ∧
          (if bitOf ((s.tile d p).ior 0x49) 32 then ∃ l, (t.tile d p).loop = some l ∧ l.start = (s.tile d p).iof 0x49 15 0 ∧
              l.nb = (s.tile d p).iof 0x49 23 16 ∧ l.idx = (s.tile d p).iof 0x49 31 24 ∧ l.lrem = (s.tile d p).iof 0x4A 17 0
            else (t.tile d p).loop = none) ∧
          ∀ q, q ≠ 0x32 → ¬ (0xD0 ≤ q ∧ q < 0xD8) → (t.tile d p).sk q = (s.tile d p).sk q))

/-- For all operands: alu.add and addv give the sum modulo 2^36, a carry exactly when the unsigned sum does not fit 36
bits and an overflow exactly when the signed sum does not fit, sub and subv likewise with a borrow, and addv and
subv alone let the overflow trap, which with TCR.OVE = 1 is OVF; adds, subs, addus and subus saturate; and, or, xor
and not are bitwise and set no carry. divs rounds toward zero, with the two corners of R215 and their traps; divu
divides unsigned. mul, mulu and mulsu give the 72-bit product and leave the accumulator, mac, macu, msub and msubu
add it to or take it from the accumulator modulo 2^72, dot4u and dot4s the sum of the nonets' products. ext, msk and
ins work on the bits of the field that the control word names; popcount counts; nperm and bperm choose the nonets
that their control word names, and the zips and unzips interleave them. (R196, R204, R205, R207, R208, R211, R215,
R217, R218, R224, R225, R227) -/
def Obligations.AluArithmetic : Prop :=
  (∀ a b t : Word, ∀ op ovf, (op, ovf) ∈ [(0x01, false), (0x05, true)] →
    ∃ x, aluOp op a b t = some x ∧ x.r = a + t ∧ x.c = decide (2 ^ 36 ≤ a.toNat + t.toNat) ∧
      x.v = decide (a.toInt + t.toInt < -(2 ^ 35) ∨ 2 ^ 35 ≤ a.toInt + t.toInt) ∧ x.ovf = ovf) ∧
  (∀ a b t : Word, ∀ op ovf, (op, ovf) ∈ [(0x02, false), (0x06, true)] →
    ∃ x, aluOp op a b t = some x ∧ x.r = a - t ∧ x.c = decide (a.toNat < t.toNat) ∧
      x.v = decide (a.toInt - t.toInt < -(2 ^ 35) ∨ 2 ^ 35 ≤ a.toInt - t.toInt) ∧ x.ovf = ovf) ∧
  (∀ a b t : Word,
    (∃ x, aluOp 0x08 a b t = some x ∧ x.r = a &&& t ∧ x.c = false) ∧
    (∃ x, aluOp 0x09 a b t = some x ∧ x.r = a ||| t ∧ x.c = false) ∧
    (∃ x, aluOp 0x0A a b t = some x ∧ x.r = a ^^^ t ∧ x.c = false) ∧
    (∃ x, aluOp 0x0C a b t = some x ∧ x.r = ~~~t ∧ x.c = false) ∧
    (∃ x, aluOp 0x38 a b t = some x ∧ x.r.toInt = max (-(2 ^ 35)) (min (2 ^ 35 - 1) (a.toInt + t.toInt)) ∧
      x.v = decide (x.r.toInt ≠ a.toInt + t.toInt)) ∧
    (∃ x, aluOp 0x39 a b t = some x ∧ x.r.toInt = max (-(2 ^ 35)) (min (2 ^ 35 - 1) (a.toInt - t.toInt)) ∧
      x.v = decide (x.r.toInt ≠ a.toInt - t.toInt)) ∧
    (∃ x, aluOp 0x3A a b t = some x ∧ x.r.toNat = min (2 ^ 36 - 1) (a.toNat + t.toNat) ∧
      x.c = decide (2 ^ 36 ≤ a.toNat + t.toNat)) ∧
    (∃ x, aluOp 0x3B a b t = some x ∧ x.r.toNat = a.toNat - t.toNat ∧ x.c = decide (a.toNat < t.toNat))) ∧
  (∀ (u : Tile) (lvl b op c : Nat) (w : Word) (x : AluOut), aluOp op (u.sk b) (u.sk (b + 1)) w = some x → x.ovf = true →
    x.v = true → bitOf u.tcr 4 = true → u.aluFx lvl b op c w = .error (7, op * 256 + b + 2)) ∧
  (∀ a t : Word,
    (t = 0 → ∃ x, divOp 0 a t = some x ∧ x.q = (if a.toInt < 0 then 0x800000000 else 0x7FFFFFFFF) ∧ x.rm = a ∧
      x.c = true ∧ x.v = false ∧ x.trap = 6) ∧
    (a.toInt = -(2 ^ 35) → t.toInt = -1 → ∃ x, divOp 0 a t = some x ∧ x.q = a ∧ x.rm = 0 ∧ x.c = false ∧ x.v = true ∧
      x.trap = 7) ∧
    (t ≠ 0 → ¬ (a.toInt = -(2 ^ 35) ∧ t.toInt = -1) → ∃ x, divOp 0 a t = some x ∧
      a.toInt = x.q.toInt * t.toInt + x.rm.toInt ∧ x.rm.toInt.natAbs < t.toInt.natAbs ∧
      (x.rm = 0 ∨ (x.rm.toInt < 0 ↔ a.toInt < 0)) ∧ x.c = false ∧ x.v = false ∧ x.trap = 0) ∧
    (t = 0 → ∃ x, divOp 1 a t = some x ∧ x.q = 0xFFFFFFFFF ∧ x.rm = a ∧ x.c = true ∧ x.trap = 6) ∧
    (t ≠ 0 → ∃ x, divOp 1 a t = some x ∧ a.toNat = x.q.toNat * t.toNat + x.rm.toNat ∧ x.rm.toNat < t.toNat ∧
      x.c = false ∧ x.trap = 0)) ∧
  (∀ (u : Tile) (lvl op c : Nat) (w : Word) (x : DivOut), divOp op (u.sk 0x78) w = some x →
    ((x.trap = 6 → bitOf u.tcr 5 = true → u.divFx lvl op c w = .error (6, op * 256 + 0x79)) ∧
     (x.trap = 7 → bitOf u.tcr 4 = true → u.divFx lvl op c w = .error (7, op * 256 + 0x79)))) ∧
  (∀ (a t : Word) (acc : BitVec 72) (p : Int),
    (∀ op, (op, p) ∈ [(0x00, a.toInt * t.toInt), (0x01, (a.toNat : Int) * t.toNat), (0x02, a.toInt * t.toNat)] →
      ∃ x, macOp op a t acc = some x ∧ x.acc = acc ∧ (x.r.toNat : Int) = p % 2 ^ 72) ∧
    (∀ op, (op, p) ∈ [(0x04, a.toInt * t.toInt), (0x05, (a.toNat : Int) * t.toNat),
        (0x06, -(a.toInt * t.toInt)), (0x07, -((a.toNat : Int) * t.toNat)),
        (0x0C, (nonet a 0 : Int) * nonet t 0 + nonet a 1 * nonet t 1 + nonet a 2 * nonet t 2 + nonet a 3 * nonet t 3)] →
      ∃ x, macOp op a t acc = some x ∧ x.r = x.acc ∧ (x.acc.toNat : Int) = (acc.toNat + p) % 2 ^ 72)) ∧
  (∀ (a b t : Word) (pos w : Nat), pos = fld t 5 0 → w = min (fld t 11 6) 36 →
    ∃ e n k, bfuOp 0x00 a b t = some e ∧ bfuOp 0x02 a b t = some n ∧ bfuOp 0x03 a b t = some k ∧
      ∀ i, i < 36 → bitOf e i = (decide (i < w) && decide (pos + i < 36) && bitOf a (pos + i)) ∧
        bitOf n i = (if pos ≤ i ∧ i < pos + w then bitOf a (i - pos) else bitOf b i) ∧
        bitOf k i = decide (pos ≤ i ∧ i < pos + w)) ∧
  (∀ a b t : Word, ∃ n, bfuOp 0x06 a b t = some n ∧ n.toNat = ((List.range 36).filter (fun i => bitOf t i)).length) ∧
  (∀ (a b t : Word) (i : Nat), i < 4 →
    ∃ x y z h e o, prmOp 0 a b t = some x ∧ prmOp 1 a b t = some y ∧ prmOp 0x08 a b t = some z ∧
      prmOp 0x09 a b t = some h ∧ prmOp 0x0A a b t = some e ∧ prmOp 0x0B a b t = some o ∧
      nonet x i = (if bitOf t (12 + i) then 0 else
        if fld t (3 * i + 2) (3 * i) < 4 then nonet a (fld t (3 * i + 2) (3 * i))
        else nonet b (fld t (3 * i + 2) (3 * i) - 4)) ∧
      nonet y i = (if bitOf t (12 + i) then 0 else nonet x i % 256 + 256 * natB (bitOf t (16 + i))) ∧
      nonet z i = (if i % 2 = 0 then nonet a (i / 2) else nonet t (i / 2)) ∧
      nonet h i = (if i % 2 = 0 then nonet a (2 + i / 2) else nonet t (2 + i / 2)) ∧
      nonet e i = (if i < 2 then nonet a (2 * i) else nonet t (2 * i - 4)) ∧
      nonet o i = (if i < 2 then nonet a (2 * i + 1) else nonet t (2 * i - 3)))

/-- On a tile ready to issue whose instruction begins with the prefix, has not begun it and has no decode trap (REP.s
and LOOP.s at P1 have one): REP.i sets the count of repetitions from the prefix and REP.s from the count register,
when it is not 0, and the tile holds the instruction's bytes for the repetitions, leaving all else of it; REP.s with
count 0 skips the instruction, which a body in its first iteration captures all the same; SEAL marks the instruction
sealed and leaves all else of the tile; LOOP.i begins the loop with its body after the prefix, its body length and
its count, in no issue cycle; LOOP.s takes its count from the register named, and no memory changes but as the
buffered stores that are due by its issue retire; no general register, predicate or unit socket changes, nor
anything outside the tile. The model's choices: no fetch row in a LOOP.s body of count 0 (log entry 68), REP.i
restored with count 0 (69), SEAL at a LOOP prefix (70). On a tile ready to issue whose instruction is a macro opcode
with no prefix left to begin, and which has no decode trap, the expansion begins at the entry's first body bundle
with the operand bytes that follow the opcode; the pc, the memories and every socket but the eight operand sockets
stay, and nothing outside the tile changes. (R143, R147, R148, R149, R150, R152, R154, R155, R160, R181, R184) -/
def Obligations.PrefixesAndMacrosBegin : Prop :=
  (∀ (s : State) (d p ext : Nat) (i : Insn), s.held = false → d < 8 → p < 73 →
    s.canIssue d p (s.tile d p) = true → (s.tile d p).PlainIssue → (s.tile d p).fetched = false →
    (s.tile d p).insn (s.tile d p).level = .ok i →
    (s.tile d p).decodeStop (s.tile d p).level ((s.tile d p).runs i) i = none →
    (∀ n, i.rep = .repI n → n ≠ 0 → i.sealed = false →
      ∃ t, exec (.repI d p) s = .next t ∧ TileOnly d p s t ∧
        t.tile d p = { (s.tile d p).keepBytes (s.tile d p).level i.next with rep := some n, marks := [] }) ∧
    (i.rep = .repS → i.sealed = false →
      ∃ t, exec (.repS d p) s = .next t ∧ TileOnly d p s t ∧
        if fld ((s.tile d p).sk 0x2B) 17 0 ≠ 0 then
          t.tile d p = { (s.tile d p).keepBytes (s.tile d p).level i.next with
            rep := some (fld ((s.tile d p).sk 0x2B) 17 0), marks := [] }
        else (t.tile d p).pc = i.next ∧ (t.tile d p).rep = none ∧
          ∀ q, ¬ (0xD0 ≤ q ∧ q < 0xD8) → (t.tile d p).sk q = (s.tile d p).sk q) ∧
    (i.sealed = true →
      ∃ t, exec (.seal d p) s = .next t ∧ TileOnly d p s t ∧
        t.tile d p = { s.tile d p with sealed := true, marks := [] }) ∧
    (∀ count nb, i.body = .loopI count nb →
      ∃ t, exec (.loopI d p) s = .next t ∧ TileOnly d p s t ∧ (t.tile d p).pc = i.next ∧
        (t.tile d p).clk = (s.tile d p).clk ∧ (t.tile d p).sock = (s.tile d p).sock ∧
        (t.tile d p).gran = (s.tile d p).gran ∧
        ∃ l, (t.tile d p).loop = some l ∧ l.start = i.next ∧ l.nb = nb ∧ l.lrem = count ∧ l.idx = 0 ∧
          l.dry = decide (count = 0)) ∧
    (∀ src nb a, i.body = .loopS src nb a → src < 0x20 →
      ∃ t, exec (.loopS d p ext) s = .next t ∧ TileOnly d p s t ∧ (t.tile d p).pc = i.next ∧
        (t.tile d p).gran = ((s.tile d p).atIssue ((t.tile d p).clk - 1)).gran ∧
        (∀ q, ¬ (0xD0 ≤ q ∧ q < 0xD8) → (t.tile d p).sk q = (s.tile d p).sk q) ∧
        ∃ l, (t.tile d p).loop = some l ∧ l.start = i.next ∧ l.nb = nb ∧ l.idx = 0 ∧
          l.lrem = fld ((s.tile d p).sk src) 17 0 ∧ l.dry = decide (fld ((s.tile d p).sk src) 17 0 = 0))) ∧
  (∀ (s : State) (d p entry o : Nat) (i : Insn), s.held = false → d < 8 → p < 73 →
    s.canIssue d p (s.tile d p) = true → (s.tile d p).PlainIssue →
    (s.tile d p).insn (s.tile d p).level = .ok i → i.sealed = false → i.rep = .none → i.body = .macro_ entry o →
    (s.tile d p).decodeStop (s.tile d p).level true i = none →
    ∃ t, exec (.signpostMacro d p) s = .next t ∧ TileOnly d p s t ∧ (t.tile d p).pc = (s.tile d p).pc ∧
      (t.tile d p).gran = (s.tile d p).gran ∧
      (∀ q, ¬ (0xD8 ≤ q ∧ q < 0xE0) → (t.tile d p).sk q = (s.tile d p).sk q) ∧
      ∃ x, (t.tile d p).exp = some x ∧ x.entry = entry ∧ x.mix = 0 ∧ x.opAt = o ∧ x.next = i.next ∧
        x.lvl = (s.tile d p).level ∧ x.off = (dirEntry (((s.tile d p).dirVal entry).getD 0)).body ∧
        x.ops = (s.tile d p).opBytes (s.tile d p).level o ((s.tile d p).nops entry))

/-- Entering the handler of a raised trap, with the TCR in force (for an event after the TCR writes that complete with
it), saves the address in TILE_SPC, TCR in TILE_STCR (with RIG as a read shows it), in TILE_SST the flags, code,
lane, software, wait and pending-write marks and the level, in TILE_SPTCR the last TCR write on its way, and SINFO,
of an event the register that its pending bit stands for; the repetition, loop and expansion in progress are
recorded, each VALID bit 0 where there is none; the pending bit of an event goes and NTRAP counts, saturating. TCR
goes to service, or to delegated pilot for a delegable code at P1 with DLGE, with IE cleared; the pc is the vector
of the code, where the tile runs; nothing is raised any more, no memory changes but for a word that a bcopy still
held, and nothing outside the tile. The order of an event at the vector (taken before its instruction, R309) is that
of EventsAreTaken. Of a retired tile nothing is taken (R621). (R162, R163, R310, R311, R313) -/
def Obligations.TrapEntrySaves : Prop :=
  ∀ (s : State) (d p : Nat) (r : Trap) (u : Tile), s.held = false → d < 8 → p < 73 → s.clocked d p = true →
    (s.tile d p).raised = some r →
    u = (if r.tcrDone = true then s.tile d p else (s.tile d p).tcrStep (s.partner d p).isSome) →
    ∃ t, exec (.trapEntry d p) s = .next t ∧ TileOnly d p s t ∧ (t.tile d p).raised = none ∧
      (t.tile d p).ior 0x01 = wd (r.spc % 65536) ∧
      (t.tile d p).ior 0x02 = wd ((u.sk 0x32).toNat + 16 * (r.code % 32) + 512 * (r.lane % 8) + 4096 * natB r.lv +
        8192 * natB r.soft + 16384 * natB (u.phase == .wait) + 32768 * natB (u.tcrQ.getLast?).isSome +
        65536 * natB (bitOf u.tcr 0) + 131072 * natB (bitOf u.tcr 1 && !(bitOf u.tcr 0))) ∧
      (t.tile d p).ior 0x03 = tcrShow (s.partner d p).isSome u.tcr ∧
      (∀ e, u.tcrQ.getLast? = some e → (t.tile d p).ior 0x04 = e.1) ∧
      (t.tile d p).ior 0x05 = (s.tile d p).sinfo r ∧
      (t.tile d p).iof 0x09 35 18 = min (2 ^ 18 - 1) ((s.tile d p).iof 0x09 35 18 + 1) ∧
      (∀ x ∈ [(0x0A, 2), (0x09, 3), (0x10, 0), (0x11, 1)], r.soft = false → r.code = x.1 →
        bitOf ((t.tile d p).ior 0x07) x.2 = false) ∧
      (∀ n, (s.tile d p).rep = some n → (t.tile d p).ior 0x48 = wd (n % 2 ^ 18 + 2 ^ 18)) ∧
      ((s.tile d p).rep = none → (s.tile d p).rsmRep = none → bitOf ((t.tile d p).ior 0x48) 18 = false) ∧
      (∀ l, (s.tile d p).loop = some l → (t.tile d p).ior 0x4A = wd l.lrem ∧
        (t.tile d p).ior 0x49 = wd (l.start + 2 ^ 16 * l.nb + 2 ^ 24 * l.idx + 2 ^ 32)) ∧
      ((s.tile d p).loop = none → bitOf ((t.tile d p).ior 0x49) 32 = false) ∧
      (∀ x, (s.tile d p).exp = some x → (t.tile d p).ior 0x4B = wd (x.mix + 16 * x.entry + 1024) ∧
        ∀ i, i < 8 → (t.tile d p).ior (0x50 + i) = (s.tile d p).sk (0xD8 + i)) ∧
      ((s.tile d p).exp = none → (s.tile d p).rsmMc = none → bitOf ((t.tile d p).ior 0x4B) 10 = false) ∧
      (t.tile d p).p1 = false ∧ bitOf (t.tile d p).tcr 3 = false ∧
      bitOf (t.tile d p).tcr 1 = (bitOf u.tcr 0 && bitOf u.tcr 2 && delegable r.code) ∧
      (t.tile d p).tcrQ = [] ∧ (t.tile d p).loop = none ∧ (t.tile d p).rep = none ∧ (t.tile d p).exp = none ∧
      (t.tile d p).pc = vectorOf u.tcr (bitOf u.tcr 0 && bitOf u.tcr 2 && delegable r.code) r.code ∧
      (t.tile d p).phase = .run ∧ (t.tile d p).gran = (s.tile d p).bcpFlush.gran

/-- At an open point of a tile that is not retired, where the event is pending and enabled and no event before it in the
order LATEBUS, TOLL, MIGRATE, DOORBELL is due, the event is raised with its code and the address of the next
instruction, to be entered from the cycle in which the next bundle would have issued, or, while the tile waits or
steps, from now; nothing else of the tile changes but that the 6-cycle row counts as paid and that an even word that
a bcopy held is written, and nothing outside it. The model's choice (log entry 70): a sealed bundle's boundary does
not hold off an interrupt at ctl.waitm. (R306, R307, R308, R309, R310) -/
def Obligations.EventsAreTaken : Prop :=
  ∀ (s : State) (d p : Nat), s.held = false → d < 8 → p < 73 → s.clocked d p = true →
    ∀ x ∈ ([(.latebus d p, 0x0A, (s.tile d p).lateDue = true),
      (.toll d p, 9, (s.tile d p).lateDue = false ∧ (s.tile d p).tollDue (s.partner d p).isSome = true),
      (.migrate d p, 0x11, (s.tile d p).lateDue = false ∧ (s.tile d p).tollDue (s.partner d p).isSome = false ∧
        (s.tile d p).migrDue (s.partner d p).isSome = true),
      (.doorbell d p, 0x10, (s.tile d p).lateDue = false ∧ (s.tile d p).tollDue (s.partner d p).isSome = false ∧
        (s.tile d p).migrDue (s.partner d p).isSome = false ∧ (s.tile d p).bellDue (s.partner d p).isSome = true)] :
        List (Instr × Nat × Prop)), x.2.2 →
      ∃ t, exec x.1 s = .next t ∧ TileOnly d p s t ∧ t.tile d p =
        { (s.tile d p).bcpFlush with
          marks := [], waited := 0, patched := (s.tile d p).patched && (s.tile d p).phase != .run,
          raised := some ⟨x.2.1, 0, (s.tile d p).pc, 0, false, false, (s.tile d p).stepping,
            if (s.tile d p).phase = .run ∧ (s.tile d p).stepping = false then
              s.wouldIssue d p 4 (s.begin1 d p (s.tile d p)) else (s.tile d p).clk⟩ }

/-- A waiting P1 tile that may begin starts its routine at the entry of TILE_RTN for its next assigned tick, the
following assigned tick becomes the next one, the fields of TILE_RTN are those of the routine from then on, and
tol.byt holds its whole allowance; a waiting tile at P0, not retired, whose milestone has come, with the deposits of
the tick before it written, goes on where it was. Neither changes a tile register or a memory (but for an even word
that a bcopy still held) or anything outside the tile. The model's choices: when the deposits of a tick count as
written (log entry 89), the held word (34). (R120, R126, R413, R416, R420) -/
def Obligations.RoutineBegins : Prop :=
  ∀ (s : State) (d p : Nat), s.held = false → d < 8 → p < 73 →
    (s.canBegin d p (s.tile d p) = true →
      ∃ t, exec (.routineBegin d p) s = .next t ∧ TileOnly d p s t ∧ (t.tile d p).phase = .run ∧
        (t.tile d p).pc = (s.tile d p).iof 0x100 15 0 ∧ (t.tile d p).inRtn = true ∧
        (t.tile d p).rtn = (s.tile d p).nextN ∧ (t.tile d p).rtnCfg = (s.tile d p).ior 0x100 ∧
        (t.tile d p).nextN = (s.tile d p).nextN + BitVec.ofNat 48 (2 ^ (s.tile d p).iof 0x100 18 16) ∧
        (t.tile d p).sk 0xD2 = wd ((s.tile d p).iof 0x102 29 12) ∧
        (t.tile d p).io = (s.tile d p).bcpFlush.io ∧ (t.tile d p).gran = (s.tile d p).bcpFlush.gran) ∧
    ((s.tile d p).phase = .wait → (s.tile d p).level ≠ 0 → s.clocked d p = true → (s.tile d p).raised = none →
      (s.tile d p).eventDue (s.partner d p).isSome = false → notEarlier s.tick (s.tile d p).waitAt = true →
      s.depositsIn d p ((s.tile d p).waitAt - 1) = true →
      ∃ t, exec (.waitmResume d p) s = .next t ∧ TileOnly d p s t ∧
        t.tile d p = { s.tile d p with phase := .run, waited := 0, marks := [] })

/-- A routine that overruns sets OVR and queues toll event 4; a tick that the tile cannot begin any more is skipped: the
next assigned tick follows, the count that tol.skp shows in a routine counts it (saturating) and toll event 5 is
queued, and no tile register changes but that a detour request that waited for the tile's last tick becomes pending;
a routine that is abandoned ends, the tile waits for the next milestone with nothing in progress, and toll event 6
is queued. No memory (but for an even word that a bcopy still held) and nothing outside the tile changes. The
model's choices: a halted tile and a swap in progress (log entries 37, 51). (R418, R419, R421) -/
def Obligations.RoutineOverrunSkipAbandon : Prop :=
  ∀ (s : State) (d p : Nat), s.held = false → d < 8 → p < 73 →
    ((s.tile d p).overDue s.tick = true →
      ∃ t, exec (.overrun d p) s = .next t ∧ TileOnly d p s t ∧ bitOf ((t.tile d p).sk 0xD3) 0 = true ∧
        (t.tile d p).evq = (s.tile d p).evq ++ [tollWord 4 (s.tile d p).rtn (s.tile d p).behind] ∧
        (t.tile d p).gran = (s.tile d p).gran ∧ (t.tile d p).io = (s.tile d p).io) ∧
    ((s.tile d p).skipDue s.tick = true → s.tickGone d p (s.tile d p) = false →
      ∃ t, exec (.skip d p) s = .next t ∧ TileOnly d p s t ∧
        (t.tile d p).nextN = (s.tile d p).nextN + BitVec.ofNat 48 (2 ^ (s.tile d p).iof 0x100 18 16) ∧
        (t.tile d p).skp = min (2 ^ 36 - 1) ((s.tile d p).skp + 1) ∧
        (∃ w, (t.tile d p).evq = (s.tile d p).evq ++ [w] ∧ fld w 3 0 = 5) ∧
        (t.tile d p).gran = (s.tile d p).gran ∧ (∀ k, k ≠ 0x07 → (t.tile d p).ior k = (s.tile d p).ior k) ∧
        ((s.tile d p).migrAt = none → (t.tile d p).io = (s.tile d p).io)) ∧
    ((s.tile d p).abandonDue s.tick = true → (s.tile d p).phase ≠ .halt →
      ∃ t, exec (.abandon d p) s = .next t ∧ TileOnly d p s t ∧ (t.tile d p).phase = .wait ∧
        (t.tile d p).inRtn = false ∧ (t.tile d p).waitAt = s.tick + 1 ∧ (t.tile d p).raised = none ∧
        (t.tile d p).loop = none ∧ (t.tile d p).rep = none ∧ (t.tile d p).exp = none ∧
        (∃ w, (t.tile d p).evq = (s.tile d p).evq ++ [w] ∧ fld w 3 0 = 6) ∧
        (t.tile d p).gran = (s.tile d p).bcpFlush.gran)

/-- The oldest queued toll event leaves the queue, stands in the tile's toll register, and raises waymark TOLL with the
event word, for the tile, with the tick that the event names; an event of kind 1, 2, 3 or 4 counts in its field of
the tile's toll counters (CYC, ACC, BYT, OVR), saturating; with TCR.TLE = 1 the toll trap becomes pending, unless
the tile is halted; no memory and nothing else outside the tile changes. That TLE = 0 leaves none pending is the
model's reading (log entry 38). (R415) -/
def Obligations.TollEventCounted : Prop :=
  ∀ (s : State) (d p : Nat) (w : Word) (r : List Word), s.held = false → d < 8 → p < 73 → (s.tile d p).evq = w :: r →
    ∃ t, exec (.tollEvent d p) s = .next t ∧ TileOnly d p s t ∧ (t.tile d p).evq = r ∧ (t.tile d p).ior 0x108 = w ∧
      (t.tile d p).gran = (s.tile d p).gran ∧
      (∀ x ∈ [(1, 0x109, 35, 18), (2, 0x10A, 17, 0), (3, 0x10A, 35, 18), (4, 0x109, 17, 0)], fld w 3 0 = x.1 →
        (t.tile d p).iof x.2.1 x.2.2.1 x.2.2.2 = min (2 ^ 18 - 1) ((s.tile d p).iof x.2.1 x.2.2.1 x.2.2.2 + 1)) ∧
      (bitOf (s.tile d p).tcr 6 = true → (s.tile d p).phase ≠ .halt → bitOf ((t.tile d p).ior 0x07) 3 = true) ∧
      (bitOf (s.tile d p).tcr 6 = false → (t.tile d p).ior 0x07 = (s.tile d p).ior 0x07) ∧
      ∃ k, t.marks.getLast? = some k ∧ k.die = d ∧ k.kind = 1 ∧ k.index = p ∧ k.code = 0x030 ∧ k.d0 = w ∧
        k.tick.toNat % 4096 = fld w 15 4

/-- For every data of a granule (in the code memories 64 bits, with data bits 64 to 71 zero and not stored): the
codeword has syndrome 0 and delivers the data as clean; the codeword with any one or any two of its stored bits
flipped is classed corrected and delivers the data; with any three flipped it is classed poisoned or uncorrectable;
the word with the poison mark has syndrome 0x0007 and is classed poisoned, its data as they stood. (R338, R339,
R340, R341, R342, R343) -/
def Obligations.GranuleCode : Prop :=
  ∀ (code : Bool) (d : BitVec 72), (code = true → d.toNat < 2 ^ 64) →
    eccSyn (eccEncode d) = 0 ∧ eccClass code (eccEncode d) = (.clean, d) ∧ eccSyn (eccPoison d) = 7 ∧
    eccClass code (eccPoison d) = (.poisoned, d) ∧
    ∀ a, a < 88 → (code = true → a < 64 ∨ 72 ≤ a) →
      eccClass code (eccEncode d ^^^ BitVec.ofNat 88 (2 ^ a)) = (.corrected, d) ∧
      ∀ b, a < b → b < 88 → (code = true → b < 64 ∨ 72 ≤ b) →
        eccClass code (eccEncode d ^^^ BitVec.ofNat 88 (2 ^ a) ^^^ BitVec.ofNat 88 (2 ^ b)) = (.corrected, d) ∧
        ∀ c, b < c → c < 88 → (code = true → c < 64 ∨ 72 ≤ c) →
          (eccClass code
            (eccEncode d ^^^ BitVec.ofNat 88 (2 ^ a) ^^^ BitVec.ofNat 88 (2 ^ b) ^^^ BitVec.ofNat 88 (2 ^ c))).1 ∈
            [.poisoned, .uncorrectable]

/-- The head entry of the store buffer, due or with the tile not running, retiring into a granule that is a codeword
with no flip mask armed over it and not held back by a wipe, replaces exactly the nonets of its mask and leaves the
buffer; one that is not yet due, or is held back, stays with all else of the tile. The next queued write-back stores
the codeword of its corrected data and leaves the queue with every other write-back of that granule; in the cycle of
the tile's own write of that exchange granule a data-side agent's stores the tile's nonets over the corrected data.
A word that a bcopy still held of the granule reaches memory in place of a write-back of before. Every other granule
of the tile stays, and nothing outside the tile changes. What coincides with a write is the model's choice (log
entries 34, 89). (R239, R241, R334, R336, R345, R346, R347, R359) -/
def Obligations.StoresReachMemory : Prop :=
  ∀ (s : State) (d p : Nat), s.held = false → d < 8 → p < 73 →
    (∀ (e : SbEntry) (r : List SbEntry), (s.tile d p).sb = e :: r →
      (∀ x : BitVec 72, (s.tile d p).gr (dataGran (2 * e.gran)).1 (dataGran (2 * e.gran)).2 = eccEncode x →
        (s.tile d p).flipOn (dataGran (2 * e.gran)).1 (dataGran (2 * e.gran)).2 = false →
        e.due ≤ (s.tile d p).clk ∨ (s.tile d p).phase ≠ .run → (s.tile d p).sbBlocked e = false →
        ∃ t, exec (.storeRetire d p) s = .next t ∧ TileOnly d p s t ∧ (t.tile d p).sb = r ∧
          (t.tile d p).gr (dataGran (2 * e.gran)).1 (dataGran (2 * e.gran)).2 =
            eccEncode (mergeBits x (nonetBits e.mask.toNat) e.data) ∧
          ∀ k, k ≠ (s.tile d p).gkey (dataGran (2 * e.gran)).1 (dataGran (2 * e.gran)).2 →
            SMap.get (fun _ => 0) (t.tile d p).gran k = SMap.get (fun _ => 0) (s.tile d p).gran k) ∧
      ((s.tile d p).clk < e.due ∧ (s.tile d p).phase = .run ∨ (s.tile d p).sbBlocked e = true →
        ∃ t, exec (.storeRetire d p) s = .next t ∧ TileOnly d p s t ∧ t.tile d p = { s.tile d p with marks := [] })) ∧
    ∀ (e : WbEntry) (r : List WbEntry) (coin : Bool), (s.tile d p).wb = e :: r →
      (s.tile d p).flipOn (e.key / 0x4000) ((s.tile d p).ungkey e.key) = false →
      (coin = false ∨ e.key / 0x4000 ≠ 1 ∨ e.agent = none →
        (s.tile d p).bcpAt (e.key / 0x4000) ((s.tile d p).ungkey e.key) = false →
        ∃ t, exec (.writeBack d p coin) s = .next t ∧ TileOnly d p s t ∧
          (t.tile d p).gr (e.key / 0x4000) ((s.tile d p).ungkey e.key) = eccEncode e.data ∧
          (t.tile d p).wb =
            r.filter (fun (y : WbEntry) => y.key ≠ (s.tile d p).gkey (e.key / 0x4000) ((s.tile d p).ungkey e.key)) ∧
          ∀ q, q ≠ (s.tile d p).gkey (e.key / 0x4000) ((s.tile d p).ungkey e.key) →
            SMap.get (fun _ => 0) (t.tile d p).gran q = SMap.get (fun _ => 0) (s.tile d p).gran q) ∧
      (coin = false ∨ e.key / 0x4000 ≠ 1 ∨ e.agent = none →
        (s.tile d p).bcpAt (e.key / 0x4000) ((s.tile d p).ungkey e.key) = true →
        ∃ t, exec (.writeBack d p coin) s = .next t ∧ TileOnly d p s t ∧
          t.tile d p = { (s.tile d p).bcpFlush with marks := [] }) ∧
      ∀ (em ed : BitVec 72) (u : Tile) (a : Nat), e.key / 0x4000 = 1 → e.agent = some a →
        (s.tile d p).bcpAt 1 ((s.tile d p).ungkey e.key) = false →
        (s.tile d p).ownWrite 1 ((s.tile d p).ungkey e.key) = some (em, ed, u) →
        ∃ t, exec (.writeBack d p true) s = .next t ∧ TileOnly d p s t ∧
          (t.tile d p).gr 1 ((s.tile d p).ungkey e.key) = eccEncode (mergeBits e.data em ed) ∧
          (t.tile d p).sb = u.sb ∧ (t.tile d p).bcp = u.bcp ∧
          ∀ q, q ≠ (s.tile d p).gkey 1 ((s.tile d p).ungkey e.key) →
            SMap.get (fun _ => 0) (t.tile d p).gran q = SMap.get (fun _ => 0) (s.tile d p).gran q

/-- With scrub enabled on a powered tile that is not retired, and the next granule of the scrub order clean (once a word
that a bcopy held of it is written), a step advances POS by one, or, past the last granule, sets it to 0 and counts
a pass (saturating); no granule and no other tile register changes, nor anything outside the tile. A tile that is
retired or not powered takes no scrub step. (R350, R351, R621) -/
def Obligations.ScrubAdvances : Prop :=
  ∀ (s : State) (d p pos : Nat) (u : Tile), s.held = false → d < 8 → p < 73 → pos = (s.tile d p).iof 0x17 14 0 →
    u = (s.tile d p).bcpYield (scrubAt pos).1 (scrubAt pos).2 →
    (SMap.get (fun _ => 0) s.pwr.tile (tkey d p) ≠ 4 → s.rowOn d p = true → bitOf ((s.tile d p).ior 0x10) 0 = true →
      eccSyn (u.gr (scrubAt pos).1 (scrubAt pos).2) = 0 →
      ∃ t, exec (.scrubStep d p) s = .next t ∧ TileOnly d p s t ∧ (t.tile d p).gran = u.gran ∧
        (if pos + 1 < scrubLen p then
          (t.tile d p).iof 0x17 14 0 = pos + 1 ∧ (t.tile d p).iof 0x17 35 15 = (s.tile d p).iof 0x17 35 15
         else (t.tile d p).iof 0x17 14 0 = 0 ∧
          (t.tile d p).iof 0x17 35 15 = min (2 ^ 21 - 1) ((s.tile d p).iof 0x17 35 15 + 1)) ∧
        ∀ q, q ≠ 0x17 → (t.tile d p).ior q = u.ior q) ∧
    (SMap.get (fun _ => 0) s.pwr.tile (tkey d p) = 4 ∨ s.rowOn d p = false → exec (.scrubStep d p) s = .next s)

/-- For every tile, address and master that the part has, with the master reaching the tile, its row powered and no
other transaction waiting at the tile's port: a read of a word of data space in a granule that is a codeword
completes and answers OK with the word; a permitted write of one, apart from the tile's own writes and with no flip
mask armed over the granule, completes, answers OK and leaves a codeword whose addressed word is the word written
and whose other word is as before (a word that a bcopy held of the granule is written before either); no other
granule, tile or store changes, and no register but the master's toll count; a write that is not permitted ends
DENIED, recorded, and changes no tile. An access that is abandoned completes with TIMEOUT, a read with a word of
zeros, recorded with its address and master on the master's die, and changes no tile. Where the master does not
reach the tile, its row is not powered, or the address is no address of a tile, both end NOTARGET, recorded. The
word held by a bcopy is the model's choice (log entry 34). (R329, R330, R331, R332, R344, R391, R392, R395, R397,
R681) -/
def Obligations.DataSideAccess : Prop :=
  ∀ (s : State) (m d p : Nat), d < 8 → p < 73 →
    (TileServed m d p s →
      (∀ (a : Nat) (w : Word) (x : BitVec 72) (u : Tile), a < 0x9000 →
        u = (s.tile d p).bcpYield (dataGran a).1 (dataGran a).2 → u.gr (dataGran a).1 (dataGran a).2 = eccEncode x →
        (∃ t, exec (.dataSideAccess m d p (0x1_0000 + a) false w false) s = .next t ∧
          t.out = s.out ++ [.resp m 0 [granWord x a]] ∧ RegsBut (fun q => q = aToll m) s t ∧ TilesBut (tkey d p) s t ∧
          AccessKept s t ∧ (t.tile d p).gran = u.gran) ∧
        (s.mayWrite m (aTile d p (0x1_0000 + a)) = true → u.flipOn (dataGran a).1 (dataGran a).2 = false →
          ∃ t y, exec (.dataSideAccess m d p (0x1_0000 + a) true w false) s = .next t ∧
            t.out = s.out ++ [.resp m 0 []] ∧ RegsBut (fun q => q = aToll m) s t ∧ TilesBut (tkey d p) s t ∧
            AccessKept s t ∧ (t.tile d p).gr (dataGran a).1 (dataGran a).2 = eccEncode y ∧ granWord y a = w ∧
            granWord y (a + 1) = granWord x (a + 1) ∧
            ∀ k, k ≠ u.gkey (dataGran a).1 (dataGran a).2 →
              SMap.get (fun _ => 0) (t.tile d p).gran k = SMap.get (fun _ => 0) u.gran k) ∧
        (s.mayWrite m (aTile d p (0x1_0000 + a)) = false →
          ∃ t, exec (.dataSideAccess m d p (0x1_0000 + a) true w false) s = .next t ∧ t.tiles = s.tiles ∧ AccessKept s t ∧
            t.out = s.out ++ [.resp m 3 []] ∧ t.rf (aDie (masterDie m) 0x125) 2 0 = 3 ∧
            RegsBut (fun q => q = aToll m ∨ q = aDie (masterDie m) 0x124 ∨ q = aDie (masterDie m) 0x125) s t)) ∧
      ∀ (a : Nat) (wr : Bool), a < 0x8_0000 →
        ∃ t, exec (.dataSideTimeout m d p a wr) s = .next t ∧ t.tiles = s.tiles ∧ AccessKept s t ∧
          t.out = s.out ++ [.resp m 4 (if wr then [] else [0])] ∧
          t.rd (aDie (masterDie m) 0x124) = wd (aTile d p a) ∧
          t.rf (aDie (masterDie m) 0x125) 2 0 = 4 ∧ t.rf (aDie (masterDie m) 0x125) 10 3 = masterCode m ∧
          RegsBut (fun q => q = aToll m ∨ q = aDie (masterDie m) 0x124 ∨ q = aDie (masterDie m) 0x125) s t) ∧
    ∀ (a : Nat) (w : Word) (wr coin : Bool), s.held = false → s.isMaster m = true → Alone (aTile d p a) s →
      s.sideOk m d p a = false →
      ∀ c ∈ [Instr.dataSideAccess m d p a wr w coin, .dataSideTimeout m d p a wr],
        ∃ t, exec c s = .next t ∧ t.tiles = s.tiles ∧ t.out = s.out ++ [.resp m 2 (if wr then [] else [0])] ∧
          t.rf (aDie (masterDie m) 0x125) 2 0 = 2 ∧
          RegsBut (fun q => q = aToll m ∨ q = aDie (masterDie m) 0x124 ∨ q = aDie (masterDie m) 0x125) s t

/-- A wipe event sets WIPING and changes no granule but for a word that a bcopy of the warden still held; one that is no
power-up wipe, or that wipes the lead's vault, also loses the attestation key. When the last granule is written,
with no flip mask armed over the vault, every granule of the vault is the codeword of zero data, WIPING is 0, NWIPE
has counted (saturating at its width), waymark VWIPE is raised with the cause, and every granule of the other
memories of the warden is as before; nothing else outside the warden changes. (R347, R358, R359, R360, R563, R564) -/
def Obligations.VaultWipes : Prop :=
  ∀ (s : State) (d c : Nat), s.held = false → d < 8 → c < 3 →
    (∃ t, exec (.vaultWipe d c) s = .next t ∧ RegsBut (fun q => q = aSecBoot ∧ (c ≠ 0 ∨ d = s.lead)) s t ∧
      TilesBut (tkey d 72) s t ∧ StoresKept s t ∧ t.tick = s.tick ∧ t.out = s.out ∧ t.img = s.img ∧
      bitOf ((t.tile d 72).ior 0x1E) 0 = true ∧ (t.tile d 72).gran = (s.tile d 72).bcpFlush.gran ∧
      (t.tile d 72).vwipe = c + 1 ∧ (c = 0 → d ≠ s.lead → t.sec = s.sec) ∧
      (c ≠ 0 ∨ d = s.lead → t.sec.akSeed = 0 ∧ t.sec.cert = [] ∧ (s.akState ≠ 3 → t.akState = 0)) ∧
      ∀ q, q ≠ 0x1E → (t.tile d 72).ior q = (s.tile d 72).bcpFlush.ior q) ∧
    (bitOf ((s.tile d 72).ior 0x1E) 0 = true → (s.tile d 72).vwipe = c + 1 →
      (∀ i, (s.tile d 72).flipOn 4 i = false) →
      ∃ t, exec (.vaultWipeEnd d) s = .next t ∧ TileOnly d 72 s t ∧ bitOf ((t.tile d 72).ior 0x1E) 0 = false ∧
        (∀ i, i < 2048 → (t.tile d 72).gr 4 i = eccEncode 0) ∧ (t.tile d 72).iof 0x1E 21 19 = c ∧
        (t.tile d 72).iof 0x1E 18 1 = min (2 ^ 18 - 1) ((s.tile d 72).iof 0x1E 18 1 + 1) ∧
        (∀ k, k < 0x10000 → SMap.get (fun _ => 0) (t.tile d 72).gran k = SMap.get (fun _ => 0) (s.tile d 72).gran k) ∧
        ∃ k, t.marks.getLast? = some k ∧ k.die = d ∧ k.code = 0x043 ∧ k.d0 = wd c)

/-- The head flit of a junction input, without errors on its way, admitted, with a forwarding entry, is served for an
output port when it is its input's turn there: a copy stands last, at output L on its way to the inbound that the
entry names, at the input of the neighbour that the port feeds, or, at an edge whose link takes traffic, with the
next route and sealed anew in the queue of that link's direction; the flit leaves its input with the last output
that its entry names, and until then stays there, marked as taken by this one; a wrong DPAR is counted and the flit
goes on poisoned; every other junction stays. One held beyond ALLOW stays, and is counted once. A head flit whose
HPAR is wrong, or whose entry does not forward, is dropped and counted in DIE_MSH_ERR. No other register changes,
and no tile but the one whose outbound it is. The model's choice: no slip channel between output L and its inbound
(log entry 101). (R364, R365, R369, R371, R372, R374, R377) -/
def Obligations.FlitForwards : Prop :=
  ∀ (s : State) (d j inp out : Nat) (x : FlitAt), s.held = false → d < 8 → j < 72 → inp < 8 → out < 5 →
    s.jHead d j inp = some x →
    (∀ (f : BitVec 72) (n : Nat) (y : Option FlitAt) (q : List FlitAt), flitHErr x.flit = false →
      entryOk d j (s.jEntry d j x) = true → s.admitted d j inp x = true → s.turn d j out = some inp →
      f = (if flitDErr x.flit = true then flitSeal (putFld x.flit 36 36 1) else x.flit) →
      n = x.taken ||| 2 ^ out ||| 32 →
      y = (if n % 32 &&& fld (s.jEntry d j x) 5 1 = fld (s.jEntry d j x) 5 1 then none
        else some { x with flit := f, taken := n }) →
      q = (if 4 ≤ inp then onHead (s.junc d j).inq inp y else (s.junc d j).inq) →
      ∃ t, exec (.flitForward d j inp out 0) s = .next t ∧
        (out = 0 → (t.junc d j).inq = q ++ [⟨8 + fld (s.jEntry d j x) 8 6, f, 0, none⟩]) ∧
        (∀ k, neighbour j out = some k → (t.junc d j).inq = q ∧
          (t.junc d k).inq = (s.junc d k).inq ++ [s.flitIn d k (farInput out) f] ∧
          ∀ e r, d * 128 + j ≠ e * 128 + r → d * 128 + k ≠ e * 128 + r → t.junc e r = s.junc e r) ∧
        (∀ l dir, out ≠ 0 → neighbour j out = none → sideDir d (out - 1) = some (l, dir) → s.ibkOos l = false →
          (t.junc d j).inq = q ∧ (t.dir l dir).queue = (s.dir l dir).queue ++
            [(1 + 4 * edgePos j (out - 1), flitSeal (putFld f 69 58 (fld (s.jEntry d j x) 20 9)))]) ∧
        (neighbour j out = none → ∀ e r, d * 128 + j ≠ e * 128 + r → t.junc e r = s.junc e r) ∧
        (4 ≤ inp → t.tiles = s.tiles) ∧
        (inp < 4 → (t.tile d j).outc = onHead (s.tile d j).outc inp y ∧ TilesBut (tkey d j) s t) ∧
        t.rf (aMshErr d) 17 9 = (if flitDErr x.flit = true then min 511 (s.rf (aMshErr d) 17 9 + 1)
          else s.rf (aMshErr d) 17 9) ∧
        RegsBut (fun a => a = aMshErr d ∧ flitDErr x.flit = true) s t ∧ t.out = s.out) ∧
    (flitHErr x.flit = false → flitDErr x.flit = false → entryOk d j (s.jEntry d j x) = true →
      s.admitted d j inp x = false →
      ∃ t, exec (.flitForward d j inp out 0) s = .next t ∧
        (if x.taken / 64 % 2 = 1 then t.regs = s.regs ∧ t.tiles = s.tiles ∧ t.juncs = s.juncs
        else t.rf (aMshErr d) 35 27 = min 511 (s.rf (aMshErr d) 35 27 + 1) ∧
          t.jHead d j inp = some { x with taken := x.taken + 64 } ∧ RegsBut (fun a => a = aMshErr d) s t)) ∧
    (flitHErr x.flit = true ∨ entryOk d j (s.jEntry d j x) = false →
      ∃ t, exec (.flitForward d j inp out 0) s = .next t ∧
        (4 ≤ inp → (t.junc d j).inq = onHead (s.junc d j).inq inp none ∧ t.tiles = s.tiles) ∧
        (inp < 4 → (t.tile d j).outc = onHead (s.tile d j).outc inp none ∧ TilesBut (tkey d j) s t) ∧
        (if flitHErr x.flit = true then t.rf (aMshErr d) 8 0 = min 511 (s.rf (aMshErr d) 8 0 + 1)
         else t.rf (aMshErr d) 26 18 = min 511 (s.rf (aMshErr d) 26 18 + 1)) ∧
        RegsBut (fun a => a = aMshErr d) s t)

/-- A flit taken by output L for an inbound with room, at the tile and at its pair partner if it has one, leaves the
junction; at each of them, if the inbound accepts its EPOCH its word waits last at the inbound with its poison bit,
else EPOCHX counts it; no memory, register or other tile changes. (R278, R279, R280, R432, R605) -/
def Obligations.InboundArrives : Prop :=
  ∀ (s : State) (d p i : Nat) (x : FlitAt), s.held = false → d < 8 → p < 73 → i < 8 →
    (s.junc d p).inq.find? (fun (y : FlitAt) => y.port = 8 + i) = some x → s.partner d p ≠ some p →
    (∀ e ∈ p :: (s.partner d p).toList, waiting (s.tile d e).inb i < 16) →
    ∃ t, exec (.inboundArrive d p i) s = .next t ∧ (t.junc d p).inq = onHead (s.junc d p).inq (8 + i) none ∧
      t.regs = s.regs ∧
      (∀ e q, (∀ r ∈ p :: (s.partner d p).toList, tkey e q ≠ tkey d r) → t.tile e q = s.tile e q) ∧
      ∀ e ∈ p :: (s.partner d p).toList, (t.tile d e).gran = (s.tile d e).gran ∧
        if (s.tile d e).inbAccepts i (fld x.flit 45 38) (fld x.flit 57 46) = true then
          (t.tile d e).inb = (s.tile d e).inb ++ [⟨i, wd (fld x.flit 35 0), bitOf x.flit 36⟩] ∧
          (t.tile d e).io = (s.tile d e).io
        else (t.tile d e).inb = (s.tile d e).inb ∧
          (t.tile d e).iof 0x2B 17 0 = min (2 ^ 18 - 1) ((s.tile d e).iof 0x2B 17 0 + 1)

/-- On a link that carries blocks, sending puts one block on the wire: of a replay in progress the next held block, with
the ACK and the replay request of the moment; else, with room in the replay buffer, a new one of at most 14 slots
with the direction's SEQ, which the replay buffer keeps, and SEQ advances by one modulo 4,096; else none. Receiving
the oldest block takes it off the wire: with a good CRC and the SEQ expected, the next SEQ is expected; with a good
CRC and another SEQ, nothing else changes; with a wrong CRC, a replay is asked for and CRCERR counts at the
receiving end, and the fourth failure in a row of the SEQ expected begins a retraining. No tile changes. (R382,
R383, R384, R386) -/
def Obligations.IbrakBlocks : Prop :=
  ∀ (s : State) (l dir : Nat), s.held = false → l < 10 → dir < 2 →
    (∀ flips : List (BitVec 72), s.ibkUp l = true →
      ((s.dir l dir).replaying = [] → (s.dir l dir).held.length < 16 →
        ∃ t b, exec (.ibrakBlockSend l dir flips) s = .next t ∧ b.seq = (s.dir l dir).seq ∧ b.slots.length ≤ 14 ∧
          b.ack = ((s.dir l (1 - dir)).want + 4095) % 4096 ∧ b.replayReq = (s.dir l (1 - dir)).reqReplay ∧
          (t.dir l dir).wire = (s.dir l dir).wire ++ [b.bits] ∧ (t.dir l dir).held = (s.dir l dir).held ++ [b] ∧
          (t.dir l dir).seq = ((s.dir l dir).seq + 1) % 4096 ∧ t.tiles = s.tiles) ∧
      (∀ b r, (s.dir l dir).replaying = b :: r →
        ∃ t, exec (.ibrakBlockSend l dir flips) s = .next t ∧ (t.dir l dir).replaying = r ∧
          (t.dir l dir).wire = (s.dir l dir).wire ++ [({ b with
            ack := ((s.dir l (1 - dir)).want + 4095) % 4096
            replayReq := (s.dir l (1 - dir)).reqReplay } : IbkBlock).bits] ∧
          (t.dir l dir).held = (s.dir l dir).held ∧ (t.dir l dir).seq = (s.dir l dir).seq ∧ t.tiles = s.tiles) ∧
      ((s.dir l dir).replaying = [] → 16 ≤ (s.dir l dir).held.length →
        ∃ t, exec (.ibrakBlockSend l dir flips) s = .next t ∧ (t.dir l dir).wire = (s.dir l dir).wire ∧
          (t.dir l dir).held = (s.dir l dir).held ∧ (t.dir l dir).seq = (s.dir l dir).seq ∧ t.tiles = s.tiles)) ∧
    ∀ (w : BitVec 1152 × List Nat) (r : List (BitVec 1152 × List Nat)) (flip : BitVec 1152), (s.dir l dir).wire = w :: r →
      (blockGood (w.1 ^^^ flip) = true → (blockRead (w.1 ^^^ flip, w.2)).seq = (s.dir l dir).want →
        ∃ t, exec (.ibrakBlockReceive l dir flip) s = .next t ∧ (t.dir l dir).wire = r ∧
          (t.dir l dir).want = ((s.dir l dir).want + 1) % 4096 ∧ (t.dir l dir).failRun = 0 ∧ t.tiles = s.tiles) ∧
      (blockGood (w.1 ^^^ flip) = true → (blockRead (w.1 ^^^ flip, w.2)).seq ≠ (s.dir l dir).want →
        ∃ t, exec (.ibrakBlockReceive l dir flip) s = .next t ∧ t.dir l dir = { s.dir l dir with wire := r } ∧
          t.regs = s.regs ∧ t.tiles = s.tiles ∧ t.juncs = s.juncs) ∧
      (blockGood (w.1 ^^^ flip) = false →
        ((s.dir l dir).failRun < 3 ∨ (s.dir l dir).failRun = 3 ∧ (blockRead w).seq ≠ (s.dir l dir).want →
          ∃ t, exec (.ibrakBlockReceive l dir flip) s = .next t ∧ (t.dir l dir).wire = r ∧
            (t.dir l dir).want = (s.dir l dir).want ∧ (t.dir l dir).reqReplay = true ∧
            t.rf (aIbk (dirTo l dir) + 1) 11 0 = min 4095 (s.rf (aIbk (dirTo l dir) + 1) 11 0 + 1) ∧
            RegsBut (fun q => q = aIbk (dirTo l dir) + 1) s t ∧ t.tiles = s.tiles) ∧
        ((blockRead w).seq = (s.dir l dir).want → (s.dir l dir).failRun = 3 → s.ibkUp l = true →
          ∃ t, exec (.ibrakBlockReceive l dir flip) s = .next t ∧ t.tiles = s.tiles ∧
            t.rf (aIbk (dirTo l dir) + 1) 11 0 = min 4095 (s.rf (aIbk (dirTo l dir) + 1) 11 0 + 1) ∧
            ∀ e, e = (linkEnds l).1 ∨ e = (linkEnds l).2 → t.rb (aIbk e) 0 = false ∧ t.rb (aIbk e) 1 = true))

/-- A link that carries blocks and begins to retrain shows UP 0 and TRAINING 1 at both ends, counts it at both, has
nothing on the wire, and will send every held block again. When training ends with at most two failed lanes and the
exchange of R387 passed, both ends show UP 1, TRAINING 0 and OOS 0 with the number of spare lanes in use, and no
failed retrain is remembered. With more failed lanes the failed retrain is remembered and the link goes on training,
unless it is the third, which takes the link out of service at both ends with its directions as at reset but for the
credits of the flits that still stand at its receivers, and raises waymark 0x051. With a failed exchange the link is
out of service and tamper source 4 is shown. No tile changes but by the tamper event. (R386, R387, R388) -/
def Obligations.IbrakRetrains : Prop :=
  ∀ (s : State) (l : Nat), s.held = false → l < 10 →
    (s.ibkUp l = true →
      ∃ t, exec (.retrain l) s = .next t ∧ t.tiles = s.tiles ∧
        (∀ e, e = (linkEnds l).1 ∨ e = (linkEnds l).2 → t.rb (aIbk e) 0 = false ∧ t.rb (aIbk e) 1 = true ∧
          t.rf (aIbk e + 1) 29 24 = min 63 (s.rf (aIbk e + 1) 29 24 + 1)) ∧
        ∀ dir, dir < 2 → (t.dir l dir).wire = [] ∧ (t.dir l dir).replaying = (s.dir l dir).held ∧
          (t.dir l dir).held = (s.dir l dir).held) ∧
    ∀ lanes, s.rb (aIbk (linkEnds l).1) 1 = true →
      (lanes ≤ 2 →
        (∃ t, exec (.ibrakTrainEnd l lanes true) s = .next t ∧ t.tiles = s.tiles ∧ (t.ibLink l).fails = 0 ∧
          ∀ e, e = (linkEnds l).1 ∨ e = (linkEnds l).2 → t.rb (aIbk e) 0 = true ∧ t.rb (aIbk e) 1 = false ∧
            t.rb (aIbk e) 2 = false ∧ t.rf (aIbk e) 4 3 = lanes) ∧
        ∃ t, exec (.ibrakTrainEnd l lanes false) s = .next t ∧
          (4 ∉ s.sec.active → t.rb aTamp 4 = true ∧ t.rb aTamp 9 = true) ∧
          ∀ e, e = (linkEnds l).1 ∨ e = (linkEnds l).2 → t.rf (aIbk e) 2 0 = 4) ∧
      (2 < lanes → ∀ auth : Bool,
        ((s.ibLink l).fails < 2 →
          ∃ t, exec (.ibrakTrainEnd l lanes auth) s = .next t ∧ t.tiles = s.tiles ∧
            (t.ibLink l).fails = (s.ibLink l).fails + 1 ∧
            RegsBut (fun a => a = aIbk (linkEnds l).1 + 1 ∨ a = aIbk (linkEnds l).2 + 1) s t) ∧
        (2 ≤ (s.ibLink l).fails →
          ∃ t k, exec (.ibrakTrainEnd l lanes auth) s = .next t ∧ t.tiles = s.tiles ∧ t.ibkOos l = true ∧
            (∀ e, e = (linkEnds l).1 ∨ e = (linkEnds l).2 → t.rf (aIbk e) 2 0 = 4) ∧
            (∀ dir, dir < 2 → t.dir l dir = { IbkDir.reset with credits := [64 - s.atEdge l dir, 64, 64, 64] }) ∧
            t.marks = s.marks ++ [k] ∧ k.code = 0x051 ∧ k.d0 = wd l ∧
            k.d1 = wd ((s.dir l 0).words + (s.dir l 1).words)))

/-- A served read of PKG_ID answers OK with its word, and a served burst of one beat there with the two words PKG_ID and
PKG_CAP0, and each changes nothing but the master's toll count; a burst that is misaligned answers ALIGN (a read
with zeros), is recorded with its address and master on the master's die, and changes no tile and no other register
but the master's toll count. A transaction whose target port is busy waits there, and one of a master whose drain
runs waits for its end; nothing else changes. A transaction of a control master that gets no answer answers TIMEOUT
(a read with zeros) and is recorded in the same way; one that waited for its port leaves it. The units that cross
Ibrak links (log entries 35, 73), the turn of a port (16) and what waits for a drain (60) are the model's choices.
(R392, R393, R395, R397, R400) -/
def Obligations.TransactionAnswers : Prop :=
  ∀ (s : State) (m : Nat), masterOk m = true →
    (Served m 0 s →
      (∃ t, exec (.crossroadsTransaction m 0 0 false [] false) s = .next t ∧ RegsOnly m (fun _ => False) [s.rd 0] s t) ∧
      ∃ t, exec (.crossroadsTransaction m 0 1 false [] false) s = .next t ∧
        RegsOnly m (fun _ => False) [s.rd 0, s.rd 1] s t) ∧
    (∀ (a n : Nat) (wr : Bool) (data : List Word), s.held = false → s.isMaster m = true → Alone a s → 1 ≤ n →
      burstBad a n = true →
      ∃ t, exec (.crossroadsTransaction m a n wr data false) s = .next t ∧ t.tiles = s.tiles ∧ StoresKept s t ∧
        t.out = s.out ++ [.resp m 5 (if wr then [] else List.replicate (2 * n) 0)] ∧
        t.rd (aDie (masterDie m) 0x124) = wd a ∧
        t.rf (aDie (masterDie m) 0x125) 2 0 = 5 ∧ t.rf (aDie (masterDie m) 0x125) 10 3 = masterCode m ∧
        RegsBut (fun q => q = aToll m ∨ q = aDie (masterDie m) 0x124 ∨ q = aDie (masterDie m) 0x125) s t) ∧
    (∀ (a n : Nat) (wr : Bool) (data : List Word), s.held = false →
      (s.isMaster m = true →
        exec (.crossroadsTransaction m a n wr data true) s =
          .next { s with xrq := s.xrq ++ [⟨m, a, n, wr, data, m == s.steward⟩] }) ∧
      (s.hasMaster m = true → s.draining m = true → ∀ busy,
        exec (.crossroadsTransaction m a n wr data busy) s =
          .next { s with parked := s.parked ++ [.xact ⟨m, a, n, wr, data, m == s.steward⟩] })) ∧
    (∀ (a : Nat) (wr : Bool) (x : Option XrReq) (n : Nat), m < 5 → s.held = false → s.isMaster m = true →
      x = s.xrq.find? (fun (r : XrReq) => r.master = m ∧ r.addr = a ∧ r.write = wr) →
      n = (x.map (fun (r : XrReq) => r.beats)).getD 0 →
      ∃ t, exec (.crossroadsTimeout m a wr) s = .next t ∧ t.tiles = s.tiles ∧ StoresKept s t ∧
        (∀ r, x = some r → t.xrq = s.xrq.erase r) ∧
        t.out = s.out ++ [.resp m 4 (if wr then [] else List.replicate (max 1 (2 * n)) 0)] ∧ t.rd (aDie (masterDie m) 0x124) = wd a ∧
        t.rf (aDie (masterDie m) 0x125) 2 0 = 4 ∧ t.rf (aDie (masterDie m) 0x125) 10 3 = masterCode m ∧
        RegsBut (fun q => q = aToll m ∨ q = aDie (masterDie m) 0x124 ∨ q = aDie (masterDie m) 0x125) s t)

/-- The oldest window request of an unpaired tile, not held, with its master not draining, leaves the port: of a load of
PKG_ID that is not dropped, served with no other transaction waiting at its port, io.r holds the word and is not
poisoned, and no memory, register but the port's toll count, or other tile changes; a store of PKG_TIM_CNTCLR,
served, clears the fields it names; a load that is not answered in time leaves io.r zero and poisoned and is
recorded as TIMEOUT; nothing leaves the part. The model's choice: a request is answered in its turn at the target
port (log entry 16), units on links (35), the zero of a time-out (60). For an unpaired tile, the oldest look of a
stream that is not held gives up one word, which waits last at the stream's head: the next of the words that its
look has read and not delivered; if it has none, the first word of its entry in the parcel that the serving copy's
one read delivers, or, where no copy serves, a poisoned word. The tile's memories, its registers and every other
tile stay. A look that is held, or for which the stack has no slot left in the tick, changes nothing. The model's
choices: the words beyond an entry are free (log entry 74), a look without a copy gives a poisoned 0 (41), the
parcel is read at the first answer (35), slots (76). (R258, R259, R684, R262, R263, R414, R502, R505, R507, R511) -/
def Obligations.WindowAndLookupAnswers : Prop :=
  (∀ (s : State) (d p m : Nat) (r : PortReq) (q : List PortReq), d < 8 → p < 73 →
    m = (if p = 72 then 8 + d else 0x80 + 72 * d + p) → (s.tile d p).port = r :: q →
    r.held = false → s.partner d p = none →
    (r.store = false → r.drop = false → r.addr = 0 → Served m 0 s →
      ∃ t, exec (.ioWindowAnswer d p) s = .next t ∧ (t.tile d p).port = q ∧ (t.tile d p).sk 0x93 = s.rd 0 ∧
        0x93 ∉ (t.tile d p).psn ∧ (t.tile d p).gran = (s.tile d p).gran ∧ TilesBut (tkey d p) s t ∧ AccessKept s t ∧
        RegsBut (fun a => a = aToll m) s t ∧ t.out = s.out) ∧
    (r.store = true → r.addr = 0x47 → Served m 0x47 s →
      ∃ t, exec (.ioWindowAnswer d p) s = .next t ∧ (t.tile d p).port = q ∧
        (∀ i, i < 2 → t.rd (aTimErr i) = if bitOf r.w i then 0 else s.rd (aTimErr i)) ∧
        (t.tile d p).gran = (s.tile d p).gran ∧ TilesBut (tkey d p) s t ∧ AccessKept s t ∧
        RegsBut (fun a => a = aToll m ∨ a = aTimErr 0 ∨ a = aTimErr 1) s t ∧ t.out = s.out) ∧
    (s.held = false → s.draining m = false → r.store = false → r.drop = false →
      ∃ t, exec (.crossroadsTimeout m r.addr false) s = .next t ∧ (t.tile d p).port = q ∧ (t.tile d p).sk 0x93 = 0 ∧
        0x93 ∈ (t.tile d p).psn ∧ (t.tile d p).gran = (s.tile d p).gran ∧ TilesBut (tkey d p) s t ∧ StoresKept s t ∧
        t.rd (aDie d 0x124) = wd r.addr ∧ t.rf (aDie d 0x125) 2 0 = 4 ∧
        RegsBut (fun a => a = aToll m ∨ a = aDie d 0x124 ∨ a = aDie d 0x125) s t ∧ t.out = s.out)) ∧
  (∀ (s : State) (d p st : Nat) (r : LkReq), s.held = false → d < 8 → p < 73 → st < 4 →
    (s.tile d p).lkReq.find? (fun (y : LkReq) => y.stream = st) = some r → s.partner d p = none →
    (r.held = true ∨ s.lookWords d r = none → exec (.lookupAnswer d p st) s = .next s) ∧
    ∀ (u : State) (l : List (Word × Bool)), r.held = false → s.lookWords d r = some (u, l) →
      ∃ t x, exec (.lookupAnswer d p st) s = .next t ∧ (t.tile d p).lkw = (s.tile d p).lkw ++ [x] ∧ x.port = st ∧
        (x.w, x.bad) = l.headD (0, true) ∧
        (∀ y q, r.got = y :: q → (x.w, x.bad) = y) ∧
        (r.got = [] → s.lookCopy d r = none → x.bad = true) ∧
        (∀ c far, r.got = [] → s.lookCopy d r = some (c, far) → 1 ≤ r.w → 1 ≤ r.ew →
          (x.w, x.bad) = ((((s.takeSlots c.1 (if far then 7 else 6) 1).dparcel c.1 0 (c.2 + r.off / 8)).2[r.off % 8]?).getD
            (0, false))) ∧
        (t.tile d p).lkReq = onReq (s.tile d p).lkReq st (fun y =>
          if y.left ≤ 1 then none else some { y with left := y.left - 1, got := l.tail }) ∧
        (t.tile d p).gran = (s.tile d p).gran ∧ (t.tile d p).io = (s.tile d p).io ∧ TilesBut (tkey d p) s t ∧
        t.flash = s.flash ∧ t.links = s.links ∧ t.juncs = s.juncs)

/-- A reset of a master with nothing in flight, or of one that is being drained, begins a drain, which counts the
transactions of its own that wait, at a port or for the drain's end, and discards them, and takes stewardship from
it if it is steward; a PCI Express endpoint forgets its latched halves, a management Ethernet port its session, a
tile or a warden its window requests; no tile changes otherwise if the master is not steward. The end of a master's
drain removes it, records the master and counts in DIE_XR_RST, raises waymark XRDRAIN with the transactions and
beats drained, and changes no other register and no tile, if nothing has waited for it; a transaction that has
waited is issued then. The model's choices: MASTER_RESET of master 4 also resets the TAP (log entry 87), what waits
for a drain (60). (R399, R400) -/
def Obligations.MasterResetDrains : Prop :=
  (∀ (s : State) (m : Nat) (fl : List (Nat × Bool × Nat × Nat × List Word)), masterOk m = true → s.held = false →
    s.hasMaster m = true → (s.draining m = false → fl = []) →
    ∃ t, exec (.masterReset m fl) s = .next t ∧
      t.drains = s.drains ++ [⟨m, (((windowOf m).map (fun x => (s.tile x.1 x.2).port.length)).getD 0) +
        ((s.xrq.filter (fun (r : XrReq) => r.master = m)).length +
         (s.parked.filter (fun (x : Parked) => x.master = m)).length), 0, 0⟩] ∧
      t.xrq = s.xrq.filter (fun (r : XrReq) => r.master ≠ m) ∧
      t.parked = s.parked.filter (fun (x : Parked) => x.master ≠ m) ∧ t.draining m = true ∧ t.steward ≠ m ∧
      (m < 2 → t.pcie m = PcieSt.reset) ∧ (m = 2 ∨ m = 3 → t.eth (m - 2) = none) ∧
      (∀ x, windowOf m = some x → (t.tile x.1 x.2).port = []) ∧
      (s.steward ≠ m → (m = 4 → s.tap.clamped = false) →
        t.out = s.out ∧ (windowOf m = none → t.tiles = s.tiles)) ∧ t.flash = s.flash) ∧
  ∀ (s : State) (m : Nat) (x : Drain), masterOk m = true → s.held = false →
    s.drains.find? (fun (y : Drain) => y.master = m) = some x →
    ((∀ y ∈ s.parked, y.master ≠ m) →
      ∃ t, exec (.xrdrain m) s = .next t ∧ t.drains = s.drains.erase x ∧ t.tiles = s.tiles ∧
        t.rf (aDie (masterDie m) 0x126) 7 0 = masterCode m ∧
        t.rf (aDie (masterDie m) 0x126) 29 13 = min (2 ^ 17 - 1) (s.rf (aDie (masterDie m) 0x126) 29 13 + 1) ∧
        RegsBut (fun q => q = aDie (masterDie m) 0x126) s t ∧ t.out = s.out ∧
        ∃ k, t.marks.getLast? = some k ∧ k.code = 0x052 ∧ k.d0 = wd (masterCode m) ∧ k.d1 = wd x.trans ∧
          k.d2 = wd x.beats) ∧
    ∀ r : XrReq, s.parked.filter (fun (y : Parked) => y.master = m) = [.xact r] →
      (s.drains.erase x).any (fun (y : Drain) => y.master = m) = false →
      exec (.xrdrain m) s = .next (s.keepQueue
        (({ s.drainEnd m with parked := s.parked.filter (fun (y : Parked) => y.master ≠ m) }).issue r false))

/-- For every tick, 9-bit FLAGS and list of words, the bits of the frame have the length R450 gives, word i read back at
its place is word i, the tick field reads the tick modulo 16, FLAGS reads as sent, and the CRC field equals the CRC
of the positions it covers. (R450, R451, R452, R453) -/
def Obligations.FrameRoundTrip : Prop :=
  ∀ (n : Tick) (flags : Nat) (words : List Word), flags < 512 →
    (frameBits n flags words).length = 24 + 36 * words.length ∧
    (∀ i (h : i < words.length), bitsWord (frameBits n flags words) i = words[i]) ∧
    ofBitsMsb (((frameBits n flags words).drop 1).take 4) = n.toNat % 16 ∧
    ofBitsMsb (((frameBits n flags words).drop 5).take 9) = flags ∧
    ofBitsMsb (((frameBits n flags words).drop (14 + 36 * words.length)).take 10) =
      crc10 (((frameBits n flags words).drop 1).take (13 + 36 * words.length))

/-- Line bits that bring a powered link in frame mode one whole frame, begun in the window of a tick with no report yet.
On a link in service, with the tick's milestone come: its words go to the places that the DEPOSIT records name,
pairs as whole granules; it is reported with its words and FLAGS, and whether a codeword of it was corrected: OK if
its CRC holds and no codeword of it was uncorrectable, else BAD and counted; with TCHK = 1 and a TICK field that
does not match it is counted and reports nothing. Before the milestone it waits in the alignment buffer. Begun
outside the window it is counted as misaligned and reports nothing. Its bits leave the net stream. In test mode 1
line bits only add their bit errors to PRBSERR and show SIGDET. When the window of a tick closes with a report
nothing changes; a frame that waits or is being taken in is left to its end; with neither, once the milestone has
come, a link in service reports NONE, one out of service with a DEPOSIT record status 3; while powered, W copies of
LINK_SUBST are deposited and counted; before the milestone the report waits. The model's choices: in service after
group bring-up (log entry 109), a second START and a frame cut off (89), conventions of the line bits (77). (R86,
R406, R440, R443, R456, R457, R458, R459, R460, R463, R471) -/
def Obligations.IngressStatus : Prop :=
  (∀ (s : State) (n : Nat) (tick : Tick), s.held = false → n < 512 →
    (∀ (ph : Int) (line : List Bool) (coin : Bool) (l : List (Bool × Nat)) (rest : List (Option (Bool × Nat))),
      s.Hears n line l rest →
      (0 ≤ ph → 2 * ph ≤ s.window n →
        (notEarlier s.tick tick = true → s.inService n = true → s.reported n tick = false →
          (s.linkCfg n 4 4 = 0 ∨ ofBitsMsb (((l.map (fun b => b.1)).drop 1).take 4) = tick.toNat % 16 →
            ∃ t, exec (.ingressFrame n tick.toNat ph line coin) s = .next t ∧ (t.link n).rxl.net = rest ∧
              (t.link n).rx.head? = some ⟨tick, if frameGood (s.linkW n) l then 0 else 1,
                (List.range (s.linkW n)).map (fun i => bitsWord (l.map (fun b => b.1)) i), l.any (fun b => b.2 == 1),
                ofBitsMsb (((l.map (fun b => b.1)).drop 5).take 9)⟩ ∧
              Deposited n tick ((List.range (s.linkW n)).map (fun i => bitsWord (l.map (fun b => b.1)) i)) coin s t ∧
              t.rf (aLink n 8) 17 0 = (if frameGood (s.linkW n) l then s.rf (aLink n 8) 17 0
                else min (2 ^ 18 - 1) (s.rf (aLink n 8) 17 0 + 1)) ∧
              RegsBut (fun q => q = aLink n 3 ∨ q = aLink n 8 ∨ q = aLink n 0x0A ∨ q = aLink n 0x0B) s t ∧
              t.drams = s.drams ∧ t.flash = s.flash) ∧
          (s.linkCfg n 4 4 = 1 → ofBitsMsb (((l.map (fun b => b.1)).drop 1).take 4) ≠ tick.toNat % 16 →
            ∃ t, exec (.ingressFrame n tick.toNat ph line coin) s = .next t ∧ (t.link n).rxl.net = rest ∧
              (t.link n).rx = (s.link n).rx ∧ t.tiles = s.tiles ∧
              t.rf (aLink n 9) 35 18 = min (2 ^ 18 - 1) (s.rf (aLink n 9) 35 18 + 1) ∧
              RegsBut (fun q => q = aLink n 3 ∨ q = aLink n 9 ∨ q = aLink n 0x0A ∨ q = aLink n 0x0B) s t)) ∧
        (notEarlier s.tick tick = false →
          ∃ t, exec (.ingressFrame n tick.toNat ph line coin) s = .next t ∧ (t.link n).rxl.net = rest ∧
            (t.link n).rx = (s.link n).rx ∧ t.tiles = s.tiles ∧
            (t.link n).align = (s.link n).align ++ [(tick, some ⟨tick, true, false, 0, l⟩, coin)] ∧
            RegsBut (fun q => q = aLink n 3 ∨ q = aLink n 0x0A ∨ q = aLink n 0x0B) s t)) ∧
      (ph < 0 ∨ s.window n < 2 * ph →
        ∃ t, exec (.ingressFrame n tick.toNat ph line coin) s = .next t ∧ (t.link n).rxl.net = rest ∧
          (t.link n).rx = (s.link n).rx ∧ t.tiles = s.tiles ∧ (t.link n).align = (s.link n).align ∧
          t.rf (aLink n 9) 17 0 = min (2 ^ 18 - 1) (s.rf (aLink n 9) 17 0 + 1) ∧
          RegsBut (fun q => q = aLink n 3 ∨ q = aLink n 9 ∨ q = aLink n 0x0A ∨ q = aLink n 0x0B) s t)) ∧
    (∀ (ph : Int) (line : List Bool) (coin : Bool), s.lineOn n = true → s.clamped = false → s.linkCfg n 16 15 = 1 →
      ∃ t, exec (.ingressFrame n tick.toNat ph line coin) s = .next t ∧ (t.link n).rx = (s.link n).rx ∧
        t.tiles = s.tiles ∧ RegsBut (fun q => q = aLink n 3 ∨ q = aLink n 0x0C) s t ∧
        (line ≠ [] → t.rb (aLink n 3) 1 = true) ∧
        t.rf (aLink n 0x0C) 35 0 = min (2 ^ 36 - 1) (s.rf (aLink n 0x0C) 35 0 + ((s.link n).rxl.prbsCheck line).2)) ∧
    ∀ coin : Bool,
      (s.reported n tick = true → exec (.arrivalWindowClose n tick.toNat coin) s = .next s) ∧
      (s.reported n tick = false → (∃ e ∈ (s.link n).align, e.1 = tick) →
        ∃ t, exec (.arrivalWindowClose n tick.toNat coin) s = .next t ∧ t.regs = s.regs ∧ t.tiles = s.tiles ∧
          (t.link n).rx = (s.link n).rx ∧ (t.link n).align.length = (s.link n).align.length ∧
          ∀ e ∈ (t.link n).align, e.1 = tick → ∀ f, e.2.1 = some f → f.closed = true) ∧
      (s.reported n tick = false → (∀ e ∈ (s.link n).align, e.1 ≠ tick) →
        (∀ f : RxFrame, (s.link n).rxl.frame = some f → f.inWin = true → f.tick = tick →
          ∃ t, exec (.arrivalWindowClose n tick.toNat coin) s = .next t ∧ t.regs = s.regs ∧ t.tiles = s.tiles ∧
            (t.link n).rx = (s.link n).rx ∧ (t.link n).rxl.frame = some { f with closed := true }) ∧
        ((∀ f : RxFrame, (s.link n).rxl.frame = some f → f.inWin = false ∨ f.tick ≠ tick) →
          (notEarlier s.tick tick = false →
            ∃ t, exec (.arrivalWindowClose n tick.toNat coin) s = .next t ∧ t.regs = s.regs ∧ t.tiles = s.tiles ∧
              (t.link n).rx = (s.link n).rx ∧ (t.link n).align = (s.link n).align ++ [(tick, none, coin)]) ∧
          (notEarlier s.tick tick = true → s.inService n = false → s.depositsAt n tick = [] →
            exec (.arrivalWindowClose n tick.toNat coin) s = .next s) ∧
          (notEarlier s.tick tick = true → s.inService n = true ∨ s.depositsAt n tick ≠ [] →
            ∃ t, exec (.arrivalWindowClose n tick.toNat coin) s = .next t ∧
              (t.link n).rx.head? = some ⟨tick, if s.inService n then 2 else 3,
                List.replicate (s.linkW n) (s.rd (aLink n 1)), false, 0⟩ ∧
              RegsBut (fun q => q = aLink n 8) s t ∧
              if s.domainOn (n / 64) (9 + groupOf n) = true then
                Deposited n tick (List.replicate (s.linkW n) (s.rd (aLink n 1))) coin s t ∧
                t.rf (aLink n 8) 35 18 = min (2 ^ 18 - 1) (s.rf (aLink n 8) 35 18 + 1)
              else t.tiles = s.tiles ∧ t.regs = s.regs)))) ∧
  ∀ (u : Tile) (n off i : Nat) (ws : List Word), off % 2 = 0 → off + ws.length ≤ 4096 → (∀ k, u.flipOn 1 k = false) →
    2 * i + 1 < ws.length →
    (u.depositAt n false off ws).gr 1 (off / 2 + i) =
      eccEncode (wordBits 0 (ws.getD (2 * i) 0) ||| wordBits 1 (ws.getD (2 * i + 1) 0))

/-- The oldest write or completion of a tile leaves it and reaches its slot: while 256 writes wait at the island for the
delay area, a further one stays with the tile; for a closed slot it is counted late at the link and the tile and
changes no link; with another epoch than its tick asks for it is counted and the slot notes it; else a completion
completes the slot, a word stands at its index, and a slot already complete stays as it is; a word for a slot in the
delay area waits at the island. A built frame whose milestone has come leaves a link that is in service, in no test
mode and not retraining: the part sends the frame, and on the line its bits, then fill, in blocks or codewords; it
is counted once. With no frame due, the link sends a tick of fill once a milestone. The model's choices: the layout
of the delay area (log entry 25), conventions of the line bits (77). (R38, R75, R78, R79, R433, R444, R452, R464,
R468, R512) -/
def Obligations.EgressWriteToFrame : Prop :=
  (∀ (s : State) (d p : Nat) (w : EgWrite) (r : List EgWrite), s.held = false → d < 8 → p < 73 →
    (s.tile d p).eg = w :: r → w.link < 512 →
    (s.islandFull w = true → exec (.egressWriteArrive d p) s = .next s) ∧
    (s.islandFull w = false →
      ∃ t, exec (.egressWriteArrive d p) s = .next t ∧ (t.tile d p).eg = r ∧ TilesBut (tkey d p) s t ∧
        (s.slotClosed w.link w.tick = true → t.links = s.links ∧
          t.rf (aLink w.link 0x10) 35 18 = min (2 ^ 18 - 1) (s.rf (aLink w.link 0x10) 35 18 + 1) ∧
          (t.tile d p).iof 0x2A 35 18 = min (2 ^ 18 - 1) ((s.tile d p).iof 0x2A 35 18 + 1) ∧
          RegsBut (fun q => q = aLink w.link 0x10) s t) ∧
        (s.slotClosed w.link w.tick = false → w.epoch % 256 ≠ s.egressEpoch w.link w.tick →
          t.rf (aLink w.link 0x10) 17 0 = min (2 ^ 18 - 1) (s.rf (aLink w.link 0x10) 17 0 + 1) ∧
          RegsBut (fun q => q = aLink w.link 0x10) s t ∧ ∃ y, t.slotAt w.link w.tick = some y ∧ y.epx = true) ∧
        (s.slotClosed w.link w.tick = false → w.epoch % 256 = s.egressEpoch w.link w.tick →
          (s.delayDue w.link w.tick = false → (∀ y, s.slotAt w.link w.tick = some y → y.inDelay = false) →
            t.regs = s.regs ∧ ∃ y z, t.slotAt w.link w.tick = some z ∧
              y = (s.slotAt w.link w.tick).getD ⟨w.tick, [], false, false, false, false, false⟩ ∧
              if y.complete || y.lost then z = y
              else if w.complete then z = { y with complete := true }
              else z.wrote = true ∧ z.complete = false ∧ z.epx = y.epx ∧ ∀ i,
                SMap.get (fun _ => 0) z.words i = if i = w.idx then w.w else SMap.get (fun _ => 0) y.words i) ∧
          (∀ y, s.slotAt w.link w.tick = some y → y.inDelay = true → y.complete = false → y.lost = false →
            w.complete = false → t.regs = s.regs ∧ t.drams = s.drams ∧
              (t.die (w.link / 64)).delayed = (s.die (w.link / 64)).delayed ++ [w] ∧
              t.slotAt w.link w.tick = some { y with wrote := true })))) ∧
  ∀ (s : State) (n k : Nat), s.held = false → n < 512 → s.inService n = true → s.linkCfg n 16 15 = 0 →
    s.clamped = false → k = (s.link n).txl.frac + s.period * (if s.rate n = 0 then 625 else 250) →
    (∀ (f : Frame) (r : List Frame), (s.link n).built = f :: r → notEarlier s.tick f.at_ = true →
      (s.link n).retrain = false →
      ∃ t, exec (.egressFrameSend n) s = .next t ∧ (t.link n).built = r ∧ t.tiles = s.tiles ∧
        t.out = s.out ++ [.frame n f, .line n
          (LineTx.push { (s.link n).txl with sent := some s.tick, frac := k % 8 } (s.linkCfg n 3 3 == 1)
            (frameBits f.tick f.flags f.words ++
              List.replicate (k / 8 - (frameBits f.tick f.flags f.words).length) true)).2] ∧
        t.rd (aLink n 0x0D) = s.rd (aLink n 0x0D) + wd (natB (f.flags % 2 == 0)) ∧
        t.rd (aLink n 0x0E) = s.rd (aLink n 0x0E) + wd (natB (f.flags % 2 != 0)) ∧
        RegsBut (fun q => q = aLink n 0x0D ∨ q = aLink n 0x0E) s t) ∧
    ((∀ f, (s.link n).built.head? = some f → notEarlier s.tick f.at_ = false) → (s.link n).txl.sent ≠ some s.tick →
      ∃ t, exec (.egressFrameSend n) s = .next t ∧ (t.link n).built = (s.link n).built ∧ t.tiles = s.tiles ∧
        t.regs = s.regs ∧ (t.link n).txl.sent = some s.tick ∧
        t.out = s.out ++ [.line n (LineTx.push { (s.link n).txl with sent := some s.tick, frac := k % 8 }
          (s.linkCfg n 3 3 == 1) (List.replicate (k / 8) true)).2])

/-- When the island's next milestone M has come, SLOT_CLOSE closes the slot to be sent at M + 1, of tick M + 1 − L: its
frame is built last, from the slot, and the slot is gone; in a swap the new channel's tick is built and the old
channel's, if it falls on the same milestone, is dropped and counted; a tick of the old channel alone is built from
that channel's default and epoch; between the two channels' ticks a default frame is built and counted. A slot in
the delay area is built from its words there. With no milestone to observe nothing changes. The oldest slot that is
due moves to the delay area of a stack that is up, its flags and words standing in the stack at its place; without
the stack it is lost; with no slots of the stack free nothing changes; with no slot to move, the oldest write that
waits is merged into its granule. No tile changes. The model's choices: the layout of the delay area (log entry 25),
the TICK of a frame in the gap of a swap (66), slots of the stack (76). (R78, R81, R429, R464, R465, R466, R512,
R517) -/
def Obligations.SlotCloses : Prop :=
  (∀ (s : State) (n : Nat) (m : Tick), s.held = false → n < 512 → m = (s.link n).obs + 1 + 1 →
    (laterTick s.tick (s.link n).obs = false → exec (.slotClose n) s = .next s) ∧
    (laterTick s.tick (s.link n).obs = true →
      (∀ (l : Nat) (T : Tick), s.chL n = some l → T = m - BitVec.ofNat 48 l → notEarlier T (s.link n).newFrom = true →
        ∃ t f, exec (.slotClose n) s = .next t ∧ (t.link n).obs = (s.link n).obs + 1 ∧ t.tiles = s.tiles ∧
          (t.link n).built = (s.link n).built ++ [f] ∧ f.at_ = m ∧ f.tick = T ∧ t.slotAt n T = none ∧
          ((s.link n).old = none → (t.link n).slots = (s.link n).slots.filter (fun (y : Slot) => y.tick != T)) ∧
          ((∀ y, s.slotAt n T = some y → y.inDelay = false ∨ y.lost = true) →
            f = slotFrame m T (s.linkW n) (s.newEpoch n) (s.txDefs n) (s.slotAt n T) ∧
            RegsBut (fun q => (s.link n).old ≠ none ∧ q = aLink n 0x0F) s t) ∧
          (∀ (y : Slot) (g : Nat → BitVec 72), s.slotAt n T = some y → y.inDelay = true → y.lost = false →
            s.DelayClean n T g → s.waiting n T = [] →
            f = slotFrame m T (s.linkW n) (s.newEpoch n) (s.txDefs n) (some
              { y with words := (List.range (s.linkW n)).map (fun i => (i, granWord (g ((1 + i) / 2)) (1 + i))) })) ∧
          ∀ (lo ep : Nat) (fr : Tick) (defs : List Word), (s.link n).old = some (lo, fr, ep, defs) →
            laterTick (s.link n).newFrom (m - BitVec.ofNat 48 lo) = true → notEarlier (m - BitVec.ofNat 48 lo) fr = true →
            t.slotAt n (m - BitVec.ofNat 48 lo) = none ∧
              t.rf (aLink n 0x0F) 35 18 = min (2 ^ 18 - 1) (s.rf (aLink n 0x0F) 35 18 + 1)) ∧
      (∀ (lo ep : Nat) (fr T : Tick) (defs : List Word), (s.link n).old = some (lo, fr, ep, defs) →
        T = m - BitVec.ofNat 48 lo → laterTick (s.link n).newFrom T = true → notEarlier T fr = true →
        (∀ l, s.chL n = some l → notEarlier (m - BitVec.ofNat 48 l) (s.link n).newFrom = false) →
        (∀ y, s.slotAt n T = some y → y.inDelay = false ∨ y.lost = true) →
        ∃ t, exec (.slotClose n) s = .next t ∧ (t.link n).obs = (s.link n).obs + 1 ∧ t.tiles = s.tiles ∧
          t.regs = s.regs ∧
          (t.link n).slots = (s.link n).slots.filter (fun (y : Slot) => y.tick != T) ∧
          (t.link n).built = (s.link n).built ++ [slotFrame m T (s.linkW n) ep defs (s.slotAt n T)]) ∧
      ((s.link n).old = none → (∀ l, s.chL n = some l → notEarlier (m - BitVec.ofNat 48 l) (s.link n).newFrom = false) →
        ∃ t, exec (.slotClose n) s = .next t ∧ (t.link n).obs = (s.link n).obs + 1 ∧ t.tiles = s.tiles ∧
          t.regs = s.regs ∧ (t.link n).slots = (s.link n).slots ∧ (t.link n).built = (s.link n).built) ∧
      (∀ (lo ep l : Nat) (fr : Tick) (defs : List Word), (s.link n).old = some (lo, fr, ep, defs) → s.chL n = some l →
        notEarlier (m - BitVec.ofNat 48 l) (s.link n).newFrom = false →
        laterTick (s.link n).newFrom (m - BitVec.ofNat 48 lo) = false →
        ∃ t, exec (.slotClose n) s = .next t ∧ (t.link n).obs = (s.link n).obs + 1 ∧ t.tiles = s.tiles ∧
          (t.link n).slots = (s.link n).slots ∧
          (t.link n).built = (s.link n).built ++ [⟨m, m - BitVec.ofNat 48 l, egFlags 1 4 (s.newEpoch n),
            defWords (s.linkW n) (s.txDefs n)⟩] ∧
          t.rf (aLink n 0x0F) 17 0 = min (2 ^ 18 - 1) (s.rf (aLink n 0x0F) 17 0 + 1) ∧
          RegsBut (fun q => q = aLink n 0x0F) s t))) ∧
  ∀ (s : State) (n : Nat), s.held = false → n < 512 →
    (∀ y : Slot, (s.link n).slots.find? (fun (x : Slot) => !x.inDelay && s.delayDue n x.tick) = some y →
      (∀ z ∈ (s.link n).slots, z.tick = y.tick → z = y) →
      (s.stackUp (n / 64) = false →
        ∃ t, exec (.slotToDelayArea n) s = .next t ∧ t.regs = s.regs ∧ t.tiles = s.tiles ∧ t.drams = s.drams ∧
          t.slotAt n y.tick = some { y with inDelay := true, lost := true, words := [] }) ∧
      (s.stackUp (n / 64) = true → s.slotsFree (n / 64) 4 (s.delaySlots n) = false →
        exec (.slotToDelayArea n) s = .next s) ∧
      (s.stackUp (n / 64) = true → s.slotsFree (n / 64) 4 (s.delaySlots n) = true →
        ∃ t, exec (.slotToDelayArea n) s = .next t ∧ t.tiles = s.tiles ∧
          t.slotAt n y.tick = some { y with inDelay := true, words := [] } ∧
          RegsBut (fun q => aDram (n / 64) 0x0C ≤ q ∧ q ≤ aDram (n / 64) 0x14) s t ∧
          (s.rb (aDram (n / 64) 0x14) 35 = false → ∀ (k : Nat) (a : Nat → Word), 2 * k + 1 ≤ s.linkW n →
            (∀ i, a i = if i = 0 then wd (natB y.wrote + 2 * natB y.epx + 4 * natB y.complete)
              else SMap.get (fun _ => 0) y.words (i - 1)) →
            (t.stack (n / 64)).gr (4 * s.delayPlace n y.tick + k) =
              eccEncode (wordBits 0 (a (2 * k)) ||| wordBits 1 (a (2 * k + 1)))))) ∧
    ((s.link n).slots.find? (fun (x : Slot) => !x.inDelay && s.delayDue n x.tick) = none →
      ((s.die (n / 64)).delayed.find? (fun (w : EgWrite) => w.link == n) = none →
        exec (.slotToDelayArea n) s = .next s) ∧
      ∀ w : EgWrite, (s.die (n / 64)).delayed.find? (fun (x : EgWrite) => x.link == n) = some w →
        (s.slotsFree (n / 64) 4 2 = false → exec (.slotToDelayArea n) s = .next s) ∧
        (s.slotsFree (n / 64) 4 2 = true →
          ∃ t, exec (.slotToDelayArea n) s = .next t ∧ t.tiles = s.tiles ∧ t.links = s.links ∧
            (t.die (n / 64)).delayed = (s.die (n / 64)).delayed.erase w ∧
            ∀ g : BitVec 72, s.rb (aDram (n / 64) 0x14) 35 = false →
              eccClass false ((s.stack (n / 64)).gr (4 * s.delayPlace n w.tick + (1 + w.idx) / 2)) = (.clean, g) →
              t.regs = s.regs ∧ (t.stack (n / 64)).gr (4 * s.delayPlace n w.tick + (1 + w.idx) / 2) =
                eccEncode (mergeBits g (wordMask (1 + w.idx)) (wordBits (1 + w.idx) w.w))))

/-- Line bits that reach a powered link in frame mode without lock give it lock exactly when its search ends in them, as
64 blocks with valid headers in succession do without FEC; LINK_STAT then shows LOCK and SIGDET, and the link sends
frames again. In Ethernet readout mode whether they give lock is the coding of Clauses 107 and 108, which the spec
does not give bit by bit (a free value, the model's choice of log entry 78). A link with lock that loses its signal
shows neither, counts the loss, and raises waymark LOCKLOSS unless one has been raised since its last commit; so
does one whose line bits lose lock once, and one in Ethernet readout mode that is told so. Conventions of the line
bits are the model's (log entry 77). On a powered link in Ethernet readout mode and no test mode, the oldest
datagram handed to it is sent and counted, with the next IPv4 identification, if it fits the MTU, else dropped and
counted as oversize; its octets follow those that wait for the line, with 12 octets of idle after them. At a
milestone the octets of one tick leave, idle where none waits. A frame that it receives is discarded and counted.
Otherwise what it is handed waits. No tile changes. The model's choices: the line coding is not bit by bit (log
entry 78), and a test mode or an EXTEST-class instruction makes datagrams wait (log entry 79). (R442, R445, R447,
R686, R471, R472, R474, R475, R476) -/
def Obligations.LockAndReadoutLinks : Prop :=
  (∀ (s : State) (n : Nat), s.held = false → n < 512 →
    (∀ (line : List Bool) (r : LineRx × LineEv), s.lineOn n = true → s.linkCfg n 16 15 = 0 → s.linkCfg n 1 0 = 1 →
      s.rb (aLink n 3) 0 = false → r = (s.link n).rxl.arrive (s.linkCfg n 2 2 == 1) false line →
      (∃ t, exec (.lockGain n line) s = .next t ∧ t.rb (aLink n 3) 0 = r.2.lock ∧ (t.link n).rxl = r.1 ∧
        RegsBut (fun q => q = aLink n 3 ∨ q = aLink n 0x0A ∨ q = aLink n 0x0B) s t ∧ t.tiles = s.tiles ∧
        (r.2.lock = true → t.rf (aLink n 3) 1 0 = 3 ∧ (t.link n).retrain = false)) ∧
      (∀ blocks : List (List Bool), s.linkCfg n 2 2 = 0 → (s.link n).rxl.buf = [] → (s.link n).rxl.good = 0 →
        blocks.length = 64 → (∀ b ∈ blocks, b.length = 66 ∧ (b.headD false != (b.drop 1).headD false) = true) →
        line = blocks.flatten → r.2.lock = true)) ∧
    (∀ line : List Bool, s.lineOn n = true → s.linkCfg n 16 15 = 0 → s.linkCfg n 1 0 = 2 → s.rb (aLink n 3) 0 = false →
      ∃ t, exec (.lockGain n line) s = .next t ∧ t.rb (aLink n 3) 0 = (Config.baseR s.free line).1 ∧
        (line ≠ [] → t.rb (aLink n 3) 1 = true) ∧ t.free = s.free + 1 ∧
        RegsBut (fun q => q = aLink n 3 ∨ q = aLink n 0x0A ∨ q = aLink n 0x0B) s t ∧
        t.tiles = s.tiles ∧ t.marks = s.marks) ∧
    (∀ (line : List Bool) (gone : Bool), s.rb (aLink n 3) 0 = true → (s.link n).rxl.frame = none →
      (gone = true ∧ line = [] ∧ (s.link n).rxl.buf.length < 66) ∨ (gone = false ∧ s.linkCfg n 1 0 = 2) ∨
        (s.lineOn n = true ∧ s.linkCfg n 16 15 = 0 ∧ s.linkCfg n 1 0 = 1 ∧ gone = false ∧
          ((s.link n).rxl.arrive (s.linkCfg n 2 2 == 1) true line).2.lost = 1 ∧
          ((s.link n).rxl.arrive (s.linkCfg n 2 2 == 1) true line).2.lock = false) →
      ∃ t, exec (.lockloss n line gone) s = .next t ∧ t.rb (aLink n 3) 0 = false ∧
        (gone = true → t.rb (aLink n 3) 1 = false) ∧
        t.rf (aLink n 0x0B) 29 18 = min 4095 (s.rf (aLink n 0x0B) 29 18 + 1) ∧
        RegsBut (fun q => q = aLink n 3 ∨ q = aLink n 0x0A ∨ q = aLink n 0x0B) s t ∧ t.tiles = s.tiles ∧
        (t.link n).lossLogged = true ∧
        if (s.link n).lossLogged = true then t.marks = s.marks
        else ∃ k, t.marks = s.marks ++ [k] ∧ k.code = 0x060 ∧ k.die = n / 64 ∧ k.index = n)) ∧
  (∀ (s : State) (n : Nat), s.held = false → n < 512 →
    (s.ethMode n = false ∨ s.linkCfg n 16 15 ≠ 0 ∨ s.clamped = true → exec (.datagramSend n) s = .next s) ∧
    (∀ (pl : List Byte) (r : List (List Byte)), s.ethMode n = true → s.linkCfg n 16 15 = 0 → s.clamped = false →
      (s.link n).dgs = pl :: r →
      ∃ t, exec (.datagramSend n) s = .next t ∧ (t.link n).dgs = r ∧ t.tiles = s.tiles ∧
        RegsBut (fun q => q = aLink n 0x1A ∨ q = aLink n 0x1B) s t ∧
        if s.rf (aLink n 0x19) 13 0 < pl.length + 28 then
          t.rf (aLink n 0x1B) 35 18 = min (2 ^ 18 - 1) (s.rf (aLink n 0x1B) 35 18 + 1) ∧ t.out = s.out
        else t.out = s.out ++ [.datagram n (s.readoutFrame n pl)] ∧ t.rd (aLink n 0x1A) = s.rd (aLink n 0x1A) + 1 ∧
          (t.link n).ipid = ((s.link n).ipid + 1) % 65536 ∧
          (t.link n).txl.octs = (s.link n).txl.octs ++ (s.readoutFrame n pl).map some ++ List.replicate 12 none) ∧
    (∀ (k : Nat) (l : List (Option Byte)), s.ethMode n = true → s.linkCfg n 16 15 = 0 → s.clamped = false →
      (∀ f, (s.link n).built.head? = some f → notEarlier s.tick f.at_ = false) → (s.link n).txl.sent ≠ some s.tick →
      k = ((s.link n).txl.frac + s.period * 625) / 64 → l = (s.link n).txl.octs.take k →
      ∃ t, exec (.egressFrameSend n) s = .next t ∧ t.regs = s.regs ∧ t.tiles = s.tiles ∧
        t.out = s.out ++ [.octets n (l ++ List.replicate (k - l.length) none)] ∧
        (t.link n).txl.octs = (s.link n).txl.octs.drop k) ∧
    (s.ethMode n = true →
      ∃ t, exec (.ethRxDiscard n) s = .next t ∧
        t.rf (aLink n 0x1B) 17 0 = min (2 ^ 18 - 1) (s.rf (aLink n 0x1B) 17 0 + 1) ∧
        RegsBut (fun q => q = aLink n 0x1B) s t ∧ t.tiles = s.tiles ∧ t.links = s.links))

/-- With the stack up, the tick valid, a ring of its own, slots of the stack free and no flip mask armed, the three
steps of a group's writer: once its tick has come and every link in service has reported, the first stores the
tick's index entry with VALID = 0; the second stores the words of each link in service at their places (whole
granules, where the word count is even) and leaves every granule outside the tick's ring slot; the third stores the
entry with VALID = 1 and goes on to the next tick, after the last tick before a TICKSET to the new number. Without a
slot free nothing changes. At HISTORY_HOLD each group whose tick is not committed by its second milestone is marked
held; each tick that is late so counts once, however many groups wait, the first event of a tick with waymark TOLL,
which names the row of the history. No tile changes. The model's choices: what the stack's slots are (log entry 76),
when a tick counts as reported and a TICKSET (89). (R487, R489, R492, R508, R511) -/
def Obligations.HistoryWrites : Prop :=
  ∀ (s : State) (d : Nat), s.held = false → d < 8 →
    (∀ (g dep w slot key : Nat) (h : HistSt) (tick : Tick), g < 4 → s.tickValid = true → s.stackUp d = true →
      dep = s.depth d g → dep ≠ 0 → h = s.histOf d g → tick = (if h.active then h.tick else s.tick) →
      w = frameWords s.period (s.rf (aGrp d g 0) 0 0) → slot = tick.toNat % dep → key = 4 * s.indexStart d g + slot →
      (s.slotsFree d 3 (histSlots h.step w) = false → exec (.historyWrite d g) s = .next s) ∧
      (s.slotsFree d 3 (histSlots h.step w) = true → s.rb (aDram d 0x14) 35 = false →
        (h.step = 0 → notEarlier s.tick tick = true → s.histReady d g tick = true →
          ∃ t, exec (.historyWrite d g) s = .next t ∧ t.tiles = s.tiles ∧ t.regs = s.regs ∧
            t.histOf d g = { h with active := true, tick := tick, step := 1 } ∧
            (t.stack d).gr key = eccEncode (indexEntry (tick.toNat / dep) w (s.groupStatus d g tick) false) ∧
            ∀ k, k ≠ key → (t.stack d).gr k = (s.stack d).gr k) ∧
        (h.step = 1 →
          ∃ t, exec (.historyWrite d g) s = .next t ∧ t.tiles = s.tiles ∧ t.histOf d g = { h with step := 2 } ∧
            RegsBut (fun q => aDram d 0x0C ≤ q ∧ q ≤ aDram d 0x14) s t ∧
            (∀ k, k < 4 * (s.ringStart d g + 2 * w * slot) ∨ 4 * (s.ringStart d g + 2 * w * (slot + 1)) ≤ k →
              (t.stack d).gr k = (s.stack d).gr k) ∧
            ∀ i j n : Nat, i < 16 → n = 64 * d + 16 * g + i → s.inService n = true → w % 2 = 0 → j < w / 2 →
              (s.histWords n tick).length = w →
              (t.stack d).gr (4 * (s.ringStart d g + 2 * w * slot) + i * w / 2 + j) =
                eccEncode (wordBits 0 ((s.histWords n tick).getD (2 * j) 0) |||
                  wordBits 1 ((s.histWords n tick).getD (2 * j + 1) 0))) ∧
        (h.step = 2 →
          ∃ t, exec (.historyWrite d g) s = .next t ∧ t.tiles = s.tiles ∧ t.regs = s.regs ∧
            (h.moved = none → t.histOf d g = ⟨true, tick + 1, 0, false, none⟩) ∧
            (∀ m, h.moved = some m → t.histOf d g = if tick = m.1 then ⟨true, m.2, 0, false, none⟩
              else { h with active := true, tick := tick + 1, step := 0, held := false }) ∧
            (t.stack d).gr key = eccEncode (indexEntry (tick.toNat / dep) w (s.groupStatus d g tick) true) ∧
            ∀ k, k ≠ key → (t.stack d).gr k = (s.stack d).gr k))) ∧
    ∃ t, exec (.historyHold d) s = .next t ∧ t.tiles = s.tiles ∧ RegsBut (fun q => q = aDram d 0x17) s t ∧
      (∀ g, g < 4 → t.histOf d g = { s.histOf d g with held := (s.histOf d g).held ||
        ((s.histOf d g).active && (s.histOf d g).moved.isNone && notEarlier s.tick ((s.histOf d g).tick + 2)) }) ∧
      ∀ l : List Tick, l = ((([0, 1, 2, 3] : List Nat).filter (fun g => (s.histOf d g).active && !(s.histOf d g).held &&
          (s.histOf d g).moved.isNone && notEarlier s.tick ((s.histOf d g).tick + 2))).map (fun g => (s.histOf d g).tick)).eraseDups.filter
          (fun x => !(([0, 1, 2, 3] : List Nat).any (fun g => (s.histOf d g).held && (s.histOf d g).tick == x))) →
        t.rf (aDram d 0x17) 35 18 = min (2 ^ 18 - 1) (s.rf (aDram d 0x17) 35 18 + l.length) ∧
        if l = [] ∨ 2 ∈ (s.stack d).flags then t.marks = s.marks
        else ∃ k, t.marks = s.marks ++ [k] ∧ k.code = 0x032 ∧ k.die = d ∧ k.d0 = 1 ∧ k.d1 = 3

/-- The oldest request that an engine has not seen reaches it: one with no such profile or to be discarded is counted,
one that selects no link of the die has no effect, one that finds the queue full is counted, any other joins the
queue last. A step of the request in service, once its next tick may be read, reads as many slots as the tick's
charge leaves; when that covers the tick, the tick is done: for the host its records, one for each selected link,
join those taken, and the last tick of the window ends the request with its entry for the ring; a datagram profile
only adds datagrams. The oldest complete datagram, from a milestone after its last record on, is handed to its link.
Of an entry that fits before the consumer pointer as many parcels are written as the tick's RDP leaves; the producer
pointer advances by its parcels once all of them are written; one that does not fit waits, and one whose stack is
down is gone. No tile changes. (R493, R494, R495, R497, R498, R499, R500, R501, R509, R511) -/
def Obligations.ReadoutEngine : Prop :=
  ∀ (s : State) (d : Nat), s.held = false → d < 8 →
    ((takeReq d s.reqs).1 = none → exec (.readoutRequest d) s = .next s) ∧
    (∀ r : RdReq, (takeReq d s.reqs).1 = some r →
      ∃ t, exec (.readoutRequest d) s = .next t ∧ t.reqs = (takeReq d s.reqs).2 ∧ t.tiles = s.tiles ∧
        RegsBut (fun q => q = aDram d 0x18) s t ∧
        if 64 ≤ r.prof ∨ (s.profLinks d r.prof ≠ [] ∧ s.reqBad d r = true) then
          t.rf (aDram d 0x18) 26 18 = min 511 (s.rf (aDram d 0x18) 26 18 + 1) ∧ t.drams = s.drams
        else if s.profLinks d r.prof = [] then t.regs = s.regs ∧ t.drams = s.drams
        else if 16 ≤ (s.stack d).queue.length then
          t.rf (aDram d 0x18) 17 5 = min 8191 (s.rf (aDram d 0x18) 17 5 + 1) ∧ (t.stack d).queue = (s.stack d).queue
        else t.regs = s.regs ∧ (t.stack d).queue = (s.stack d).queue ++ [{ r with since := s.tick }]) ∧
    (∀ (v : RdSvc) (before after dest el left need : Nat) (tick : Tick), s.inServe d = some v →
      s.profCfg d v.req.prof = (before, after, dest, el) → tick = v.req.tick + BitVec.ofInt 48 ((v.next : Int) - before) →
      left = s.rf (aDram d 0) 33 24 - s.usedSlots d 5 → need = s.readSlots d (s.profLinks d v.req.prof) - v.done →
      (notEarlier s.tick (tick + 2) = false → exec (.readoutServe d) s = .next s) ∧
      (notEarlier s.tick (tick + 2) = true →
        (left = 0 → need ≠ 0 → exec (.readoutServe d) s = .next s) ∧
        (left ≠ 0 → left < need → ∃ t v2, exec (.readoutServe d) s = .next t ∧ (t.stack d).svc = some v2 ∧
          v2.req = v.req ∧ v2.next = v.next ∧ v2.recs = v.recs ∧ v2.done = v.done + left ∧
          t.usedSlots d 5 = s.usedSlots d 5 + left ∧ t.tiles = s.tiles) ∧
        (need ≤ left → ∃ t new, exec (.readoutServe d) s = .next t ∧ t.usedSlots d 5 = s.usedSlots d 5 + need ∧
          t.tiles = s.tiles ∧ (t.stack d).dgs = (s.stack d).dgs ++ new ∧
          (∀ x ∈ new, x.link = 64 * d + el ∧ x.ready = s.tick) ∧
          (v.next + 1 ≤ before + after → (t.stack d).queue = (s.stack d).queue ∧ ∃ v2, (t.stack d).svc = some v2 ∧
            v2.req = v.req ∧ v2.next = v.next + 1 ∧ v2.done = 0 ∧
            (dest ≠ 0 → new = [] ∧ v2.recs.length = v.recs.length + (s.profLinks d v.req.prof).length)) ∧
          (before + after < v.next + 1 → (t.stack d).svc = none ∧
            (t.stack d).queue.length = (s.stack d).queue.length - 1 ∧
            (dest = 0 → new ≠ []) ∧
            (dest ≠ 0 → new = [] ∧ ∃ l, (t.stack d).ring = some (ringEntry d v.req l, 0) ∧
              l.length = v.recs.length + (s.profLinks d v.req.prof).length))))) ∧
    (∀ (x : RdDg) (r : List RdDg), (s.stack d).dgs = x :: r →
      (x.ready = s.tick → exec (.datagramHand d) s = .next s) ∧
      (x.ready ≠ s.tick →
        ∃ t, exec (.datagramHand d) s = .next t ∧ (t.stack d).dgs = r ∧
          (t.link x.link).dgs = (s.link x.link).dgs ++ [x.payload] ∧ t.regs = s.regs ∧ t.tiles = s.tiles)) ∧
    ∀ (l : List Word) (done size hrp hrc n k room : Nat), (s.stack d).ring = some (l, done) →
      size = s.storeStart d - s.rdbufStart d → hrp = s.rf (aDram d 0x19) 24 0 → hrc = s.rf (aDram d 0x1A) 24 0 →
      n = l.length / 8 → k = min (n - done) (s.rf (aDram d 0) 33 24 - s.usedSlots d 5) →
      room = (if hrp = hrc then size else (hrc + size - hrp) % size) →
      (s.stackUp d = false → ∃ t, exec (.hostRingEntry d) s = .next t ∧ (t.stack d).ring = none ∧ t.tiles = s.tiles ∧
        t.regs = s.regs ∧ ∀ q, (t.stack d).gr q = (s.stack d).gr q) ∧
      (s.stackUp d = true → n < room →
        ∃ t, exec (.hostRingEntry d) s = .next t ∧ t.tiles = s.tiles ∧ t.usedSlots d 5 = s.usedSlots d 5 + k ∧
          (done + k < n → (t.stack d).ring = some (l, done + k) ∧ t.rd (aDram d 0x19) = s.rd (aDram d 0x19)) ∧
          (n ≤ done + k → (t.stack d).ring = none ∧ t.rd (aDram d 0x19) = wd ((hrp + n) % size)) ∧
          (s.rb (aDram d 0x14) 35 = false → hrp < size → ∀ i j, i < k → j < 4 →
            (t.stack d).gr (4 * (s.rdbufStart d + (hrp + done + i) % size) + j) =
              eccEncode (wordBits 0 (l.getD (8 * (done + i) + 2 * j) 0) |||
                wordBits 1 (l.getD (8 * (done + i) + 2 * j + 1) 0)))) ∧
      (s.stackUp d = true → room ≤ n →
        ∃ t, exec (.hostRingEntry d) s = .next t ∧ (t.stack d).ring = some (l, done) ∧ t.tiles = s.tiles ∧
          RegsBut (fun q => q = aDram d 0x18) s t)

/-- A refresh slot within the tick's number takes its slot and shows the sensor's temperature (a free value), doubling
the rate exactly above 85 degrees; a scrub slot within SCRUBP, or with SCRUBP = 0 in slack, takes its slot and, with
a corrected granule waiting and no flip mask armed, stores its codeword; with none waiting SCRUBP goes on to the
next parcel, from the last to 0; while a row is being copied to its spare a scrub slot copies one parcel instead; a
qualifying row is repaired and counted while no other is being copied, its contents staying as they are, and awaits
hard repair, or with no spare left raises waymark NOSPARE and is not tried again; the first activity beyond its
charge in a tick counts and raises waymark TOLL. No tile changes. The model's choices: which row a parcel lies in
and its parcels (log entry 14), the sensor (log entry 8), slack (log entry 76). (R508, R511, R513, R514, R515) -/
def Obligations.StackCare : Prop :=
  ∀ (s : State) (d : Nat), s.held = false → d < 8 →
    (s.stackUp d = true → s.usedSlots d 1 < s.rref →
      ∃ t, exec (.refresh d) s = .next t ∧ t.usedSlots d 1 = s.usedSlots d 1 + 1 ∧
        t.rb (aDram d 3) 10 = decide (85 < t.rf (aDram d 3) 9 2) ∧ RegsBut (fun q => q = aDram d 3) s t ∧
        (t.stack d).gran = (s.stack d).gran ∧ t.tiles = s.tiles) ∧
    (∀ (k : Nat) (x : BitVec 72) (r : List (Nat × BitVec 72)), s.stackUp d = true → (s.stack d).wb = (k, x) :: r →
      s.rb (aDram d 0x14) 35 = false →
      ((s.usedSlots d 2 < s.rf (aDram d 1) 7 0 ∧ (s.stack d).copying = 0) ∨
        (s.rf (aDram d 1) 7 0 = 0 ∧ s.slotsFree d 8 1 = true)) →
      ∃ t, exec (.dramScrubStep d) s = .next t ∧ (t.stack d).gr k = eccEncode x ∧ t.regs = s.regs ∧ t.tiles = s.tiles ∧
        ∀ q, q ≠ k → (t.stack d).gr q = (s.stack d).gr q) ∧
    (s.stackUp d = true → s.usedSlots d 2 < s.rf (aDram d 1) 7 0 → (s.stack d).copying ≠ 0 →
      ∃ t, exec (.dramScrubStep d) s = .next t ∧ t.usedSlots d 2 = s.usedSlots d 2 + 1 ∧ t.tiles = s.tiles ∧
        t.regs = s.regs ∧ (t.stack d).copying + 1 = (s.stack d).copying ∧ (t.stack d).wb = (s.stack d).wb ∧
        (t.stack d).gran = (s.stack d).gran) ∧
    (∀ p : Nat, s.stackUp d = true → (s.stack d).wb = [] → s.usedSlots d 2 < s.rf (aDram d 1) 7 0 →
      (s.stack d).copying = 0 →
      p = s.rf (aDram d 0x0F) 32 0 →
      ∃ t, exec (.dramScrubStep d) s = .next t ∧ t.usedSlots d 2 = s.usedSlots d 2 + 1 ∧ t.tiles = s.tiles ∧
        t.rd (aDram d 0x0F) = (if p + 1 < parcels then wd (p + 1) else 0) ∧
        RegsBut (fun q => aDram d 0x0C ≤ q ∧ q ≤ aDram d 0x14) s t) ∧
    (∀ parcel spares : Nat, parcel < 7635497415 → s.stackUp d = true →
      (s.stack d).qualifies (Config.rowOf parcel) = true → (s.stack d).copying = 0 →
      ∃ t, exec (.rowRepair d parcel spares) s = .next t ∧ (t.stack d).gran = (s.stack d).gran ∧ t.tiles = s.tiles ∧
        if spares = 0 then t.regs = s.regs ∧ (∃ k, t.marks = s.marks ++ [k] ∧ k.code = 0x072 ∧ k.d0 = wd parcel) ∧
          (t.stack d).qualifies (Config.rowOf parcel) = false
        else Config.rowOf parcel ∈ (t.stack d).repaired ∧ (t.stack d).copying = Config.rowParcels ∧
          Config.rowOf parcel ∈ SMap.get (fun _ => []) t.pwr.rows d ∧
          t.rf (aDram d 0x15) 11 0 = min 4095 (s.rf (aDram d 0x15) 11 0 + 1) ∧ t.rb (aDram d 0x15) 32 = true ∧
          t.rf (aDram d 0x15) 31 24 = min (s.rf (aDram d 0x15) 31 24) (spares - 1) ∧
          RegsBut (fun q => q = aDram d 0x15) s t) ∧
    ∀ row : Nat, 1 ≤ row → row ≤ 7 → s.chargeOf s.img.armed d row < s.usedSlots d row → 1 ∉ (s.stack d).flags →
      ∃ t, exec (.stackTollOver d row) s = .next t ∧ t.tiles = s.tiles ∧
        t.rf (aDram d 0x17) 17 0 = min (2 ^ 18 - 1) (s.rf (aDram d 0x17) 17 0 + 1) ∧
        RegsBut (fun q => q = aDram d 0x17) s t ∧
        ∃ k, t.marks = s.marks ++ [k] ∧ k.code = 0x032 ∧ k.d1 = wd row

/-- A permitted write of DRAM_CTL.RETIRE, and the loss of a stack for a cause, take a stack that is not lost to STATE 3
with waymark STACKLOST naming the cause, and every slot that lies in its delay area is lost with the writes that
waited for them; a powered stack that returns shows STATE 2 with no index entry of its groups valid, and REBUILD,
every twinned table's copy on it still to be restored; REBUILD clears once none is. No tile changes. (R517, R518) -/
def Obligations.StackLostAndBack : Prop :=
  ∀ (s : State) (d : Nat), s.held = false → d < 8 →
    (∀ (m : Nat) (w : Word), masterOk m = true → Permitted m (aDram d 4) s → bitOf w 0 = true → s.stackState d ≠ 3 →
      ∃ t, exec (.dramRetire m d w) s = .next t ∧ t.stackState d = 3 ∧ t.tiles = s.tiles ∧
        ∃ k ∈ t.marks, k.code = 0x070 ∧ k.die = d ∧ k.d0 = 3) ∧
    (∀ c : Nat, 1 ≤ c → c ≤ 3 → s.stackState d ≠ 3 →
      ∃ t, exec (.stacklost d c) s = .next t ∧ t.stackState d = 3 ∧ t.tiles = s.tiles ∧
        RegsBut (fun q => q = aDram d 3) s t ∧ (t.die d).delayed = [] ∧
        (∀ (n : Nat), n / 64 = d → ∀ y ∈ (t.link n).slots, y.inDelay = true → y.lost = true) ∧
        ∃ k, t.marks = s.marks ++ [k] ∧ k.code = 0x070 ∧ k.die = d ∧ k.d0 = wd c) ∧
    (s.stackState d ≠ 2 → s.stackPowered d = true →
      ∃ t, exec (.stackReturn d) s = .next t ∧ t.stackUp d = true ∧ t.tiles = s.tiles ∧
        (s.rb (aDram d 0x14) 35 = false →
          ∀ k, 4 * s.indexStart d 0 ≤ k → k < 4 * gib (s.hgSum d + 4) → (t.stack d).gr k = 0) ∧
        (t.stack d).rebuild = (s.twinsOn d).map (fun x => x.2.1) ∧ (t.stack d).restored = 0 ∧
        t.rb (aDram d 3) 11 = decide ((t.stack d).rebuild ≠ [])) ∧
    ((s.stack d).rebuild ≠ [] → exec (.rebuildEnd d) s = .next s) ∧
    (s.rb (aDram d 3) 11 = true → s.stackUp d = true → (s.stack d).rebuild = [] →
      ∃ t, exec (.rebuildEnd d) s = .next t ∧ t.rb (aDram d 3) 11 = false ∧ (t.stack d).rebuild = [] ∧
        RegsBut (fun q => q = aDram d 3) s t ∧ t.tiles = s.tiles)

/-- For every state and every command that a tile performs by itself (issuing a bundle, beginning a prefix or macro,
taking a trap or an event, beginning, overrunning, skipping or abandoning a routine, a toll event, a store-buffer or
write-back or scrub step), the command completes and every other tile than this one and its pair partner, every
junction, link, stack and Ibrak link, flash, the tick, the image state, the security and ownership state, and every
register but the die's pair-mismatch word are as before, and nothing leaves the part. (R99, R162, R311, R413, R415,
R604, R606) -/
def Obligations.TilesAreIsolated : Prop :=
  ∀ (s : State) (d p ext : Nat), d < 8 → p < 73 →
    ∀ (coin : Bool), ∀ i ∈ ([.bundle d p ext, .repI d p, .repS d p, .loopI d p, .loopS d p ext, .seal d p, .signpostMacro d p,
      .trapEntry d p, .latebus d p, .toll d p, .doorbell d p, .migrate d p, .routineBegin d p, .waitmResume d p,
      .overrun d p, .skip d p, .abandon d p, .tollEvent d p, .storeRetire d p, .writeBack d p coin, .scrubStep d p] : List Instr),
      ∃ t, exec i s = .next t ∧ StoresKept s t ∧ t.tick = s.tick ∧ t.img = s.img ∧ t.sec = s.sec ∧ t.own = s.own ∧
        t.out = s.out ∧ RegsBut (fun q => q = aPwr (0x58 + d)) s t ∧
        ∀ e q, tkey e q ≠ tkey d p → (∀ r, s.partner d p = some r → tkey e q ≠ tkey d r) → t.tile e q = s.tile e q

/-- With no LOAD, ARM, SWAP or DISARM in progress, a permitted LOAD after start-up empties the standby and begins
loading from PKG_IMG_SRC; an ARM of a valid standby image with no image armed, the tick valid, its period in force,
its milestone at least 16 ticks ahead and a placement for it is accepted; a SWAP that passes its checks, healthy
wardens on every die of either image and a placement among them, is accepted and shows SWAPPING, and one without the
wardens is refused with CMDERR 1; DISCARD empties a valid or refused standby; DISARM of the armed image is accepted.
None changes a tile, a memory or a store. The model's choices: the codes of a refused SWAP and the checks of DISARM
(log entry 49), a wait for wardens (102). (R422, R424, R425, R426, R427, R642, R644, R645, R646) -/
def Obligations.ImageCommandsAccepted : Prop :=
  ∀ (s : State) (m : Nat), masterOk m = true → Permitted m 0x81 s → s.imgBusy = false → s.arming = false →
    s.swapping = false → s.img.disarmAt = none →
    (s.ready = true →
      ∃ t, exec (.load m) s = .next t ∧ t.img.loading = some (s.rd 0x80) ∧ t.img.standby = none ∧
        t.img.armed = s.img.armed ∧ t.rf aImgStat 2 0 = 1 ∧ t.tiles = s.tiles ∧ AccessKept s t ∧
        RegsBut (fun q => q = aImgStat ∨ q = aBoot ∨ q = aToll m) s t) ∧
    (∀ im : Image, s.armed = false → s.sby = 2 → s.img.standby = some im → s.tickValid = true → im.period = s.period →
      s.ahead s.cmdAt 16 = true → s.placeable im = true →
      ∃ t, exec (.arm m) s = .next t ∧ t.img = { s.img with armAt := some s.cmdAt } ∧ t.rf aBoot 3 0 = 9 ∧
        t.tiles = s.tiles ∧ AccessKept s t ∧ RegsBut (fun q => q = aBoot ∨ q = aToll m) s t) ∧
    (∀ old new : Image, s.img.armed = some old → s.img.standby = some new → s.sby = 2 → s.updating = false →
      s.wardensFor new = true → s.wardensFor old = true → (∀ d, d < 8 → s.detoursOn d = []) → new.swapok = true →
      s.ahead s.cmdAt 16 = true → s.swapClash old new s.cmdAt = false → s.placeable new = true →
      ∃ t, exec (.swap m) s = .next t ∧ t.img.swapAt = some s.cmdAt ∧ t.img.switched = [] ∧ t.rb aImgStat 12 = true ∧
        t.img.armed = some old ∧ t.img.standby = some new ∧ t.tiles = s.tiles ∧ AccessKept s t ∧
        RegsBut (fun q => q = aImgStat ∨ q = aToll m ∨ ∃ e j b r, q = aNet e j b r) s t) ∧
    (∀ old new : Image, s.img.armed = some old → s.img.standby = some new → s.sby = 2 → s.updating = false →
      s.wardensFor new = false ∨ s.wardensFor old = false →
      ∃ t, exec (.swap m) s = .next t ∧ t.rf aImgStat 31 29 = 1 ∧ t.img = s.img ∧
        RegsOnly m (fun q => q = aImgStat) [] s t) ∧
    (s.sby = 2 ∨ s.sby = 3 →
      ∃ t, exec (.discard m) s = .next t ∧ t.img.standby = none ∧ t.img.armed = s.img.armed ∧ t.rf aImgStat 2 0 = 0 ∧
        t.tiles = s.tiles ∧ AccessKept s t ∧ RegsBut (fun q => q = aImgStat ∨ q = aToll m) s t) ∧
    (s.armed = true → s.ahead s.cmdAt 16 = true →
      ∃ t, exec (.disarm m) s = .next t ∧ t.img = { s.img with disarmAt := some s.cmdAt } ∧
        RegsOnly m (fun _ => False) [] s t)

/-- When loading ends the image stands by as valid, with its epoch shown, or is refused with its error code shown; an
autoarm that is due begins its load from flash, and with the tick valid arms the valid image its delay ahead; at the
milestone of an ARM the standby image becomes the armed one, shown with its epoch, and PHASE is 10; at or after the
milestone of a DISARM, with no routine of the image in progress, the armed image becomes the standby one, none of
its tiles is placed, and PHASE is 7, or 8 where an autoarm follows; a tile that follows a swap on a die with a
healthy warden runs the new image's start code, or stops, and one that only the old image placed still stops after
the swap; a swap is complete once it has been carried out on the dies of both images, every tile of the new image
has followed and every old frame is gone. Flash, junctions, Ibrak links and the logbook rings stay, and the stacks
but for what a LOAD that reads them finds. The model's choices: a swap is carried out die by die, where a warden is
healthy (log entry 102), when a tile follows it (51), when the epochs shown change (48), start code and an ARM
without room (49). (R422, R425, R428, R430, R643, R644, R646) -/
def Obligations.ImageMilestones : Prop :=
  ∀ s : State, s.held = false →
    (∀ src : Word, s.img.loading = some src → s.boot.auto = 0 →
      ∃ t, exec .loadDone s = .next t ∧ t.img.loading = none ∧ t.img.armed = s.img.armed ∧ t.flash = s.flash ∧
        t.links = s.links ∧ t.juncs = s.juncs ∧ t.ibk = s.ibk ∧ t.ibl = s.ibl ∧ t.logs = s.logs ∧ t.tick = s.tick ∧
        RegsBut (fun q => q = aImgStat ∨ q = aBoot ∨ q = 0x85 ∨ q = aSec 0x42 ∨ (∃ e j b r, q = aNet e j b r) ∨
          ∃ e, e < 8 ∧ aDram e 0x0C ≤ q ∧ q ≤ aDram e 0x14) s t ∧
        match s.validate src with
        | .error (e, _) =>
          t.img = { s.img with loading := none } ∧ t.rf aImgStat 2 0 = 3 ∧ t.rf aImgStat 10 3 = e.err % 256 ∧
          t.rd 0x85 = wd (e.sec + 2 ^ 6 * e.rec_) ∧ t.tiles = s.tiles
        | .ok im => t.img.standby = some im ∧ t.rf aImgStat 2 0 = 2 ∧ t.rf aImgStat 28 21 = im.epoch % 256) ∧
    (s.boot.auto = 1 →
      ∃ t, exec .autoarm s = .next t ∧ t.img.loading = some (wd (65536 * s.boot.autoOff)) ∧ t.boot.auto = 2 ∧
        t.rf aImgStat 2 0 = 1 ∧ t.tiles = s.tiles ∧ StoresKept s t ∧
        RegsBut (fun q => q = aImgStat ∨ q = aBoot) s t) ∧
    (∀ im : Image, s.boot.auto = 3 → s.tickValid = true → s.img.standby = some im → im.period = s.period →
      s.ahead (s.tick + BitVec.ofNat 48 s.boot.autoDly) 16 = true → s.placeable im = true →
      ∃ t, exec .autoarm s = .next t ∧ t.img = { s.img with armAt := some (s.tick + BitVec.ofNat 48 s.boot.autoDly) } ∧
        t.boot.auto = 0 ∧ t.rf aBoot 3 0 = 9 ∧ t.tiles = s.tiles ∧ StoresKept s t ∧ RegsBut (fun q => q = aBoot) s t) ∧
    (∀ (a : Tick) (im : Image), s.img.armAt = some a → s.img.standby = some im → notEarlier s.tick a = true →
      ∃ t, exec .armAt s = .next t ∧ t.img.armed = some im ∧ t.img.standby = none ∧ t.img.armAt = none ∧
        t.rb aImgStat 11 = true ∧ t.rf aImgStat 2 0 = 0 ∧ t.rf aImgStat 20 13 = im.epoch % 256 ∧ t.rf aBoot 3 0 = 10 ∧
        t.tick = s.tick ∧ t.flash = s.flash ∧ t.drams = s.drams ∧ t.juncs = s.juncs ∧ t.logs = s.logs) ∧
    (∀ (a : Tick) (im : Image), s.img.disarmAt = some a → s.img.armed = some im → notEarlier s.tick a = true →
      (∀ e ∈ s.imageTiles im, (s.tile e.1 e.2).inRtn = false) →
      ∃ t, exec .disarmAt s = .next t ∧ t.img.armed = none ∧ t.img.standby = some im ∧ t.img.disarmAt = none ∧
        t.rb aImgStat 11 = false ∧ t.rf aImgStat 2 0 = 2 ∧ t.rf aBoot 3 0 = (if s.rb 0xC1 0 then 8 else 7) ∧
        (∀ e ∈ s.imageTiles im, (t.tile e.1 e.2).placed = false) ∧ t.flash = s.flash ∧
        t.drams = s.drams ∧ t.juncs = s.juncs ∧ t.logs = s.logs) ∧
    (∀ (d p : Nat) (a : Tick) (im : Image), d < 8 → p < 73 → s.img.swapAt = some a → s.img.standby = some im →
      tkey d p ∉ s.img.switched → s.healthy d = true →
      (∀ x : ImgTile, s.recordOn im d p = some x → (s.tile d p).placed = false ∨ s.waitsForSwap d p a →
        1 ≤ ticksSince s.tick (x.tickFrom a) →
        ∃ t, exec (.tileSwitch d p) s = .next t ∧ t.img.switched = tkey d p :: s.img.switched ∧
          (t.tile d p).placed = true ∧ (t.tile d p).pc = x.saddr ∧
          (t.tile d p).phase = (if (s.tile d p).phase = .halt then .halt else .run) ∧ (t.tile d p).iepoch = im.epoch ∧ TilesBut (tkey d p) s t ∧ t.regs = s.regs ∧ StoresKept s t) ∧
      (s.recordOn im d p = none → (s.tile d p).placed = true → s.waitsForSwap d p a →
        1 ≤ ticksSince s.tick (s.tile d p).nextN →
        ∃ t, exec (.tileSwitch d p) s = .next t ∧ t.img.switched = tkey d p :: s.img.switched ∧
          (t.tile d p).placed = false ∧ bitOf ((t.tile d p).ior 0x100) 23 = false ∧ TilesBut (tkey d p) s t ∧
          t.regs = s.regs ∧ StoresKept s t)) ∧
    (∀ (d p : Nat) (a : Tick), d < 8 → p < 73 → s.img.swapAt = none → (s.tile d p).stopAt = some a → s.waitsForSwap d p a →
      s.healthy d = true →
      1 ≤ ticksSince s.tick (s.tile d p).nextN →
      ∃ t, exec (.tileSwitch d p) s = .next t ∧ (t.tile d p).placed = false ∧ bitOf ((t.tile d p).ior 0x100) 23 = false ∧
        TilesBut (tkey d p) s t ∧ t.regs = s.regs ∧ t.img = s.img ∧ StoresKept s t) ∧
    ∀ (a : Tick) (old im : Image), s.img.swapAt = some a → s.img.armed = some old → s.img.standby = some im →
      notEarlier s.tick a = true → s.swapReached old im = true → (∀ n, n < 512 → s.oldGone n a = true) →
      (∀ x ∈ im.tiles, ∀ sl ∈ (slotsOf im.rigor x.ltile).2, tkey (slotsOf im.rigor x.ltile).1
        (((s.detoursOn (slotsOf im.rigor x.ltile).1).find? (fun (z : Detour) => z.slot = sl)).elim
          (s.phys (slotsOf im.rigor x.ltile).1 sl) (fun z => z.to_)) ∈ s.img.switched) →
      ∃ t, exec .swapComplete s = .next t ∧ t.img.armed = some im ∧ t.img.standby = none ∧ t.img.swapAt = none ∧
        t.rb aImgStat 12 = false ∧ t.rf aImgStat 2 0 = 0 ∧ t.rf aImgStat 20 13 = im.epoch % 256 ∧
        t.img.leaving = some old ∧ (∀ d p, { t.tile d p with stopAt := (s.tile d p).stopAt, marks := [] } = { s.tile d p with marks := [] }) ∧
        StoresKept s t ∧ RegsBut (fun q => q = aImgStat) s t

/-- A detour of a slot that its TILE record allows, with its declared warm-up or at a freeze tick of its own, to free
healthy lay-bys, begins for each slot that moves: it is listed with the old and the new tile, its start and its
switch, and the new tile runs the start code of the record with the next placement epoch. A pair that had a mismatch
moves only under AUTO. The state copy of a non-convergent detour, once the old tile is idle, gives the new tile the
general registers, predicates and ctl.n of the old one and the words of the STATE ranges, ends the detour and leaves
the old tile not placed. A due tile that carries nothing retires at once, on a die with a healthy warden and outside
a firmware update. When a detour ends is the model's reading (log entry 50). (R431, R434, R435, R436, R618, R619) -/
def Obligations.DetoursMoveSlots : Prop :=
  ∀ (s : State) (d : Nat), s.held = false → d < 8 →
    (∀ (sl q start w : Nat) (im : Image) (x : ImgTile), sl < 64 → q < 73 → s.slotRecord d sl = some (im, x) →
      s.detoursAllowed d = true → laterTick (BitVec.ofNat 48 start) s.tick = true →
      s.canMove d (movesOfPair im.rigor sl q) = true → s.autoMoves d (movesOfPair im.rigor sl q) = true →
      (x.detour = 1 → (im.stateOf x.ltile).any (fun (y : ImgState) => y.w == w) = true →
        ∃ t, exec (.detourConvergent d sl q start w) s = .next t ∧ t.img.armed = s.img.armed ∧ t.flash = s.flash ∧
          t.drams = s.drams ∧ t.juncs = s.juncs ∧ t.ibk = s.ibk ∧ t.logs = s.logs ∧
          ∀ e ∈ movesOfPair im.rigor sl q,
            (∃ y ∈ t.detoursOn d, y.slot = e.1 ∧ y.from_ = s.phys d e.1 ∧ y.to_ = e.2 ∧ y.conv = true ∧
              y.start = BitVec.ofNat 48 start ∧ y.switch = BitVec.ofNat 48 start + BitVec.ofNat 48 w) ∧
            (t.tile d e.2).phase = (if (s.tile d e.2).phase = .halt then .halt else .run) ∧ (t.tile d e.2).pc = x.saddr ∧
            (t.tile d e.2).epoch = nextEpoch (s.placeEpoch d e.1)) ∧
      (x.detour = 2 → (BitVec.ofNat 48 start).toNat % 2 ^ x.kc = x.j →
        ∃ t, exec (.detourNonconvergent d sl q start) s = .next t ∧ t.img.armed = s.img.armed ∧ t.flash = s.flash ∧
          t.drams = s.drams ∧ t.juncs = s.juncs ∧ t.ibk = s.ibk ∧ t.logs = s.logs ∧
          ∀ e ∈ movesOfPair im.rigor sl q,
            (∃ y ∈ t.detoursOn d, y.slot = e.1 ∧ y.from_ = s.phys d e.1 ∧ y.to_ = e.2 ∧ y.conv = false ∧
              y.start = BitVec.ofNat 48 start ∧ y.switch = BitVec.ofNat 48 start) ∧
            (t.tile d e.2).phase = (if (s.tile d e.2).phase = .halt then .halt else .run) ∧ (t.tile d e.2).pc = x.saddr ∧
            (t.tile d e.2).epoch = nextEpoch (s.placeEpoch d e.1))) ∧
    (∀ (sl : Nat) (x : Detour) (im : Image) (r : ImgTile), sl < 64 →
      (s.detoursOn d).find? (fun (y : Detour) => y.slot = sl) = some x → s.slotRecord d sl = some (im, r) →
      x.conv = false → notEarlier s.tick (x.start + 1) = true → s.phys d sl = x.to_ → s.oldIdle d x = true →
      ∃ t, exec (.stateCopyEnd d sl) s = .next t ∧ x ∉ t.detoursOn d ∧ (t.tile d x.from_).placed = false ∧
        StoresKept s t ∧ (∀ k, k < 0x20 ∨ k = 0x2B → (t.tile d x.to_).sk k = (s.tile d x.from_).sk k) ∧
        (∀ k, 0x20 < k → k < 0x28 → bitOf ((t.tile d x.to_).sk k) 0 = bitOf ((s.tile d x.from_).sk k) 0) ∧
        (x.from_ ≠ x.to_ → (∀ mem k, (s.tile d x.to_).flipOn mem k = false) →
          ∀ (y : ImgState) (g : Nat) (a b : BitVec 72), im.stateOf r.ltile = some y → g ∈ granulesOf y.ranges →
            eccClass false ((s.tile d x.from_).gr (dataGran (2 * g)).1 (dataGran (2 * g)).2) = (.clean, a) →
            eccClass false ((s.tile d x.to_).gr (dataGran (2 * g)).1 (dataGran (2 * g)).2) = (.clean, b) →
            (t.tile d x.to_).gr (dataGran (2 * g)).1 (dataGran (2 * g)).2 =
              eccEncode (mergeBits b (rangeMask y.ranges g) a))) ∧
    ∀ p start : Nat, p < 73 → s.healthy d = true → s.updating = false →
      (SMap.get (fun _ => 0) s.pwr.tile (tkey d p) = 6 ∨ SMap.get (fun _ => 0) s.pwr.tile (tkey d p) = 2) →
      (s.tile d p).placed = false →
      ∃ t, exec (.retirementDetour d p start) s = .next t ∧ t.tileFlag d p = 4 ∧ t.tiles = s.tiles ∧ t.regs = s.regs ∧
        StoresKept s t ∧ t.img = s.img

/-- A served CHAL leaves a fresh nonce in the master's mailbox and clears RESULT; a served CLAIM with GO submits the
claim with the nonce if it is live and its fields, consumes the nonce and shows RESULT 1; the oldest claim decided,
no write of a former steward waiting, makes its master steward, with the claimed lease running, if every check
passed, and otherwise leaves the steward and counts a rejected claim, with RESULT showing which; one that passed
waits while flash cannot be written (the model's choice, log entry 12); a permitted write of OWN_LEASE with a lease
that is not reserved sets and restarts it; a lease that has run out ends stewardship, counts, drops what is staged
and raises waymark STEWARD. Only CHAL's nonce is a free value. (R538, R545, R546, R547, R548, R549) -/
def Obligations.StewardshipClaims : Prop :=
  ∀ (s : State) (m : Nat), s.held = false →
    (m < 5 → Served m (aOwn 0x100) s → s.ready = true → s.mbResult m ≠ 1 →
      ∃ t n, exec (.chal m) s = .next t ∧ SMap.get (fun _ => none) t.own.nonce m = some n ∧ n.at_ = s.sym ∧
        n.bytes = t.bytesAt (aMy m 0x108) 8 ∧ t.mbResult m = 0 ∧ t.tiles = s.tiles ∧ AccessKept s t ∧
        RegsBut (fun q => (aMy m 0x108 ≤ q ∧ q < aMy m 0x110) ∨ q = aMy m 0x101 ∨ q = aToll m) s t) ∧
    (∀ w : Word, m < 5 → Served m (aOwn 0x102) s → bitOf w 19 = true → s.mbResult m ≠ 1 →
      ∃ t, exec (.claim m w) s = .next t ∧ t.own.claims = s.own.claims ++
          [(m, liveNonce s.own.nonce m s.sym, fld w 2 0, fld w 18 3)] ∧
        SMap.get (fun _ => none) t.own.nonce m = none ∧ t.mbResult m = 1 ∧ t.rf (aMy m 0x102) 18 0 = fld w 18 0 ∧
        t.tiles = s.tiles ∧ AccessKept s t ∧
        RegsBut (fun q => q = aMy m 0x101 ∨ q = aMy m 0x102 ∨ q = aToll m) s t) ∧
    (∀ (n : Option (List Byte)) (k lease : Nat) (r : List (Nat × Option (List Byte) × Nat × Nat)), m < 5 → k < 8 →
      lease < 65536 → s.own.claims = (m, n, k, lease) :: r →
      (∀ x ∈ s.xrq, x.auth = false ∨ x.write = false ∨ x.master = s.steward) →
      (s.flashReach = false → s.claimCheck m n k lease ≠ 2 ∨ exec (.claimResult m) s = .next s) ∧
      (s.claimCheck m n k lease ≠ 2 ∨ s.flashReach = true → ∃ t, exec (.claimResult m) s = .next t ∧ t.own.claims = r ∧ t.mbResult m = s.claimCheck m n k lease ∧
        t.tiles = s.tiles ∧
        if s.claimCheck m n k lease = 2 then
          t.steward = m ∧ t.rf (aOwn 0) 5 3 = k ∧ t.rf (aOwn 1) 15 0 = lease ∧
          t.own.leaseEnd = s.sym + lease * symMs ∧ RecordSaved 0x1_0000 t.ownerBytes s t ∧
          t.rf (aOwn 3) 11 0 = min 4095 (s.rf (aOwn 3) 11 0 + 1)
        else t.steward = s.steward ∧ t.rf (aOwn 3) 23 12 = min 4095 (s.rf (aOwn 3) 23 12 + 1) ∧
          RegsBut (fun q => q = aOwn 3 ∨ q = aMy m 0x101) s t ∧ StoresKept s t)) ∧
    (∀ w : Word, masterOk m = true → Permitted m (aOwn 1) s → 10 ≤ fld w 15 0 → fld w 15 0 ≤ 60000 →
      ∃ t, exec (.renew m w) s = .next t ∧ t.rf (aOwn 1) 15 0 = fld w 15 0 ∧
        t.own.leaseEnd = s.sym + fld w 15 0 * symMs ∧ RegsOnly m (fun q => q = aOwn 1) [] s t) ∧
    (s.steward ≠ 7 → s.due s.own.leaseEnd = true →
      ∃ t, exec .leaseExpiry s = .next t ∧ t.steward = 7 ∧ t.staged = [] ∧
        t.rf (aOwn 3) 35 24 = min 4095 (s.rf (aOwn 3) 35 24 + 1) ∧ StoresKept s t ∧
        RegsBut (fun q => q = aOwn 0 ∨ q = aOwn 3) s t ∧
        ∃ k, t.marks.getLast? = some k ∧ k.code = 0x012 ∧ k.d0 = wd s.steward ∧ k.d1 = 7)

/-- A permitted handover with GO to another master ends stewardship and opens the window of 100 ms for that master
alone; to 7 it only ends it; a window that has run out closes. A permitted SET makes the named entry of the owner
list valid with the height and key hash given and next index 0; a permitted REMOVE of an entry, while another is
valid and the steward does not hold the one named, makes it invalid. The list goes to the older of its two flash
records, which is then the newer one that passes its check, or waits for the controller; no tile changes. The layout
of a record is the model's choice (log entry 12). (R542, R543, R544, R550) -/
def Obligations.HandoverAndOwnerList : Prop :=
  ∀ (s : State) (m : Nat) (w : Word), s.held = false → masterOk m = true →
    (Permitted m (aOwn 2) s → bitOf w 3 = true → s.steward ≠ 7 →
      ∃ t, exec (.handover m w) s = .next t ∧ AccessKept s t ∧
        RegsBut (fun q => q = aOwn 0 ∨ q = aOwn 2 ∨ q = aToll m) s t ∧ t.rf (aOwn 2) 2 0 = fld w 2 0 ∧
        (fld w 2 0 = 7 → t.steward = 7) ∧
        (fld w 2 0 ≠ s.steward → fld w 2 0 < 4 ∨ (fld w 2 0 = 4 ∧ s.service = true) →
          t.steward = 7 ∧ t.rb (aOwn 0) 22 = true ∧ t.rf (aOwn 0) 25 23 = fld w 2 0 ∧
          t.own.hovEnd = s.sym + 100 * symMs)) ∧
    (s.rb (aOwn 0) 22 = true → s.due s.own.hovEnd = true →
      ∃ t, exec .handoverWindowClose s = .next t ∧ t.rb (aOwn 0) 22 = false ∧ t.rf (aOwn 0) 25 23 = 7 ∧
        t.steward = s.steward ∧ RegsBut (fun q => q = aOwn 0) s t ∧ t.tiles = s.tiles ∧ StoresKept s t) ∧
    (Permitted m (aOwn 0x90) s → fld w 6 5 ≠ 3 →
      (∃ t, exec (.keySet m w) s = .next t ∧ t.rb (aKey (fld w 2 0) 0) 0 = true ∧
        t.rf (aKey (fld w 2 0) 0) 2 1 = fld w 6 5 ∧ t.rf (aKey (fld w 2 0) 0) 23 3 = 0 ∧
        t.bytesAt (aKey (fld w 2 0) 1) 8 = s.bytesAt (aOwn 0x91) 8 ∧ t.rf (aOwn 0x90) 9 8 = 0 ∧ t.tiles = s.tiles ∧
        (if s.flashReach = true then RecordSaved 0x1_0000 t.ownerBytes s t else t.flash = s.flash ∧ 0 ∈ t.nvWait) ∧
        RegsBut (fun q => q = aOwn 0x90 ∨ q = aToll m ∨ (aKey (fld w 2 0) 0 ≤ q ∧ q ≤ aKey (fld w 2 0) 8)) s t) ∧
      ∀ k, k < 8 → k ≠ fld w 2 0 → s.rb (aKey k 0) 0 = true → s.steward = 7 ∨ s.rf (aOwn 0) 5 3 ≠ fld w 2 0 →
        ∃ t, exec (.keyRemove m w) s = .next t ∧ t.rb (aKey (fld w 2 0) 0) 0 = false ∧ t.rf (aOwn 0x90) 9 8 = 0 ∧
          t.tiles = s.tiles ∧
          (if s.flashReach = true then RecordSaved 0x1_0000 t.ownerBytes s t else t.flash = s.flash ∧ 0 ∈ t.nvWait) ∧
          RegsBut (fun q => q = aOwn 0x90 ∨ q = aToll m ∨ q = aKey (fld w 2 0) 0) s t)

/-- After start-up a served NONCE leaves a fresh nonce in the mailbox with RESULT 2; ATTEST, LCREQ and SVN show RESULT 1
and begin, LCREQ and SVN with the nonce, which they consume. When they end, ATTEST with a ready key has used one
leaf and answered 1,406 words; LCREQ and SVN show the outcome of R572, and on success put the life cycle in the
state asked for, or raise SVNMIN. The lead, its vault not being wiped, begins an attestation key by a boot-counter
step and AKSTATE 1, or shows AKSTATE 3 with the counter used up; a generated key makes AKSTATE 2, with a certificate
signed with the identity root. A tamper event wipes every vault, answers each command in progress with RESULT 8,
ends stewardship, drops every nonce and key, leaves SERVICE and counts; deassertion ends the event. Cryptography is
opaque (log entry 7), nonces are free values, and that the commands end at the next MILESTONE is the model's choice
(log entry 108), as is a nonce's age (log entry 39). (R562, R564, R565, R567, R568, R570, R571, R572, R573, R574) -/
def Obligations.SecurityCommands : Prop :=
  (∀ (s : State) (m : Nat), s.held = false →
    (m < 5 → Served m (aSec 0x100) s → s.ready = true → s.rf (aMine m (aSec 0x101)) 3 0 ≠ 1 →
      (∃ t n, exec (.nonce m) s = .next t ∧ SMap.get (fun _ => none) t.sec.nonce m = some n ∧ n.at_ = s.sym ∧
        n.bytes = t.bytesAt (aMine m (aSec 0x108)) 8 ∧ t.rd (aMine m (aSec 0x101)) = 2 ∧ t.tiles = s.tiles ∧
        AccessKept s t) ∧
      (∃ t, exec (.attest m) s = .next t ∧ t.sec.running = s.sec.running ++ [(m, 2, liveNonce s.sec.nonce m s.sym)] ∧
        t.sec.nonce = s.sec.nonce ∧ t.rd (aMine m (aSec 0x101)) = 1 ∧ t.tiles = s.tiles ∧ AccessKept s t) ∧
      (∃ t, exec (.lcreq m) s = .next t ∧ t.sec.running = s.sec.running ++ [(m, 3, liveNonce s.sec.nonce m s.sym)] ∧
        SMap.get (fun _ => none) t.sec.nonce m = none ∧ t.rd (aMine m (aSec 0x101)) = 1 ∧ t.tiles = s.tiles ∧
        AccessKept s t) ∧
      ∃ t, exec (.svn m) s = .next t ∧ t.sec.running = s.sec.running ++ [(m, 4, liveNonce s.sec.nonce m s.sym)] ∧
        SMap.get (fun _ => none) t.sec.nonce m = none ∧ t.rd (aMine m (aSec 0x101)) = 1 ∧ t.tiles = s.tiles ∧
        AccessKept s t) ∧
    (∀ (op : Nat) (n : Option (List Byte)), m < 5 → s.sec.running = [(m, op, n)] →
      s.secSteps.sec.running = [] ∧
      (op = 2 → s.akState = 2 → s.rf (aSec 0x41) 20 0 + 1 ≤ 2 ^ 20 →
        s.secSteps.rf (aSec 0x41) 20 0 = s.rf (aSec 0x41) 20 0 + 1 ∧
        s.secSteps.rd (aMine m (aSec 0x101)) = wd (2 + 16 * 1406) ∧ s.secSteps.tiles = s.tiles ∧
        s.secSteps.akState = if s.rf (aSec 0x41) 20 0 + 1 = 2 ^ 20 then 0 else 2) ∧
      (op = 3 → s.secSteps.rd (aMine m (aSec 0x101)) = wd (s.lcOutcome m 3 n) ∧
        s.secSteps.lc = (if s.lcOutcome m 3 n = 2 then (s.lcInput m).to_ else s.lc)) ∧
      (op = 4 → s.secSteps.rd (aMine m (aSec 0x101)) = wd (s.lcOutcome m 4 n) ∧ s.secSteps.lc = s.lc ∧
        s.secSteps.tiles = s.tiles ∧
        s.secSteps.rf aSecBoot 28 23 = (if s.lcOutcome m 4 n = 2 then (s.lcInput m).svn else s.rf aSecBoot 28 23))) ∧
    (s.akState = 0 → s.sec.active = [] → s.leadVault = true →
      (s.rf aSecBoot 10 0 < 1024 →
        ∃ t, exec .attestKeyBegin s = .next t ∧ t.akState = 1 ∧ t.rf aSecBoot 10 0 = s.rf aSecBoot 10 0 + 1 ∧
          t.rf aSecBoot 20 11 = s.rf aSecBoot 10 0 ∧ t.rf (aSec 0x41) 20 0 = 0 ∧ t.tiles = s.tiles ∧ StoresKept s t ∧
          RegsBut (fun q => q = aSecBoot ∨ q = aSec 0x41) s t) ∧
      (1024 ≤ s.rf aSecBoot 10 0 →
        ∃ t, exec .attestKeyBegin s = .next t ∧ t.akState = 3 ∧ t.tiles = s.tiles ∧ StoresKept s t ∧
          RegsBut (fun q => q = aSecBoot) s t)) ∧
    (s.leadVault = false → exec .attestKeyBegin s = .next s) ∧
    (s.akState = 1 →
      ∃ t, exec .attestKeyReady s = .next t ∧ t.akState = 2 ∧
        t.sec.cert = certBody s.devid (s.rf aSecBoot 20 11) s.lc (publicKey akOid s.sec.akSeed) ∧
        t.sec.certSig = signature idOid s.sec.idSeed (s.rf aSecBoot 20 11) t.sec.cert ∧ t.tiles = s.tiles ∧
        StoresKept s t ∧ RegsBut (fun q => q = aSecBoot) s t)) ∧
  (∀ oid seed : Nat, (publicKey oid seed).length = 68 ∧ (oid < 2 ^ 32 → beBytes ((publicKey oid seed).take 4) = oid)) ∧
  ∀ (s : State) (src : Nat), s.held = false → src < 5 →
    (src ∉ s.sec.active →
      ∃ t, exec (.tamper src) s = .next t ∧ t.sec.active = src :: s.sec.active ∧ t.sec.nonce = [] ∧ t.own.nonce = [] ∧
        t.sec.running = [] ∧ (∀ x ∈ s.sec.running, x.1 < 5 → t.rd (aMine x.1 (aSec 0x101)) = 8) ∧
        t.steward = 7 ∧ t.rb aTamp src = true ∧ t.rb aTamp (5 + src) = true ∧
        t.rf aTamp 27 10 = min (2 ^ 18 - 1) (s.rf aTamp 27 10 + 1) ∧ t.lc = (if s.lc = 3 then 2 else s.lc) ∧
        t.akState = (if s.akState = 3 then 3 else 0) ∧ (∀ d, d < 8 → bitOf ((t.tile d 72).ior 0x1E) 0 = true) ∧
        (∃ k, t.marks.getLast? = some k ∧ k.code = 0x090) ∧ StoresKept s t) ∧
    ∃ t, exec (.tamperDeassert src) s = .next t ∧ src ∉ t.sec.active ∧ t.rb aTamp (5 + src) = false ∧
      RegsBut (fun q => q = aTamp) s t ∧ t.tiles = s.tiles ∧ StoresKept s t

/-- The oldest waymark for a unit with room, not identical to the unit's newest record, joins its queue last; the head
of the queue goes into the ring last with the next SEQ, which advances; a read of LOG_WIN0 latches the oldest record
not earlier than the cursor and answers its SEQ; a read of LOG_WCHK whose latched record still stands advances the
cursor past it and answers OK with what the latch noted; OLDEST puts the cursor at the oldest record of the die it
names. No tile changes and no register but those named and the reader's toll count. (R581, R582, R583, R584, R586,
R587, R588) -/
def Obligations.LogbookRecords : Prop :=
  ∀ (s : State), s.held = false →
    (∀ (d : Nat) (k : Mark) (r : List Mark), d < 8 → takeMark (fun m => s.unitOf m.die == d) s.marks = some (k, r) →
      (s.log d).queue.length < 8 → (∀ y, (s.log d).queue.getLast? = some y → sameMark k y.1.m = false) →
      (∀ y, (s.log d).ring.getLast? = some y → sameMark k y.m = false) →
      ∃ t, exec (.waymark d) s = .next t ∧ t.marks = r ∧ (t.log d).ring = (s.log d).ring ∧
        (t.log d).queue = (s.log d).queue ++ [(⟨0, k, k.tick, 0⟩, false)] ∧
        RegsBut (fun _ => False) s t ∧ t.tiles = s.tiles) ∧
    (∀ (d : Nat) (x : Rec) (q : List (Rec × Bool)), d < 8 → s.logUp d = true → (s.log d).queue = (x, false) :: q →
      (s.log d).ring.length < 4096 → (s.log d).lost = 0 →
      ∃ t, exec (.ringWrite d) s = .next t ∧ (t.log d).ring = (s.log d).ring ++ [{ x with seq := s.rd (aLog 0) }] ∧
        (t.log d).queue = q ∧ t.rd (aLog 0) = s.rd (aLog 0) + 1 ∧ RegsBut (fun q => q = aLog 0) s t ∧
        t.tiles = s.tiles ∧ t.flash = s.flash) ∧
    (∀ (m i : Nat) (r : Rec), curOk m = true → Served m (aLog 0x108) s → s.logUp (s.rf (aCur m 0x100) 2 0) = true →
      findSeq (s.rd (aCur m 0x101)) 0 (s.log (s.rf (aCur m 0x100) 2 0)).ring = some (i, r) →
      ∃ t x, exec (.win0Read m) s = .next t ∧ t.out = s.out ++ [.resp m 0 [r.seq]] ∧ t.latchOf m = some x ∧
        x.die = s.rf (aCur m 0x100) 2 0 ∧ x.slot = some ((s.log (s.rf (aCur m 0x100) 2 0)).base + i, r.seq) ∧
        RegsBut (fun a => a = aToll m) s t ∧ t.tiles = s.tiles ∧ AccessKept s t) ∧
    (∀ (m d abs : Nat) (q : Word) (e l : Bool) (r : Rec), curOk m = true → Served m (aLog 0x110) s →
      s.latchOf m = some ⟨d, some (abs, q), e, l⟩ →
      s.logUp d = true → (s.log d).slot abs = some r → r.seq = q →
      ∃ t, exec (.wchkRead m) s = .next t ∧ t.out = s.out ++ [.resp m 0 [wd (1 + (4 * natB e + 8 * natB l))]] ∧
        t.latchOf m = none ∧ t.rd (aCur m 0x101) = q + 1 ∧ RegsBut (fun a => a = aCur m 0x101 ∨ a = aToll m) s t ∧
        t.tiles = s.tiles ∧ AccessKept s t) ∧
    ∀ (m : Nat) (w : Word) (r : Rec), curOk m = true → Served m (aLog 0x100) s → bitOf w 3 = true → (s.log (fld w 2 0)).ring.head? = some r →
      ∃ t, exec (.oldest m w) s = .next t ∧ t.out = s.out ++ [.resp m 0 []] ∧ t.rd (aCur m 0x101) = r.seq ∧
        t.rf (aCur m 0x100) 2 0 = fld w 2 0 ∧ RegsBut (fun a => a = aCur m 0x100 ∨ a = aCur m 0x101 ∨ a = aToll m) s t ∧
        t.tiles = s.tiles ∧ AccessKept s t

/-- A flush with one record left to write, into a sector in use with room, programs the record's 36 bytes at its place,
shows it as the last one written and ends, every other byte of flash as before; a failed program skips the sector,
counts and raises waymark FLASHERR; an erase leaves a sector all 0xFF and the rest as before; a power-fail warning
that is enabled counts and, with room for all 40 records, ends any flush, and the ledgers are written with it or
wait for the controller; its end is noted; FLASHERR is raised, at most once a second, while the controller cannot be
reached; when the lead is not healthy the lowest healthy warden takes the role with waymark LEAD. No tile changes.
The model's choices: one command for a flush and the ledgers' flash (log entries 27, 12). (R23, R28, R588, R589,
R590) -/
def Obligations.LogbookFlash : Prop :=
  ∀ (s : State), s.held = false →
    (∀ (q : Word), s.flushTo = some q → s.pfwLow = false → s.flashReach = true → s.nrec < 1820 → s.sect ∉ s.badSect →
      s.sectBlank s.sect = false →
      (∀ r : Rec, s.unflushed.filter (fun (x : Rec) => !(laterSeq x.seq q)) = [r] →
        ∃ t, exec (.flush true) s = .next t ∧ t.flushTo = none ∧ t.rd (aLog 2) = r.seq ∧ t.nrec = s.nrec + 1 ∧
          (∀ j, j < 36 → t.flashByte (sectAt s.sect + 16 + 36 * s.nrec + j) = r.bytes.getD j 0) ∧
          (∀ a, a < sectAt s.sect + 16 + 36 * s.nrec ∨ sectAt s.sect + 52 + 36 * s.nrec ≤ a →
            t.flashByte a = s.flashByte a) ∧ t.tiles = s.tiles ∧ RegsBut (fun a => a = aLog 2 ∨ a = aLog 3) s t) ∧
      ∃ t, exec (.flush false) s = .next t ∧ t.badSect = s.sect :: s.badSect ∧ t.flash = s.flash ∧
        t.rf (aLog 3) 35 24 = min 4095 (s.rf (aLog 3) 35 24 + 1) ∧ t.tiles = s.tiles ∧
        RegsBut (fun a => a = aLog 3) s t ∧
        ∃ k, t.marks = s.marks ++ [k] ∧ k.code = 0x003 ∧ k.d0 = wd (sectAt s.sect + 16 + 36 * s.nrec)) ∧
    (∀ k : Nat, s.pfwLow = false → s.flashReach = true → s.erasedAhead < 2 → s.sectsAhead[s.erasedAhead]? = some k →
      ∃ t, exec (.sectorErase true) s = .next t ∧ (∀ a, sectAt k ≤ a → a < sectAt k + 65536 → t.flashByte a = 0xFF) ∧
        (∀ a, a < sectAt k ∨ sectAt k + 65536 ≤ a → t.flashByte a = s.flashByte a) ∧ t.tiles = s.tiles ∧
        RegsBut (fun a => a = aLog 3) s t) ∧
    (s.pfwLow = false → s.rb (aLog 1) 1 = true →
      ∃ t, exec .pfw s = .next t ∧ t.pfwLow = true ∧
        t.rf (aLog 4) 17 0 = min (2 ^ 18 - 1) (s.rf (aLog 4) 17 0 + 1) ∧ t.tiles = s.tiles ∧
        (s.flashReach = true → s.sect ∉ s.badSect → s.nrec + 40 ≤ 1820 → t.flushTo = none) ∧
        (s.flashReach = false → t.flash = s.flash ∧ 3 ∈ t.nvWait)) ∧
    (∃ t, exec .pfwNRise s = .next t ∧ t.pfwLow = false ∧ t.regs = s.regs ∧ t.tiles = s.tiles ∧ StoresKept s t) ∧
    (s.flashReach = false →
      (∀ a, s.flashErrAt = some a → s.sym < a + symSec → exec .flasherr s = .next s) ∧
      ((∀ a, s.flashErrAt = some a → a + symSec ≤ s.sym) →
        ∃ t k, exec .flasherr s = .next t ∧ t.marks = s.marks ++ [k] ∧ k.code = 0x003 ∧ k.die = s.lead ∧
          k.d0 = 0o777777777777 ∧ t.flashErrAt = some s.sym ∧ t.regs = s.regs ∧ t.tiles = s.tiles ∧ StoresKept s t)) ∧
    ∀ d : Nat, d < 8 → s.healthy s.lead = false → s.healthy d = true → (∀ e, e < d → s.healthy e = false) →
      ∃ t k, exec .lead s = .next t ∧ t.lead = d ∧ t.rf aBoot 10 8 = d ∧ t.marks = s.marks ++ [k] ∧ k.code = 0x080 ∧
        k.die = d ∧ k.d0 = wd s.lead ∧ k.d1 = wd d ∧ RegsBut (fun a => a = aBoot ∨ a = aSecBoot) s t ∧
        t.tiles = s.tiles ∧ StoresKept s t

/-- A sample within the range of the sensors makes Tj their highest; a ceiling falls below the mode held against the
limits once a die has been hot for 1 ms, and rises by one with AUTOUP once all are cool for 10 s; a mode decided on
comes into force after its decision, a higher one only 100 microseconds after it and after its voltage has been
acknowledged, with waymark SLOWMODE below the armed image's minimum; the commanded voltage is sent, again after 1 ms
without acknowledgement and not before, and settled by its acknowledgement; a second of aging adds to the ledger and
shows whole life-seconds; the ledgers go to the older of their two flash records, or wait for its controller;
monitors read at or above SLMIN change no trim, and a slow position, a retired tile's too, raises its domain's trim
by one, at most once a second, and at 12 steps makes its placed tile due. No tile changes, but where a slow warden
is given up. The model's choices: the aging factor in whole millionths, rounded down (log entry 9), the layout of a
record and that it waits (log entry 12), the rounding of LINEAR16 (log entry 18), the time at which a ceiling's
clock restarts (52). (R594, R595, R598, R599, R600, R614, R615, R616, R617, R663, R664, R665) -/
def Obligations.ModesAndAging : Prop :=
  ∀ (s : State), s.held = false →
    (∀ (d : Nat) (x : Int) (l : List Int), d < 8 → (∀ y ∈ x :: l, -45 ≤ y ∧ y ≤ 125) →
      ∃ t, exec (.tjSample d (x :: l)) s = .next t ∧ t.tj d = l.foldl max x ∧ RegsBut (fun a => a = aPwr (8 + d)) s t ∧
        t.tiles = s.tiles ∧ StoresKept s t) ∧
    (∀ d : Nat, d < 8 → 0 < s.modeNow → s.heldFor s.pwr.hot d symMs = true →
      ∃ t, exec (.ceilingDown d) s = .next t ∧ t.ceil = s.modeNow - 1 ∧ t.mode = s.mode ∧ t.reqMode = s.reqMode ∧
        RegsBut (fun a => a = aPwr 0) s t ∧ t.tiles = s.tiles ∧ StoresKept s t) ∧
    (s.rb (aPwr 0) 2 = true → s.ceil < 2 → (∀ d, d < 8 → s.heldFor s.pwr.cool d (10 * symSec) = true) →
      ∃ t, exec .ceilingUp s = .next t ∧ t.ceil = s.ceil + 1 ∧ t.mode = s.mode ∧ t.reqMode = s.reqMode ∧
        RegsBut (fun a => a = aPwr 0) s t ∧ t.tiles = s.tiles ∧ StoresKept s t) ∧
    (laterTick s.tick s.pwr.decTick = true →
      s.decided < s.mode ∨ (s.mode < s.decided ∧ s.voltOk = true ∧ s.pwr.decAt + symMs / 10 ≤ s.sym ∧
        s.pwr.ackAt + symMs / 10 ≤ s.sym) →
      ∃ t, exec .modeChange s = .next t ∧ t.mode = s.decided ∧ RegsBut (fun a => a = aPwr 0) s t ∧ t.tiles = s.tiles ∧
        StoresKept s t ∧ ∀ mm, s.armedMin = some mm → s.decided < mm →
          ∃ k, t.marks = s.marks ++ [k] ∧ k.code = 0x033 ∧ k.d0 = wd s.decided ∧ k.d1 = wd mm) ∧
    (∀ ack : Bool, s.voltOk = false → s.busReach = true →
      (∀ a, s.pwr.sentAt = some a → s.pwr.sentMv ≠ s.wantMv ∨ a + symMs ≤ s.sym) →
      ∃ t, exec (.voutCommand ack) s = .next t ∧ t.out = s.out ++ [.pmbus (linear16 s.wantMv)] ∧ t.regs = s.regs ∧
        t.tiles = s.tiles ∧ StoresKept s t ∧
        if ack = true then t.pwr.volt = s.wantMv ∧ t.pwr.ackAt = s.sym ∧ t.pwr.sentAt = none
        else t.pwr.volt = s.pwr.volt ∧ t.pwr.sentAt = some s.sym ∧ t.pwr.sentMv = s.wantMv) ∧
    (∀ (ack : Bool) (a : Nat), s.pwr.sentAt = some a → s.pwr.sentMv = s.wantMv → s.sym < a + symMs →
      exec (.voutCommand ack) s = .next s) ∧
    (∀ (d : Nat) (mean : Int), d < 8 →
      ∃ t v, exec (.ledgerAccrue d mean) s = .next t ∧
        v = SMap.get (fun _ => 0) s.pwr.life d + lifeRate s.mode * agingFactor (mean - tjLimit s.mode) ∧
        SMap.get (fun _ => 0) t.pwr.life d = v ∧ t.rd (aPwr (0x40 + d)) = wd (v / 10 ^ 8) ∧
        RegsBut (fun a => a = aPwr (0x40 + d)) s t ∧ t.tiles = s.tiles ∧ StoresKept s t) ∧
    (s.flashReach = true →
      ∃ t, exec .ledgerWrite s = .next t ∧ RecordSaved 0x3_0000 s.ledgerBytes s t ∧ t.regs = s.regs ∧ t.tiles = s.tiles) ∧
    (s.flashReach = false →
      ∃ t, exec .ledgerWrite s = .next t ∧ 3 ∈ t.nvWait ∧ t.flash = s.flash ∧ t.regs = s.regs ∧ t.tiles = s.tiles) ∧
    (agingFactor 0 = 10 ^ 6 ∧ agingFactor (-20) = 250000 ∧ ∀ n : Int, -200 ≤ n → n ≤ 200 →
      agingFactor n ^ 10 * 2 ^ (-n).toNat ≤ 10 ^ 60 * 2 ^ n.toNat ∧
      10 ^ 60 * 2 ^ n.toNat < (agingFactor n + 1) ^ 10 * 2 ^ (-n).toNat) ∧
    ∀ (d : Nat) (l : List Nat), d < 8 → s.healthy d = true →
      ∃ t, exec (.monitorRead d l) s = .next t ∧
        (l.length ≤ 72 ∨ s.trimOf d 15 < 12 → t.tiles = s.tiles ∧ StoresKept s t) ∧
        ((∀ p, p < l.length → s.slmin ≤ l.getD p 0) → RegsBut (fun _ => False) s t ∧
          ∀ p, p < 72 → p < l.length → s.domainOn d (p / 8) = true →
            SMap.get (fun _ => 0) t.pwr.slack (tkey d p) = min 255 (l.getD p 0)) ∧
        ∀ p, p < 72 → p < l.length → s.domainOn d (p / 8) = true → l.getD p 0 < s.slmin →
          (s.trimOf d (p / 8) < 12 → t.trimOf d (p / 8) = s.trimOf d (p / 8) + natB (s.trimDue d (p / 8))) ∧
          (12 ≤ s.trimOf d (p / 8) → (s.tile d p).placed = true → s.tileFlag d p = 0 → t.tileFlag d p = 2)

/-- A powering domain that is ready has its supply: the tiles of a row are at their reset, free or retired, the links of
a group wait for lock, a warden is healthy where it is in BLANK or its firmware passes its checks, else waymark
FWREFUSED; a tripped one has failed, with the tiles of a row at their reset; a permitted write of PWR_IBKRET trains
the links whose ends are powered; TILE_RETIRE makes the tile named due, or retires it if it is not placed, its
warden healthy and no update in progress; DIE_BIST of a free or retired tile begins its test, whose end moves it to
free or retired with its state at reset and its junction and slot buffers empty, and shows the result where DIE_BIST
asked for it; a halted tile that was not reset within the second before is reset, its window port drained, and
restarts its image's start code if it is placed; an accepted firmware update restarts a warden that is not the lead
if its image passes its checks, ends with waymark FWREFUSED if not, and waits for the flash controller; a warden
that rejoins is healthy and done, and one that does not rejoin in time ends the update with waymark FWREFUSED. The
model's choices: firmware in BLANK (log entry 20), the size of a firmware image (log entry 19), the slot buffers of
a position (log entry 100), in service after bring-up (log entry 109), what an off row loses (54), the warden's own
tile (55). (R609, R611, R613, R618, R624, R625, R626, R639, R640) -/
def Obligations.DomainsTilesAndFirmware : Prop :=
  ∀ (s : State) (m d : Nat), s.held = false → masterOk m = true → d < 8 →
    (∀ i : Nat, i < 17 → s.domState d i = 1 →
      ∃ t, exec (.domainReady d i) s = .next t ∧ t.domState d i = 2 ∧ t.flash = s.flash ∧ t.tick = s.tick ∧
        (i < 9 → ∀ x, x < 8 → t.tile d (8 * i + x) = Tile.reset ∧
          t.tileFlag d (8 * i + x) = if s.tileFlag d (8 * i + x) = 4 then 4 else 0) ∧
        (9 ≤ i → i < 13 → ∀ x, x < 16 → (t.link (64 * d + 16 * (i - 9) + x)).rising = true) ∧
        (i = 15 → s.lc = 0 → t.healthy d = true) ∧
        (i = 15 → s.lc ≠ 0 → match s.fwCheck (s.srcWord (wd (fwSlotAt (s.rf aBoot 19 19)))) with
          | .ok _ => t.healthy d = true
          | .error _ => t.healthy d = s.healthy d ∧ ∃ k, t.marks = s.marks ++ [k] ∧ k.code = 0x081) ∧
        (9 ≤ i → (∀ e, s.detoursOn e = []) → t.tiles = s.tiles)) ∧
    (∀ i : Nat, i < 17 → s.domState d i = 1 ∨ s.domState d i = 2 →
      ∃ t, exec (.domainTrip d i) s = .next t ∧ t.domState d i = 3 ∧ t.flash = s.flash ∧ t.tick = s.tick ∧
        (i < 9 → ∀ x, x < 8 → t.tile d (8 * i + x) = Tile.reset) ∧
        (9 ≤ i → (∀ n, n < 512 → (s.link n).rxl.frame = none) → (∀ e, s.detoursOn e = []) → t.tiles = s.tiles)) ∧
    (∀ w : Word, Permitted m (aPwr 0x50) s →
      ∃ t, exec (.pwrIbkret m w) s = .next t ∧ t.tiles = s.tiles ∧ t.flash = s.flash ∧ t.drams = s.drams ∧
        ∀ l, l < 10 → bitOf w l = true → s.domainOn (linkEnds l).1.1 14 = true → s.domainOn (linkEnds l).2.1 14 = true →
          t.rf (aIbk (linkEnds l).1) 4 0 = 2 ∧ t.rf (aIbk (linkEnds l).2) 4 0 = 2 ∧ t.rb (aPwr 0x50) l = true) ∧
    (∀ (w : Word) (e p : Nat), Permitted m (aPwr 0x4A) s → bitOf w 15 = true → s.rf (aPwr 0x49) 2 0 = e →
      s.rf (aPwr 0x49) 9 3 = p → p < 72 → s.tileFlag e p ≠ 3 → s.tileFlag e p ≠ 4 →
      ∃ t, exec (.tileRetire m w) s = .next t ∧ RegsOnly m (fun _ => False) [] s t ∧
        ((s.tile e p).placed = true → s.tileFlag e p ≤ 2 → t.tileFlag e p = 2) ∧
        ((s.tile e p).placed = false → s.updating = false → s.healthy e = true → t.tileFlag e p = 4)) ∧
    (∀ (w : Word) (p : Nat), Permitted m (aDie d 0x200) s → bitOf w 7 = true → fld w 6 0 = p → p < 72 →
      s.tileFlag d p = 0 ∨ s.tileFlag d p = 4 → (s.tile d p).placed = false → (s.die d).bist = none →
      s.domainOn d (p / 8) = true → (∀ y ∈ s.detoursOn d, y.to_ ≠ p) →
      ∃ t, exec (.dieBist m d w) s = .next t ∧ (t.die d).bist = some p ∧ t.rf (aDie d 0x200) 9 8 = 1 ∧
        t.rf (aDie d 0x200) 6 0 = p ∧ RegsOnly m (fun a => a = aDie d 0x200) [] s t) ∧
    (∀ (p : Nat) (pass : Bool), (s.die d).bist = some p →
      p < 72 →
      ∃ t, exec (.dieBistDone d pass) s = .next t ∧ (t.die d).bist ≠ some p ∧ t.tile d p = Tile.reset ∧
        ((∀ q, q < 72 → q ≠ p → tkey d q ∉ s.pwr.suspect) → (t.die d).bist = none) ∧ tkey d p ∉ t.pwr.suspect ∧
        t.rf (aDie d 0x200) 9 8 = (if s.rf (aDie d 0x200) 9 8 = 1 then (if pass = true then 2 else 3)
          else s.rf (aDie d 0x200) 9 8) ∧ t.tileFlag d p = (if pass = true then 0 else 4) ∧
        t.junc d p = Junction.reset ∧ (∀ e q, d * 128 + p ≠ e * 128 + q → t.junc e q = s.junc e q) ∧
        (p < 64 → (t.link (64 * d + p)).slots = []) ∧ (∀ n, n ≠ 64 * d + p ∨ 64 ≤ p → t.link n = s.link n) ∧
        TilesBut (tkey d p) s t ∧ RegsBut (fun a => a = aDie d 0x200) s t ∧ t.flash = s.flash ∧ t.drams = s.drams ∧
        t.ibk = s.ibk ∧ t.ibl = s.ibl ∧ t.logs = s.logs) ∧
    (∀ p : Nat, p < 73 → (s.tile d p).phase = .halt → SMap.get (fun _ => 0) s.pwr.lastReset (tkey d p) = 0 ∨
        SMap.get (fun _ => 0) s.pwr.lastReset (tkey d p) + symSec ≤ s.sym + 1 →
      ∃ t, exec (.haltedTileReset d p) s = .next t ∧ TilesBut (tkey d p) s t ∧ t.regs = s.regs ∧ StoresKept s t ∧
        (t.tile d p).tcr = 0 ∧ bitOf ((t.tile d p).ior 0x09) 0 = false ∧ (t.tile d p).raised = none ∧
        (t.tile d p).port = [] ∧ t.draining (if p = 72 then 8 + d else 0x80 + 72 * d + p) = true ∧
        (t.tile d p).gran = (s.tile d p).gran ∧
        ((s.tile d p).placed = false → (t.tile d p).phase = .idle) ∧
        ∀ (im : Image) (x : ImgTile), (s.tile d p).placed = true → s.tileImage d p = some im → s.recordOn im d p = some x →
          (t.tile d p).phase = .run ∧ (t.tile d p).pc = x.saddr ∧ (t.tile d p).placed = true) ∧
    (∀ (w : Word) (e : Nat), Permitted m (aPwr 0x61) s → bitOf w 0 = true → s.updating = false →
      s.swapping = false → (∀ x, s.detoursOn x = []) → 2 ≤ s.boot.healthy.length → e < 8 → e ≠ s.lead →
      s.healthy e = true →
      ∃ t, exec (.fwUpdate m w) s = .next t ∧ t.lead = s.lead ∧ (∀ x q, q < 72 → t.tile x q = s.tile x q) ∧
        (s.flashReach = false → t.rf (aPwr 0x62) 2 0 = 1 ∧ t.flash = s.flash ∧ 2 ∈ t.nvWait) ∧
        (s.flashReach = true → match s.fwCheck (s.srcWord (s.rd (aPwr 0x60))) with
          | .ok _ => t.rf (aPwr 0x62) 2 0 = 2 ∧ ∃ x, x < 8 ∧ x ≠ s.lead ∧ s.healthy x = true ∧ t.pwr.fwDie = some x ∧
            t.rf (aPwr 0x62) 5 3 = x ∧ t.healthy x = false ∧ t.draining (8 + x) = true
          | .error _ => t.rf (aPwr 0x62) 2 0 = 4 ∧ t.pwr.fwDie = none ∧ t.flash = s.flash ∧
            ∃ k, t.marks.getLast? = some k ∧ k.code = 0x081)) ∧
    (s.updating = true → s.pwr.fwDie = some d →
      ∃ t, exec (.wardenRejoin d) s = .next t ∧ t.healthy d = true ∧ t.rb (aPwr 0x62) (6 + d) = true ∧
        ((∀ x, s.detoursOn x = []) → ∀ x q, q < 72 → t.tile x q = s.tile x q)) ∧
    ∀ x : Nat, s.updating = true → s.pwr.fwDie = some x → s.pwr.fwAt + symSec ≤ s.sym →
      ∃ t k, exec .fwRejoinTimeout s = .next t ∧ t.rf (aPwr 0x62) 2 0 = 4 ∧ t.pwr.fwDie = none ∧ t.rd (aSec 0x42) = 0 ∧
        t.marks = s.marks ++ [k] ∧ k.code = 0x081 ∧ k.d0 = 0 ∧ t.tiles = s.tiles ∧
        RegsBut (fun a => a = aPwr 0x62 ∨ a = aSec 0x42) s t

/-- A pulse of PORST_N begins phase 0 with every vault being wiped and keeps flash and what outlives a power-up; phase 0
ends with the lowest warden that passed its ROM check as lead, the identity root rebuilt from the fused seeds, phase
2 in phase 3 if no tamper source is asserted, phases 3 and 4 in the next phase, phase 4 with each tile it tests free
or retired, phase 5 in phase 7, or in phase 8 with an autoarm; a permitted write of PKG_BOOTCFG is in force and
stands in the flash header, or waits for its controller. IDCODE, BOOTSTAT and BYPASS shift out their bits, and after
an EXTEST-class instruction every link loses lock; an instruction of the EXTEST class, where the life cycle permits
it, holds the lands, and the boundary register captures 1,627 bits, its inputs' levels where the part knows them
(the others free values), and shifts out as many bits as go in; CRACCESS in SERVICE reads PKG_ID for the next scan,
and shifts out die 0's register after the bypass bits of the others, with response 7 while a transaction pends. The
model's choices: the order of the cells (log entry 99), a pending scan (log entry 75), flash (log entry 12), which
instructions are of the EXTEST class (log entry 56). An instruction that is not permitted is BYPASS. (R358, R629,
R631, R632, R643, R647, R649, R650, R652) -/
def Obligations.StartupAndTap : Prop :=
  ∀ (s : State), s.held = false →
    (∃ t, exec .porstNPulse s = .next t ∧ t.held = false ∧ t.rf aBoot 3 0 = 0 ∧ t.tickValid = false ∧ t.tick = 0 ∧
      t.flash = s.flash ∧ t.pending = s.pending ∧ ∀ d, d < 8 → bitOf ((t.tile d 72).ior 0x1E) 0 = true) ∧
    (∀ bad : List Nat,
      (s.rf aBoot 3 0 = 0 → ∀ d, d < 2 → d ∉ bad → (∀ e, e < d → e ∈ bad) →
        ∃ t, exec (.startup bad) s = .next t ∧ t.rf aBoot 3 0 = 1 ∧ t.lead = d ∧ t.rf aBoot 10 8 = d ∧
          RegsBut (fun a => a = aBoot ∨ (∃ e, e < 8 ∧ a = aPwr (0x18 + e)) ∨ (s.lc ≠ 0 ∧ aSec 0x20 ≤ a ∧ a ≤ aSec 0x30)) s t ∧
          (s.lc ≠ 0 → t.bytesAt (aSec 0x20) 17 = publicKey idOid s.sec.idSeed) ∧ t.tiles = s.tiles ∧ StoresKept s t) ∧
      (s.rf aBoot 3 0 = 2 → s.sec.active = [] → ∃ t, exec (.startup bad) s = .next t ∧ t.rf aBoot 3 0 = 3 ∧
        t.flash = s.flash ∧ ((∀ l, l < 10 → 32 + l ∉ bad) → (∀ e, s.detoursOn e = []) → t.tiles = s.tiles)) ∧
      (s.rf aBoot 3 0 = 3 → ∃ t, exec (.startup bad) s = .next t ∧ t.rf aBoot 3 0 = 4 ∧ t.tiles = s.tiles ∧
        (s.pwr.rows = [] → t.flash = s.flash)) ∧
      (s.rf aBoot 3 0 = 4 → ∃ t, exec (.startup bad) s = .next t ∧ t.rf aBoot 3 0 = 5 ∧ t.flash = s.flash ∧
        ((∀ e, s.detoursOn e = []) → ∀ d p, d < 8 → p < 72 → s.tileFlag d p ≠ 4 ∨ s.rb 0xC1 29 = true →
          t.tile d p = Tile.reset ∧ t.tileFlag d p = if tkey d p ∈ bad then 4 else 0)) ∧
      (s.rf aBoot 3 0 = 5 → ∃ t, exec (.startup bad) s = .next t ∧ 
        t.rf aBoot 3 0 = (if s.rb 0xC1 0 then 8 else 7) ∧ t.boot.auto = (if s.rb 0xC1 0 then 1 else s.boot.auto) ∧
        t.flash = s.flash ∧ t.tiles = s.tiles ∧ RegsBut (fun a => a = aBoot) s t)) ∧
    (∀ (m : Nat) (w : Word), masterOk m = true → Permitted m 0xC1 s → 16 ≤ fld w 28 13 →
      ∃ t, exec (.pkgBootcfgWrite m w) s = .next t ∧ t.rf 0xC1 28 0 = fld w 28 0 ∧ t.rb 0xC1 29 = bitOf w 29 ∧
        t.rb 0xC1 30 = s.rb 0xC1 30 ∧ 
        (if s.flashReach = true then t.headerWord = t.rd 0xC1 ∧ ∀ a, 0x1_0000 ≤ a → t.flashByte a = s.flashByte a
          else t.flash = s.flash ∧ 1 ∈ t.nvWait) ∧
        RegsBut (fun a => a = 0xC1 ∨ a = aToll m) s t ∧ t.tiles = s.tiles) ∧
    (∀ x ∈ ([(.idcode, 2, (List.range 8).flatMap (fun _ => tapBits 32 0x1851276F)),
        (.bootstat, 0x11, (List.range 8).flatMap (fun _ => tapBits 36 (s.rd aBoot).toNat)),
        (.bypass, 0x3F, List.replicate 8 false)] : List (Instr × Nat × List Bool)),
      ∃ t, exec x.1 s = .next t ∧ t.tap.ir = List.replicate 8 x.2.1 ∧ t.tap.clamped = false ∧ t.out = s.out ++ [.tdo x.2.2] ∧
        (s.tap.clamped = false → t.tiles = s.tiles ∧ StoresKept s t) ∧
        (s.tap.clamped = true → ∀ n, n < 512 → t.rb (aLink n 3) 0 = false)) ∧
    (∀ tdi : List Bool, ∃ t b, exec (.samplePreload tdi) s = .next t ∧ t.tap.ir = List.replicate 8 1 ∧ t.tap.clamped = false ∧
      b.length = 1627 ∧ (∀ (i : Nat) (c : BCell), (chainCells[i]? = some (.porstN, c) → b[i]? = some true) ∧
        (chainCells[i]? = some (.pfwN, c) → b[i]? = some (!s.pfwLow)) ∧
        (chainCells[i]? = some (.tampN, c) → b[i]? = some (!(s.sec.active.contains 3)))) ∧ t.tap.bsr = (b ++ tdi).drop tdi.length ∧ t.out = s.out ++ [.tdo ((b ++ tdi).take tdi.length)] ∧
      (s.tap.clamped = false → t.tiles = s.tiles ∧ StoresKept s t)) ∧
    (s.lc = 0 → ∃ t b, exec .intscan s = .next t ∧ t.tap.ir = List.replicate 8 0x20 ∧ t.out = s.out ++ [.tdo [b]] ∧
      (s.tap.clamped = false → t.tiles = s.tiles ∧ StoresKept s t)) ∧
    (∀ tdi : List Bool, ∀ x ∈ ([(.extest tdi, 0), (.extestPulse tdi, 5), (.extestTrain tdi, 6)] : List (Instr × Nat)),
      (s.extestOk = true → ∃ t b, exec x.1 s = .next t ∧ t.tap.ir = List.replicate 8 x.2 ∧ t.tap.clamped = true ∧ b.length = 1627 ∧
        t.tap.bsr = (b ++ tdi).drop tdi.length ∧ t.regs = s.regs ∧ t.tiles = s.tiles ∧ StoresKept s t ∧
        t.out = s.out ++ [.tdo ((b ++ tdi).take tdi.length)]) ∧
      (s.extestOk = false → exec x.1 s = exec .bypass s)) ∧
    (∀ x ∈ ([(.tapClamp, 3), (.highz, 4)] : List (Instr × Nat)),
      (s.extestOk = true → ∃ t, exec x.1 s = .next t ∧ t.tap.ir = List.replicate 8 x.2 ∧ t.tap.clamped = true ∧ t.regs = s.regs ∧
        t.tiles = s.tiles ∧ StoresKept s t ∧ t.out = s.out ++ [.tdo (List.replicate 8 false)]) ∧
      (s.extestOk = false → exec x.1 s = exec .bypass s)) ∧
    ∀ dr : BitVec 76,
      (s.service = true → Served 4 0 s → s.scanPends = false → s.tap.clamped = false → bitOf dr 72 = false →
        fld dr 71 36 = 0 →
        ∃ t, exec (.craccess dr) s = .next t ∧ t.tap.ir = 0x10 :: List.replicate 7 0x3F ∧ fld t.tap.cr 75 73 = 0 ∧
          fld t.tap.cr 35 0 = (s.rd 0).toNat ∧ t.tiles = s.tiles ∧ AccessKept s t ∧
          t.out = s.out ++ [.tdo (List.replicate 7 false ++ tapBits 76 s.tap.cr.toNat), .resp 4 0 [s.rd 0]]) ∧
      (s.service = true → s.scanPends = true → s.tap.clamped = false →
        ∃ t, exec (.craccess dr) s = .next t ∧ t.xrq = s.xrq ∧ t.parked = s.parked ∧ t.regs = s.regs ∧ t.tap.cr = s.tap.cr ∧
          t.out = s.out ++ [.tdo (List.replicate 7 false ++ tapBits 76 (putFld s.tap.cr 75 73 7).toNat)]) ∧
      (s.service = false → exec (.craccess dr) s = exec .bypass s)

/-- With the lands free, a served read of the eight bytes of PKG_ID completes with its word, one of its low half with
that half, the rest held in a latch, from which a read of the high half of the word held is answered without an
access, marked as the word was; a write of the low four bytes of a word is held by its endpoint and reaches no
register; a write of the high four bytes with nothing held is discarded and counted; a permitted write of all eight
bytes of PKG_TIM_CNTCLR performs that register's write. No tile changes. The model's choices: the speed and width
that a link trains to (log entry 83), and what stands in the latch after a failed read (log entry 97). (R397, R524,
R525, R526, R527) -/
def Obligations.PcieRequests : Prop :=
  ∀ (s : State) (ep : Nat), s.held = false → ep < 2 →
    (Served ep 0 s → s.clamped = false →
      (∃ t, exec (.pcieRead ep 0 8) s = .next t ∧ t.out = s.out ++ [.cpl ep 0 false (wideBytes (s.rd 0))] ∧
        RegsBut (fun q => q = aToll ep ∨ q = aPcieStat ep) s t ∧ t.tiles = s.tiles ∧ AccessKept s t) ∧
      ∃ t, exec (.pcieRead ep 0 4) s = .next t ∧ t.out = s.out ++ [.cpl ep 0 false ((wideBytes (s.rd 0)).take 4)] ∧
        (t.pcie ep).up = some (0, (s.rd 0).toNat / 2 ^ 32, 0) ∧
        RegsBut (fun q => q = aToll ep ∨ q = aPcieStat ep) s t ∧ t.tiles = s.tiles ∧ AccessKept s t) ∧
    (∀ a v c : Nat, s.draining ep = false → s.clamped = false → a < 2 ^ 36 → (s.pcie ep).up = some (a, v, c) → c < 2 →
      ∃ t, exec (.pcieRead ep (8 * a + 4) 4) s = .next t ∧
        t.out = s.out ++ [.cpl ep 0 (c == 1) ((toLe 8 (v * 2 ^ 32)).drop 4)] ∧
        RegsBut (fun q => q = aPcieStat ep) s t ∧ t.tiles = s.tiles ∧ StoresKept s t) ∧
    (∀ (a : Nat) (data : List Byte), s.draining ep = false → a < 2 ^ 36 → data.length = 4 →
      (∃ t, exec (.pcieWrite ep (8 * a) (data.map some)) s = .next t ∧ (t.pcie ep).low = some (a, leBytes data) ∧
        RegsBut (fun q => q = aPcieStat ep) s t ∧ t.out = s.out ∧ t.tiles = s.tiles ∧ StoresKept s t) ∧
      ((s.pcie ep).low = none →
        ∃ t, exec (.pcieWrite ep (8 * a + 4) (data.map some)) s = .next t ∧ (t.pcie ep).low = none ∧ t.out = s.out ∧
          t.rf (aPcieCnt ep) 17 0 = min (2 ^ 18 - 1) (s.rf (aPcieCnt ep) 17 0 + 1) ∧
          RegsBut (fun q => q = aPcieCnt ep ∨ q = aPcieStat ep) s t ∧ t.tiles = s.tiles ∧ StoresKept s t)) ∧
    ∀ data : List Byte, Served ep 0x47 s → s.mayWrite ep 0x47 = true → data.length = 8 →
      ∃ t, exec (.pcieWrite ep (8 * 0x47) (data.map some)) s = .next t ∧ (t.pcie ep).low = none ∧ t.out = s.out ∧
        (∀ i, i < 2 → t.rd (aTimErr i) = if bitOf (wd (leBytes data)) i then 0 else s.rd (aTimErr i)) ∧
        RegsBut (fun q => q = aTimErr 0 ∨ q = aTimErr 1 ∨ q = aToll ep ∨ q = aPcieStat ep) s t ∧ t.tiles = s.tiles ∧
        AccessKept s t

/-- (With the lands free of an EXTEST-class instruction.) A frame that the port does not accept is discarded and
counted. An accepted frame with a well-formed OPEN with SEQ 0 on a port without a session opens one for its sender
with a random token (a free value) and answers with the port's time-out; the next request of the session, from its
sender with its token and the next SEQ, is performed and answered with STATUS 0: KEEPALIVE, a READ of PKG_ID with
its word, a WRITE of PKG_TIM_CNTCLR; a CLOSE ends the session and resets the port's master; a request with another
token or sender is counted. An idle session ends by its timeout, counted. No tile changes but by the end of
stewardship. The model's choices: what no rule gives of a response's header is free and which frames are accepted
(log entry 82), the order of the refusals and the response to OPEN (63). (R529, R530, R532, R533, R534, R535, R536) -/
def Obligations.EthernetSessions : Prop :=
  ∀ (s : State) (p : Nat) (l : List Byte), s.held = false → p < 2 →
    (s.ethAccepts p l = false ∨ (∃ x, s.ethAccepts p l = true ∧ ethGood (udpPayload l) = true ∧ s.eth p = some x ∧
        (ethFields (udpPayload l)).op ≠ 1 ∧
        (x.src ≠ (frameFlow l).src ∨ (ethFields (udpPayload l)).session ≠ x.token.toNat)) →
      ∃ t, exec (.ethDiscard p l) s = .next t ∧
        t.rf (aEth p 5) 17 0 = min (2 ^ 18 - 1) (s.rf (aEth p 5) 17 0 + 1) ∧ RegsBut (fun q => q = aEth p 5) s t ∧
        t.tiles = s.tiles ∧ t.out = s.out ∧ StoresKept s t) ∧
    (∀ m : EthMsg, s.ethAccepts p l = true → ethGood (udpPayload l) = true → m = ethFields (udpPayload l) → m.op = 1 →
      m.seq = 0 → s.eth p = none → s.clamped = false →
      ∃ t x, exec (.ethOpen p l) s = .next t ∧ t.eth p = some x ∧ x.src = (frameFlow l).src ∧ x.last = 0 ∧
        x.since = s.sym ∧ x.resp = ethResp m x.token.toNat 0 1 0 0xFFFF [wd (s.rf (aEth p 3) 31 16)] ∧
        Answers p l x.resp s t ∧ t.rd (aEth p 4) = 1 ∧ RegsBut (fun q => q = aEth p 4) s t ∧
        t.tiles = s.tiles ∧ StoresKept s t) ∧
    (∀ (x : EthSess) (m : EthMsg), s.EthNext p l x m → s.clamped = false →
      (m.op = 3 →
        ∃ t y, exec (.ethKeepalive p l) s = .next t ∧ t.eth p = some y ∧ y.last = m.seq ∧ y.since = s.sym ∧
          y.token = x.token ∧ Answers p l (ethResp m m.session m.seq m.count 0 0xFFFF []) s t ∧
          RegsBut (fun q => q = aEth p 4) s t ∧ t.tiles = s.tiles ∧ StoresKept s t) ∧
      (m.op = 2 →
        ∃ t, exec (.ethClose p l) s = .next t ∧ t.eth p = none ∧ t.rb (aEth p 4) 0 = false ∧
          (∃ y ∈ t.drains, y.master = 2 + p) ∧ (s.steward = 2 + p → t.steward = 7) ∧
          (s.steward ≠ 2 + p → t.tiles = s.tiles)) ∧
      (m.op = 0x10 → m.count = 1 → m.addr = 0 → Served (2 + p) 0 s →
        ∃ t y, exec (.ethRead p l) s = .next t ∧ t.eth p = some y ∧ y.last = m.seq ∧
          Answers p l (ethResp m m.session m.seq 1 0 0xFFFF [s.rd 0]) s t ∧
          RegsBut (fun q => q = aEth p 4 ∨ q = aToll (2 + p)) s t ∧ t.tiles = s.tiles ∧ AccessKept s t) ∧
      (m.op = 0x11 → m.count = 1 → m.addr = 0x47 → Served (2 + p) 0x47 s → s.mayWrite (2 + p) 0x47 = true →
        ∃ t y, exec (.ethWrite p l) s = .next t ∧ t.eth p = some y ∧ y.last = m.seq ∧
          (∀ i, i < 2 → t.rd (aTimErr i) =
            if bitOf (wd (beBytes (m.data.take 9) / 2 ^ 36)) i then 0 else s.rd (aTimErr i)) ∧
          Answers p l (ethResp m m.session m.seq 1 0 0xFFFF []) s t ∧
          RegsBut (fun q => q = aEth p 4 ∨ q = aToll (2 + p) ∨ q = aTimErr 0 ∨ q = aTimErr 1) s t ∧
          t.tiles = s.tiles ∧ AccessKept s t)) ∧
    ∀ x : EthSess, s.eth p = some x → s.due (x.since + s.rf (aEth p 3) 31 16 * symMs) = true →
      ∃ t, exec (.sessionTimeout p) s = .next t ∧ t.eth p = none ∧
        t.rf (aEth p 5) 29 18 = min 4095 (s.rf (aEth p 5) 29 18 + 1) ∧ (∃ y ∈ t.drains, y.master = 2 + p) ∧
        (s.steward = 2 + p → t.steward = 7)
end

