-- ==== Sys2Proof/Laws/Bits.lean ====
section
/-!
SUPPORT. Laws of bit fields: what a field reads after it, or another field, is put.
-/
namespace Sys2Proof.Machine

/-- A bit of a field. -/
theorem testBit_fld {n : Nat} (w : BitVec n) (hi lo i : Nat) :
    (fld w hi lo).testBit i = (decide (i < hi + 1 - lo) && w.getLsbD (lo + i)) := by
  simp [fld, Nat.testBit_mod_two_pow, Nat.testBit_shiftRight, BitVec.testBit_toNat]

/-- A bit of a word with a field put. -/
theorem getLsbD_putFld {n : Nat} (w : BitVec n) (hi lo v i : Nat) :
    (putFld w hi lo v).getLsbD i =
      if lo ≤ i ∧ i < hi + 1 then (decide (i < n) && v.testBit (i - lo)) else w.getLsbD i := by
  simp only [putFld, BitVec.getLsbD_or, BitVec.getLsbD_and, BitVec.getLsbD_not, BitVec.getLsbD_ofNat,
    Nat.testBit_shiftLeft, Nat.testBit_two_pow_sub_one]
  by_cases hn : i < n
  · by_cases h1 : lo ≤ i
    · have h3 : i - lo < hi + 1 - lo ↔ i < hi + 1 := by omega
      by_cases h2 : i < hi + 1 <;> simp [hn, h1, h2, h3]
    · simp [hn, h1]
  · have e : w.getLsbD i = false := BitVec.getLsbD_of_ge _ _ (by omega)
    simp [hn, e]

/-- A field reads the low bits of the value put into it. -/
theorem fld_putFld_self {n : Nat} (w : BitVec n) {hi lo : Nat} (v : Nat) (h : hi < n) :
    fld (putFld w hi lo v) hi lo = v % 2 ^ (hi + 1 - lo) := by
  apply Nat.eq_of_testBit_eq
  intro i
  rw [testBit_fld, getLsbD_putFld, Nat.testBit_mod_two_pow]
  by_cases h1 : i < hi + 1 - lo
  · have h2 : lo ≤ lo + i ∧ lo + i < hi + 1 := by omega
    have h3 : lo + i < n := by omega
    simp [h1, h2, h3]
  · simp [h1]

/-- A field reads as before when a field apart from it is put. -/
theorem fld_putFld_apart {n : Nat} (w : BitVec n) {hi lo hi' lo' : Nat} (v : Nat) (h : hi' < lo ∨ hi < lo') :
    fld (putFld w hi lo v) hi' lo' = fld w hi' lo' := by
  apply Nat.eq_of_testBit_eq
  intro i
  rw [testBit_fld, testBit_fld, getLsbD_putFld]
  by_cases h1 : i < hi' + 1 - lo'
  · rw [if_neg (by omega)]
  · simp only [h1, decide_false, Bool.false_and]

/-- A bit within a field that is put. -/
theorem bitOf_putFld_in {n : Nat} (w : BitVec n) {hi lo i : Nat} (v : Nat) (h : lo ≤ i ∧ i ≤ hi) (hn : i < n) :
    bitOf (putFld w hi lo v) i = v.testBit (i - lo) := by
  rw [bitOf, getLsbD_putFld, if_pos (by omega)]; simp [hn]

/-- A bit apart from a field that is put. -/
theorem bitOf_putFld_apart {n : Nat} (w : BitVec n) {hi lo i : Nat} (v : Nat) (h : i < lo ∨ hi < i) :
    bitOf (putFld w hi lo v) i = bitOf w i := by
  rw [bitOf, getLsbD_putFld, if_neg (by omega)]; rfl

/-- A one-bit field that is put reads its Boolean. -/
theorem bitOf_putFld_natB {n : Nat} (w : BitVec n) {i : Nat} (b : Bool) (hn : i < n) :
    bitOf (putFld w i i (natB b)) i = b := by
  rw [bitOf_putFld_in w _ ⟨Nat.le_refl _, Nat.le_refl _⟩ hn]; cases b <;> simp [natB]

/-- A field is smaller than two to its width. -/
theorem fld_lt {n : Nat} (w : BitVec n) (hi lo : Nat) : fld w hi lo < 2 ^ (hi + 1 - lo) :=
  Nat.mod_lt _ (Nat.two_pow_pos _)

/-- The value of a one-bit field is its bit. -/
theorem fld_bit {n : Nat} (w : BitVec n) (i : Nat) : fld w i i = natB (bitOf w i) := by
  apply Nat.eq_of_testBit_eq
  intro j
  rw [testBit_fld, bitOf]
  cases j with
  | zero => cases w.getLsbD i <;> simp [natB]
  | succ j => cases w.getLsbD i <;> simp [natB, Nat.testBit_succ]

/-- A saturating sum stays within its field. -/
theorem satAdd_lt (w a b : Nat) : satAdd w a b < 2 ^ w := by
  have := Nat.two_pow_pos w
  simp only [satAdd]; omega

end Sys2Proof.Machine
end

