-- ==== Sys2Proof/Laws/Map.lean ====
section
/-!
SUPPORT. Laws of sparse stores: a read after a write, and the canonical form, which every operation keeps.
-/
namespace Sys2Proof.Machine

variable {α : Type}

/-- A read of the key just put. -/
@[simp] theorem SMap.get_put_self (d : Nat → α) (m : SMap α) (k : Nat) (v : α) : SMap.get d (SMap.put m k v) k = v := by
  induction m with
  | nil => simp [SMap.put, SMap.get]
  | cons e r ih =>
    obtain ⟨j, u⟩ := e
    simp only [SMap.put]
    split
    · simp [SMap.get]
    · split
      · simp [SMap.get]
      · have h : j ≠ k := by omega
        simp [SMap.get, h, ih]

/-- A read of another key than the one put. -/
theorem SMap.get_put_of_ne (d : Nat → α) (m : SMap α) {k q : Nat} (v : α) (h : q ≠ k) :
    SMap.get d (SMap.put m k v) q = SMap.get d m q := by
  have h' : ¬ k = q := fun e => h e.symm
  induction m with
  | nil => simp [SMap.put, SMap.get, h']
  | cons e r ih =>
    obtain ⟨j, u⟩ := e
    simp only [SMap.put]
    split
    · rw [SMap.get, if_neg h']
    · split
      · rename_i e; subst e; simp [SMap.get, h']
      · simp [SMap.get, ih]

/-- A read of a dropped key. -/
@[simp] theorem SMap.get_drop_self (d : Nat → α) (m : SMap α) (k : Nat) : SMap.get d (SMap.drop m k) k = d k := by
  induction m with
  | nil => simp [SMap.drop, SMap.get]
  | cons e r ih =>
    obtain ⟨j, u⟩ := e
    simp only [SMap.drop]
    split
    · exact ih
    · rename_i h; simp [SMap.get, h, ih]

/-- A read of another key than the one dropped. -/
theorem SMap.get_drop_of_ne (d : Nat → α) (m : SMap α) {k q : Nat} (h : q ≠ k) :
    SMap.get d (SMap.drop m k) q = SMap.get d m q := by
  have h' : ¬ k = q := fun e => h e.symm
  induction m with
  | nil => simp [SMap.drop, SMap.get]
  | cons e r ih =>
    obtain ⟨j, u⟩ := e
    simp only [SMap.drop]
    split
    · rename_i e; subst e; simp [SMap.get, h', ih]
    · simp [SMap.get, ih]

/-- A read of the key just written. -/
@[simp] theorem SMap.get_set_self [DecidableEq α] (d : Nat → α) (m : SMap α) (k : Nat) (v : α) :
    SMap.get d (SMap.set d m k v) k = v := by
  unfold SMap.set; split <;> simp_all

/-- A read of another key than the one written. -/
theorem SMap.get_set_of_ne [DecidableEq α] (d : Nat → α) (m : SMap α) {k q : Nat} (v : α) (h : q ≠ k) :
    SMap.get d (SMap.set d m k v) q = SMap.get d m q := by
  unfold SMap.set; split
  · exact SMap.get_drop_of_ne d m h
  · exact SMap.get_put_of_ne d m v h

/-- A read after a write. -/
theorem SMap.get_set [DecidableEq α] (d : Nat → α) (m : SMap α) (k q : Nat) (v : α) :
    SMap.get d (SMap.set d m k v) q = if q = k then v else SMap.get d m q := by
  split
  · rename_i h; subst h; simp
  · rename_i h; exact SMap.get_set_of_ne d m v h

/-- The canonical form from a lower key on. -/
theorem SMap.wfFrom_mono [DecidableEq α] {d : Nat → α} {lo lo' : Nat} {m : SMap α} (h : lo' ≤ lo)
    (w : SMap.wfFrom d lo m = true) : SMap.wfFrom d lo' m = true := by
  cases m with
  | nil => rfl
  | cons e r =>
    obtain ⟨j, u⟩ := e
    simp only [SMap.wfFrom, Bool.and_eq_true, decide_eq_true_eq] at w ⊢
    exact ⟨⟨by omega, w.1.2⟩, w.2⟩

/-- Putting a value other than the unlisted one keeps the canonical form. -/
theorem SMap.wfFrom_put [DecidableEq α] {d : Nat → α} {m : SMap α} {k : Nat} {v : α} (hv : v ≠ d k) :
    ∀ {lo : Nat}, lo ≤ k → SMap.wfFrom d lo m = true → SMap.wfFrom d lo (SMap.put m k v) = true := by
  induction m with
  | nil => intro lo h _; simp [SMap.put, SMap.wfFrom, h, hv]
  | cons e r ih =>
    obtain ⟨j, u⟩ := e
    intro lo h w
    simp only [SMap.wfFrom, Bool.and_eq_true, decide_eq_true_eq] at w
    simp only [SMap.put]
    split
    · simp only [SMap.wfFrom, Bool.and_eq_true, decide_eq_true_eq]
      exact ⟨⟨h, hv⟩, ⟨by omega, w.1.2⟩, w.2⟩
    · split
      · rename_i e; subst e
        simp only [SMap.wfFrom, Bool.and_eq_true, decide_eq_true_eq]
        exact ⟨⟨h, hv⟩, w.2⟩
      · simp only [SMap.wfFrom, Bool.and_eq_true, decide_eq_true_eq]
        exact ⟨w.1, ih (by omega) w.2⟩

/-- Dropping keeps the canonical form. -/
theorem SMap.wfFrom_drop [DecidableEq α] {d : Nat → α} {m : SMap α} {k : Nat} :
    ∀ {lo : Nat}, SMap.wfFrom d lo m = true → SMap.wfFrom d lo (SMap.drop m k) = true := by
  induction m with
  | nil => intro lo _; rfl
  | cons e r ih =>
    obtain ⟨j, u⟩ := e
    intro lo w
    simp only [SMap.wfFrom, Bool.and_eq_true, decide_eq_true_eq] at w
    simp only [SMap.drop]
    split
    · exact SMap.wfFrom_mono (by omega) (ih w.2)
    · simp only [SMap.wfFrom, Bool.and_eq_true, decide_eq_true_eq]
      exact ⟨w.1, ih w.2⟩

/-- A write keeps the canonical form. -/
@[simp] theorem SMap.wf_set [DecidableEq α] {d : Nat → α} {m : SMap α} {k : Nat} {v : α} (w : SMap.wf d m = true) :
    SMap.wf d (SMap.set d m k v) = true := by
  unfold SMap.set; split
  · exact SMap.wfFrom_drop w
  · exact SMap.wfFrom_put ‹_› (Nat.zero_le _) w

/-- Dropping pairs under a predicate keeps the canonical form. -/
theorem SMap.wfFrom_filter [DecidableEq α] {d : Nat → α} {m : SMap α} (p : Nat × α → Bool) :
    ∀ {lo : Nat}, SMap.wfFrom d lo m = true → SMap.wfFrom d lo (m.filter p) = true := by
  induction m with
  | nil => intro lo _; rfl
  | cons e r ih =>
    obtain ⟨j, u⟩ := e
    intro lo w
    simp only [SMap.wfFrom, Bool.and_eq_true, decide_eq_true_eq] at w
    simp only [List.filter]
    split
    · simp only [SMap.wfFrom, Bool.and_eq_true, decide_eq_true_eq]
      exact ⟨w.1, ih w.2⟩
    · exact SMap.wfFrom_mono (by omega) (ih w.2)

/-- Dropping keys under a predicate keeps the canonical form. -/
@[simp] theorem SMap.wf_dropIf [DecidableEq α] {d : Nat → α} {m : SMap α} {p : Nat → Bool} (w : SMap.wf d m = true) :
    SMap.wf d (SMap.dropIf p m) = true := SMap.wfFrom_filter _ w

/-- The empty store is canonical. -/
@[simp] theorem SMap.wf_nil [DecidableEq α] {d : Nat → α} : SMap.wf d ([] : SMap α) = true := rfl

end Sys2Proof.Machine
end

