-- ==== Sys2Proof/Laws/State.lean ====
section
/-!
SUPPORT. What each update of the state, and of a tile, leaves in each field, true by definition.
-/
namespace Sys2Proof.Machine

variable (s : State) (t : Tile)

/-! ### State.wr -/

@[simp] theorem State.wr_pending (k : Nat) (v : Word) : (s.wr k v).pending = s.pending := (rfl)
@[simp] theorem State.wr_held (k : Nat) (v : Word) : (s.wr k v).held = s.held := (rfl)
@[simp] theorem State.wr_staged (k : Nat) (v : Word) : (s.wr k v).staged = s.staged := (rfl)
@[simp] theorem State.wr_going (k : Nat) (v : Word) : (s.wr k v).going = s.going := (rfl)
@[simp] theorem State.wr_mile (k : Nat) (v : Word) : (s.wr k v).mile = s.mile := (rfl)
@[simp] theorem State.wr_sym (k : Nat) (v : Word) : (s.wr k v).sym = s.sym := (rfl)
@[simp] theorem State.wr_tick (k : Nat) (v : Word) : (s.wr k v).tick = s.tick := (rfl)
@[simp] theorem State.wr_tickLoad (k : Nat) (v : Word) : (s.wr k v).tickLoad = s.tickLoad := (rfl)
@[simp] theorem State.wr_tm0 (k : Nat) (v : Word) : (s.wr k v).tm0 = s.tm0 := (rfl)
@[simp] theorem State.wr_tm1 (k : Nat) (v : Word) : (s.wr k v).tm1 = s.tm1 := (rfl)
@[simp] theorem State.wr_supplied (k : Nat) (v : Word) : (s.wr k v).supplied = s.supplied := (rfl)
@[simp] theorem State.wr_slewLeft (k : Nat) (v : Word) : (s.wr k v).slewLeft = s.slewLeft := (rfl)
@[simp] theorem State.wr_measured (k : Nat) (v : Word) : (s.wr k v).measured = s.measured := (rfl)
@[simp] theorem State.wr_reqs (k : Nat) (v : Word) : (s.wr k v).reqs = s.reqs := (rfl)
@[simp] theorem State.wr_tiles (k : Nat) (v : Word) : (s.wr k v).tiles = s.tiles := (rfl)
@[simp] theorem State.wr_juncs (k : Nat) (v : Word) : (s.wr k v).juncs = s.juncs := (rfl)
@[simp] theorem State.wr_ibk (k : Nat) (v : Word) : (s.wr k v).ibk = s.ibk := (rfl)
@[simp] theorem State.wr_ibl (k : Nat) (v : Word) : (s.wr k v).ibl = s.ibl := (rfl)
@[simp] theorem State.wr_xrq (k : Nat) (v : Word) : (s.wr k v).xrq = s.xrq := (rfl)
@[simp] theorem State.wr_xrLast (k : Nat) (v : Word) : (s.wr k v).xrLast = s.xrLast := (rfl)
@[simp] theorem State.wr_parked (k : Nat) (v : Word) : (s.wr k v).parked = s.parked := (rfl)
@[simp] theorem State.wr_dies (k : Nat) (v : Word) : (s.wr k v).dies = s.dies := (rfl)
@[simp] theorem State.wr_drains (k : Nat) (v : Word) : (s.wr k v).drains = s.drains := (rfl)
@[simp] theorem State.wr_links (k : Nat) (v : Word) : (s.wr k v).links = s.links := (rfl)
@[simp] theorem State.wr_drams (k : Nat) (v : Word) : (s.wr k v).drams = s.drams := (rfl)
@[simp] theorem State.wr_img (k : Nat) (v : Word) : (s.wr k v).img = s.img := (rfl)
@[simp] theorem State.wr_logs (k : Nat) (v : Word) : (s.wr k v).logs = s.logs := (rfl)
@[simp] theorem State.wr_latch (k : Nat) (v : Word) : (s.wr k v).latch = s.latch := (rfl)
@[simp] theorem State.wr_flushTo (k : Nat) (v : Word) : (s.wr k v).flushTo = s.flushTo := (rfl)
@[simp] theorem State.wr_badSect (k : Nat) (v : Word) : (s.wr k v).badSect = s.badSect := (rfl)
@[simp] theorem State.wr_nvWait (k : Nat) (v : Word) : (s.wr k v).nvWait = s.nvWait := (rfl)
@[simp] theorem State.wr_flashErrAt (k : Nat) (v : Word) : (s.wr k v).flashErrAt = s.flashErrAt := (rfl)
@[simp] theorem State.wr_pfwLow (k : Nat) (v : Word) : (s.wr k v).pfwLow = s.pfwLow := (rfl)
@[simp] theorem State.wr_own (k : Nat) (v : Word) : (s.wr k v).own = s.own := (rfl)
@[simp] theorem State.wr_sec (k : Nat) (v : Word) : (s.wr k v).sec = s.sec := (rfl)
@[simp] theorem State.wr_pwr (k : Nat) (v : Word) : (s.wr k v).pwr = s.pwr := (rfl)
@[simp] theorem State.wr_boot (k : Nat) (v : Word) : (s.wr k v).boot = s.boot := (rfl)
@[simp] theorem State.wr_tap (k : Nat) (v : Word) : (s.wr k v).tap = s.tap := (rfl)
@[simp] theorem State.wr_eth0 (k : Nat) (v : Word) : (s.wr k v).eth0 = s.eth0 := (rfl)
@[simp] theorem State.wr_eth1 (k : Nat) (v : Word) : (s.wr k v).eth1 = s.eth1 := (rfl)
@[simp] theorem State.wr_pcie0 (k : Nat) (v : Word) : (s.wr k v).pcie0 = s.pcie0 := (rfl)
@[simp] theorem State.wr_pcie1 (k : Nat) (v : Word) : (s.wr k v).pcie1 = s.pcie1 := (rfl)
@[simp] theorem State.wr_flash (k : Nat) (v : Word) : (s.wr k v).flash = s.flash := (rfl)
@[simp] theorem State.wr_marks (k : Nat) (v : Word) : (s.wr k v).marks = s.marks := (rfl)
@[simp] theorem State.wr_out (k : Nat) (v : Word) : (s.wr k v).out = s.out := (rfl)
@[simp] theorem State.wr_free (k : Nat) (v : Word) : (s.wr k v).free = s.free := (rfl)

/-! ### State.emit -/

@[simp] theorem State.emit_pending (e : Emit) : (s.emit e).pending = s.pending := (rfl)
@[simp] theorem State.emit_held (e : Emit) : (s.emit e).held = s.held := (rfl)
@[simp] theorem State.emit_regs (e : Emit) : (s.emit e).regs = s.regs := (rfl)
@[simp] theorem State.emit_staged (e : Emit) : (s.emit e).staged = s.staged := (rfl)
@[simp] theorem State.emit_going (e : Emit) : (s.emit e).going = s.going := (rfl)
@[simp] theorem State.emit_mile (e : Emit) : (s.emit e).mile = s.mile := (rfl)
@[simp] theorem State.emit_sym (e : Emit) : (s.emit e).sym = s.sym := (rfl)
@[simp] theorem State.emit_tick (e : Emit) : (s.emit e).tick = s.tick := (rfl)
@[simp] theorem State.emit_tickLoad (e : Emit) : (s.emit e).tickLoad = s.tickLoad := (rfl)
@[simp] theorem State.emit_tm0 (e : Emit) : (s.emit e).tm0 = s.tm0 := (rfl)
@[simp] theorem State.emit_tm1 (e : Emit) : (s.emit e).tm1 = s.tm1 := (rfl)
@[simp] theorem State.emit_supplied (e : Emit) : (s.emit e).supplied = s.supplied := (rfl)
@[simp] theorem State.emit_slewLeft (e : Emit) : (s.emit e).slewLeft = s.slewLeft := (rfl)
@[simp] theorem State.emit_measured (e : Emit) : (s.emit e).measured = s.measured := (rfl)
@[simp] theorem State.emit_reqs (e : Emit) : (s.emit e).reqs = s.reqs := (rfl)
@[simp] theorem State.emit_tiles (e : Emit) : (s.emit e).tiles = s.tiles := (rfl)
@[simp] theorem State.emit_juncs (e : Emit) : (s.emit e).juncs = s.juncs := (rfl)
@[simp] theorem State.emit_ibk (e : Emit) : (s.emit e).ibk = s.ibk := (rfl)
@[simp] theorem State.emit_ibl (e : Emit) : (s.emit e).ibl = s.ibl := (rfl)
@[simp] theorem State.emit_xrq (e : Emit) : (s.emit e).xrq = s.xrq := (rfl)
@[simp] theorem State.emit_xrLast (e : Emit) : (s.emit e).xrLast = s.xrLast := (rfl)
@[simp] theorem State.emit_parked (e : Emit) : (s.emit e).parked = s.parked := (rfl)
@[simp] theorem State.emit_dies (e : Emit) : (s.emit e).dies = s.dies := (rfl)
@[simp] theorem State.emit_drains (e : Emit) : (s.emit e).drains = s.drains := (rfl)
@[simp] theorem State.emit_links (e : Emit) : (s.emit e).links = s.links := (rfl)
@[simp] theorem State.emit_drams (e : Emit) : (s.emit e).drams = s.drams := (rfl)
@[simp] theorem State.emit_img (e : Emit) : (s.emit e).img = s.img := (rfl)
@[simp] theorem State.emit_logs (e : Emit) : (s.emit e).logs = s.logs := (rfl)
@[simp] theorem State.emit_latch (e : Emit) : (s.emit e).latch = s.latch := (rfl)
@[simp] theorem State.emit_flushTo (e : Emit) : (s.emit e).flushTo = s.flushTo := (rfl)
@[simp] theorem State.emit_badSect (e : Emit) : (s.emit e).badSect = s.badSect := (rfl)
@[simp] theorem State.emit_nvWait (e : Emit) : (s.emit e).nvWait = s.nvWait := (rfl)
@[simp] theorem State.emit_flashErrAt (e : Emit) : (s.emit e).flashErrAt = s.flashErrAt := (rfl)
@[simp] theorem State.emit_pfwLow (e : Emit) : (s.emit e).pfwLow = s.pfwLow := (rfl)
@[simp] theorem State.emit_own (e : Emit) : (s.emit e).own = s.own := (rfl)
@[simp] theorem State.emit_sec (e : Emit) : (s.emit e).sec = s.sec := (rfl)
@[simp] theorem State.emit_pwr (e : Emit) : (s.emit e).pwr = s.pwr := (rfl)
@[simp] theorem State.emit_boot (e : Emit) : (s.emit e).boot = s.boot := (rfl)
@[simp] theorem State.emit_tap (e : Emit) : (s.emit e).tap = s.tap := (rfl)
@[simp] theorem State.emit_eth0 (e : Emit) : (s.emit e).eth0 = s.eth0 := (rfl)
@[simp] theorem State.emit_eth1 (e : Emit) : (s.emit e).eth1 = s.eth1 := (rfl)
@[simp] theorem State.emit_pcie0 (e : Emit) : (s.emit e).pcie0 = s.pcie0 := (rfl)
@[simp] theorem State.emit_pcie1 (e : Emit) : (s.emit e).pcie1 = s.pcie1 := (rfl)
@[simp] theorem State.emit_flash (e : Emit) : (s.emit e).flash = s.flash := (rfl)
@[simp] theorem State.emit_marks (e : Emit) : (s.emit e).marks = s.marks := (rfl)
@[simp] theorem State.emit_free (e : Emit) : (s.emit e).free = s.free := (rfl)

/-! ### State.mark -/

@[simp] theorem State.mark_pending (d kd ix c : Nat) (x y z : Word) : (s.mark d kd ix c x y z).pending = s.pending := (rfl)
@[simp] theorem State.mark_held (d kd ix c : Nat) (x y z : Word) : (s.mark d kd ix c x y z).held = s.held := (rfl)
@[simp] theorem State.mark_regs (d kd ix c : Nat) (x y z : Word) : (s.mark d kd ix c x y z).regs = s.regs := (rfl)
@[simp] theorem State.mark_staged (d kd ix c : Nat) (x y z : Word) : (s.mark d kd ix c x y z).staged = s.staged := (rfl)
@[simp] theorem State.mark_going (d kd ix c : Nat) (x y z : Word) : (s.mark d kd ix c x y z).going = s.going := (rfl)
@[simp] theorem State.mark_mile (d kd ix c : Nat) (x y z : Word) : (s.mark d kd ix c x y z).mile = s.mile := (rfl)
@[simp] theorem State.mark_sym (d kd ix c : Nat) (x y z : Word) : (s.mark d kd ix c x y z).sym = s.sym := (rfl)
@[simp] theorem State.mark_tick (d kd ix c : Nat) (x y z : Word) : (s.mark d kd ix c x y z).tick = s.tick := (rfl)
@[simp] theorem State.mark_tickLoad (d kd ix c : Nat) (x y z : Word) : (s.mark d kd ix c x y z).tickLoad = s.tickLoad := (rfl)
@[simp] theorem State.mark_tm0 (d kd ix c : Nat) (x y z : Word) : (s.mark d kd ix c x y z).tm0 = s.tm0 := (rfl)
@[simp] theorem State.mark_tm1 (d kd ix c : Nat) (x y z : Word) : (s.mark d kd ix c x y z).tm1 = s.tm1 := (rfl)
@[simp] theorem State.mark_supplied (d kd ix c : Nat) (x y z : Word) : (s.mark d kd ix c x y z).supplied = s.supplied := (rfl)
@[simp] theorem State.mark_slewLeft (d kd ix c : Nat) (x y z : Word) : (s.mark d kd ix c x y z).slewLeft = s.slewLeft := (rfl)
@[simp] theorem State.mark_measured (d kd ix c : Nat) (x y z : Word) : (s.mark d kd ix c x y z).measured = s.measured := (rfl)
@[simp] theorem State.mark_reqs (d kd ix c : Nat) (x y z : Word) : (s.mark d kd ix c x y z).reqs = s.reqs := (rfl)
@[simp] theorem State.mark_tiles (d kd ix c : Nat) (x y z : Word) : (s.mark d kd ix c x y z).tiles = s.tiles := (rfl)
@[simp] theorem State.mark_juncs (d kd ix c : Nat) (x y z : Word) : (s.mark d kd ix c x y z).juncs = s.juncs := (rfl)
@[simp] theorem State.mark_ibk (d kd ix c : Nat) (x y z : Word) : (s.mark d kd ix c x y z).ibk = s.ibk := (rfl)
@[simp] theorem State.mark_ibl (d kd ix c : Nat) (x y z : Word) : (s.mark d kd ix c x y z).ibl = s.ibl := (rfl)
@[simp] theorem State.mark_xrq (d kd ix c : Nat) (x y z : Word) : (s.mark d kd ix c x y z).xrq = s.xrq := (rfl)
@[simp] theorem State.mark_xrLast (d kd ix c : Nat) (x y z : Word) : (s.mark d kd ix c x y z).xrLast = s.xrLast := (rfl)
@[simp] theorem State.mark_parked (d kd ix c : Nat) (x y z : Word) : (s.mark d kd ix c x y z).parked = s.parked := (rfl)
@[simp] theorem State.mark_dies (d kd ix c : Nat) (x y z : Word) : (s.mark d kd ix c x y z).dies = s.dies := (rfl)
@[simp] theorem State.mark_drains (d kd ix c : Nat) (x y z : Word) : (s.mark d kd ix c x y z).drains = s.drains := (rfl)
@[simp] theorem State.mark_links (d kd ix c : Nat) (x y z : Word) : (s.mark d kd ix c x y z).links = s.links := (rfl)
@[simp] theorem State.mark_drams (d kd ix c : Nat) (x y z : Word) : (s.mark d kd ix c x y z).drams = s.drams := (rfl)
@[simp] theorem State.mark_img (d kd ix c : Nat) (x y z : Word) : (s.mark d kd ix c x y z).img = s.img := (rfl)
@[simp] theorem State.mark_logs (d kd ix c : Nat) (x y z : Word) : (s.mark d kd ix c x y z).logs = s.logs := (rfl)
@[simp] theorem State.mark_latch (d kd ix c : Nat) (x y z : Word) : (s.mark d kd ix c x y z).latch = s.latch := (rfl)
@[simp] theorem State.mark_flushTo (d kd ix c : Nat) (x y z : Word) : (s.mark d kd ix c x y z).flushTo = s.flushTo := (rfl)
@[simp] theorem State.mark_badSect (d kd ix c : Nat) (x y z : Word) : (s.mark d kd ix c x y z).badSect = s.badSect := (rfl)
@[simp] theorem State.mark_nvWait (d kd ix c : Nat) (x y z : Word) : (s.mark d kd ix c x y z).nvWait = s.nvWait := (rfl)
@[simp] theorem State.mark_flashErrAt (d kd ix c : Nat) (x y z : Word) : (s.mark d kd ix c x y z).flashErrAt = s.flashErrAt := (rfl)
@[simp] theorem State.mark_pfwLow (d kd ix c : Nat) (x y z : Word) : (s.mark d kd ix c x y z).pfwLow = s.pfwLow := (rfl)
@[simp] theorem State.mark_own (d kd ix c : Nat) (x y z : Word) : (s.mark d kd ix c x y z).own = s.own := (rfl)
@[simp] theorem State.mark_sec (d kd ix c : Nat) (x y z : Word) : (s.mark d kd ix c x y z).sec = s.sec := (rfl)
@[simp] theorem State.mark_pwr (d kd ix c : Nat) (x y z : Word) : (s.mark d kd ix c x y z).pwr = s.pwr := (rfl)
@[simp] theorem State.mark_boot (d kd ix c : Nat) (x y z : Word) : (s.mark d kd ix c x y z).boot = s.boot := (rfl)
@[simp] theorem State.mark_tap (d kd ix c : Nat) (x y z : Word) : (s.mark d kd ix c x y z).tap = s.tap := (rfl)
@[simp] theorem State.mark_eth0 (d kd ix c : Nat) (x y z : Word) : (s.mark d kd ix c x y z).eth0 = s.eth0 := (rfl)
@[simp] theorem State.mark_eth1 (d kd ix c : Nat) (x y z : Word) : (s.mark d kd ix c x y z).eth1 = s.eth1 := (rfl)
@[simp] theorem State.mark_pcie0 (d kd ix c : Nat) (x y z : Word) : (s.mark d kd ix c x y z).pcie0 = s.pcie0 := (rfl)
@[simp] theorem State.mark_pcie1 (d kd ix c : Nat) (x y z : Word) : (s.mark d kd ix c x y z).pcie1 = s.pcie1 := (rfl)
@[simp] theorem State.mark_flash (d kd ix c : Nat) (x y z : Word) : (s.mark d kd ix c x y z).flash = s.flash := (rfl)
@[simp] theorem State.mark_out (d kd ix c : Nat) (x y z : Word) : (s.mark d kd ix c x y z).out = s.out := (rfl)
@[simp] theorem State.mark_free (d kd ix c : Nat) (x y z : Word) : (s.mark d kd ix c x y z).free = s.free := (rfl)

/-! ### State.setTile -/

@[simp] theorem State.setTile_pending (d p : Nat) (t : Tile) : (s.setTile d p t).pending = s.pending := (rfl)
@[simp] theorem State.setTile_held (d p : Nat) (t : Tile) : (s.setTile d p t).held = s.held := (rfl)
@[simp] theorem State.setTile_regs (d p : Nat) (t : Tile) : (s.setTile d p t).regs = s.regs := (rfl)
@[simp] theorem State.setTile_staged (d p : Nat) (t : Tile) : (s.setTile d p t).staged = s.staged := (rfl)
@[simp] theorem State.setTile_going (d p : Nat) (t : Tile) : (s.setTile d p t).going = s.going := (rfl)
@[simp] theorem State.setTile_mile (d p : Nat) (t : Tile) : (s.setTile d p t).mile = s.mile := (rfl)
@[simp] theorem State.setTile_sym (d p : Nat) (t : Tile) : (s.setTile d p t).sym = s.sym := (rfl)
@[simp] theorem State.setTile_tick (d p : Nat) (t : Tile) : (s.setTile d p t).tick = s.tick := (rfl)
@[simp] theorem State.setTile_tickLoad (d p : Nat) (t : Tile) : (s.setTile d p t).tickLoad = s.tickLoad := (rfl)
@[simp] theorem State.setTile_tm0 (d p : Nat) (t : Tile) : (s.setTile d p t).tm0 = s.tm0 := (rfl)
@[simp] theorem State.setTile_tm1 (d p : Nat) (t : Tile) : (s.setTile d p t).tm1 = s.tm1 := (rfl)
@[simp] theorem State.setTile_supplied (d p : Nat) (t : Tile) : (s.setTile d p t).supplied = s.supplied := (rfl)
@[simp] theorem State.setTile_slewLeft (d p : Nat) (t : Tile) : (s.setTile d p t).slewLeft = s.slewLeft := (rfl)
@[simp] theorem State.setTile_measured (d p : Nat) (t : Tile) : (s.setTile d p t).measured = s.measured := (rfl)
@[simp] theorem State.setTile_reqs (d p : Nat) (t : Tile) : (s.setTile d p t).reqs = s.reqs := (rfl)
@[simp] theorem State.setTile_juncs (d p : Nat) (t : Tile) : (s.setTile d p t).juncs = s.juncs := (rfl)
@[simp] theorem State.setTile_ibk (d p : Nat) (t : Tile) : (s.setTile d p t).ibk = s.ibk := (rfl)
@[simp] theorem State.setTile_ibl (d p : Nat) (t : Tile) : (s.setTile d p t).ibl = s.ibl := (rfl)
@[simp] theorem State.setTile_xrq (d p : Nat) (t : Tile) : (s.setTile d p t).xrq = s.xrq := (rfl)
@[simp] theorem State.setTile_xrLast (d p : Nat) (t : Tile) : (s.setTile d p t).xrLast = s.xrLast := (rfl)
@[simp] theorem State.setTile_parked (d p : Nat) (t : Tile) : (s.setTile d p t).parked = s.parked := (rfl)
@[simp] theorem State.setTile_dies (d p : Nat) (t : Tile) : (s.setTile d p t).dies = s.dies := (rfl)
@[simp] theorem State.setTile_drains (d p : Nat) (t : Tile) : (s.setTile d p t).drains = s.drains := (rfl)
@[simp] theorem State.setTile_links (d p : Nat) (t : Tile) : (s.setTile d p t).links = s.links := (rfl)
@[simp] theorem State.setTile_drams (d p : Nat) (t : Tile) : (s.setTile d p t).drams = s.drams := (rfl)
@[simp] theorem State.setTile_img (d p : Nat) (t : Tile) : (s.setTile d p t).img = s.img := (rfl)
@[simp] theorem State.setTile_logs (d p : Nat) (t : Tile) : (s.setTile d p t).logs = s.logs := (rfl)
@[simp] theorem State.setTile_latch (d p : Nat) (t : Tile) : (s.setTile d p t).latch = s.latch := (rfl)
@[simp] theorem State.setTile_flushTo (d p : Nat) (t : Tile) : (s.setTile d p t).flushTo = s.flushTo := (rfl)
@[simp] theorem State.setTile_badSect (d p : Nat) (t : Tile) : (s.setTile d p t).badSect = s.badSect := (rfl)
@[simp] theorem State.setTile_nvWait (d p : Nat) (t : Tile) : (s.setTile d p t).nvWait = s.nvWait := (rfl)
@[simp] theorem State.setTile_flashErrAt (d p : Nat) (t : Tile) : (s.setTile d p t).flashErrAt = s.flashErrAt := (rfl)
@[simp] theorem State.setTile_pfwLow (d p : Nat) (t : Tile) : (s.setTile d p t).pfwLow = s.pfwLow := (rfl)
@[simp] theorem State.setTile_own (d p : Nat) (t : Tile) : (s.setTile d p t).own = s.own := (rfl)
@[simp] theorem State.setTile_sec (d p : Nat) (t : Tile) : (s.setTile d p t).sec = s.sec := (rfl)
@[simp] theorem State.setTile_boot (d p : Nat) (t : Tile) : (s.setTile d p t).boot = s.boot := (rfl)
@[simp] theorem State.setTile_tap (d p : Nat) (t : Tile) : (s.setTile d p t).tap = s.tap := (rfl)
@[simp] theorem State.setTile_eth0 (d p : Nat) (t : Tile) : (s.setTile d p t).eth0 = s.eth0 := (rfl)
@[simp] theorem State.setTile_eth1 (d p : Nat) (t : Tile) : (s.setTile d p t).eth1 = s.eth1 := (rfl)
@[simp] theorem State.setTile_pcie0 (d p : Nat) (t : Tile) : (s.setTile d p t).pcie0 = s.pcie0 := (rfl)
@[simp] theorem State.setTile_pcie1 (d p : Nat) (t : Tile) : (s.setTile d p t).pcie1 = s.pcie1 := (rfl)
@[simp] theorem State.setTile_flash (d p : Nat) (t : Tile) : (s.setTile d p t).flash = s.flash := (rfl)
@[simp] theorem State.setTile_out (d p : Nat) (t : Tile) : (s.setTile d p t).out = s.out := (rfl)
@[simp] theorem State.setTile_free (d p : Nat) (t : Tile) : (s.setTile d p t).free = s.free := (rfl)

/-! ### State.onDie -/

@[simp] theorem State.onDie_pending (d : Nat) (f : DieSt → DieSt) : (s.onDie d f).pending = s.pending := (rfl)
@[simp] theorem State.onDie_held (d : Nat) (f : DieSt → DieSt) : (s.onDie d f).held = s.held := (rfl)
@[simp] theorem State.onDie_regs (d : Nat) (f : DieSt → DieSt) : (s.onDie d f).regs = s.regs := (rfl)
@[simp] theorem State.onDie_staged (d : Nat) (f : DieSt → DieSt) : (s.onDie d f).staged = s.staged := (rfl)
@[simp] theorem State.onDie_going (d : Nat) (f : DieSt → DieSt) : (s.onDie d f).going = s.going := (rfl)
@[simp] theorem State.onDie_mile (d : Nat) (f : DieSt → DieSt) : (s.onDie d f).mile = s.mile := (rfl)
@[simp] theorem State.onDie_sym (d : Nat) (f : DieSt → DieSt) : (s.onDie d f).sym = s.sym := (rfl)
@[simp] theorem State.onDie_tick (d : Nat) (f : DieSt → DieSt) : (s.onDie d f).tick = s.tick := (rfl)
@[simp] theorem State.onDie_tickLoad (d : Nat) (f : DieSt → DieSt) : (s.onDie d f).tickLoad = s.tickLoad := (rfl)
@[simp] theorem State.onDie_tm0 (d : Nat) (f : DieSt → DieSt) : (s.onDie d f).tm0 = s.tm0 := (rfl)
@[simp] theorem State.onDie_tm1 (d : Nat) (f : DieSt → DieSt) : (s.onDie d f).tm1 = s.tm1 := (rfl)
@[simp] theorem State.onDie_supplied (d : Nat) (f : DieSt → DieSt) : (s.onDie d f).supplied = s.supplied := (rfl)
@[simp] theorem State.onDie_slewLeft (d : Nat) (f : DieSt → DieSt) : (s.onDie d f).slewLeft = s.slewLeft := (rfl)
@[simp] theorem State.onDie_measured (d : Nat) (f : DieSt → DieSt) : (s.onDie d f).measured = s.measured := (rfl)
@[simp] theorem State.onDie_reqs (d : Nat) (f : DieSt → DieSt) : (s.onDie d f).reqs = s.reqs := (rfl)
@[simp] theorem State.onDie_tiles (d : Nat) (f : DieSt → DieSt) : (s.onDie d f).tiles = s.tiles := (rfl)
@[simp] theorem State.onDie_juncs (d : Nat) (f : DieSt → DieSt) : (s.onDie d f).juncs = s.juncs := (rfl)
@[simp] theorem State.onDie_ibk (d : Nat) (f : DieSt → DieSt) : (s.onDie d f).ibk = s.ibk := (rfl)
@[simp] theorem State.onDie_ibl (d : Nat) (f : DieSt → DieSt) : (s.onDie d f).ibl = s.ibl := (rfl)
@[simp] theorem State.onDie_xrq (d : Nat) (f : DieSt → DieSt) : (s.onDie d f).xrq = s.xrq := (rfl)
@[simp] theorem State.onDie_xrLast (d : Nat) (f : DieSt → DieSt) : (s.onDie d f).xrLast = s.xrLast := (rfl)
@[simp] theorem State.onDie_parked (d : Nat) (f : DieSt → DieSt) : (s.onDie d f).parked = s.parked := (rfl)
@[simp] theorem State.onDie_drains (d : Nat) (f : DieSt → DieSt) : (s.onDie d f).drains = s.drains := (rfl)
@[simp] theorem State.onDie_links (d : Nat) (f : DieSt → DieSt) : (s.onDie d f).links = s.links := (rfl)
@[simp] theorem State.onDie_drams (d : Nat) (f : DieSt → DieSt) : (s.onDie d f).drams = s.drams := (rfl)
@[simp] theorem State.onDie_img (d : Nat) (f : DieSt → DieSt) : (s.onDie d f).img = s.img := (rfl)
@[simp] theorem State.onDie_logs (d : Nat) (f : DieSt → DieSt) : (s.onDie d f).logs = s.logs := (rfl)
@[simp] theorem State.onDie_latch (d : Nat) (f : DieSt → DieSt) : (s.onDie d f).latch = s.latch := (rfl)
@[simp] theorem State.onDie_flushTo (d : Nat) (f : DieSt → DieSt) : (s.onDie d f).flushTo = s.flushTo := (rfl)
@[simp] theorem State.onDie_badSect (d : Nat) (f : DieSt → DieSt) : (s.onDie d f).badSect = s.badSect := (rfl)
@[simp] theorem State.onDie_nvWait (d : Nat) (f : DieSt → DieSt) : (s.onDie d f).nvWait = s.nvWait := (rfl)
@[simp] theorem State.onDie_flashErrAt (d : Nat) (f : DieSt → DieSt) : (s.onDie d f).flashErrAt = s.flashErrAt := (rfl)
@[simp] theorem State.onDie_pfwLow (d : Nat) (f : DieSt → DieSt) : (s.onDie d f).pfwLow = s.pfwLow := (rfl)
@[simp] theorem State.onDie_own (d : Nat) (f : DieSt → DieSt) : (s.onDie d f).own = s.own := (rfl)
@[simp] theorem State.onDie_sec (d : Nat) (f : DieSt → DieSt) : (s.onDie d f).sec = s.sec := (rfl)
@[simp] theorem State.onDie_pwr (d : Nat) (f : DieSt → DieSt) : (s.onDie d f).pwr = s.pwr := (rfl)
@[simp] theorem State.onDie_boot (d : Nat) (f : DieSt → DieSt) : (s.onDie d f).boot = s.boot := (rfl)
@[simp] theorem State.onDie_tap (d : Nat) (f : DieSt → DieSt) : (s.onDie d f).tap = s.tap := (rfl)
@[simp] theorem State.onDie_eth0 (d : Nat) (f : DieSt → DieSt) : (s.onDie d f).eth0 = s.eth0 := (rfl)
@[simp] theorem State.onDie_eth1 (d : Nat) (f : DieSt → DieSt) : (s.onDie d f).eth1 = s.eth1 := (rfl)
@[simp] theorem State.onDie_pcie0 (d : Nat) (f : DieSt → DieSt) : (s.onDie d f).pcie0 = s.pcie0 := (rfl)
@[simp] theorem State.onDie_pcie1 (d : Nat) (f : DieSt → DieSt) : (s.onDie d f).pcie1 = s.pcie1 := (rfl)
@[simp] theorem State.onDie_flash (d : Nat) (f : DieSt → DieSt) : (s.onDie d f).flash = s.flash := (rfl)
@[simp] theorem State.onDie_marks (d : Nat) (f : DieSt → DieSt) : (s.onDie d f).marks = s.marks := (rfl)
@[simp] theorem State.onDie_out (d : Nat) (f : DieSt → DieSt) : (s.onDie d f).out = s.out := (rfl)
@[simp] theorem State.onDie_free (d : Nat) (f : DieSt → DieSt) : (s.onDie d f).free = s.free := (rfl)

/-! ### State.onLink -/

@[simp] theorem State.onLink_pending (n : Nat) (f : LinkSt → LinkSt) : (s.onLink n f).pending = s.pending := (rfl)
@[simp] theorem State.onLink_held (n : Nat) (f : LinkSt → LinkSt) : (s.onLink n f).held = s.held := (rfl)
@[simp] theorem State.onLink_regs (n : Nat) (f : LinkSt → LinkSt) : (s.onLink n f).regs = s.regs := (rfl)
@[simp] theorem State.onLink_staged (n : Nat) (f : LinkSt → LinkSt) : (s.onLink n f).staged = s.staged := (rfl)
@[simp] theorem State.onLink_going (n : Nat) (f : LinkSt → LinkSt) : (s.onLink n f).going = s.going := (rfl)
@[simp] theorem State.onLink_mile (n : Nat) (f : LinkSt → LinkSt) : (s.onLink n f).mile = s.mile := (rfl)
@[simp] theorem State.onLink_sym (n : Nat) (f : LinkSt → LinkSt) : (s.onLink n f).sym = s.sym := (rfl)
@[simp] theorem State.onLink_tick (n : Nat) (f : LinkSt → LinkSt) : (s.onLink n f).tick = s.tick := (rfl)
@[simp] theorem State.onLink_tickLoad (n : Nat) (f : LinkSt → LinkSt) : (s.onLink n f).tickLoad = s.tickLoad := (rfl)
@[simp] theorem State.onLink_tm0 (n : Nat) (f : LinkSt → LinkSt) : (s.onLink n f).tm0 = s.tm0 := (rfl)
@[simp] theorem State.onLink_tm1 (n : Nat) (f : LinkSt → LinkSt) : (s.onLink n f).tm1 = s.tm1 := (rfl)
@[simp] theorem State.onLink_supplied (n : Nat) (f : LinkSt → LinkSt) : (s.onLink n f).supplied = s.supplied := (rfl)
@[simp] theorem State.onLink_slewLeft (n : Nat) (f : LinkSt → LinkSt) : (s.onLink n f).slewLeft = s.slewLeft := (rfl)
@[simp] theorem State.onLink_measured (n : Nat) (f : LinkSt → LinkSt) : (s.onLink n f).measured = s.measured := (rfl)
@[simp] theorem State.onLink_reqs (n : Nat) (f : LinkSt → LinkSt) : (s.onLink n f).reqs = s.reqs := (rfl)
@[simp] theorem State.onLink_tiles (n : Nat) (f : LinkSt → LinkSt) : (s.onLink n f).tiles = s.tiles := (rfl)
@[simp] theorem State.onLink_juncs (n : Nat) (f : LinkSt → LinkSt) : (s.onLink n f).juncs = s.juncs := (rfl)
@[simp] theorem State.onLink_ibk (n : Nat) (f : LinkSt → LinkSt) : (s.onLink n f).ibk = s.ibk := (rfl)
@[simp] theorem State.onLink_ibl (n : Nat) (f : LinkSt → LinkSt) : (s.onLink n f).ibl = s.ibl := (rfl)
@[simp] theorem State.onLink_xrq (n : Nat) (f : LinkSt → LinkSt) : (s.onLink n f).xrq = s.xrq := (rfl)
@[simp] theorem State.onLink_xrLast (n : Nat) (f : LinkSt → LinkSt) : (s.onLink n f).xrLast = s.xrLast := (rfl)
@[simp] theorem State.onLink_parked (n : Nat) (f : LinkSt → LinkSt) : (s.onLink n f).parked = s.parked := (rfl)
@[simp] theorem State.onLink_dies (n : Nat) (f : LinkSt → LinkSt) : (s.onLink n f).dies = s.dies := (rfl)
@[simp] theorem State.onLink_drains (n : Nat) (f : LinkSt → LinkSt) : (s.onLink n f).drains = s.drains := (rfl)
@[simp] theorem State.onLink_drams (n : Nat) (f : LinkSt → LinkSt) : (s.onLink n f).drams = s.drams := (rfl)
@[simp] theorem State.onLink_img (n : Nat) (f : LinkSt → LinkSt) : (s.onLink n f).img = s.img := (rfl)
@[simp] theorem State.onLink_logs (n : Nat) (f : LinkSt → LinkSt) : (s.onLink n f).logs = s.logs := (rfl)
@[simp] theorem State.onLink_latch (n : Nat) (f : LinkSt → LinkSt) : (s.onLink n f).latch = s.latch := (rfl)
@[simp] theorem State.onLink_flushTo (n : Nat) (f : LinkSt → LinkSt) : (s.onLink n f).flushTo = s.flushTo := (rfl)
@[simp] theorem State.onLink_badSect (n : Nat) (f : LinkSt → LinkSt) : (s.onLink n f).badSect = s.badSect := (rfl)
@[simp] theorem State.onLink_nvWait (n : Nat) (f : LinkSt → LinkSt) : (s.onLink n f).nvWait = s.nvWait := (rfl)
@[simp] theorem State.onLink_flashErrAt (n : Nat) (f : LinkSt → LinkSt) : (s.onLink n f).flashErrAt = s.flashErrAt := (rfl)
@[simp] theorem State.onLink_pfwLow (n : Nat) (f : LinkSt → LinkSt) : (s.onLink n f).pfwLow = s.pfwLow := (rfl)
@[simp] theorem State.onLink_own (n : Nat) (f : LinkSt → LinkSt) : (s.onLink n f).own = s.own := (rfl)
@[simp] theorem State.onLink_sec (n : Nat) (f : LinkSt → LinkSt) : (s.onLink n f).sec = s.sec := (rfl)
@[simp] theorem State.onLink_pwr (n : Nat) (f : LinkSt → LinkSt) : (s.onLink n f).pwr = s.pwr := (rfl)
@[simp] theorem State.onLink_boot (n : Nat) (f : LinkSt → LinkSt) : (s.onLink n f).boot = s.boot := (rfl)
@[simp] theorem State.onLink_tap (n : Nat) (f : LinkSt → LinkSt) : (s.onLink n f).tap = s.tap := (rfl)
@[simp] theorem State.onLink_eth0 (n : Nat) (f : LinkSt → LinkSt) : (s.onLink n f).eth0 = s.eth0 := (rfl)
@[simp] theorem State.onLink_eth1 (n : Nat) (f : LinkSt → LinkSt) : (s.onLink n f).eth1 = s.eth1 := (rfl)
@[simp] theorem State.onLink_pcie0 (n : Nat) (f : LinkSt → LinkSt) : (s.onLink n f).pcie0 = s.pcie0 := (rfl)
@[simp] theorem State.onLink_pcie1 (n : Nat) (f : LinkSt → LinkSt) : (s.onLink n f).pcie1 = s.pcie1 := (rfl)
@[simp] theorem State.onLink_flash (n : Nat) (f : LinkSt → LinkSt) : (s.onLink n f).flash = s.flash := (rfl)
@[simp] theorem State.onLink_marks (n : Nat) (f : LinkSt → LinkSt) : (s.onLink n f).marks = s.marks := (rfl)
@[simp] theorem State.onLink_out (n : Nat) (f : LinkSt → LinkSt) : (s.onLink n f).out = s.out := (rfl)
@[simp] theorem State.onLink_free (n : Nat) (f : LinkSt → LinkSt) : (s.onLink n f).free = s.free := (rfl)

/-! ### State.onStack -/

@[simp] theorem State.onStack_pending (d : Nat) (f : Stack → Stack) : (s.onStack d f).pending = s.pending := (rfl)
@[simp] theorem State.onStack_held (d : Nat) (f : Stack → Stack) : (s.onStack d f).held = s.held := (rfl)
@[simp] theorem State.onStack_regs (d : Nat) (f : Stack → Stack) : (s.onStack d f).regs = s.regs := (rfl)
@[simp] theorem State.onStack_staged (d : Nat) (f : Stack → Stack) : (s.onStack d f).staged = s.staged := (rfl)
@[simp] theorem State.onStack_going (d : Nat) (f : Stack → Stack) : (s.onStack d f).going = s.going := (rfl)
@[simp] theorem State.onStack_mile (d : Nat) (f : Stack → Stack) : (s.onStack d f).mile = s.mile := (rfl)
@[simp] theorem State.onStack_sym (d : Nat) (f : Stack → Stack) : (s.onStack d f).sym = s.sym := (rfl)
@[simp] theorem State.onStack_tick (d : Nat) (f : Stack → Stack) : (s.onStack d f).tick = s.tick := (rfl)
@[simp] theorem State.onStack_tickLoad (d : Nat) (f : Stack → Stack) : (s.onStack d f).tickLoad = s.tickLoad := (rfl)
@[simp] theorem State.onStack_tm0 (d : Nat) (f : Stack → Stack) : (s.onStack d f).tm0 = s.tm0 := (rfl)
@[simp] theorem State.onStack_tm1 (d : Nat) (f : Stack → Stack) : (s.onStack d f).tm1 = s.tm1 := (rfl)
@[simp] theorem State.onStack_supplied (d : Nat) (f : Stack → Stack) : (s.onStack d f).supplied = s.supplied := (rfl)
@[simp] theorem State.onStack_slewLeft (d : Nat) (f : Stack → Stack) : (s.onStack d f).slewLeft = s.slewLeft := (rfl)
@[simp] theorem State.onStack_measured (d : Nat) (f : Stack → Stack) : (s.onStack d f).measured = s.measured := (rfl)
@[simp] theorem State.onStack_reqs (d : Nat) (f : Stack → Stack) : (s.onStack d f).reqs = s.reqs := (rfl)
@[simp] theorem State.onStack_tiles (d : Nat) (f : Stack → Stack) : (s.onStack d f).tiles = s.tiles := (rfl)
@[simp] theorem State.onStack_juncs (d : Nat) (f : Stack → Stack) : (s.onStack d f).juncs = s.juncs := (rfl)
@[simp] theorem State.onStack_ibk (d : Nat) (f : Stack → Stack) : (s.onStack d f).ibk = s.ibk := (rfl)
@[simp] theorem State.onStack_ibl (d : Nat) (f : Stack → Stack) : (s.onStack d f).ibl = s.ibl := (rfl)
@[simp] theorem State.onStack_xrq (d : Nat) (f : Stack → Stack) : (s.onStack d f).xrq = s.xrq := (rfl)
@[simp] theorem State.onStack_xrLast (d : Nat) (f : Stack → Stack) : (s.onStack d f).xrLast = s.xrLast := (rfl)
@[simp] theorem State.onStack_parked (d : Nat) (f : Stack → Stack) : (s.onStack d f).parked = s.parked := (rfl)
@[simp] theorem State.onStack_dies (d : Nat) (f : Stack → Stack) : (s.onStack d f).dies = s.dies := (rfl)
@[simp] theorem State.onStack_drains (d : Nat) (f : Stack → Stack) : (s.onStack d f).drains = s.drains := (rfl)
@[simp] theorem State.onStack_links (d : Nat) (f : Stack → Stack) : (s.onStack d f).links = s.links := (rfl)
@[simp] theorem State.onStack_img (d : Nat) (f : Stack → Stack) : (s.onStack d f).img = s.img := (rfl)
@[simp] theorem State.onStack_logs (d : Nat) (f : Stack → Stack) : (s.onStack d f).logs = s.logs := (rfl)
@[simp] theorem State.onStack_latch (d : Nat) (f : Stack → Stack) : (s.onStack d f).latch = s.latch := (rfl)
@[simp] theorem State.onStack_flushTo (d : Nat) (f : Stack → Stack) : (s.onStack d f).flushTo = s.flushTo := (rfl)
@[simp] theorem State.onStack_badSect (d : Nat) (f : Stack → Stack) : (s.onStack d f).badSect = s.badSect := (rfl)
@[simp] theorem State.onStack_nvWait (d : Nat) (f : Stack → Stack) : (s.onStack d f).nvWait = s.nvWait := (rfl)
@[simp] theorem State.onStack_flashErrAt (d : Nat) (f : Stack → Stack) : (s.onStack d f).flashErrAt = s.flashErrAt := (rfl)
@[simp] theorem State.onStack_pfwLow (d : Nat) (f : Stack → Stack) : (s.onStack d f).pfwLow = s.pfwLow := (rfl)
@[simp] theorem State.onStack_own (d : Nat) (f : Stack → Stack) : (s.onStack d f).own = s.own := (rfl)
@[simp] theorem State.onStack_sec (d : Nat) (f : Stack → Stack) : (s.onStack d f).sec = s.sec := (rfl)
@[simp] theorem State.onStack_pwr (d : Nat) (f : Stack → Stack) : (s.onStack d f).pwr = s.pwr := (rfl)
@[simp] theorem State.onStack_boot (d : Nat) (f : Stack → Stack) : (s.onStack d f).boot = s.boot := (rfl)
@[simp] theorem State.onStack_tap (d : Nat) (f : Stack → Stack) : (s.onStack d f).tap = s.tap := (rfl)
@[simp] theorem State.onStack_eth0 (d : Nat) (f : Stack → Stack) : (s.onStack d f).eth0 = s.eth0 := (rfl)
@[simp] theorem State.onStack_eth1 (d : Nat) (f : Stack → Stack) : (s.onStack d f).eth1 = s.eth1 := (rfl)
@[simp] theorem State.onStack_pcie0 (d : Nat) (f : Stack → Stack) : (s.onStack d f).pcie0 = s.pcie0 := (rfl)
@[simp] theorem State.onStack_pcie1 (d : Nat) (f : Stack → Stack) : (s.onStack d f).pcie1 = s.pcie1 := (rfl)
@[simp] theorem State.onStack_flash (d : Nat) (f : Stack → Stack) : (s.onStack d f).flash = s.flash := (rfl)
@[simp] theorem State.onStack_marks (d : Nat) (f : Stack → Stack) : (s.onStack d f).marks = s.marks := (rfl)
@[simp] theorem State.onStack_out (d : Nat) (f : Stack → Stack) : (s.onStack d f).out = s.out := (rfl)
@[simp] theorem State.onStack_free (d : Nat) (f : Stack → Stack) : (s.onStack d f).free = s.free := (rfl)

/-! ### State.onLog -/

@[simp] theorem State.onLog_pending (d : Nat) (f : LogUnit → LogUnit) : (s.onLog d f).pending = s.pending := (rfl)
@[simp] theorem State.onLog_held (d : Nat) (f : LogUnit → LogUnit) : (s.onLog d f).held = s.held := (rfl)
@[simp] theorem State.onLog_regs (d : Nat) (f : LogUnit → LogUnit) : (s.onLog d f).regs = s.regs := (rfl)
@[simp] theorem State.onLog_staged (d : Nat) (f : LogUnit → LogUnit) : (s.onLog d f).staged = s.staged := (rfl)
@[simp] theorem State.onLog_going (d : Nat) (f : LogUnit → LogUnit) : (s.onLog d f).going = s.going := (rfl)
@[simp] theorem State.onLog_mile (d : Nat) (f : LogUnit → LogUnit) : (s.onLog d f).mile = s.mile := (rfl)
@[simp] theorem State.onLog_sym (d : Nat) (f : LogUnit → LogUnit) : (s.onLog d f).sym = s.sym := (rfl)
@[simp] theorem State.onLog_tick (d : Nat) (f : LogUnit → LogUnit) : (s.onLog d f).tick = s.tick := (rfl)
@[simp] theorem State.onLog_tickLoad (d : Nat) (f : LogUnit → LogUnit) : (s.onLog d f).tickLoad = s.tickLoad := (rfl)
@[simp] theorem State.onLog_tm0 (d : Nat) (f : LogUnit → LogUnit) : (s.onLog d f).tm0 = s.tm0 := (rfl)
@[simp] theorem State.onLog_tm1 (d : Nat) (f : LogUnit → LogUnit) : (s.onLog d f).tm1 = s.tm1 := (rfl)
@[simp] theorem State.onLog_supplied (d : Nat) (f : LogUnit → LogUnit) : (s.onLog d f).supplied = s.supplied := (rfl)
@[simp] theorem State.onLog_slewLeft (d : Nat) (f : LogUnit → LogUnit) : (s.onLog d f).slewLeft = s.slewLeft := (rfl)
@[simp] theorem State.onLog_measured (d : Nat) (f : LogUnit → LogUnit) : (s.onLog d f).measured = s.measured := (rfl)
@[simp] theorem State.onLog_reqs (d : Nat) (f : LogUnit → LogUnit) : (s.onLog d f).reqs = s.reqs := (rfl)
@[simp] theorem State.onLog_tiles (d : Nat) (f : LogUnit → LogUnit) : (s.onLog d f).tiles = s.tiles := (rfl)
@[simp] theorem State.onLog_juncs (d : Nat) (f : LogUnit → LogUnit) : (s.onLog d f).juncs = s.juncs := (rfl)
@[simp] theorem State.onLog_ibk (d : Nat) (f : LogUnit → LogUnit) : (s.onLog d f).ibk = s.ibk := (rfl)
@[simp] theorem State.onLog_ibl (d : Nat) (f : LogUnit → LogUnit) : (s.onLog d f).ibl = s.ibl := (rfl)
@[simp] theorem State.onLog_xrq (d : Nat) (f : LogUnit → LogUnit) : (s.onLog d f).xrq = s.xrq := (rfl)
@[simp] theorem State.onLog_xrLast (d : Nat) (f : LogUnit → LogUnit) : (s.onLog d f).xrLast = s.xrLast := (rfl)
@[simp] theorem State.onLog_parked (d : Nat) (f : LogUnit → LogUnit) : (s.onLog d f).parked = s.parked := (rfl)
@[simp] theorem State.onLog_dies (d : Nat) (f : LogUnit → LogUnit) : (s.onLog d f).dies = s.dies := (rfl)
@[simp] theorem State.onLog_drains (d : Nat) (f : LogUnit → LogUnit) : (s.onLog d f).drains = s.drains := (rfl)
@[simp] theorem State.onLog_links (d : Nat) (f : LogUnit → LogUnit) : (s.onLog d f).links = s.links := (rfl)
@[simp] theorem State.onLog_drams (d : Nat) (f : LogUnit → LogUnit) : (s.onLog d f).drams = s.drams := (rfl)
@[simp] theorem State.onLog_img (d : Nat) (f : LogUnit → LogUnit) : (s.onLog d f).img = s.img := (rfl)
@[simp] theorem State.onLog_latch (d : Nat) (f : LogUnit → LogUnit) : (s.onLog d f).latch = s.latch := (rfl)
@[simp] theorem State.onLog_flushTo (d : Nat) (f : LogUnit → LogUnit) : (s.onLog d f).flushTo = s.flushTo := (rfl)
@[simp] theorem State.onLog_badSect (d : Nat) (f : LogUnit → LogUnit) : (s.onLog d f).badSect = s.badSect := (rfl)
@[simp] theorem State.onLog_nvWait (d : Nat) (f : LogUnit → LogUnit) : (s.onLog d f).nvWait = s.nvWait := (rfl)
@[simp] theorem State.onLog_flashErrAt (d : Nat) (f : LogUnit → LogUnit) : (s.onLog d f).flashErrAt = s.flashErrAt := (rfl)
@[simp] theorem State.onLog_pfwLow (d : Nat) (f : LogUnit → LogUnit) : (s.onLog d f).pfwLow = s.pfwLow := (rfl)
@[simp] theorem State.onLog_own (d : Nat) (f : LogUnit → LogUnit) : (s.onLog d f).own = s.own := (rfl)
@[simp] theorem State.onLog_sec (d : Nat) (f : LogUnit → LogUnit) : (s.onLog d f).sec = s.sec := (rfl)
@[simp] theorem State.onLog_pwr (d : Nat) (f : LogUnit → LogUnit) : (s.onLog d f).pwr = s.pwr := (rfl)
@[simp] theorem State.onLog_boot (d : Nat) (f : LogUnit → LogUnit) : (s.onLog d f).boot = s.boot := (rfl)
@[simp] theorem State.onLog_tap (d : Nat) (f : LogUnit → LogUnit) : (s.onLog d f).tap = s.tap := (rfl)
@[simp] theorem State.onLog_eth0 (d : Nat) (f : LogUnit → LogUnit) : (s.onLog d f).eth0 = s.eth0 := (rfl)
@[simp] theorem State.onLog_eth1 (d : Nat) (f : LogUnit → LogUnit) : (s.onLog d f).eth1 = s.eth1 := (rfl)
@[simp] theorem State.onLog_pcie0 (d : Nat) (f : LogUnit → LogUnit) : (s.onLog d f).pcie0 = s.pcie0 := (rfl)
@[simp] theorem State.onLog_pcie1 (d : Nat) (f : LogUnit → LogUnit) : (s.onLog d f).pcie1 = s.pcie1 := (rfl)
@[simp] theorem State.onLog_flash (d : Nat) (f : LogUnit → LogUnit) : (s.onLog d f).flash = s.flash := (rfl)
@[simp] theorem State.onLog_marks (d : Nat) (f : LogUnit → LogUnit) : (s.onLog d f).marks = s.marks := (rfl)
@[simp] theorem State.onLog_out (d : Nat) (f : LogUnit → LogUnit) : (s.onLog d f).out = s.out := (rfl)
@[simp] theorem State.onLog_free (d : Nat) (f : LogUnit → LogUnit) : (s.onLog d f).free = s.free := (rfl)

/-! ### State.onJunc -/

@[simp] theorem State.onJunc_pending (d j : Nat) (f : Junction → Junction) : (s.onJunc d j f).pending = s.pending := (rfl)
@[simp] theorem State.onJunc_held (d j : Nat) (f : Junction → Junction) : (s.onJunc d j f).held = s.held := (rfl)
@[simp] theorem State.onJunc_regs (d j : Nat) (f : Junction → Junction) : (s.onJunc d j f).regs = s.regs := (rfl)
@[simp] theorem State.onJunc_staged (d j : Nat) (f : Junction → Junction) : (s.onJunc d j f).staged = s.staged := (rfl)
@[simp] theorem State.onJunc_going (d j : Nat) (f : Junction → Junction) : (s.onJunc d j f).going = s.going := (rfl)
@[simp] theorem State.onJunc_mile (d j : Nat) (f : Junction → Junction) : (s.onJunc d j f).mile = s.mile := (rfl)
@[simp] theorem State.onJunc_sym (d j : Nat) (f : Junction → Junction) : (s.onJunc d j f).sym = s.sym := (rfl)
@[simp] theorem State.onJunc_tick (d j : Nat) (f : Junction → Junction) : (s.onJunc d j f).tick = s.tick := (rfl)
@[simp] theorem State.onJunc_tickLoad (d j : Nat) (f : Junction → Junction) : (s.onJunc d j f).tickLoad = s.tickLoad := (rfl)
@[simp] theorem State.onJunc_tm0 (d j : Nat) (f : Junction → Junction) : (s.onJunc d j f).tm0 = s.tm0 := (rfl)
@[simp] theorem State.onJunc_tm1 (d j : Nat) (f : Junction → Junction) : (s.onJunc d j f).tm1 = s.tm1 := (rfl)
@[simp] theorem State.onJunc_supplied (d j : Nat) (f : Junction → Junction) : (s.onJunc d j f).supplied = s.supplied := (rfl)
@[simp] theorem State.onJunc_slewLeft (d j : Nat) (f : Junction → Junction) : (s.onJunc d j f).slewLeft = s.slewLeft := (rfl)
@[simp] theorem State.onJunc_measured (d j : Nat) (f : Junction → Junction) : (s.onJunc d j f).measured = s.measured := (rfl)
@[simp] theorem State.onJunc_reqs (d j : Nat) (f : Junction → Junction) : (s.onJunc d j f).reqs = s.reqs := (rfl)
@[simp] theorem State.onJunc_tiles (d j : Nat) (f : Junction → Junction) : (s.onJunc d j f).tiles = s.tiles := (rfl)
@[simp] theorem State.onJunc_ibk (d j : Nat) (f : Junction → Junction) : (s.onJunc d j f).ibk = s.ibk := (rfl)
@[simp] theorem State.onJunc_ibl (d j : Nat) (f : Junction → Junction) : (s.onJunc d j f).ibl = s.ibl := (rfl)
@[simp] theorem State.onJunc_xrq (d j : Nat) (f : Junction → Junction) : (s.onJunc d j f).xrq = s.xrq := (rfl)
@[simp] theorem State.onJunc_xrLast (d j : Nat) (f : Junction → Junction) : (s.onJunc d j f).xrLast = s.xrLast := (rfl)
@[simp] theorem State.onJunc_parked (d j : Nat) (f : Junction → Junction) : (s.onJunc d j f).parked = s.parked := (rfl)
@[simp] theorem State.onJunc_dies (d j : Nat) (f : Junction → Junction) : (s.onJunc d j f).dies = s.dies := (rfl)
@[simp] theorem State.onJunc_drains (d j : Nat) (f : Junction → Junction) : (s.onJunc d j f).drains = s.drains := (rfl)
@[simp] theorem State.onJunc_links (d j : Nat) (f : Junction → Junction) : (s.onJunc d j f).links = s.links := (rfl)
@[simp] theorem State.onJunc_drams (d j : Nat) (f : Junction → Junction) : (s.onJunc d j f).drams = s.drams := (rfl)
@[simp] theorem State.onJunc_img (d j : Nat) (f : Junction → Junction) : (s.onJunc d j f).img = s.img := (rfl)
@[simp] theorem State.onJunc_logs (d j : Nat) (f : Junction → Junction) : (s.onJunc d j f).logs = s.logs := (rfl)
@[simp] theorem State.onJunc_latch (d j : Nat) (f : Junction → Junction) : (s.onJunc d j f).latch = s.latch := (rfl)
@[simp] theorem State.onJunc_flushTo (d j : Nat) (f : Junction → Junction) : (s.onJunc d j f).flushTo = s.flushTo := (rfl)
@[simp] theorem State.onJunc_badSect (d j : Nat) (f : Junction → Junction) : (s.onJunc d j f).badSect = s.badSect := (rfl)
@[simp] theorem State.onJunc_nvWait (d j : Nat) (f : Junction → Junction) : (s.onJunc d j f).nvWait = s.nvWait := (rfl)
@[simp] theorem State.onJunc_flashErrAt (d j : Nat) (f : Junction → Junction) : (s.onJunc d j f).flashErrAt = s.flashErrAt := (rfl)
@[simp] theorem State.onJunc_pfwLow (d j : Nat) (f : Junction → Junction) : (s.onJunc d j f).pfwLow = s.pfwLow := (rfl)
@[simp] theorem State.onJunc_own (d j : Nat) (f : Junction → Junction) : (s.onJunc d j f).own = s.own := (rfl)
@[simp] theorem State.onJunc_sec (d j : Nat) (f : Junction → Junction) : (s.onJunc d j f).sec = s.sec := (rfl)
@[simp] theorem State.onJunc_pwr (d j : Nat) (f : Junction → Junction) : (s.onJunc d j f).pwr = s.pwr := (rfl)
@[simp] theorem State.onJunc_boot (d j : Nat) (f : Junction → Junction) : (s.onJunc d j f).boot = s.boot := (rfl)
@[simp] theorem State.onJunc_tap (d j : Nat) (f : Junction → Junction) : (s.onJunc d j f).tap = s.tap := (rfl)
@[simp] theorem State.onJunc_eth0 (d j : Nat) (f : Junction → Junction) : (s.onJunc d j f).eth0 = s.eth0 := (rfl)
@[simp] theorem State.onJunc_eth1 (d j : Nat) (f : Junction → Junction) : (s.onJunc d j f).eth1 = s.eth1 := (rfl)
@[simp] theorem State.onJunc_pcie0 (d j : Nat) (f : Junction → Junction) : (s.onJunc d j f).pcie0 = s.pcie0 := (rfl)
@[simp] theorem State.onJunc_pcie1 (d j : Nat) (f : Junction → Junction) : (s.onJunc d j f).pcie1 = s.pcie1 := (rfl)
@[simp] theorem State.onJunc_flash (d j : Nat) (f : Junction → Junction) : (s.onJunc d j f).flash = s.flash := (rfl)
@[simp] theorem State.onJunc_marks (d j : Nat) (f : Junction → Junction) : (s.onJunc d j f).marks = s.marks := (rfl)
@[simp] theorem State.onJunc_out (d j : Nat) (f : Junction → Junction) : (s.onJunc d j f).out = s.out := (rfl)
@[simp] theorem State.onJunc_free (d j : Nat) (f : Junction → Junction) : (s.onJunc d j f).free = s.free := (rfl)

/-! ### State.onDir -/

@[simp] theorem State.onDir_pending (l dir : Nat) (f : IbkDir → IbkDir) : (s.onDir l dir f).pending = s.pending := (rfl)
@[simp] theorem State.onDir_held (l dir : Nat) (f : IbkDir → IbkDir) : (s.onDir l dir f).held = s.held := (rfl)
@[simp] theorem State.onDir_regs (l dir : Nat) (f : IbkDir → IbkDir) : (s.onDir l dir f).regs = s.regs := (rfl)
@[simp] theorem State.onDir_staged (l dir : Nat) (f : IbkDir → IbkDir) : (s.onDir l dir f).staged = s.staged := (rfl)
@[simp] theorem State.onDir_going (l dir : Nat) (f : IbkDir → IbkDir) : (s.onDir l dir f).going = s.going := (rfl)
@[simp] theorem State.onDir_mile (l dir : Nat) (f : IbkDir → IbkDir) : (s.onDir l dir f).mile = s.mile := (rfl)
@[simp] theorem State.onDir_sym (l dir : Nat) (f : IbkDir → IbkDir) : (s.onDir l dir f).sym = s.sym := (rfl)
@[simp] theorem State.onDir_tick (l dir : Nat) (f : IbkDir → IbkDir) : (s.onDir l dir f).tick = s.tick := (rfl)
@[simp] theorem State.onDir_tickLoad (l dir : Nat) (f : IbkDir → IbkDir) : (s.onDir l dir f).tickLoad = s.tickLoad := (rfl)
@[simp] theorem State.onDir_tm0 (l dir : Nat) (f : IbkDir → IbkDir) : (s.onDir l dir f).tm0 = s.tm0 := (rfl)
@[simp] theorem State.onDir_tm1 (l dir : Nat) (f : IbkDir → IbkDir) : (s.onDir l dir f).tm1 = s.tm1 := (rfl)
@[simp] theorem State.onDir_supplied (l dir : Nat) (f : IbkDir → IbkDir) : (s.onDir l dir f).supplied = s.supplied := (rfl)
@[simp] theorem State.onDir_slewLeft (l dir : Nat) (f : IbkDir → IbkDir) : (s.onDir l dir f).slewLeft = s.slewLeft := (rfl)
@[simp] theorem State.onDir_measured (l dir : Nat) (f : IbkDir → IbkDir) : (s.onDir l dir f).measured = s.measured := (rfl)
@[simp] theorem State.onDir_reqs (l dir : Nat) (f : IbkDir → IbkDir) : (s.onDir l dir f).reqs = s.reqs := (rfl)
@[simp] theorem State.onDir_tiles (l dir : Nat) (f : IbkDir → IbkDir) : (s.onDir l dir f).tiles = s.tiles := (rfl)
@[simp] theorem State.onDir_juncs (l dir : Nat) (f : IbkDir → IbkDir) : (s.onDir l dir f).juncs = s.juncs := (rfl)
@[simp] theorem State.onDir_ibl (l dir : Nat) (f : IbkDir → IbkDir) : (s.onDir l dir f).ibl = s.ibl := (rfl)
@[simp] theorem State.onDir_xrq (l dir : Nat) (f : IbkDir → IbkDir) : (s.onDir l dir f).xrq = s.xrq := (rfl)
@[simp] theorem State.onDir_xrLast (l dir : Nat) (f : IbkDir → IbkDir) : (s.onDir l dir f).xrLast = s.xrLast := (rfl)
@[simp] theorem State.onDir_parked (l dir : Nat) (f : IbkDir → IbkDir) : (s.onDir l dir f).parked = s.parked := (rfl)
@[simp] theorem State.onDir_dies (l dir : Nat) (f : IbkDir → IbkDir) : (s.onDir l dir f).dies = s.dies := (rfl)
@[simp] theorem State.onDir_drains (l dir : Nat) (f : IbkDir → IbkDir) : (s.onDir l dir f).drains = s.drains := (rfl)
@[simp] theorem State.onDir_links (l dir : Nat) (f : IbkDir → IbkDir) : (s.onDir l dir f).links = s.links := (rfl)
@[simp] theorem State.onDir_drams (l dir : Nat) (f : IbkDir → IbkDir) : (s.onDir l dir f).drams = s.drams := (rfl)
@[simp] theorem State.onDir_img (l dir : Nat) (f : IbkDir → IbkDir) : (s.onDir l dir f).img = s.img := (rfl)
@[simp] theorem State.onDir_logs (l dir : Nat) (f : IbkDir → IbkDir) : (s.onDir l dir f).logs = s.logs := (rfl)
@[simp] theorem State.onDir_latch (l dir : Nat) (f : IbkDir → IbkDir) : (s.onDir l dir f).latch = s.latch := (rfl)
@[simp] theorem State.onDir_flushTo (l dir : Nat) (f : IbkDir → IbkDir) : (s.onDir l dir f).flushTo = s.flushTo := (rfl)
@[simp] theorem State.onDir_badSect (l dir : Nat) (f : IbkDir → IbkDir) : (s.onDir l dir f).badSect = s.badSect := (rfl)
@[simp] theorem State.onDir_nvWait (l dir : Nat) (f : IbkDir → IbkDir) : (s.onDir l dir f).nvWait = s.nvWait := (rfl)
@[simp] theorem State.onDir_flashErrAt (l dir : Nat) (f : IbkDir → IbkDir) : (s.onDir l dir f).flashErrAt = s.flashErrAt := (rfl)
@[simp] theorem State.onDir_pfwLow (l dir : Nat) (f : IbkDir → IbkDir) : (s.onDir l dir f).pfwLow = s.pfwLow := (rfl)
@[simp] theorem State.onDir_own (l dir : Nat) (f : IbkDir → IbkDir) : (s.onDir l dir f).own = s.own := (rfl)
@[simp] theorem State.onDir_sec (l dir : Nat) (f : IbkDir → IbkDir) : (s.onDir l dir f).sec = s.sec := (rfl)
@[simp] theorem State.onDir_pwr (l dir : Nat) (f : IbkDir → IbkDir) : (s.onDir l dir f).pwr = s.pwr := (rfl)
@[simp] theorem State.onDir_boot (l dir : Nat) (f : IbkDir → IbkDir) : (s.onDir l dir f).boot = s.boot := (rfl)
@[simp] theorem State.onDir_tap (l dir : Nat) (f : IbkDir → IbkDir) : (s.onDir l dir f).tap = s.tap := (rfl)
@[simp] theorem State.onDir_eth0 (l dir : Nat) (f : IbkDir → IbkDir) : (s.onDir l dir f).eth0 = s.eth0 := (rfl)
@[simp] theorem State.onDir_eth1 (l dir : Nat) (f : IbkDir → IbkDir) : (s.onDir l dir f).eth1 = s.eth1 := (rfl)
@[simp] theorem State.onDir_pcie0 (l dir : Nat) (f : IbkDir → IbkDir) : (s.onDir l dir f).pcie0 = s.pcie0 := (rfl)
@[simp] theorem State.onDir_pcie1 (l dir : Nat) (f : IbkDir → IbkDir) : (s.onDir l dir f).pcie1 = s.pcie1 := (rfl)
@[simp] theorem State.onDir_flash (l dir : Nat) (f : IbkDir → IbkDir) : (s.onDir l dir f).flash = s.flash := (rfl)
@[simp] theorem State.onDir_marks (l dir : Nat) (f : IbkDir → IbkDir) : (s.onDir l dir f).marks = s.marks := (rfl)
@[simp] theorem State.onDir_out (l dir : Nat) (f : IbkDir → IbkDir) : (s.onDir l dir f).out = s.out := (rfl)
@[simp] theorem State.onDir_free (l dir : Nat) (f : IbkDir → IbkDir) : (s.onDir l dir f).free = s.free := (rfl)

/-! ### State.setIbLink -/

@[simp] theorem State.setIbLink_pending (l : Nat) (x : IbkLink) : (s.setIbLink l x).pending = s.pending := (rfl)
@[simp] theorem State.setIbLink_held (l : Nat) (x : IbkLink) : (s.setIbLink l x).held = s.held := (rfl)
@[simp] theorem State.setIbLink_regs (l : Nat) (x : IbkLink) : (s.setIbLink l x).regs = s.regs := (rfl)
@[simp] theorem State.setIbLink_staged (l : Nat) (x : IbkLink) : (s.setIbLink l x).staged = s.staged := (rfl)
@[simp] theorem State.setIbLink_going (l : Nat) (x : IbkLink) : (s.setIbLink l x).going = s.going := (rfl)
@[simp] theorem State.setIbLink_mile (l : Nat) (x : IbkLink) : (s.setIbLink l x).mile = s.mile := (rfl)
@[simp] theorem State.setIbLink_sym (l : Nat) (x : IbkLink) : (s.setIbLink l x).sym = s.sym := (rfl)
@[simp] theorem State.setIbLink_tick (l : Nat) (x : IbkLink) : (s.setIbLink l x).tick = s.tick := (rfl)
@[simp] theorem State.setIbLink_tickLoad (l : Nat) (x : IbkLink) : (s.setIbLink l x).tickLoad = s.tickLoad := (rfl)
@[simp] theorem State.setIbLink_tm0 (l : Nat) (x : IbkLink) : (s.setIbLink l x).tm0 = s.tm0 := (rfl)
@[simp] theorem State.setIbLink_tm1 (l : Nat) (x : IbkLink) : (s.setIbLink l x).tm1 = s.tm1 := (rfl)
@[simp] theorem State.setIbLink_supplied (l : Nat) (x : IbkLink) : (s.setIbLink l x).supplied = s.supplied := (rfl)
@[simp] theorem State.setIbLink_slewLeft (l : Nat) (x : IbkLink) : (s.setIbLink l x).slewLeft = s.slewLeft := (rfl)
@[simp] theorem State.setIbLink_measured (l : Nat) (x : IbkLink) : (s.setIbLink l x).measured = s.measured := (rfl)
@[simp] theorem State.setIbLink_reqs (l : Nat) (x : IbkLink) : (s.setIbLink l x).reqs = s.reqs := (rfl)
@[simp] theorem State.setIbLink_tiles (l : Nat) (x : IbkLink) : (s.setIbLink l x).tiles = s.tiles := (rfl)
@[simp] theorem State.setIbLink_juncs (l : Nat) (x : IbkLink) : (s.setIbLink l x).juncs = s.juncs := (rfl)
@[simp] theorem State.setIbLink_ibk (l : Nat) (x : IbkLink) : (s.setIbLink l x).ibk = s.ibk := (rfl)
@[simp] theorem State.setIbLink_xrq (l : Nat) (x : IbkLink) : (s.setIbLink l x).xrq = s.xrq := (rfl)
@[simp] theorem State.setIbLink_xrLast (l : Nat) (x : IbkLink) : (s.setIbLink l x).xrLast = s.xrLast := (rfl)
@[simp] theorem State.setIbLink_parked (l : Nat) (x : IbkLink) : (s.setIbLink l x).parked = s.parked := (rfl)
@[simp] theorem State.setIbLink_dies (l : Nat) (x : IbkLink) : (s.setIbLink l x).dies = s.dies := (rfl)
@[simp] theorem State.setIbLink_drains (l : Nat) (x : IbkLink) : (s.setIbLink l x).drains = s.drains := (rfl)
@[simp] theorem State.setIbLink_links (l : Nat) (x : IbkLink) : (s.setIbLink l x).links = s.links := (rfl)
@[simp] theorem State.setIbLink_drams (l : Nat) (x : IbkLink) : (s.setIbLink l x).drams = s.drams := (rfl)
@[simp] theorem State.setIbLink_img (l : Nat) (x : IbkLink) : (s.setIbLink l x).img = s.img := (rfl)
@[simp] theorem State.setIbLink_logs (l : Nat) (x : IbkLink) : (s.setIbLink l x).logs = s.logs := (rfl)
@[simp] theorem State.setIbLink_latch (l : Nat) (x : IbkLink) : (s.setIbLink l x).latch = s.latch := (rfl)
@[simp] theorem State.setIbLink_flushTo (l : Nat) (x : IbkLink) : (s.setIbLink l x).flushTo = s.flushTo := (rfl)
@[simp] theorem State.setIbLink_badSect (l : Nat) (x : IbkLink) : (s.setIbLink l x).badSect = s.badSect := (rfl)
@[simp] theorem State.setIbLink_nvWait (l : Nat) (x : IbkLink) : (s.setIbLink l x).nvWait = s.nvWait := (rfl)
@[simp] theorem State.setIbLink_flashErrAt (l : Nat) (x : IbkLink) : (s.setIbLink l x).flashErrAt = s.flashErrAt := (rfl)
@[simp] theorem State.setIbLink_pfwLow (l : Nat) (x : IbkLink) : (s.setIbLink l x).pfwLow = s.pfwLow := (rfl)
@[simp] theorem State.setIbLink_own (l : Nat) (x : IbkLink) : (s.setIbLink l x).own = s.own := (rfl)
@[simp] theorem State.setIbLink_sec (l : Nat) (x : IbkLink) : (s.setIbLink l x).sec = s.sec := (rfl)
@[simp] theorem State.setIbLink_pwr (l : Nat) (x : IbkLink) : (s.setIbLink l x).pwr = s.pwr := (rfl)
@[simp] theorem State.setIbLink_boot (l : Nat) (x : IbkLink) : (s.setIbLink l x).boot = s.boot := (rfl)
@[simp] theorem State.setIbLink_tap (l : Nat) (x : IbkLink) : (s.setIbLink l x).tap = s.tap := (rfl)
@[simp] theorem State.setIbLink_eth0 (l : Nat) (x : IbkLink) : (s.setIbLink l x).eth0 = s.eth0 := (rfl)
@[simp] theorem State.setIbLink_eth1 (l : Nat) (x : IbkLink) : (s.setIbLink l x).eth1 = s.eth1 := (rfl)
@[simp] theorem State.setIbLink_pcie0 (l : Nat) (x : IbkLink) : (s.setIbLink l x).pcie0 = s.pcie0 := (rfl)
@[simp] theorem State.setIbLink_pcie1 (l : Nat) (x : IbkLink) : (s.setIbLink l x).pcie1 = s.pcie1 := (rfl)
@[simp] theorem State.setIbLink_flash (l : Nat) (x : IbkLink) : (s.setIbLink l x).flash = s.flash := (rfl)
@[simp] theorem State.setIbLink_marks (l : Nat) (x : IbkLink) : (s.setIbLink l x).marks = s.marks := (rfl)
@[simp] theorem State.setIbLink_out (l : Nat) (x : IbkLink) : (s.setIbLink l x).out = s.out := (rfl)
@[simp] theorem State.setIbLink_free (l : Nat) (x : IbkLink) : (s.setIbLink l x).free = s.free := (rfl)

/-! ### State.fresh -/

@[simp] theorem State.fresh_pending : (s.fresh).pending = s.pending := (rfl)
@[simp] theorem State.fresh_held : (s.fresh).held = s.held := (rfl)
@[simp] theorem State.fresh_regs : (s.fresh).regs = s.regs := (rfl)
@[simp] theorem State.fresh_staged : (s.fresh).staged = s.staged := (rfl)
@[simp] theorem State.fresh_going : (s.fresh).going = s.going := (rfl)
@[simp] theorem State.fresh_mile : (s.fresh).mile = s.mile := (rfl)
@[simp] theorem State.fresh_sym : (s.fresh).sym = s.sym := (rfl)
@[simp] theorem State.fresh_tick : (s.fresh).tick = s.tick := (rfl)
@[simp] theorem State.fresh_tickLoad : (s.fresh).tickLoad = s.tickLoad := (rfl)
@[simp] theorem State.fresh_tm0 : (s.fresh).tm0 = s.tm0 := (rfl)
@[simp] theorem State.fresh_tm1 : (s.fresh).tm1 = s.tm1 := (rfl)
@[simp] theorem State.fresh_supplied : (s.fresh).supplied = s.supplied := (rfl)
@[simp] theorem State.fresh_slewLeft : (s.fresh).slewLeft = s.slewLeft := (rfl)
@[simp] theorem State.fresh_measured : (s.fresh).measured = s.measured := (rfl)
@[simp] theorem State.fresh_reqs : (s.fresh).reqs = s.reqs := (rfl)
@[simp] theorem State.fresh_tiles : (s.fresh).tiles = s.tiles := (rfl)
@[simp] theorem State.fresh_juncs : (s.fresh).juncs = s.juncs := (rfl)
@[simp] theorem State.fresh_ibk : (s.fresh).ibk = s.ibk := (rfl)
@[simp] theorem State.fresh_ibl : (s.fresh).ibl = s.ibl := (rfl)
@[simp] theorem State.fresh_xrq : (s.fresh).xrq = s.xrq := (rfl)
@[simp] theorem State.fresh_xrLast : (s.fresh).xrLast = s.xrLast := (rfl)
@[simp] theorem State.fresh_parked : (s.fresh).parked = s.parked := (rfl)
@[simp] theorem State.fresh_dies : (s.fresh).dies = s.dies := (rfl)
@[simp] theorem State.fresh_drains : (s.fresh).drains = s.drains := (rfl)
@[simp] theorem State.fresh_links : (s.fresh).links = s.links := (rfl)
@[simp] theorem State.fresh_drams : (s.fresh).drams = s.drams := (rfl)
@[simp] theorem State.fresh_img : (s.fresh).img = s.img := (rfl)
@[simp] theorem State.fresh_logs : (s.fresh).logs = s.logs := (rfl)
@[simp] theorem State.fresh_latch : (s.fresh).latch = s.latch := (rfl)
@[simp] theorem State.fresh_flushTo : (s.fresh).flushTo = s.flushTo := (rfl)
@[simp] theorem State.fresh_badSect : (s.fresh).badSect = s.badSect := (rfl)
@[simp] theorem State.fresh_nvWait : (s.fresh).nvWait = s.nvWait := (rfl)
@[simp] theorem State.fresh_flashErrAt : (s.fresh).flashErrAt = s.flashErrAt := (rfl)
@[simp] theorem State.fresh_pfwLow : (s.fresh).pfwLow = s.pfwLow := (rfl)
@[simp] theorem State.fresh_own : (s.fresh).own = s.own := (rfl)
@[simp] theorem State.fresh_sec : (s.fresh).sec = s.sec := (rfl)
@[simp] theorem State.fresh_pwr : (s.fresh).pwr = s.pwr := (rfl)
@[simp] theorem State.fresh_boot : (s.fresh).boot = s.boot := (rfl)
@[simp] theorem State.fresh_tap : (s.fresh).tap = s.tap := (rfl)
@[simp] theorem State.fresh_eth0 : (s.fresh).eth0 = s.eth0 := (rfl)
@[simp] theorem State.fresh_eth1 : (s.fresh).eth1 = s.eth1 := (rfl)
@[simp] theorem State.fresh_pcie0 : (s.fresh).pcie0 = s.pcie0 := (rfl)
@[simp] theorem State.fresh_pcie1 : (s.fresh).pcie1 = s.pcie1 := (rfl)
@[simp] theorem State.fresh_flash : (s.fresh).flash = s.flash := (rfl)
@[simp] theorem State.fresh_marks : (s.fresh).marks = s.marks := (rfl)
@[simp] theorem State.fresh_out : (s.fresh).out = s.out := (rfl)

/-! ### What is read of the parts that an update does not reach -/

@[simp] theorem State.tile_of_wr (k : Nat) (v : Word) (a b : Nat) : (s.wr k v).tile a b = s.tile a b := (rfl)
@[simp] theorem State.die_of_wr (k : Nat) (v : Word) (a : Nat) : (s.wr k v).die a = s.die a := (rfl)
@[simp] theorem State.link_of_wr (k : Nat) (v : Word) (a : Nat) : (s.wr k v).link a = s.link a := (rfl)
@[simp] theorem State.stack_of_wr (k : Nat) (v : Word) (a : Nat) : (s.wr k v).stack a = s.stack a := (rfl)
@[simp] theorem State.log_of_wr (k : Nat) (v : Word) (a : Nat) : (s.wr k v).log a = s.log a := (rfl)
@[simp] theorem State.junc_of_wr (k : Nat) (v : Word) (a b : Nat) : (s.wr k v).junc a b = s.junc a b := (rfl)
@[simp] theorem State.dir_of_wr (k : Nat) (v : Word) (a b : Nat) : (s.wr k v).dir a b = s.dir a b := (rfl)
@[simp] theorem State.ibLink_of_wr (k : Nat) (v : Word) (a : Nat) : (s.wr k v).ibLink a = s.ibLink a := (rfl)

@[simp] theorem State.rd_of_emit (e : Emit) (q : Nat) : (s.emit e).rd q = s.rd q := (rfl)
@[simp] theorem State.tile_of_emit (e : Emit) (a b : Nat) : (s.emit e).tile a b = s.tile a b := (rfl)
@[simp] theorem State.die_of_emit (e : Emit) (a : Nat) : (s.emit e).die a = s.die a := (rfl)
@[simp] theorem State.link_of_emit (e : Emit) (a : Nat) : (s.emit e).link a = s.link a := (rfl)
@[simp] theorem State.stack_of_emit (e : Emit) (a : Nat) : (s.emit e).stack a = s.stack a := (rfl)
@[simp] theorem State.log_of_emit (e : Emit) (a : Nat) : (s.emit e).log a = s.log a := (rfl)
@[simp] theorem State.junc_of_emit (e : Emit) (a b : Nat) : (s.emit e).junc a b = s.junc a b := (rfl)
@[simp] theorem State.dir_of_emit (e : Emit) (a b : Nat) : (s.emit e).dir a b = s.dir a b := (rfl)
@[simp] theorem State.ibLink_of_emit (e : Emit) (a : Nat) : (s.emit e).ibLink a = s.ibLink a := (rfl)

@[simp] theorem State.rd_of_mark (d kd ix c : Nat) (x y z : Word) (q : Nat) : (s.mark d kd ix c x y z).rd q = s.rd q := (rfl)
@[simp] theorem State.tile_of_mark (d kd ix c : Nat) (x y z : Word) (a b : Nat) : (s.mark d kd ix c x y z).tile a b = s.tile a b := (rfl)
@[simp] theorem State.die_of_mark (d kd ix c : Nat) (x y z : Word) (a : Nat) : (s.mark d kd ix c x y z).die a = s.die a := (rfl)
@[simp] theorem State.link_of_mark (d kd ix c : Nat) (x y z : Word) (a : Nat) : (s.mark d kd ix c x y z).link a = s.link a := (rfl)
@[simp] theorem State.stack_of_mark (d kd ix c : Nat) (x y z : Word) (a : Nat) : (s.mark d kd ix c x y z).stack a = s.stack a := (rfl)
@[simp] theorem State.log_of_mark (d kd ix c : Nat) (x y z : Word) (a : Nat) : (s.mark d kd ix c x y z).log a = s.log a := (rfl)
@[simp] theorem State.junc_of_mark (d kd ix c : Nat) (x y z : Word) (a b : Nat) : (s.mark d kd ix c x y z).junc a b = s.junc a b := (rfl)
@[simp] theorem State.dir_of_mark (d kd ix c : Nat) (x y z : Word) (a b : Nat) : (s.mark d kd ix c x y z).dir a b = s.dir a b := (rfl)
@[simp] theorem State.ibLink_of_mark (d kd ix c : Nat) (x y z : Word) (a : Nat) : (s.mark d kd ix c x y z).ibLink a = s.ibLink a := (rfl)

@[simp] theorem State.rd_of_setTile (d p : Nat) (t : Tile) (q : Nat) : (s.setTile d p t).rd q = s.rd q := (rfl)
@[simp] theorem State.die_of_setTile (d p : Nat) (t : Tile) (a : Nat) : (s.setTile d p t).die a = s.die a := (rfl)
@[simp] theorem State.link_of_setTile (d p : Nat) (t : Tile) (a : Nat) : (s.setTile d p t).link a = s.link a := (rfl)
@[simp] theorem State.stack_of_setTile (d p : Nat) (t : Tile) (a : Nat) : (s.setTile d p t).stack a = s.stack a := (rfl)
@[simp] theorem State.log_of_setTile (d p : Nat) (t : Tile) (a : Nat) : (s.setTile d p t).log a = s.log a := (rfl)
@[simp] theorem State.junc_of_setTile (d p : Nat) (t : Tile) (a b : Nat) : (s.setTile d p t).junc a b = s.junc a b := (rfl)
@[simp] theorem State.dir_of_setTile (d p : Nat) (t : Tile) (a b : Nat) : (s.setTile d p t).dir a b = s.dir a b := (rfl)
@[simp] theorem State.ibLink_of_setTile (d p : Nat) (t : Tile) (a : Nat) : (s.setTile d p t).ibLink a = s.ibLink a := (rfl)

@[simp] theorem State.rd_of_onDie (d : Nat) (f : DieSt → DieSt) (q : Nat) : (s.onDie d f).rd q = s.rd q := (rfl)
@[simp] theorem State.tile_of_onDie (d : Nat) (f : DieSt → DieSt) (a b : Nat) : (s.onDie d f).tile a b = s.tile a b := (rfl)
@[simp] theorem State.link_of_onDie (d : Nat) (f : DieSt → DieSt) (a : Nat) : (s.onDie d f).link a = s.link a := (rfl)
@[simp] theorem State.stack_of_onDie (d : Nat) (f : DieSt → DieSt) (a : Nat) : (s.onDie d f).stack a = s.stack a := (rfl)
@[simp] theorem State.log_of_onDie (d : Nat) (f : DieSt → DieSt) (a : Nat) : (s.onDie d f).log a = s.log a := (rfl)
@[simp] theorem State.junc_of_onDie (d : Nat) (f : DieSt → DieSt) (a b : Nat) : (s.onDie d f).junc a b = s.junc a b := (rfl)
@[simp] theorem State.dir_of_onDie (d : Nat) (f : DieSt → DieSt) (a b : Nat) : (s.onDie d f).dir a b = s.dir a b := (rfl)
@[simp] theorem State.ibLink_of_onDie (d : Nat) (f : DieSt → DieSt) (a : Nat) : (s.onDie d f).ibLink a = s.ibLink a := (rfl)

@[simp] theorem State.rd_of_onLink (n : Nat) (f : LinkSt → LinkSt) (q : Nat) : (s.onLink n f).rd q = s.rd q := (rfl)
@[simp] theorem State.tile_of_onLink (n : Nat) (f : LinkSt → LinkSt) (a b : Nat) : (s.onLink n f).tile a b = s.tile a b := (rfl)
@[simp] theorem State.die_of_onLink (n : Nat) (f : LinkSt → LinkSt) (a : Nat) : (s.onLink n f).die a = s.die a := (rfl)
@[simp] theorem State.stack_of_onLink (n : Nat) (f : LinkSt → LinkSt) (a : Nat) : (s.onLink n f).stack a = s.stack a := (rfl)
@[simp] theorem State.log_of_onLink (n : Nat) (f : LinkSt → LinkSt) (a : Nat) : (s.onLink n f).log a = s.log a := (rfl)
@[simp] theorem State.junc_of_onLink (n : Nat) (f : LinkSt → LinkSt) (a b : Nat) : (s.onLink n f).junc a b = s.junc a b := (rfl)
@[simp] theorem State.dir_of_onLink (n : Nat) (f : LinkSt → LinkSt) (a b : Nat) : (s.onLink n f).dir a b = s.dir a b := (rfl)
@[simp] theorem State.ibLink_of_onLink (n : Nat) (f : LinkSt → LinkSt) (a : Nat) : (s.onLink n f).ibLink a = s.ibLink a := (rfl)

@[simp] theorem State.rd_of_onStack (d : Nat) (f : Stack → Stack) (q : Nat) : (s.onStack d f).rd q = s.rd q := (rfl)
@[simp] theorem State.tile_of_onStack (d : Nat) (f : Stack → Stack) (a b : Nat) : (s.onStack d f).tile a b = s.tile a b := (rfl)
@[simp] theorem State.die_of_onStack (d : Nat) (f : Stack → Stack) (a : Nat) : (s.onStack d f).die a = s.die a := (rfl)
@[simp] theorem State.link_of_onStack (d : Nat) (f : Stack → Stack) (a : Nat) : (s.onStack d f).link a = s.link a := (rfl)
@[simp] theorem State.log_of_onStack (d : Nat) (f : Stack → Stack) (a : Nat) : (s.onStack d f).log a = s.log a := (rfl)
@[simp] theorem State.junc_of_onStack (d : Nat) (f : Stack → Stack) (a b : Nat) : (s.onStack d f).junc a b = s.junc a b := (rfl)
@[simp] theorem State.dir_of_onStack (d : Nat) (f : Stack → Stack) (a b : Nat) : (s.onStack d f).dir a b = s.dir a b := (rfl)
@[simp] theorem State.ibLink_of_onStack (d : Nat) (f : Stack → Stack) (a : Nat) : (s.onStack d f).ibLink a = s.ibLink a := (rfl)

@[simp] theorem State.rd_of_onLog (d : Nat) (f : LogUnit → LogUnit) (q : Nat) : (s.onLog d f).rd q = s.rd q := (rfl)
@[simp] theorem State.tile_of_onLog (d : Nat) (f : LogUnit → LogUnit) (a b : Nat) : (s.onLog d f).tile a b = s.tile a b := (rfl)
@[simp] theorem State.die_of_onLog (d : Nat) (f : LogUnit → LogUnit) (a : Nat) : (s.onLog d f).die a = s.die a := (rfl)
@[simp] theorem State.link_of_onLog (d : Nat) (f : LogUnit → LogUnit) (a : Nat) : (s.onLog d f).link a = s.link a := (rfl)
@[simp] theorem State.stack_of_onLog (d : Nat) (f : LogUnit → LogUnit) (a : Nat) : (s.onLog d f).stack a = s.stack a := (rfl)
@[simp] theorem State.junc_of_onLog (d : Nat) (f : LogUnit → LogUnit) (a b : Nat) : (s.onLog d f).junc a b = s.junc a b := (rfl)
@[simp] theorem State.dir_of_onLog (d : Nat) (f : LogUnit → LogUnit) (a b : Nat) : (s.onLog d f).dir a b = s.dir a b := (rfl)
@[simp] theorem State.ibLink_of_onLog (d : Nat) (f : LogUnit → LogUnit) (a : Nat) : (s.onLog d f).ibLink a = s.ibLink a := (rfl)

@[simp] theorem State.rd_of_onJunc (d j : Nat) (f : Junction → Junction) (q : Nat) : (s.onJunc d j f).rd q = s.rd q := (rfl)
@[simp] theorem State.tile_of_onJunc (d j : Nat) (f : Junction → Junction) (a b : Nat) : (s.onJunc d j f).tile a b = s.tile a b := (rfl)
@[simp] theorem State.die_of_onJunc (d j : Nat) (f : Junction → Junction) (a : Nat) : (s.onJunc d j f).die a = s.die a := (rfl)
@[simp] theorem State.link_of_onJunc (d j : Nat) (f : Junction → Junction) (a : Nat) : (s.onJunc d j f).link a = s.link a := (rfl)
@[simp] theorem State.stack_of_onJunc (d j : Nat) (f : Junction → Junction) (a : Nat) : (s.onJunc d j f).stack a = s.stack a := (rfl)
@[simp] theorem State.log_of_onJunc (d j : Nat) (f : Junction → Junction) (a : Nat) : (s.onJunc d j f).log a = s.log a := (rfl)
@[simp] theorem State.dir_of_onJunc (d j : Nat) (f : Junction → Junction) (a b : Nat) : (s.onJunc d j f).dir a b = s.dir a b := (rfl)
@[simp] theorem State.ibLink_of_onJunc (d j : Nat) (f : Junction → Junction) (a : Nat) : (s.onJunc d j f).ibLink a = s.ibLink a := (rfl)

@[simp] theorem State.rd_of_onDir (l dir : Nat) (f : IbkDir → IbkDir) (q : Nat) : (s.onDir l dir f).rd q = s.rd q := (rfl)
@[simp] theorem State.tile_of_onDir (l dir : Nat) (f : IbkDir → IbkDir) (a b : Nat) : (s.onDir l dir f).tile a b = s.tile a b := (rfl)
@[simp] theorem State.die_of_onDir (l dir : Nat) (f : IbkDir → IbkDir) (a : Nat) : (s.onDir l dir f).die a = s.die a := (rfl)
@[simp] theorem State.link_of_onDir (l dir : Nat) (f : IbkDir → IbkDir) (a : Nat) : (s.onDir l dir f).link a = s.link a := (rfl)
@[simp] theorem State.stack_of_onDir (l dir : Nat) (f : IbkDir → IbkDir) (a : Nat) : (s.onDir l dir f).stack a = s.stack a := (rfl)
@[simp] theorem State.log_of_onDir (l dir : Nat) (f : IbkDir → IbkDir) (a : Nat) : (s.onDir l dir f).log a = s.log a := (rfl)
@[simp] theorem State.junc_of_onDir (l dir : Nat) (f : IbkDir → IbkDir) (a b : Nat) : (s.onDir l dir f).junc a b = s.junc a b := (rfl)
@[simp] theorem State.ibLink_of_onDir (l dir : Nat) (f : IbkDir → IbkDir) (a : Nat) : (s.onDir l dir f).ibLink a = s.ibLink a := (rfl)

@[simp] theorem State.rd_of_setIbLink (l : Nat) (x : IbkLink) (q : Nat) : (s.setIbLink l x).rd q = s.rd q := (rfl)
@[simp] theorem State.tile_of_setIbLink (l : Nat) (x : IbkLink) (a b : Nat) : (s.setIbLink l x).tile a b = s.tile a b := (rfl)
@[simp] theorem State.die_of_setIbLink (l : Nat) (x : IbkLink) (a : Nat) : (s.setIbLink l x).die a = s.die a := (rfl)
@[simp] theorem State.link_of_setIbLink (l : Nat) (x : IbkLink) (a : Nat) : (s.setIbLink l x).link a = s.link a := (rfl)
@[simp] theorem State.stack_of_setIbLink (l : Nat) (x : IbkLink) (a : Nat) : (s.setIbLink l x).stack a = s.stack a := (rfl)
@[simp] theorem State.log_of_setIbLink (l : Nat) (x : IbkLink) (a : Nat) : (s.setIbLink l x).log a = s.log a := (rfl)
@[simp] theorem State.junc_of_setIbLink (l : Nat) (x : IbkLink) (a b : Nat) : (s.setIbLink l x).junc a b = s.junc a b := (rfl)
@[simp] theorem State.dir_of_setIbLink (l : Nat) (x : IbkLink) (a b : Nat) : (s.setIbLink l x).dir a b = s.dir a b := (rfl)

@[simp] theorem State.rd_of_fresh  (q : Nat) : (s.fresh).rd q = s.rd q := (rfl)
@[simp] theorem State.tile_of_fresh  (a b : Nat) : (s.fresh).tile a b = s.tile a b := (rfl)
@[simp] theorem State.die_of_fresh  (a : Nat) : (s.fresh).die a = s.die a := (rfl)
@[simp] theorem State.link_of_fresh  (a : Nat) : (s.fresh).link a = s.link a := (rfl)
@[simp] theorem State.stack_of_fresh  (a : Nat) : (s.fresh).stack a = s.stack a := (rfl)
@[simp] theorem State.log_of_fresh  (a : Nat) : (s.fresh).log a = s.log a := (rfl)
@[simp] theorem State.junc_of_fresh  (a b : Nat) : (s.fresh).junc a b = s.junc a b := (rfl)
@[simp] theorem State.dir_of_fresh  (a b : Nat) : (s.fresh).dir a b = s.dir a b := (rfl)
@[simp] theorem State.ibLink_of_fresh  (a : Nat) : (s.fresh).ibLink a = s.ibLink a := (rfl)

@[simp] theorem State.rd_of_keepQueue (u : State) (q : Nat) : (s.keepQueue u).rd q = u.rd q := (rfl)
@[simp] theorem State.tile_of_keepQueue (u : State) (a b : Nat) : (s.keepQueue u).tile a b = u.tile a b := (rfl)
@[simp] theorem State.die_of_keepQueue (u : State) (a : Nat) : (s.keepQueue u).die a = u.die a := (rfl)
@[simp] theorem State.link_of_keepQueue (u : State) (a : Nat) : (s.keepQueue u).link a = u.link a := (rfl)
@[simp] theorem State.stack_of_keepQueue (u : State) (a : Nat) : (s.keepQueue u).stack a = u.stack a := (rfl)
@[simp] theorem State.log_of_keepQueue (u : State) (a : Nat) : (s.keepQueue u).log a = u.log a := (rfl)
@[simp] theorem State.junc_of_keepQueue (u : State) (a b : Nat) : (s.keepQueue u).junc a b = u.junc a b := (rfl)
@[simp] theorem State.dir_of_keepQueue (u : State) (a b : Nat) : (s.keepQueue u).dir a b = u.dir a b := (rfl)
@[simp] theorem State.ibLink_of_keepQueue (u : State) (a : Nat) : (s.keepQueue u).ibLink a = u.ibLink a := (rfl)

/-! ### The queue -/

@[simp] theorem State.keepQueue_pending (u : State) : (s.keepQueue u).pending = s.pending := (rfl)
@[simp] theorem State.keepQueue_held (u : State) : (s.keepQueue u).held = u.held := (rfl)
@[simp] theorem State.keepQueue_regs (u : State) : (s.keepQueue u).regs = u.regs := (rfl)
@[simp] theorem State.keepQueue_staged (u : State) : (s.keepQueue u).staged = u.staged := (rfl)
@[simp] theorem State.keepQueue_going (u : State) : (s.keepQueue u).going = u.going := (rfl)
@[simp] theorem State.keepQueue_mile (u : State) : (s.keepQueue u).mile = u.mile := (rfl)
@[simp] theorem State.keepQueue_sym (u : State) : (s.keepQueue u).sym = u.sym := (rfl)
@[simp] theorem State.keepQueue_tick (u : State) : (s.keepQueue u).tick = u.tick := (rfl)
@[simp] theorem State.keepQueue_tickLoad (u : State) : (s.keepQueue u).tickLoad = u.tickLoad := (rfl)
@[simp] theorem State.keepQueue_tm0 (u : State) : (s.keepQueue u).tm0 = u.tm0 := (rfl)
@[simp] theorem State.keepQueue_tm1 (u : State) : (s.keepQueue u).tm1 = u.tm1 := (rfl)
@[simp] theorem State.keepQueue_supplied (u : State) : (s.keepQueue u).supplied = u.supplied := (rfl)
@[simp] theorem State.keepQueue_slewLeft (u : State) : (s.keepQueue u).slewLeft = u.slewLeft := (rfl)
@[simp] theorem State.keepQueue_measured (u : State) : (s.keepQueue u).measured = u.measured := (rfl)
@[simp] theorem State.keepQueue_reqs (u : State) : (s.keepQueue u).reqs = u.reqs := (rfl)
@[simp] theorem State.keepQueue_tiles (u : State) : (s.keepQueue u).tiles = u.tiles := (rfl)
@[simp] theorem State.keepQueue_juncs (u : State) : (s.keepQueue u).juncs = u.juncs := (rfl)
@[simp] theorem State.keepQueue_ibk (u : State) : (s.keepQueue u).ibk = u.ibk := (rfl)
@[simp] theorem State.keepQueue_ibl (u : State) : (s.keepQueue u).ibl = u.ibl := (rfl)
@[simp] theorem State.keepQueue_xrq (u : State) : (s.keepQueue u).xrq = u.xrq := (rfl)
@[simp] theorem State.keepQueue_xrLast (u : State) : (s.keepQueue u).xrLast = u.xrLast := (rfl)
@[simp] theorem State.keepQueue_parked (u : State) : (s.keepQueue u).parked = u.parked := (rfl)
@[simp] theorem State.keepQueue_dies (u : State) : (s.keepQueue u).dies = u.dies := (rfl)
@[simp] theorem State.keepQueue_drains (u : State) : (s.keepQueue u).drains = u.drains := (rfl)
@[simp] theorem State.keepQueue_links (u : State) : (s.keepQueue u).links = u.links := (rfl)
@[simp] theorem State.keepQueue_drams (u : State) : (s.keepQueue u).drams = u.drams := (rfl)
@[simp] theorem State.keepQueue_img (u : State) : (s.keepQueue u).img = u.img := (rfl)
@[simp] theorem State.keepQueue_logs (u : State) : (s.keepQueue u).logs = u.logs := (rfl)
@[simp] theorem State.keepQueue_latch (u : State) : (s.keepQueue u).latch = u.latch := (rfl)
@[simp] theorem State.keepQueue_flushTo (u : State) : (s.keepQueue u).flushTo = u.flushTo := (rfl)
@[simp] theorem State.keepQueue_badSect (u : State) : (s.keepQueue u).badSect = u.badSect := (rfl)
@[simp] theorem State.keepQueue_nvWait (u : State) : (s.keepQueue u).nvWait = u.nvWait := (rfl)
@[simp] theorem State.keepQueue_flashErrAt (u : State) : (s.keepQueue u).flashErrAt = u.flashErrAt := (rfl)
@[simp] theorem State.keepQueue_pfwLow (u : State) : (s.keepQueue u).pfwLow = u.pfwLow := (rfl)
@[simp] theorem State.keepQueue_own (u : State) : (s.keepQueue u).own = u.own := (rfl)
@[simp] theorem State.keepQueue_sec (u : State) : (s.keepQueue u).sec = u.sec := (rfl)
@[simp] theorem State.keepQueue_pwr (u : State) : (s.keepQueue u).pwr = u.pwr := (rfl)
@[simp] theorem State.keepQueue_boot (u : State) : (s.keepQueue u).boot = u.boot := (rfl)
@[simp] theorem State.keepQueue_tap (u : State) : (s.keepQueue u).tap = u.tap := (rfl)
@[simp] theorem State.keepQueue_eth0 (u : State) : (s.keepQueue u).eth0 = u.eth0 := (rfl)
@[simp] theorem State.keepQueue_eth1 (u : State) : (s.keepQueue u).eth1 = u.eth1 := (rfl)
@[simp] theorem State.keepQueue_pcie0 (u : State) : (s.keepQueue u).pcie0 = u.pcie0 := (rfl)
@[simp] theorem State.keepQueue_pcie1 (u : State) : (s.keepQueue u).pcie1 = u.pcie1 := (rfl)
@[simp] theorem State.keepQueue_flash (u : State) : (s.keepQueue u).flash = u.flash := (rfl)
@[simp] theorem State.keepQueue_marks (u : State) : (s.keepQueue u).marks = u.marks := (rfl)
@[simp] theorem State.keepQueue_out (u : State) : (s.keepQueue u).out = u.out := (rfl)
@[simp] theorem State.keepQueue_free (u : State) : (s.keepQueue u).free = u.free := (rfl)

/-! ### Tiles -/

@[simp] theorem Tile.iow_sock (k : Nat) (v : Word) : (t.iow k v).sock = t.sock := (rfl)
@[simp] theorem Tile.iow_psn (k : Nat) (v : Word) : (t.iow k v).psn = t.psn := (rfl)
@[simp] theorem Tile.iow_staged (k : Nat) (v : Word) : (t.iow k v).staged = t.staged := (rfl)
@[simp] theorem Tile.iow_going (k : Nat) (v : Word) : (t.iow k v).going = t.going := (rfl)
@[simp] theorem Tile.iow_mile (k : Nat) (v : Word) : (t.iow k v).mile = t.mile := (rfl)
@[simp] theorem Tile.iow_gran (k : Nat) (v : Word) : (t.iow k v).gran = t.gran := (rfl)
@[simp] theorem Tile.iow_ihalf (k : Nat) (v : Word) : (t.iow k v).ihalf = t.ihalf := (rfl)
@[simp] theorem Tile.iow_sbank (k : Nat) (v : Word) : (t.iow k v).sbank = t.sbank := (rfl)
@[simp] theorem Tile.iow_wb (k : Nat) (v : Word) : (t.iow k v).wb = t.wb := (rfl)
@[simp] theorem Tile.iow_sb (k : Nat) (v : Word) : (t.iow k v).sb = t.sb := (rfl)
@[simp] theorem Tile.iow_bcp (k : Nat) (v : Word) : (t.iow k v).bcp = t.bcp := (rfl)
@[simp] theorem Tile.iow_pc (k : Nat) (v : Word) : (t.iow k v).pc = t.pc := (rfl)
@[simp] theorem Tile.iow_phase (k : Nat) (v : Word) : (t.iow k v).phase = t.phase := (rfl)
@[simp] theorem Tile.iow_inRtn (k : Nat) (v : Word) : (t.iow k v).inRtn = t.inRtn := (rfl)
@[simp] theorem Tile.iow_rtn (k : Nat) (v : Word) : (t.iow k v).rtn = t.rtn := (rfl)
@[simp] theorem Tile.iow_nextN (k : Nat) (v : Word) : (t.iow k v).nextN = t.nextN := (rfl)
@[simp] theorem Tile.iow_firstRtn (k : Nat) (v : Word) : (t.iow k v).firstRtn = t.firstRtn := (rfl)
@[simp] theorem Tile.iow_waitAt (k : Nat) (v : Word) : (t.iow k v).waitAt = t.waitAt := (rfl)
@[simp] theorem Tile.iow_evCyc (k : Nat) (v : Word) : (t.iow k v).evCyc = t.evCyc := (rfl)
@[simp] theorem Tile.iow_evAcc (k : Nat) (v : Word) : (t.iow k v).evAcc = t.evAcc := (rfl)
@[simp] theorem Tile.iow_evByt (k : Nat) (v : Word) : (t.iow k v).evByt = t.evByt := (rfl)
@[simp] theorem Tile.iow_evq (k : Nat) (v : Word) : (t.iow k v).evq = t.evq := (rfl)
@[simp] theorem Tile.iow_used (k : Nat) (v : Word) : (t.iow k v).used = t.used := (rfl)
@[simp] theorem Tile.iow_rep (k : Nat) (v : Word) : (t.iow k v).rep = t.rep := (rfl)
@[simp] theorem Tile.iow_sealed (k : Nat) (v : Word) : (t.iow k v).sealed = t.sealed := (rfl)
@[simp] theorem Tile.iow_sealRun (k : Nat) (v : Word) : (t.iow k v).sealRun = t.sealRun := (rfl)
@[simp] theorem Tile.iow_loop (k : Nat) (v : Word) : (t.iow k v).loop = t.loop := (rfl)
@[simp] theorem Tile.iow_exp (k : Nat) (v : Word) : (t.iow k v).exp = t.exp := (rfl)
@[simp] theorem Tile.iow_soft (k : Nat) (v : Word) : (t.iow k v).soft = t.soft := (rfl)
@[simp] theorem Tile.iow_lbuf (k : Nat) (v : Word) : (t.iow k v).lbuf = t.lbuf := (rfl)
@[simp] theorem Tile.iow_lcap (k : Nat) (v : Word) : (t.iow k v).lcap = t.lcap := (rfl)
@[simp] theorem Tile.iow_hold (k : Nat) (v : Word) : (t.iow k v).hold = t.hold := (rfl)
@[simp] theorem Tile.iow_atVec (k : Nat) (v : Word) : (t.iow k v).atVec = t.atVec := (rfl)
@[simp] theorem Tile.iow_fetched (k : Nat) (v : Word) : (t.iow k v).fetched = t.fetched := (rfl)
@[simp] theorem Tile.iow_stepping (k : Nat) (v : Word) : (t.iow k v).stepping = t.stepping := (rfl)
@[simp] theorem Tile.iow_rsmRep (k : Nat) (v : Word) : (t.iow k v).rsmRep = t.rsmRep := (rfl)
@[simp] theorem Tile.iow_rsmMc (k : Nat) (v : Word) : (t.iow k v).rsmMc = t.rsmMc := (rfl)
@[simp] theorem Tile.iow_rig (k : Nat) (v : Word) : (t.iow k v).rig = t.rig := (rfl)
@[simp] theorem Tile.iow_lateAddr (k : Nat) (v : Word) : (t.iow k v).lateAddr = t.lateAddr := (rfl)
@[simp] theorem Tile.iow_tcrQ (k : Nat) (v : Word) : (t.iow k v).tcrQ = t.tcrQ := (rfl)
@[simp] theorem Tile.iow_raised (k : Nat) (v : Word) : (t.iow k v).raised = t.raised := (rfl)
@[simp] theorem Tile.iow_clk (k : Nat) (v : Word) : (t.iow k v).clk = t.clk := (rfl)
@[simp] theorem Tile.iow_waited (k : Nat) (v : Word) : (t.iow k v).waited = t.waited := (rfl)
@[simp] theorem Tile.iow_ready (k : Nat) (v : Word) : (t.iow k v).ready = t.ready := (rfl)
@[simp] theorem Tile.iow_flagReady (k : Nat) (v : Word) : (t.iow k v).flagReady = t.flagReady := (rfl)
@[simp] theorem Tile.iow_patched (k : Nat) (v : Word) : (t.iow k v).patched = t.patched := (rfl)
@[simp] theorem Tile.iow_bid (k : Nat) (v : Word) : (t.iow k v).bid = t.bid := (rfl)
@[simp] theorem Tile.iow_roff (k : Nat) (v : Word) : (t.iow k v).roff = t.roff := (rfl)
@[simp] theorem Tile.iow_lkReq (k : Nat) (v : Word) : (t.iow k v).lkReq = t.lkReq := (rfl)
@[simp] theorem Tile.iow_lkw (k : Nat) (v : Word) : (t.iow k v).lkw = t.lkw := (rfl)
@[simp] theorem Tile.iow_inb (k : Nat) (v : Word) : (t.iow k v).inb = t.inb := (rfl)
@[simp] theorem Tile.iow_outc (k : Nat) (v : Word) : (t.iow k v).outc = t.outc := (rfl)
@[simp] theorem Tile.iow_eg (k : Nat) (v : Word) : (t.iow k v).eg = t.eg := (rfl)
@[simp] theorem Tile.iow_port (k : Nat) (v : Word) : (t.iow k v).port = t.port := (rfl)
@[simp] theorem Tile.iow_cpl (k : Nat) (v : Word) : (t.iow k v).cpl = t.cpl := (rfl)
@[simp] theorem Tile.iow_wr (k : Nat) (v : Word) : (t.iow k v).wr = t.wr := (rfl)
@[simp] theorem Tile.iow_skp (k : Nat) (v : Word) : (t.iow k v).skp = t.skp := (rfl)
@[simp] theorem Tile.iow_migr (k : Nat) (v : Word) : (t.iow k v).migr = t.migr := (rfl)
@[simp] theorem Tile.iow_migrAt (k : Nat) (v : Word) : (t.iow k v).migrAt = t.migrAt := (rfl)
@[simp] theorem Tile.iow_begAt (k : Nat) (v : Word) : (t.iow k v).begAt = t.begAt := (rfl)
@[simp] theorem Tile.iow_rtnCfg (k : Nat) (v : Word) : (t.iow k v).rtnCfg = t.rtnCfg := (rfl)
@[simp] theorem Tile.iow_stopAt (k : Nat) (v : Word) : (t.iow k v).stopAt = t.stopAt := (rfl)
@[simp] theorem Tile.iow_epoch (k : Nat) (v : Word) : (t.iow k v).epoch = t.epoch := (rfl)
@[simp] theorem Tile.iow_placed (k : Nat) (v : Word) : (t.iow k v).placed = t.placed := (rfl)
@[simp] theorem Tile.iow_iepoch (k : Nat) (v : Word) : (t.iow k v).iepoch = t.iepoch := (rfl)
@[simp] theorem Tile.iow_vwipe (k : Nat) (v : Word) : (t.iow k v).vwipe = t.vwipe := (rfl)
@[simp] theorem Tile.iow_marks (k : Nat) (v : Word) : (t.iow k v).marks = t.marks := (rfl)

@[simp] theorem Tile.mark_sock (c : Nat) (x y z : Word) : (t.mark c x y z).sock = t.sock := (rfl)
@[simp] theorem Tile.mark_psn (c : Nat) (x y z : Word) : (t.mark c x y z).psn = t.psn := (rfl)
@[simp] theorem Tile.mark_io (c : Nat) (x y z : Word) : (t.mark c x y z).io = t.io := (rfl)
@[simp] theorem Tile.mark_staged (c : Nat) (x y z : Word) : (t.mark c x y z).staged = t.staged := (rfl)
@[simp] theorem Tile.mark_going (c : Nat) (x y z : Word) : (t.mark c x y z).going = t.going := (rfl)
@[simp] theorem Tile.mark_mile (c : Nat) (x y z : Word) : (t.mark c x y z).mile = t.mile := (rfl)
@[simp] theorem Tile.mark_gran (c : Nat) (x y z : Word) : (t.mark c x y z).gran = t.gran := (rfl)
@[simp] theorem Tile.mark_ihalf (c : Nat) (x y z : Word) : (t.mark c x y z).ihalf = t.ihalf := (rfl)
@[simp] theorem Tile.mark_sbank (c : Nat) (x y z : Word) : (t.mark c x y z).sbank = t.sbank := (rfl)
@[simp] theorem Tile.mark_wb (c : Nat) (x y z : Word) : (t.mark c x y z).wb = t.wb := (rfl)
@[simp] theorem Tile.mark_sb (c : Nat) (x y z : Word) : (t.mark c x y z).sb = t.sb := (rfl)
@[simp] theorem Tile.mark_bcp (c : Nat) (x y z : Word) : (t.mark c x y z).bcp = t.bcp := (rfl)
@[simp] theorem Tile.mark_pc (c : Nat) (x y z : Word) : (t.mark c x y z).pc = t.pc := (rfl)
@[simp] theorem Tile.mark_phase (c : Nat) (x y z : Word) : (t.mark c x y z).phase = t.phase := (rfl)
@[simp] theorem Tile.mark_inRtn (c : Nat) (x y z : Word) : (t.mark c x y z).inRtn = t.inRtn := (rfl)
@[simp] theorem Tile.mark_rtn (c : Nat) (x y z : Word) : (t.mark c x y z).rtn = t.rtn := (rfl)
@[simp] theorem Tile.mark_nextN (c : Nat) (x y z : Word) : (t.mark c x y z).nextN = t.nextN := (rfl)
@[simp] theorem Tile.mark_firstRtn (c : Nat) (x y z : Word) : (t.mark c x y z).firstRtn = t.firstRtn := (rfl)
@[simp] theorem Tile.mark_waitAt (c : Nat) (x y z : Word) : (t.mark c x y z).waitAt = t.waitAt := (rfl)
@[simp] theorem Tile.mark_evCyc (c : Nat) (x y z : Word) : (t.mark c x y z).evCyc = t.evCyc := (rfl)
@[simp] theorem Tile.mark_evAcc (c : Nat) (x y z : Word) : (t.mark c x y z).evAcc = t.evAcc := (rfl)
@[simp] theorem Tile.mark_evByt (c : Nat) (x y z : Word) : (t.mark c x y z).evByt = t.evByt := (rfl)
@[simp] theorem Tile.mark_evq (c : Nat) (x y z : Word) : (t.mark c x y z).evq = t.evq := (rfl)
@[simp] theorem Tile.mark_used (c : Nat) (x y z : Word) : (t.mark c x y z).used = t.used := (rfl)
@[simp] theorem Tile.mark_rep (c : Nat) (x y z : Word) : (t.mark c x y z).rep = t.rep := (rfl)
@[simp] theorem Tile.mark_sealed (c : Nat) (x y z : Word) : (t.mark c x y z).sealed = t.sealed := (rfl)
@[simp] theorem Tile.mark_sealRun (c : Nat) (x y z : Word) : (t.mark c x y z).sealRun = t.sealRun := (rfl)
@[simp] theorem Tile.mark_loop (c : Nat) (x y z : Word) : (t.mark c x y z).loop = t.loop := (rfl)
@[simp] theorem Tile.mark_exp (c : Nat) (x y z : Word) : (t.mark c x y z).exp = t.exp := (rfl)
@[simp] theorem Tile.mark_soft (c : Nat) (x y z : Word) : (t.mark c x y z).soft = t.soft := (rfl)
@[simp] theorem Tile.mark_lbuf (c : Nat) (x y z : Word) : (t.mark c x y z).lbuf = t.lbuf := (rfl)
@[simp] theorem Tile.mark_lcap (c : Nat) (x y z : Word) : (t.mark c x y z).lcap = t.lcap := (rfl)
@[simp] theorem Tile.mark_hold (c : Nat) (x y z : Word) : (t.mark c x y z).hold = t.hold := (rfl)
@[simp] theorem Tile.mark_atVec (c : Nat) (x y z : Word) : (t.mark c x y z).atVec = t.atVec := (rfl)
@[simp] theorem Tile.mark_fetched (c : Nat) (x y z : Word) : (t.mark c x y z).fetched = t.fetched := (rfl)
@[simp] theorem Tile.mark_stepping (c : Nat) (x y z : Word) : (t.mark c x y z).stepping = t.stepping := (rfl)
@[simp] theorem Tile.mark_rsmRep (c : Nat) (x y z : Word) : (t.mark c x y z).rsmRep = t.rsmRep := (rfl)
@[simp] theorem Tile.mark_rsmMc (c : Nat) (x y z : Word) : (t.mark c x y z).rsmMc = t.rsmMc := (rfl)
@[simp] theorem Tile.mark_rig (c : Nat) (x y z : Word) : (t.mark c x y z).rig = t.rig := (rfl)
@[simp] theorem Tile.mark_lateAddr (c : Nat) (x y z : Word) : (t.mark c x y z).lateAddr = t.lateAddr := (rfl)
@[simp] theorem Tile.mark_tcrQ (c : Nat) (x y z : Word) : (t.mark c x y z).tcrQ = t.tcrQ := (rfl)
@[simp] theorem Tile.mark_raised (c : Nat) (x y z : Word) : (t.mark c x y z).raised = t.raised := (rfl)
@[simp] theorem Tile.mark_clk (c : Nat) (x y z : Word) : (t.mark c x y z).clk = t.clk := (rfl)
@[simp] theorem Tile.mark_waited (c : Nat) (x y z : Word) : (t.mark c x y z).waited = t.waited := (rfl)
@[simp] theorem Tile.mark_ready (c : Nat) (x y z : Word) : (t.mark c x y z).ready = t.ready := (rfl)
@[simp] theorem Tile.mark_flagReady (c : Nat) (x y z : Word) : (t.mark c x y z).flagReady = t.flagReady := (rfl)
@[simp] theorem Tile.mark_patched (c : Nat) (x y z : Word) : (t.mark c x y z).patched = t.patched := (rfl)
@[simp] theorem Tile.mark_bid (c : Nat) (x y z : Word) : (t.mark c x y z).bid = t.bid := (rfl)
@[simp] theorem Tile.mark_roff (c : Nat) (x y z : Word) : (t.mark c x y z).roff = t.roff := (rfl)
@[simp] theorem Tile.mark_lkReq (c : Nat) (x y z : Word) : (t.mark c x y z).lkReq = t.lkReq := (rfl)
@[simp] theorem Tile.mark_lkw (c : Nat) (x y z : Word) : (t.mark c x y z).lkw = t.lkw := (rfl)
@[simp] theorem Tile.mark_inb (c : Nat) (x y z : Word) : (t.mark c x y z).inb = t.inb := (rfl)
@[simp] theorem Tile.mark_outc (c : Nat) (x y z : Word) : (t.mark c x y z).outc = t.outc := (rfl)
@[simp] theorem Tile.mark_eg (c : Nat) (x y z : Word) : (t.mark c x y z).eg = t.eg := (rfl)
@[simp] theorem Tile.mark_port (c : Nat) (x y z : Word) : (t.mark c x y z).port = t.port := (rfl)
@[simp] theorem Tile.mark_cpl (c : Nat) (x y z : Word) : (t.mark c x y z).cpl = t.cpl := (rfl)
@[simp] theorem Tile.mark_wr (c : Nat) (x y z : Word) : (t.mark c x y z).wr = t.wr := (rfl)
@[simp] theorem Tile.mark_skp (c : Nat) (x y z : Word) : (t.mark c x y z).skp = t.skp := (rfl)
@[simp] theorem Tile.mark_migr (c : Nat) (x y z : Word) : (t.mark c x y z).migr = t.migr := (rfl)
@[simp] theorem Tile.mark_migrAt (c : Nat) (x y z : Word) : (t.mark c x y z).migrAt = t.migrAt := (rfl)
@[simp] theorem Tile.mark_begAt (c : Nat) (x y z : Word) : (t.mark c x y z).begAt = t.begAt := (rfl)
@[simp] theorem Tile.mark_rtnCfg (c : Nat) (x y z : Word) : (t.mark c x y z).rtnCfg = t.rtnCfg := (rfl)
@[simp] theorem Tile.mark_stopAt (c : Nat) (x y z : Word) : (t.mark c x y z).stopAt = t.stopAt := (rfl)
@[simp] theorem Tile.mark_epoch (c : Nat) (x y z : Word) : (t.mark c x y z).epoch = t.epoch := (rfl)
@[simp] theorem Tile.mark_placed (c : Nat) (x y z : Word) : (t.mark c x y z).placed = t.placed := (rfl)
@[simp] theorem Tile.mark_iepoch (c : Nat) (x y z : Word) : (t.mark c x y z).iepoch = t.iepoch := (rfl)
@[simp] theorem Tile.mark_vwipe (c : Nat) (x y z : Word) : (t.mark c x y z).vwipe = t.vwipe := (rfl)

end Sys2Proof.Machine
end

