-- ==== Sys2Proof/Laws/Ops.lean ====
section
/-!
SUPPORT. What the shared operations do, each said once: running an effect, registers, the parts that are kept per tile,
die, link and stack, and the canonical form of what they keep.
-/
namespace Sys2Proof.Machine

/-! ## Running an effect -/

/-- A command that names only what the part has, out of reset: its effect, with the queue as it was. -/
theorem live_next {ok : Bool} {s : State} {f : State → State} (h : s.held = false) (hk : ok = true) :
    live ok s f = .next (s.keepQueue (f s)) := by simp [live, onPart, h, hk]

/-- With PORST_N low a command does nothing. -/
theorem live_held {ok : Bool} {s : State} {f : State → State} (h : s.held = true) (hk : ok = true) :
    live ok s f = .next s := by simp [live, onPart, h, hk]

/-- A command that names what the part does not have stops. -/
theorem live_fault {ok : Bool} {s : State} {f : State → State} (hk : ok = false) :
    live ok s f = .fault .noSuchPart := by simp [live, onPart, hk]

/-- Everything that running an effect can answer. -/
theorem live_cases {ok : Bool} {s : State} {f : State → State} {o : Out} (h : live ok s f = o) :
    (ok = false ∧ o = .fault .noSuchPart) ∨ (ok = true ∧ s.held = true ∧ o = .next s) ∨
    (ok = true ∧ s.held = false ∧ o = .next (s.keepQueue (f s))) := by
  subst h; cases ok <;> cases hh : s.held <;> simp [live, onPart, hh]

/-! ## Registers -/

/-- A register read after it is written. -/
@[simp] theorem State.rd_wr_self (s : State) (k : Nat) (v : Word) : (s.wr k v).rd k = v := by simp [State.rd, State.wr]

/-- Another register read after one is written. -/
theorem State.rd_wr_of_ne (s : State) {k q : Nat} (v : Word) (h : q ≠ k) : (s.wr k v).rd q = s.rd q := by
  simp [State.rd, State.wr, SMap.get_set_of_ne _ _ _ h]

/-- A register read after a write. -/
theorem State.rd_wr (s : State) (k q : Nat) (v : Word) : (s.wr k v).rd q = if q = k then v else s.rd q := by
  simp [State.rd, State.wr, SMap.get_set]

/-- A register read after a field is written. -/
theorem State.rd_wf (s : State) (k hi lo v q : Nat) :
    (s.wf k hi lo v).rd q = if q = k then putFld (s.rd k) hi lo v else s.rd q := by rw [State.wf, State.rd_wr]

/-- A register read after a bit is written. -/
theorem State.rd_wb (s : State) (k i : Nat) (b : Bool) (q : Nat) :
    (s.wb k i b).rd q = if q = k then putFld (s.rd k) i i (natB b) else s.rd q := by rw [State.wb, State.rd_wf]

/-- A register read after a counter is counted. -/
theorem State.rd_bump (s : State) (k hi lo n q : Nat) :
    (s.bump k hi lo n).rd q =
      if q = k then putFld (s.rd k) hi lo (satAdd (hi + 1 - lo) (s.rf k hi lo) n) else s.rd q := by
  rw [State.bump, State.rd_wf]

/-- A field of another register than the one counted. -/
theorem State.rd_bump_of_ne (s : State) {k hi lo n q : Nat} (h : q ≠ k) : (s.bump k hi lo n).rd q = s.rd q := by
  rw [State.rd_bump, if_neg h]

/-- Another register than the one a field of which is written. -/
theorem State.rd_wf_of_ne (s : State) {k hi lo v q : Nat} (h : q ≠ k) : (s.wf k hi lo v).rd q = s.rd q := by
  rw [State.rd_wf, if_neg h]

/-- Another register than the one a bit of which is written. -/
theorem State.rd_wb_of_ne (s : State) {k i : Nat} {b : Bool} {q : Nat} (h : q ≠ k) : (s.wb k i b).rd q = s.rd q := by
  rw [State.rd_wb, if_neg h]

/-- A field just written. -/
theorem State.rf_wf_self (s : State) (k : Nat) {hi lo : Nat} (v : Nat) (h : hi < 36) :
    (s.wf k hi lo v).rf k hi lo = v % 2 ^ (hi + 1 - lo) := by
  rw [State.rf, State.rd_wf, if_pos rfl, fld_putFld_self _ _ h]

/-- A bit just written. -/
theorem State.rb_wb_self (s : State) (k : Nat) {i : Nat} (b : Bool) (h : i < 36) : (s.wb k i b).rb k i = b := by
  rw [State.rb, State.rd_wb, if_pos rfl, bitOf_putFld_natB _ _ h]

/-- A counter just counted. -/
theorem State.rf_bump_self (s : State) (k : Nat) {hi lo : Nat} (n : Nat) (h : hi < 36) :
    (s.bump k hi lo n).rf k hi lo = satAdd (hi + 1 - lo) (s.rf k hi lo) n := by
  rw [State.bump, State.rf_wf_self _ _ _ h, Nat.mod_eq_of_lt (satAdd_lt _ _ _)]

/-- A write of a register is the only change of a field that is written. -/
theorem State.wf_eq (s : State) (k hi lo v : Nat) : s.wf k hi lo v = s.wr k (putFld (s.rd k) hi lo v) := rfl
/-- Likewise a bit. -/
theorem State.wb_eq (s : State) (k i : Nat) (b : Bool) : s.wb k i b = s.wr k (putFld (s.rd k) i i (natB b)) := rfl
/-- Likewise a counter. -/
theorem State.bump_eq (s : State) (k hi lo n : Nat) :
    s.bump k hi lo n = s.wr k (putFld (s.rd k) hi lo (satAdd (hi + 1 - lo) (s.rf k hi lo) n)) := rfl

/-- The register file is canonical after a write. -/
theorem State.wf_wr (s : State) (k : Nat) (v : Word) (h : SMap.wf regReset s.regs = true) :
    SMap.wf regReset (s.wr k v).regs = true := SMap.wf_set h

/-! ## Parts kept under a key -/

/-- A tile after it is put back. -/
@[simp] theorem State.tile_setTile_self (s : State) (d p : Nat) (t : Tile) :
    (s.setTile d p t).tile d p = { t with marks := [] } := by simp [State.tile, State.setTile]

/-- Another tile after one is put back. -/
theorem State.tile_setTile_of_ne (s : State) {d p e q : Nat} (t : Tile) (h : tkey e q ≠ tkey d p) :
    (s.setTile d p t).tile e q = s.tile e q := by simp [State.tile, State.setTile, SMap.get_set_of_ne _ _ _ h]

/-- A die after its change. -/
@[simp] theorem State.die_onDie_self (s : State) (d : Nat) (f : DieSt → DieSt) : (s.onDie d f).die d = f (s.die d) := by
  simp [State.die, State.onDie]
/-- Another die. -/
theorem State.die_onDie_of_ne (s : State) {d e : Nat} (f : DieSt → DieSt) (h : e ≠ d) : (s.onDie d f).die e = s.die e := by
  simp [State.die, State.onDie, SMap.get_set_of_ne _ _ _ h]
/-- A link after its change. -/
@[simp] theorem State.link_onLink_self (s : State) (n : Nat) (f : LinkSt → LinkSt) :
    (s.onLink n f).link n = f (s.link n) := by simp [State.link, State.onLink]
/-- Another link. -/
theorem State.link_onLink_of_ne (s : State) {n m : Nat} (f : LinkSt → LinkSt) (h : m ≠ n) :
    (s.onLink n f).link m = s.link m := by simp [State.link, State.onLink, SMap.get_set_of_ne _ _ _ h]
/-- A stack after its change. -/
@[simp] theorem State.stack_onStack_self (s : State) (d : Nat) (f : Stack → Stack) :
    (s.onStack d f).stack d = f (s.stack d) := by simp [State.stack, State.onStack]
/-- Another stack. -/
theorem State.stack_onStack_of_ne (s : State) {d e : Nat} (f : Stack → Stack) (h : e ≠ d) :
    (s.onStack d f).stack e = s.stack e := by simp [State.stack, State.onStack, SMap.get_set_of_ne _ _ _ h]
/-- A logbook unit after its change. -/
@[simp] theorem State.log_onLog_self (s : State) (d : Nat) (f : LogUnit → LogUnit) : (s.onLog d f).log d = f (s.log d) := by
  simp [State.log, State.onLog]
/-- A junction after its change. -/
@[simp] theorem State.junc_onJunc_self (s : State) (d j : Nat) (f : Junction → Junction) :
    (s.onJunc d j f).junc d j = f (s.junc d j) := by simp [State.junc, State.onJunc]
/-- A direction after its change. -/
@[simp] theorem State.dir_onDir_self (s : State) (l dir : Nat) (f : IbkDir → IbkDir) :
    (s.onDir l dir f).dir l dir = f (s.dir l dir) := by simp [State.dir, State.onDir]
/-- A link of Table 9.5 after its change. -/
@[simp] theorem State.ibLink_setIbLink_self (s : State) (l : Nat) (x : IbkLink) : (s.setIbLink l x).ibLink l = x := by
  simp [State.ibLink, State.setIbLink]

/-- A part whose key is another's is that part: keys of tiles on a die. -/
theorem tkey_ne {d p e q : Nat} (hp : p < 128) (hq : q < 128) (h : e ≠ d ∨ q ≠ p) : tkey e q ≠ tkey d p := by
  unfold tkey; omega

/-! ## Tile registers and sockets -/

/-- A tile register read after it is written. -/
@[simp] theorem Tile.ior_iow_self (t : Tile) (k : Nat) (v : Word) : (t.iow k v).ior k = v := by simp [Tile.ior, Tile.iow]
/-- A tile register read after a write. -/
theorem Tile.ior_iow (t : Tile) (k q : Nat) (v : Word) : (t.iow k v).ior q = if q = k then v else t.ior q := by
  simp [Tile.ior, Tile.iow, SMap.get_set]
/-- A tile register read after a field is written. -/
theorem Tile.ior_iowf (t : Tile) (k hi lo v q : Nat) :
    (t.iowf k hi lo v).ior q = if q = k then putFld (t.ior k) hi lo v else t.ior q := by rw [Tile.iowf, Tile.ior_iow]
/-- A tile register read after a counter is counted. -/
theorem Tile.ior_bump (t : Tile) (k hi lo n q : Nat) :
    (t.bump k hi lo n).ior q =
      if q = k then putFld (t.ior k) hi lo (satAdd (hi + 1 - lo) (t.iof k hi lo) n) else t.ior q := by
  rw [Tile.bump, Tile.ior_iowf]
/-- Tile registers are not reached by a waymark. -/
@[simp] theorem Tile.ior_mark (t : Tile) (c : Nat) (x y z : Word) (q : Nat) : (t.mark c x y z).ior q = t.ior q := rfl
/-- A field write as a register write. -/
theorem Tile.iowf_eq (t : Tile) (k hi lo v : Nat) : t.iowf k hi lo v = t.iow k (putFld (t.ior k) hi lo v) := rfl
/-- A counted field as a register write. -/
theorem Tile.bump_eq (t : Tile) (k hi lo n : Nat) :
    t.bump k hi lo n = t.iow k (putFld (t.ior k) hi lo (satAdd (hi + 1 - lo) (t.iof k hi lo) n)) := rfl

/-- p0 always reads 1 (R119). -/
@[simp] theorem Tile.sk_p0 (t : Tile) : t.sk 0x20 = 1 := by simp [Tile.sk]

/-- A socket read after it is set: p0 discards the write, and any other keeps its bits (R119, R198). -/
theorem Tile.sk_setSk (t : Tile) (a q : Nat) (w : Word) :
    (t.setSk a w).sk q = if q = a ∧ a ≠ 0x20 then w &&& skMask a else t.sk q := by
  unfold Tile.setSk
  by_cases ha : a = 0x20
  · simp [ha]
  · rw [if_neg ha]
    by_cases hq : q = 0x20
    · subst hq; rw [Tile.sk_p0, if_neg (fun e => ha e.1.symm), Tile.sk_p0]
    · simp only [Tile.sk, hq, if_false, SMap.get_set]
      by_cases e : q = a
      · subst e; simp [ha]
      · simp [e]

/-! ## Memories keep their canonical form -/

/-- Clearing the flip mask leaves the granules. -/
@[simp] theorem Tile.gran_flipDone (t : Tile) : t.flipDone.gran = t.gran := rfl

/-- An encoded write of a granule keeps the tile's memories canonical. -/
theorem Tile.wf_store (t : Tile) (mem idx : Nat) (g : Gran) (h : SMap.wf (fun _ => 0) t.gran = true) :
    SMap.wf (fun _ => 0) (t.store mem idx g).gran = true := by
  unfold Tile.store; simp only; split <;> exact SMap.wf_set h

/-- Counting and logging a finding leaves the granules. -/
@[simp] theorem Tile.gran_found (t : Tile) (c : Cls3) (fn mem idx syn : Nat) : (t.found c fn mem idx syn).gran = t.gran := by
  cases c <;> simp only [Tile.found, Tile.iow_gran, Tile.bump_eq, Tile.mark_gran]

/-- Queueing a write-back leaves the granules. -/
@[simp] theorem Tile.gran_queueWb (t : Tile) (k : Nat) (d : BitVec 72) (a : Option Nat) : (t.queueWb k d a).gran = t.gran :=
  (rfl)

/-- A read of a granule keeps the tile's memories canonical. -/
theorem Tile.wf_read (t : Tile) (fn mem idx : Nat) (h : SMap.wf (fun _ => 0) t.gran = true) :
    SMap.wf (fun _ => 0) (t.read fn mem idx).1.gran = true := by
  unfold Tile.read
  simp only
  generalize eccClass (memCode mem) (t.gr mem idx) = x
  obtain ⟨c, d⟩ := x
  cases c
  · exact h
  · simpa only [Tile.gran_queueWb, Tile.gran_found] using h
  · simpa only [Tile.gran_found] using h
  · exact Tile.wf_store _ _ _ _ (by rw [Tile.gran_found]; exact h)

/-- A write of a granule keeps the tile's memories canonical. -/
theorem Tile.wf_write (t : Tile) (fn mem idx : Nat) (mask d : BitVec 72) (h : SMap.wf (fun _ => 0) t.gran = true) :
    SMap.wf (fun _ => 0) (t.write fn mem idx mask d).gran = true := by
  unfold Tile.write
  split
  · unfold Tile.writeWhole
    simp only
    split
    · exact Tile.wf_store _ _ _ _ (by rw [Tile.bump_eq, Tile.iow_gran]; exact h)
    · exact Tile.wf_store _ _ _ _ h
  · unfold Tile.writePart
    simp only
    generalize eccClass (memCode mem) (t.gr mem idx) = x
    obtain ⟨c, old⟩ := x
    cases c <;> simp only
    · exact Tile.wf_store _ _ _ _ h
    · exact Tile.wf_store _ _ _ _ (by rw [Tile.gran_found]; exact h)
    · rw [Tile.bump_eq, Tile.iow_gran, Tile.gran_found]; exact h
    · rw [Tile.bump_eq, Tile.iow_gran]; exact Tile.wf_store _ _ _ _ (by rw [Tile.gran_found]; exact h)

end Sys2Proof.Machine
end

