-- ==== Sys2Proof/Laws/Bus.lean ====
section
/-!
SUPPORT. What a transaction does around the access it carries: the beats counted, the response recorded and answered; and
what a permitted write of a register of region 0 or 1 comes to.
-/
namespace Sys2Proof.Machine

/-- A master's class is one of four. -/
theorem xrClass_lt (m : Nat) : xrClass m < 4 := by unfold xrClass; split <;> [skip; split <;> [skip; split]] <;> omega

/-- Everything that counting beats can do: the die's counts, and for the first beat beyond the allowance in a tick its
toll register and a waymark. -/
theorem State.xrBeats_cases (s : State) (m n : Nat) :
    ∃ f g : DieSt → DieSt, s.xrBeats m n = s.onDie (masterDie m) f ∨
      s.xrBeats m n = (((s.onDie (masterDie m) f).onDie (masterDie m) g).bump (aToll m) 35 18 1).mark (masterDie m) 6
        (masterCode m) 0x031 4 (wd (xrClass m)) 0 := by
  unfold State.xrBeats State.once aToll
  refine ⟨fun x => { x with beats := x.beats.set (xrClass m) ((s.die (masterDie m)).beats.getD (xrClass m) 0 + n) },
    fun x => { x with flags := (10 + xrClass m) :: x.flags }, ?_⟩
  simp only
  split
  · split
    · exact .inl rfl
    · exact .inr rfl
  · exact .inl rfl

/-- Another register than the master's toll register, after beats are counted. -/
theorem State.rd_xrBeats (s : State) (m n : Nat) {q : Nat} (h : q ≠ aToll m) : (s.xrBeats m n).rd q = s.rd q := by
  obtain ⟨f, g, e | e⟩ := s.xrBeats_cases m n <;> rw [e]
  · simp
  · rw [State.rd_of_mark, State.rd_bump_of_ne _ h]; simp

@[simp] theorem State.xrBeats_pending (s : State) (m n : Nat) : (s.xrBeats m n).pending = s.pending := by
  obtain ⟨f, g, e | e⟩ := s.xrBeats_cases m n <;> rw [e] <;> simp [State.bump_eq]
@[simp] theorem State.xrBeats_held (s : State) (m n : Nat) : (s.xrBeats m n).held = s.held := by
  obtain ⟨f, g, e | e⟩ := s.xrBeats_cases m n <;> rw [e] <;> simp [State.bump_eq]
@[simp] theorem State.xrBeats_staged (s : State) (m n : Nat) : (s.xrBeats m n).staged = s.staged := by
  obtain ⟨f, g, e | e⟩ := s.xrBeats_cases m n <;> rw [e] <;> simp [State.bump_eq]
@[simp] theorem State.xrBeats_going (s : State) (m n : Nat) : (s.xrBeats m n).going = s.going := by
  obtain ⟨f, g, e | e⟩ := s.xrBeats_cases m n <;> rw [e] <;> simp [State.bump_eq]
@[simp] theorem State.xrBeats_mile (s : State) (m n : Nat) : (s.xrBeats m n).mile = s.mile := by
  obtain ⟨f, g, e | e⟩ := s.xrBeats_cases m n <;> rw [e] <;> simp [State.bump_eq]
@[simp] theorem State.xrBeats_sym (s : State) (m n : Nat) : (s.xrBeats m n).sym = s.sym := by
  obtain ⟨f, g, e | e⟩ := s.xrBeats_cases m n <;> rw [e] <;> simp [State.bump_eq]
@[simp] theorem State.xrBeats_tick (s : State) (m n : Nat) : (s.xrBeats m n).tick = s.tick := by
  obtain ⟨f, g, e | e⟩ := s.xrBeats_cases m n <;> rw [e] <;> simp [State.bump_eq]
@[simp] theorem State.xrBeats_tickLoad (s : State) (m n : Nat) : (s.xrBeats m n).tickLoad = s.tickLoad := by
  obtain ⟨f, g, e | e⟩ := s.xrBeats_cases m n <;> rw [e] <;> simp [State.bump_eq]
@[simp] theorem State.xrBeats_tm0 (s : State) (m n : Nat) : (s.xrBeats m n).tm0 = s.tm0 := by
  obtain ⟨f, g, e | e⟩ := s.xrBeats_cases m n <;> rw [e] <;> simp [State.bump_eq]
@[simp] theorem State.xrBeats_tm1 (s : State) (m n : Nat) : (s.xrBeats m n).tm1 = s.tm1 := by
  obtain ⟨f, g, e | e⟩ := s.xrBeats_cases m n <;> rw [e] <;> simp [State.bump_eq]
@[simp] theorem State.xrBeats_supplied (s : State) (m n : Nat) : (s.xrBeats m n).supplied = s.supplied := by
  obtain ⟨f, g, e | e⟩ := s.xrBeats_cases m n <;> rw [e] <;> simp [State.bump_eq]
@[simp] theorem State.xrBeats_slewLeft (s : State) (m n : Nat) : (s.xrBeats m n).slewLeft = s.slewLeft := by
  obtain ⟨f, g, e | e⟩ := s.xrBeats_cases m n <;> rw [e] <;> simp [State.bump_eq]
@[simp] theorem State.xrBeats_measured (s : State) (m n : Nat) : (s.xrBeats m n).measured = s.measured := by
  obtain ⟨f, g, e | e⟩ := s.xrBeats_cases m n <;> rw [e] <;> simp [State.bump_eq]
@[simp] theorem State.xrBeats_xrq (s : State) (m n : Nat) : (s.xrBeats m n).xrq = s.xrq := by
  obtain ⟨f, g, e | e⟩ := s.xrBeats_cases m n <;> rw [e] <;> simp [State.bump_eq]
@[simp] theorem State.xrBeats_xrLast (s : State) (m n : Nat) : (s.xrBeats m n).xrLast = s.xrLast := by
  obtain ⟨f, g, e | e⟩ := s.xrBeats_cases m n <;> rw [e] <;> simp [State.bump_eq]
@[simp] theorem State.xrBeats_parked (s : State) (m n : Nat) : (s.xrBeats m n).parked = s.parked := by
  obtain ⟨f, g, e | e⟩ := s.xrBeats_cases m n <;> rw [e] <;> simp [State.bump_eq]
@[simp] theorem State.xrBeats_flashErrAt (s : State) (m n : Nat) : (s.xrBeats m n).flashErrAt = s.flashErrAt := by
  obtain ⟨f, g, e | e⟩ := s.xrBeats_cases m n <;> rw [e] <;> simp [State.bump_eq]
@[simp] theorem State.xrBeats_reqs (s : State) (m n : Nat) : (s.xrBeats m n).reqs = s.reqs := by
  obtain ⟨f, g, e | e⟩ := s.xrBeats_cases m n <;> rw [e] <;> simp [State.bump_eq]
@[simp] theorem State.xrBeats_tiles (s : State) (m n : Nat) : (s.xrBeats m n).tiles = s.tiles := by
  obtain ⟨f, g, e | e⟩ := s.xrBeats_cases m n <;> rw [e] <;> simp [State.bump_eq]
@[simp] theorem State.xrBeats_juncs (s : State) (m n : Nat) : (s.xrBeats m n).juncs = s.juncs := by
  obtain ⟨f, g, e | e⟩ := s.xrBeats_cases m n <;> rw [e] <;> simp [State.bump_eq]
@[simp] theorem State.xrBeats_ibk (s : State) (m n : Nat) : (s.xrBeats m n).ibk = s.ibk := by
  obtain ⟨f, g, e | e⟩ := s.xrBeats_cases m n <;> rw [e] <;> simp [State.bump_eq]
@[simp] theorem State.xrBeats_ibl (s : State) (m n : Nat) : (s.xrBeats m n).ibl = s.ibl := by
  obtain ⟨f, g, e | e⟩ := s.xrBeats_cases m n <;> rw [e] <;> simp [State.bump_eq]
@[simp] theorem State.xrBeats_drains (s : State) (m n : Nat) : (s.xrBeats m n).drains = s.drains := by
  obtain ⟨f, g, e | e⟩ := s.xrBeats_cases m n <;> rw [e] <;> simp [State.bump_eq]
@[simp] theorem State.xrBeats_links (s : State) (m n : Nat) : (s.xrBeats m n).links = s.links := by
  obtain ⟨f, g, e | e⟩ := s.xrBeats_cases m n <;> rw [e] <;> simp [State.bump_eq]
@[simp] theorem State.xrBeats_drams (s : State) (m n : Nat) : (s.xrBeats m n).drams = s.drams := by
  obtain ⟨f, g, e | e⟩ := s.xrBeats_cases m n <;> rw [e] <;> simp [State.bump_eq]
@[simp] theorem State.xrBeats_img (s : State) (m n : Nat) : (s.xrBeats m n).img = s.img := by
  obtain ⟨f, g, e | e⟩ := s.xrBeats_cases m n <;> rw [e] <;> simp [State.bump_eq]
@[simp] theorem State.xrBeats_logs (s : State) (m n : Nat) : (s.xrBeats m n).logs = s.logs := by
  obtain ⟨f, g, e | e⟩ := s.xrBeats_cases m n <;> rw [e] <;> simp [State.bump_eq]
@[simp] theorem State.xrBeats_latch (s : State) (m n : Nat) : (s.xrBeats m n).latch = s.latch := by
  obtain ⟨f, g, e | e⟩ := s.xrBeats_cases m n <;> rw [e] <;> simp [State.bump_eq]
@[simp] theorem State.xrBeats_flushTo (s : State) (m n : Nat) : (s.xrBeats m n).flushTo = s.flushTo := by
  obtain ⟨f, g, e | e⟩ := s.xrBeats_cases m n <;> rw [e] <;> simp [State.bump_eq]
@[simp] theorem State.xrBeats_badSect (s : State) (m n : Nat) : (s.xrBeats m n).badSect = s.badSect := by
  obtain ⟨f, g, e | e⟩ := s.xrBeats_cases m n <;> rw [e] <;> simp [State.bump_eq]
@[simp] theorem State.xrBeats_pfwLow (s : State) (m n : Nat) : (s.xrBeats m n).pfwLow = s.pfwLow := by
  obtain ⟨f, g, e | e⟩ := s.xrBeats_cases m n <;> rw [e] <;> simp [State.bump_eq]
@[simp] theorem State.xrBeats_own (s : State) (m n : Nat) : (s.xrBeats m n).own = s.own := by
  obtain ⟨f, g, e | e⟩ := s.xrBeats_cases m n <;> rw [e] <;> simp [State.bump_eq]
@[simp] theorem State.xrBeats_sec (s : State) (m n : Nat) : (s.xrBeats m n).sec = s.sec := by
  obtain ⟨f, g, e | e⟩ := s.xrBeats_cases m n <;> rw [e] <;> simp [State.bump_eq]
@[simp] theorem State.xrBeats_pwr (s : State) (m n : Nat) : (s.xrBeats m n).pwr = s.pwr := by
  obtain ⟨f, g, e | e⟩ := s.xrBeats_cases m n <;> rw [e] <;> simp [State.bump_eq]
@[simp] theorem State.xrBeats_boot (s : State) (m n : Nat) : (s.xrBeats m n).boot = s.boot := by
  obtain ⟨f, g, e | e⟩ := s.xrBeats_cases m n <;> rw [e] <;> simp [State.bump_eq]
@[simp] theorem State.xrBeats_tap (s : State) (m n : Nat) : (s.xrBeats m n).tap = s.tap := by
  obtain ⟨f, g, e | e⟩ := s.xrBeats_cases m n <;> rw [e] <;> simp [State.bump_eq]
@[simp] theorem State.xrBeats_eth0 (s : State) (m n : Nat) : (s.xrBeats m n).eth0 = s.eth0 := by
  obtain ⟨f, g, e | e⟩ := s.xrBeats_cases m n <;> rw [e] <;> simp [State.bump_eq]
@[simp] theorem State.xrBeats_eth1 (s : State) (m n : Nat) : (s.xrBeats m n).eth1 = s.eth1 := by
  obtain ⟨f, g, e | e⟩ := s.xrBeats_cases m n <;> rw [e] <;> simp [State.bump_eq]
@[simp] theorem State.xrBeats_pcie0 (s : State) (m n : Nat) : (s.xrBeats m n).pcie0 = s.pcie0 := by
  obtain ⟨f, g, e | e⟩ := s.xrBeats_cases m n <;> rw [e] <;> simp [State.bump_eq]
@[simp] theorem State.xrBeats_pcie1 (s : State) (m n : Nat) : (s.xrBeats m n).pcie1 = s.pcie1 := by
  obtain ⟨f, g, e | e⟩ := s.xrBeats_cases m n <;> rw [e] <;> simp [State.bump_eq]
@[simp] theorem State.xrBeats_flash (s : State) (m n : Nat) : (s.xrBeats m n).flash = s.flash := by
  obtain ⟨f, g, e | e⟩ := s.xrBeats_cases m n <;> rw [e] <;> simp [State.bump_eq]
@[simp] theorem State.xrBeats_out (s : State) (m n : Nat) : (s.xrBeats m n).out = s.out := by
  obtain ⟨f, g, e | e⟩ := s.xrBeats_cases m n <;> rw [e] <;> simp [State.bump_eq]
@[simp] theorem State.xrBeats_free (s : State) (m n : Nat) : (s.xrBeats m n).free = s.free := by
  obtain ⟨f, g, e | e⟩ := s.xrBeats_cases m n <;> rw [e] <;> simp [State.bump_eq]

/-- A register of the package blocks is no toll register. -/
theorem ne_aToll_low {q m : Nat} (h : q < 0x1_0000_0000) : q ≠ aToll m := by unfold aToll aDie; omega
/-- A register of a die at another offset than the toll registers is none. -/
theorem ne_aToll_off {d o m : Nat} (h : o < 0x2000_0000) (h' : o < 0x120 ∨ 0x124 ≤ o) : aDie d o ≠ aToll m := by
  have := xrClass_lt m
  unfold aToll aDie; omega

@[simp] theorem State.draining_xrBeats (s : State) (m n q : Nat) : (s.xrBeats m n).draining q = s.draining q := by
  simp [State.draining]
@[simp] theorem State.lead_xrBeats (s : State) (m n : Nat) : (s.xrBeats m n).lead = s.lead := by simp [State.lead]
@[simp] theorem State.steward_xrBeats (s : State) (m n : Nat) : (s.xrBeats m n).steward = s.steward := by
  simp only [State.steward, State.rf, s.rd_xrBeats m n (ne_aToll_low (q := aOwn 0) (by decide))]
@[simp] theorem State.mayWrite_xrBeats (s : State) (m n q a : Nat) : (s.xrBeats m n).mayWrite q a = s.mayWrite q a := by
  simp [State.mayWrite]
@[simp] theorem State.early_xrBeats (s : State) (m n : Nat) : (s.xrBeats m n).early = s.early := by
  have h := s.rd_xrBeats m n (ne_aToll_low (q := aBoot) (m := m) (by decide))
  unfold State.early State.rf; exact decide_eq_decide.2 (by rw [h])
@[simp] theorem State.servedBy_xrBeats (s : State) (m n a : Nat) : (s.xrBeats m n).servedBy a = s.servedBy a := by
  simp [State.servedBy]
@[simp] theorem State.ibLink_xrBeats (s : State) (m n l : Nat) : (s.xrBeats m n).ibLink l = s.ibLink l := by
  simp [State.ibLink]
@[simp] theorem State.tile_xrBeats (s : State) (m n d p : Nat) : (s.xrBeats m n).tile d p = s.tile d p := by
  simp [State.tile]
@[simp] theorem State.link_xrBeats (s : State) (m n a : Nat) : (s.xrBeats m n).link a = s.link a := by simp [State.link]
@[simp] theorem State.stack_xrBeats (s : State) (m n a : Nat) : (s.xrBeats m n).stack a = s.stack a := by simp [State.stack]
@[simp] theorem State.log_xrBeats (s : State) (m n a : Nat) : (s.xrBeats m n).log a = s.log a := by simp [State.log]

/-- Die and stack domains are read from package registers. -/
@[simp] theorem State.domState_xrBeats (s : State) (m n d i : Nat) (hd : d < 8) :
    (s.xrBeats m n).domState d i = s.domState d i := by
  have h1 : aPwr (0x18 + d) ≠ aToll m := ne_aToll_low (by unfold aPwr; omega)
  have h2 : aPwr 0x20 ≠ aToll m := ne_aToll_low (by decide)
  simp only [State.domState, State.rf, s.rd_xrBeats m n h1, s.rd_xrBeats m n h2]

/-- A die is dark as before. -/
theorem State.dark_xrBeats (s : State) (m n d : Nat) (hd : d < 8) : (s.xrBeats m n).dark d = s.dark d := by
  simp [State.dark, hd]

/-- Ibrak links are in service as before. -/
@[simp] theorem State.ibkOos_xrBeats (s : State) (m n l : Nat) : (s.xrBeats m n).ibkOos l = s.ibkOos l := by
  have h : aIbk (linkEnds l).1 ≠ aToll m := by
    unfold aIbk linkEnds; split <;> [skip; split] <;> exact ne_aToll_off (by simp) (by simp)
  simp only [State.ibkOos, State.rb, s.rd_xrBeats m n h, State.ibLink_xrBeats]

/-- The path between two dies is the one used before. -/
@[simp] theorem State.pathUsed_xrBeats (s : State) (m n a b : Nat) : (s.xrBeats m n).pathUsed a b = s.pathUsed a b := by
  simp [State.pathUsed]
@[simp] theorem State.xrReach_xrBeats (s : State) (m n a b : Nat) : (s.xrBeats m n).xrReach a b = s.xrReach a b := by
  simp [State.xrReach]

/-- A master reaches the dies that it reached. -/
theorem State.reaches_xrBeats (s : State) (m n q d : Nat) (hq : masterDie q < 8) (hd : d < 8) :
    (s.xrBeats m n).reaches q d = s.reaches q d := by
  simp [State.reaches, State.dark_xrBeats, hq, hd]

/-- The die of a master of the part. -/
theorem masterDie_lt {m : Nat} (h : masterOk m = true) : masterDie m < 8 := by
  simp only [masterOk, decide_eq_true_eq] at h
  unfold masterDie; split <;> [skip; split <;> [skip; split <;> [skip; split]]] <;> omega

/-! ## Addresses of registers -/

/-- The dies and blocks of register addresses. -/
theorem blockOf_aDie {d o : Nat} (hd : d < 8) (ho : o < 0x1_0000) : blockOf (aDie d o) = some (.die, o) := by
  unfold blockOf aDie
  rw [if_neg (by omega), if_neg (by omega), if_neg (by omega), if_neg (by omega), if_neg (by omega), if_neg (by omega),
    if_pos (by omega)]
  have e : (0x1_0000_0000 + 0x2000_0000 * d + o) % 0x2000_0000 = o := by omega
  simp only [e]; rw [if_pos ho]
/-- A DRAM block. -/
theorem blockOf_aDram {d o : Nat} (hd : d < 8) (ho : o < 0x1_0000) : blockOf (aDram d o) = some (.dram, o) := by
  unfold blockOf aDram aDie
  rw [if_neg (by omega), if_neg (by omega), if_neg (by omega), if_neg (by omega), if_neg (by omega), if_neg (by omega),
    if_pos (by omega)]
  have e : (0x1_0000_0000 + 0x2000_0000 * d + (0x1_0000 + o)) % 0x2000_0000 = 0x1_0000 + o := by omega
  simp only [e]; rw [if_neg (by omega), if_pos (by omega), Nat.add_sub_cancel_left]
/-- A group block. -/
theorem blockOf_aGrp {d g o : Nat} (hd : d < 8) (hg : g < 4) (ho : o < 0x100) : blockOf (aGrp d g o) = some (.group, o) := by
  unfold blockOf aGrp aDie
  rw [if_neg (by omega), if_neg (by omega), if_neg (by omega), if_neg (by omega), if_neg (by omega), if_neg (by omega),
    if_pos (by omega)]
  have e : (0x1_0000_0000 + 0x2000_0000 * d + (0x2_0000 + 0x100 * g + o)) % 0x2000_0000 = 0x2_0000 + 0x100 * g + o := by
    omega
  have e2 : (0x2_0000 + 0x100 * g + o) % 0x100 = o := by omega
  simp only [e, e2]; rw [if_neg (by omega), if_neg (by omega), if_pos (by omega), if_pos (by omega)]
/-- A link block. -/
theorem blockOf_aLink {n o : Nat} (hn : n < 512) (ho : o < 0x40) : blockOf (aLink n o) = some (.link, o) := by
  unfold blockOf aLink aDie
  rw [if_neg (by omega), if_neg (by omega), if_neg (by omega), if_neg (by omega), if_neg (by omega), if_neg (by omega),
    if_pos (by omega)]
  have e : (0x1_0000_0000 + 0x2000_0000 * (n / 64) + (0x3_0000 + 0x40 * (n % 64) + o)) % 0x2000_0000 =
      0x3_0000 + 0x40 * (n % 64) + o := by omega
  have e2 : (0x3_0000 + 0x40 * (n % 64) + o) % 0x40 = o := by omega
  simp only [e, e2]
  rw [if_neg (by omega), if_neg (by omega), if_neg (by omega), if_pos (by omega), if_pos (by omega)]

/-- A register that is not one per master, at an address whose block and offset are known. -/
theorem regAt_of {m a : Nat} {b : Block} {o i : Nat} {r : RegSpec} (hb : blockOf a = some (b, o))
    (hr : findReg b.regs o = some (r, i)) (hp : r.perMaster = false) : regAt m a = some (b, r, a) := by
  simp [regAt, hb, hr, ownKey, hp]

/-- The die that serves an address of a die block. -/
theorem State.servedBy_die (s : State) {d o : Nat} (hd : d < 8) (ho : o < 0x2000_0000) : s.servedBy (aDie d o) = d := by
  unfold State.servedBy aDie; rw [if_neg (by omega)]; omega

/-! ## A permitted write of a register -/

/-- Below the DRAM window no access waits for a stack's slots. -/
theorem State.slotsShort_low (s : State) {a : Nat} (h : a / 0x1_0000_0000 % 16 < 8) : s.slotsShort a = false := by
  unfold State.slotsShort; rw [decide_eq_false (by omega)]; rfl

/-- A transaction that is issued to a port where no other waits, and that waits for no stack, takes the one turn there:
the port remembers its master, and it is performed and answered. -/
theorem State.issue_alone {s : State} {m addr : Nat} (beats : Nat) (wr : Bool) (data : List Word) (hm : s.isMaster m = true)
    (ha : Alone addr s) (h8 : addr / 0x1_0000_0000 % 16 < 8) :
    s.issue ⟨m, addr, beats, wr, data, false⟩ false =
      ({ s with xrLast := SMap.set (fun _ => 1023) s.xrLast (s.portOf addr) m }).perform
        ⟨m, addr, beats, wr, data, m == s.steward⟩ := by
  simp only [State.isMaster, Bool.and_eq_true, Bool.not_eq_true'] at hm
  have hf : s.xrq.filter (fun (q : XrReq) => s.portOf q.addr = s.portOf addr) = [] := by
    rw [List.filter_eq_nil_iff]; intro r hr; simpa using ha r hr
  have hp : ∀ l a, ({ s with xrq := l } : State).portOf a = s.portOf a := fun _ _ => rfl
  have hn : ∀ r : XrReq, r.addr = addr → ({ s with xrq := s.xrq ++ [r] } : State).nextTurn (s.portOf addr) = some r := by
    intro r hr
    have hl : (s.xrq ++ [r]).filter (fun (q : XrReq) => s.portOf q.addr = s.portOf addr ∧
        ({ s with xrq := s.xrq ++ [r] } : State).slotsShort q.addr = false) = [r] := by
      rw [List.filter_append, List.filter_eq_nil_iff.2 (by intro q h; simp [ha q h])]
      simp [hr, State.slotsShort_low _ h8]
    unfold State.nextTurn
    simp only [hp, hl, List.filter_cons, List.filter_nil]
    split <;> simp_all [soonest]
  have he : ∀ r : XrReq, r.addr = addr → (s.xrq ++ [r]).erase r = s.xrq := by
    intro r hr
    have : r ∉ s.xrq := fun h => ha r h (by rw [hr])
    rw [List.erase_append_right _ this]; simp
  have hc : ∀ r : XrReq, r.addr = addr → ({ s with xrq := s.xrq ++ [r] } : State).atPort (s.portOf addr) = 1 := by
    intro r hr
    simp [State.atPort, hp, List.filter_append, hf, hr]
  unfold State.issue
  have h1 := hc ⟨m, addr, beats, wr, data, m == s.steward⟩ rfl
  have h2 := hn ⟨m, addr, beats, wr, data, m == s.steward⟩ rfl
  simp only [hm.1, hm.2, Bool.not_true, Bool.false_eq_true, if_false]
  rw [show ∀ l, ({ s with xrq := l } : State).portOf addr = s.portOf addr from fun _ => rfl, h1]
  rw [State.turns, h2]
  dsimp only [State.turns]
  rw [he ⟨m, addr, beats, wr, data, m == s.steward⟩ rfl]

/-- A served and permitted write of a register that is not one per master: beats counted, the register's own effect, the
units on the links crossed, the answer OK. -/
theorem State.doWrite_reg {s : State} {m addr : Nat} (w : Word) {b : Block} {r : RegSpec} (hm : masterOk m = true)
    (ha : addr < 0x2_0000_0000) (hp : Permitted m addr s) (hr : regAt m addr = some (b, r, addr))
    (hpm : r.perMaster = false) {s1 : State}
    (h1 : s1 = { s with xrLast := SMap.set (fun _ => 1023) s.xrLast (s.portOf addr) m }) :
    s.doWrite m addr w =
      (((s1.xrBeats m 1).regPut m addr b r addr w).xrCross s1 m addr 1 0).answer m 0 [] := by
  obtain ⟨⟨⟨-, h2, h3, hs, h4⟩, hal⟩, h5⟩ := hp
  rw [State.doWrite, State.issue_alone _ _ _ h2 hal (by omega), ← h1]
  have hm8 := masterDie_lt hm
  have e1 : addr / 0x1_0000_0000 % 16 < 2 := by omega
  have e2 : addr % 0x10_0000_0000 = addr := by omega
  have e0 : s1.steward = s.steward := by subst h1; rfl
  have h3 : s1.early = false := by subst h1; exact h3
  have h5 : s1.mayWrite m addr = true := by subst h1; exact h5
  have h6 : (s1.xrBeats m 1).reaches m ((s1.xrBeats m 1).servedBy addr) = true := by
    rw [State.servedBy_xrBeats, State.reaches_xrBeats _ _ _ _ _ hm8 (by subst h1; exact hs)]; subst h1; exact h4
  have e3 : ((m == s.steward) && true && (s1.steward != m)) = false := by
    rw [e0]; by_cases h : m = s.steward <;> simp [h]
  have h7 : (s1.xrBeats m 1).regReach m addr = true := by
    unfold State.regReach State.shut; rw [State.early_xrBeats, h3, h6]; rfl
  have e4 : s1.xrWrite m addr w = (((s1.xrBeats m 1).regPut m addr b r addr w).xrCross s1 m addr 1 0, 0) := by
    unfold State.xrWrite State.busWrite State.regWrite
    simp only [e1, e2, hr, hpm, State.mayWrite_xrBeats, h5, h7, State.record]
    simp
  unfold State.perform State.transact
  simp only [e3, Bool.false_eq_true, if_false, if_true, List.headD_cons, e4]

end Sys2Proof.Machine
end

