-- ==== Sys2Proof/Laws/PerInstr.lean ====
section
/-!
SUPPORT. A second view of well-formedness: the list of the parts a command names, each with its own bound, and for each
command that it is well formed exactly when the part has every one of them.
-/
namespace Sys2Proof

/-- A part of the machine that a command names, by its number. -/
inductive Part where
  | die (n : Nat)
  | tile (n : Nat)
  | slot (n : Nat)
  | link (n : Nat)
  | timing (n : Nat)
  | junction (n : Nat)
  | channel (n : Nat)
  | output (n : Nat)
  | group (n : Nat)
  | ibrak (n : Nat)
  | direction (n : Nat)
  | stream (n : Nat)
  | port (n : Nat)
  | endpoint (n : Nat)
  | inbound (n : Nat)
  | tamper (n : Nat)
  | domain (n : Nat)
  | master (n : Nat)
  | cursor (n : Nat)
  | mailbox (n : Nat)
  | parcel (n : Nat)
  deriving DecidableEq, Repr

/-- Does the machine have this part? -/
def Part.there (p : Part) : Bool :=
  match p with
  | .die n => dieOk n
  | .tile n => tileOk n
  | .slot n => slotOk n
  | .link n => linkOk n
  | .timing n => inpOk n
  | .junction n => jOk n
  | .channel n => jinOk n
  | .output n => outOk n
  | .group n => grpOk n
  | .ibrak n => ibkOk n
  | .direction n => dirOk n
  | .stream n => strOk n
  | .port n => portOk n
  | .endpoint n => epOk n
  | .inbound n => inbOk n
  | .tamper n => tampOk n
  | .domain n => domOk n
  | .master n => masterOk n
  | .cursor n => curOk n
  | .mailbox n => mbOk n
  | .parcel n => parcelOk n

/-- Does the machine have every part of a list? -/
def Part.allThere (ps : List Part) : Bool :=
  match ps with
  | [] => true
  | p :: rest => rest.foldl (fun b q => b && q.there) p.there

theorem Part.allThere_iff (ps : List Part) : Part.allThere ps = true ↔ ∀ p ∈ ps, p.there = true := by
  have fold : ∀ (qs : List Part) (b : Bool),
      qs.foldl (fun b q => b && q.there) b = true ↔ b = true ∧ ∀ q ∈ qs, q.there = true := by
    intro qs
    induction qs with
    | nil => simp
    | cons q qs ih => intro b; simp [List.foldl_cons, ih, and_assoc]
  cases ps with
  | nil => simp [allThere]
  | cons p rest => simp [allThere, fold]

/-- The parts a command names, in the order of its operands. -/
def Instr.parts (i : Instr) : List Part :=
  match i with
  | .marker inp _ _ _ => [.timing inp]
  | .markerMissing inp _ => [.timing inp]
  | .tickset inp _ _ => [.timing inp]
  | .accept inp _ _ => [.timing inp]
  | .milestone => []
  | .registerWrite m _ _ => [.master m]
  | .pkgTimCommit m _ => [.master m]
  | .tileCommit m d p _ => [.master m, .die d, .tile p]
  | .dieNetCommit m d _ => [.master m, .die d]
  | .dramCommit m d _ => [.master m, .die d]
  | .linkGcommit m d g _ => [.master m, .die d, .group g]
  | .linkCommit m n _ => [.master m, .link n]
  | .pwrCommit m _ => [.master m]
  | .tick0Read m => [.master m]
  | .pkgTimCntclr m _ => [.master m]
  | .netDataAccess m d _ _ => [.master m, .die d]
  | .rpdAccess m d _ _ => [.master m, .die d]
  | .tileSpData m d p _ _ => [.master m, .die d, .tile p]
  | .dbellWrite m d p _ => [.master m, .die d, .tile p]
  | .droplk m d p _ => [.master m, .die d, .tile p]
  | .dropin m d p _ => [.master m, .die d, .tile p]
  | .tileTcrWrite m d p _ => [.master m, .die d, .tile p]
  | .poison m d p _ => [.master m, .die d, .tile p]
  | .bundle d p _ => [.die d, .tile p]
  | .repI d p => [.die d, .tile p]
  | .repS d p => [.die d, .tile p]
  | .loopI d p => [.die d, .tile p]
  | .loopS d p _ => [.die d, .tile p]
  | .seal d p => [.die d, .tile p]
  | .signpostMacro d p => [.die d, .tile p]
  | .trapEntry d p => [.die d, .tile p]
  | .latebus d p => [.die d, .tile p]
  | .toll d p => [.die d, .tile p]
  | .doorbell d p => [.die d, .tile p]
  | .migrate d p => [.die d, .tile p]
  | .routineBegin d p => [.die d, .tile p]
  | .waitmResume d p => [.die d, .tile p]
  | .overrun d p => [.die d, .tile p]
  | .skip d p => [.die d, .tile p]
  | .abandon d p => [.die d, .tile p]
  | .tollEvent d p => [.die d, .tile p]
  | .storeRetire d p => [.die d, .tile p]
  | .writeBack d p _ => [.die d, .tile p]
  | .scrubStep d p => [.die d, .tile p]
  | .dataSideAccess agent d p _ _ _ _ => [.master agent, .die d, .tile p]
  | .dataSideTimeout agent d p _ _ => [.master agent, .die d, .tile p]
  | .vaultWipe d _ => [.die d]
  | .vaultWipeEnd d => [.die d]
  | .flitForward d j inp out _ => [.die d, .junction j, .channel inp, .output out]
  | .inboundArrive d p inb => [.die d, .tile p, .inbound inb]
  | .ibrakBlockReceive l dir _ => [.ibrak l, .direction dir]
  | .retrain l => [.ibrak l]
  | .crossroadsTransaction m _ _ _ _ _ => [.master m]
  | .crossroadsTimeout m _ _ => [.master m]
  | .ioWindowAnswer d p => [.die d, .tile p]
  | .lookupAnswer d p st => [.die d, .tile p, .stream st]
  | .masterReset m _ => [.master m]
  | .xrdrain m => [.master m]
  | .load m => [.master m]
  | .loadDone => []
  | .arm m => [.master m]
  | .swap m => [.master m]
  | .discard m => [.master m]
  | .disarm m => [.master m]
  | .armAt => []
  | .disarmAt => []
  | .tileSwitch d p => [.die d, .tile p]
  | .swapComplete => []
  | .detourConvergent d slot layby _ _ => [.die d, .slot slot, .tile layby]
  | .detourNonconvergent d slot layby _ => [.die d, .slot slot, .tile layby]
  | .stateCopyEnd d slot => [.die d, .slot slot]
  | .ingressFrame n _ _ _ _ => [.link n]
  | .arrivalWindowClose n _ _ => [.link n]
  | .egressWriteArrive d p => [.die d, .tile p]
  | .slotClose n => [.link n]
  | .egressFrameSend n => [.link n]
  | .slotToDelayArea n => [.link n]
  | .lockGain n _ => [.link n]
  | .lockloss n _ _ => [.link n]
  | .datagramSend n => [.link n]
  | .ethRxDiscard n => [.link n]
  | .historyWrite d g => [.die d, .group g]
  | .historyHold d => [.die d]
  | .readoutRequest d => [.die d]
  | .readoutServe d => [.die d]
  | .datagramHand d => [.die d]
  | .hostRingEntry d => [.die d]
  | .refresh d => [.die d]
  | .dramScrubStep d => [.die d]
  | .rowRepair d parcel _ => [.die d, .parcel parcel]
  | .stackTollOver d _ => [.die d]
  | .dramRetire m d _ => [.master m, .die d]
  | .stacklost d _ => [.die d]
  | .stackReturn d => [.die d]
  | .rebuildEnd d => [.die d]
  | .pcieRead ep _ _ => [.endpoint ep]
  | .pcieWrite ep _ _ => [.endpoint ep]
  | .ethOpen port _ => [.port port]
  | .ethClose port _ => [.port port]
  | .ethKeepalive port _ => [.port port]
  | .ethRead port _ => [.port port]
  | .ethWrite port _ => [.port port]
  | .ethDiscard port _ => [.port port]
  | .sessionTimeout port => [.port port]
  | .chal m => [.mailbox m]
  | .claim m _ => [.mailbox m]
  | .claimResult m => [.mailbox m]
  | .renew m _ => [.master m]
  | .leaseExpiry => []
  | .handover m _ => [.master m]
  | .handoverWindowClose => []
  | .keySet m _ => [.master m]
  | .keyRemove m _ => [.master m]
  | .nonce m => [.mailbox m]
  | .attest m => [.mailbox m]
  | .lcreq m => [.mailbox m]
  | .svn m => [.mailbox m]
  | .attestKeyBegin => []
  | .attestKeyReady => []
  | .tamper src => [.tamper src]
  | .waymark d => [.die d]
  | .ringWrite d => [.die d]
  | .win0Read m => [.cursor m]
  | .wchkRead m => [.cursor m]
  | .oldest m _ => [.cursor m]
  | .flush _ => []
  | .sectorErase _ => []
  | .pfw => []
  | .flasherr => []
  | .lead => []
  | .ceilingDown d => [.die d]
  | .ceilingUp => []
  | .modeChange => []
  | .voutCommand _ => []
  | .domainReady d dom => [.die d, .domain dom]
  | .domainTrip d dom => [.die d, .domain dom]
  | .pwrIbkret m _ => [.master m]
  | .ledgerAccrue d _ => [.die d]
  | .ledgerWrite => []
  | .monitorRead d _ => [.die d]
  | .tileRetire m _ => [.master m]
  | .retirementDetour d p _ => [.die d, .tile p]
  | .fwUpdate m _ => [.master m]
  | .fwRejoinTimeout => []
  | .porstNRise => []
  | .porstNPulse => []
  | .startup _ => []
  | .autoarm => []
  | .pkgBootcfgWrite m _ => [.master m]
  | .dieBist m d _ => [.master m, .die d]
  | .dieBistDone d _ => [.die d]
  | .haltedTileReset d p => [.die d, .tile p]
  | .extest _ => []
  | .samplePreload _ => []
  | .idcode => []
  | .tapClamp => []
  | .highz => []
  | .extestPulse _ => []
  | .extestTrain _ => []
  | .craccess _ => []
  | .bootstat => []
  | .intscan => []
  | .bypass => []
  | .tamperDeassert src => [.tamper src]
  | .pfwNRise => []
  | .ibrakTrainEnd l _ _ => [.ibrak l]
  | .ibrakBlockSend l dir _ => [.ibrak l, .direction dir]
  | .tjSample d _ => [.die d]
  | .wardenRejoin d => [.die d]

end Sys2Proof

namespace Sys2Proof.Laws

/-- A command is well formed exactly when the machine has every part that it names. -/
def Wf.Statement (i : Instr) : Prop := i.wf = Part.allThere i.parts

theorem Wf.marker (inp : Nat) (pos : Nat) (codeErrs : Nat) (offset : Int) : Statement (.marker inp pos codeErrs offset) := rfl
theorem Wf.markerMissing (inp : Nat) (codeErrs : Nat) : Statement (.markerMissing inp codeErrs) := rfl
theorem Wf.tickset (inp : Nat) (bytes : List Byte) (ended : Bool) : Statement (.tickset inp bytes ended) := rfl
theorem Wf.accept (inp : Nat) (bytes : List Byte) (ended : Bool) : Statement (.accept inp bytes ended) := rfl
theorem Wf.milestone : Statement .milestone := rfl
theorem Wf.registerWrite (m : Nat) (addr : Nat) (w : Word) : Statement (.registerWrite m addr w) := rfl
theorem Wf.pkgTimCommit (m : Nat) (w : Word) : Statement (.pkgTimCommit m w) := rfl
theorem Wf.tileCommit (m : Nat) (d : Nat) (p : Nat) (w : Word) : Statement (.tileCommit m d p w) := rfl
theorem Wf.dieNetCommit (m : Nat) (d : Nat) (w : Word) : Statement (.dieNetCommit m d w) := rfl
theorem Wf.dramCommit (m : Nat) (d : Nat) (w : Word) : Statement (.dramCommit m d w) := rfl
theorem Wf.linkGcommit (m : Nat) (d : Nat) (g : Nat) (w : Word) : Statement (.linkGcommit m d g w) := rfl
theorem Wf.linkCommit (m : Nat) (n : Nat) (w : Word) : Statement (.linkCommit m n w) := rfl
theorem Wf.pwrCommit (m : Nat) (w : Word) : Statement (.pwrCommit m w) := rfl
theorem Wf.tick0Read (m : Nat) : Statement (.tick0Read m) := rfl
theorem Wf.pkgTimCntclr (m : Nat) (w : Word) : Statement (.pkgTimCntclr m w) := rfl
theorem Wf.netDataAccess (m : Nat) (d : Nat) (write : Bool) (w : Word) : Statement (.netDataAccess m d write w) := rfl
theorem Wf.rpdAccess (m : Nat) (d : Nat) (write : Bool) (w : Word) : Statement (.rpdAccess m d write w) := rfl
theorem Wf.tileSpData (m : Nat) (d : Nat) (p : Nat) (write : Bool) (w : Word) : Statement (.tileSpData m d p write w) := rfl
theorem Wf.dbellWrite (m : Nat) (d : Nat) (p : Nat) (w : Word) : Statement (.dbellWrite m d p w) := rfl
theorem Wf.droplk (m : Nat) (d : Nat) (p : Nat) (w : Word) : Statement (.droplk m d p w) := rfl
theorem Wf.dropin (m : Nat) (d : Nat) (p : Nat) (w : Word) : Statement (.dropin m d p w) := rfl
theorem Wf.tileTcrWrite (m : Nat) (d : Nat) (p : Nat) (w : Word) : Statement (.tileTcrWrite m d p w) := rfl
theorem Wf.poison (m : Nat) (d : Nat) (p : Nat) (w : Word) : Statement (.poison m d p w) := rfl
theorem Wf.bundle (d : Nat) (p : Nat) (ext : Nat) : Statement (.bundle d p ext) := rfl
theorem Wf.repI (d : Nat) (p : Nat) : Statement (.repI d p) := rfl
theorem Wf.repS (d : Nat) (p : Nat) : Statement (.repS d p) := rfl
theorem Wf.loopI (d : Nat) (p : Nat) : Statement (.loopI d p) := rfl
theorem Wf.loopS (d : Nat) (p : Nat) (ext : Nat) : Statement (.loopS d p ext) := rfl
theorem Wf.seal (d : Nat) (p : Nat) : Statement (.seal d p) := rfl
theorem Wf.signpostMacro (d : Nat) (p : Nat) : Statement (.signpostMacro d p) := rfl
theorem Wf.trapEntry (d : Nat) (p : Nat) : Statement (.trapEntry d p) := rfl
theorem Wf.latebus (d : Nat) (p : Nat) : Statement (.latebus d p) := rfl
theorem Wf.toll (d : Nat) (p : Nat) : Statement (.toll d p) := rfl
theorem Wf.doorbell (d : Nat) (p : Nat) : Statement (.doorbell d p) := rfl
theorem Wf.migrate (d : Nat) (p : Nat) : Statement (.migrate d p) := rfl
theorem Wf.routineBegin (d : Nat) (p : Nat) : Statement (.routineBegin d p) := rfl
theorem Wf.waitmResume (d : Nat) (p : Nat) : Statement (.waitmResume d p) := rfl
theorem Wf.overrun (d : Nat) (p : Nat) : Statement (.overrun d p) := rfl
theorem Wf.skip (d : Nat) (p : Nat) : Statement (.skip d p) := rfl
theorem Wf.abandon (d : Nat) (p : Nat) : Statement (.abandon d p) := rfl
theorem Wf.tollEvent (d : Nat) (p : Nat) : Statement (.tollEvent d p) := rfl
theorem Wf.storeRetire (d : Nat) (p : Nat) : Statement (.storeRetire d p) := rfl
theorem Wf.writeBack (d : Nat) (p : Nat) (coin : Bool) : Statement (.writeBack d p coin) := rfl
theorem Wf.scrubStep (d : Nat) (p : Nat) : Statement (.scrubStep d p) := rfl
theorem Wf.dataSideAccess (agent : Nat) (d : Nat) (p : Nat) (addr : Nat) (write : Bool) (w : Word) (coin : Bool) : Statement (.dataSideAccess agent d p addr write w coin) := rfl
theorem Wf.dataSideTimeout (agent : Nat) (d : Nat) (p : Nat) (addr : Nat) (write : Bool) : Statement (.dataSideTimeout agent d p addr write) := rfl
theorem Wf.vaultWipe (d : Nat) (cause : Nat) : Statement (.vaultWipe d cause) := rfl
theorem Wf.vaultWipeEnd (d : Nat) : Statement (.vaultWipeEnd d) := rfl
theorem Wf.flitForward (d : Nat) (j : Nat) (inp : Nat) (out : Nat) (flip : BitVec 72) : Statement (.flitForward d j inp out flip) := rfl
theorem Wf.inboundArrive (d : Nat) (p : Nat) (inb : Nat) : Statement (.inboundArrive d p inb) := rfl
theorem Wf.ibrakBlockReceive (l : Nat) (dir : Nat) (flip : BitVec 1152) : Statement (.ibrakBlockReceive l dir flip) := rfl
theorem Wf.retrain (l : Nat) : Statement (.retrain l) := rfl
theorem Wf.crossroadsTransaction (m : Nat) (addr : Nat) (beats : Nat) (write : Bool) (data : List Word) (busy : Bool) : Statement (.crossroadsTransaction m addr beats write data busy) := rfl
theorem Wf.crossroadsTimeout (m : Nat) (addr : Nat) (write : Bool) : Statement (.crossroadsTimeout m addr write) := rfl
theorem Wf.ioWindowAnswer (d : Nat) (p : Nat) : Statement (.ioWindowAnswer d p) := rfl
theorem Wf.lookupAnswer (d : Nat) (p : Nat) (st : Nat) : Statement (.lookupAnswer d p st) := rfl
theorem Wf.masterReset (m : Nat) (flight : List (Nat × Bool × Nat × Nat × List Word)) : Statement (.masterReset m flight) := rfl
theorem Wf.xrdrain (m : Nat) : Statement (.xrdrain m) := rfl
theorem Wf.load (m : Nat) : Statement (.load m) := rfl
theorem Wf.loadDone : Statement .loadDone := rfl
theorem Wf.arm (m : Nat) : Statement (.arm m) := rfl
theorem Wf.swap (m : Nat) : Statement (.swap m) := rfl
theorem Wf.discard (m : Nat) : Statement (.discard m) := rfl
theorem Wf.disarm (m : Nat) : Statement (.disarm m) := rfl
theorem Wf.armAt : Statement .armAt := rfl
theorem Wf.disarmAt : Statement .disarmAt := rfl
theorem Wf.tileSwitch (d : Nat) (p : Nat) : Statement (.tileSwitch d p) := rfl
theorem Wf.swapComplete : Statement .swapComplete := rfl
theorem Wf.detourConvergent (d : Nat) (slot : Nat) (layby : Nat) (start : Nat) (w : Nat) : Statement (.detourConvergent d slot layby start w) := rfl
theorem Wf.detourNonconvergent (d : Nat) (slot : Nat) (layby : Nat) (freeze : Nat) : Statement (.detourNonconvergent d slot layby freeze) := rfl
theorem Wf.stateCopyEnd (d : Nat) (slot : Nat) : Statement (.stateCopyEnd d slot) := rfl
theorem Wf.ingressFrame (n : Nat) (tick : Nat) (phase : Int) (line : List Bool) (coin : Bool) : Statement (.ingressFrame n tick phase line coin) := rfl
theorem Wf.arrivalWindowClose (n : Nat) (tick : Nat) (coin : Bool) : Statement (.arrivalWindowClose n tick coin) := rfl
theorem Wf.egressWriteArrive (d : Nat) (p : Nat) : Statement (.egressWriteArrive d p) := rfl
theorem Wf.slotClose (n : Nat) : Statement (.slotClose n) := rfl
theorem Wf.egressFrameSend (n : Nat) : Statement (.egressFrameSend n) := rfl
theorem Wf.slotToDelayArea (n : Nat) : Statement (.slotToDelayArea n) := rfl
theorem Wf.lockGain (n : Nat) (line : List Bool) : Statement (.lockGain n line) := rfl
theorem Wf.lockloss (n : Nat) (line : List Bool) (gone : Bool) : Statement (.lockloss n line gone) := rfl
theorem Wf.datagramSend (n : Nat) : Statement (.datagramSend n) := rfl
theorem Wf.ethRxDiscard (n : Nat) : Statement (.ethRxDiscard n) := rfl
theorem Wf.historyWrite (d : Nat) (g : Nat) : Statement (.historyWrite d g) := rfl
theorem Wf.historyHold (d : Nat) : Statement (.historyHold d) := rfl
theorem Wf.readoutRequest (d : Nat) : Statement (.readoutRequest d) := rfl
theorem Wf.readoutServe (d : Nat) : Statement (.readoutServe d) := rfl
theorem Wf.datagramHand (d : Nat) : Statement (.datagramHand d) := rfl
theorem Wf.hostRingEntry (d : Nat) : Statement (.hostRingEntry d) := rfl
theorem Wf.refresh (d : Nat) : Statement (.refresh d) := rfl
theorem Wf.dramScrubStep (d : Nat) : Statement (.dramScrubStep d) := rfl
theorem Wf.rowRepair (d : Nat) (parcel : Nat) (spares : Nat) : Statement (.rowRepair d parcel spares) := rfl
theorem Wf.stackTollOver (d : Nat) (row : Nat) : Statement (.stackTollOver d row) := rfl
theorem Wf.dramRetire (m : Nat) (d : Nat) (w : Word) : Statement (.dramRetire m d w) := rfl
theorem Wf.stacklost (d : Nat) (cause : Nat) : Statement (.stacklost d cause) := rfl
theorem Wf.stackReturn (d : Nat) : Statement (.stackReturn d) := rfl
theorem Wf.rebuildEnd (d : Nat) : Statement (.rebuildEnd d) := rfl
theorem Wf.pcieRead (ep : Nat) (off : Nat) (len : Nat) : Statement (.pcieRead ep off len) := rfl
theorem Wf.pcieWrite (ep : Nat) (off : Nat) (data : List (Option Byte)) : Statement (.pcieWrite ep off data) := rfl
theorem Wf.ethOpen (port : Nat) (frame : List Byte) : Statement (.ethOpen port frame) := rfl
theorem Wf.ethClose (port : Nat) (frame : List Byte) : Statement (.ethClose port frame) := rfl
theorem Wf.ethKeepalive (port : Nat) (frame : List Byte) : Statement (.ethKeepalive port frame) := rfl
theorem Wf.ethRead (port : Nat) (frame : List Byte) : Statement (.ethRead port frame) := rfl
theorem Wf.ethWrite (port : Nat) (frame : List Byte) : Statement (.ethWrite port frame) := rfl
theorem Wf.ethDiscard (port : Nat) (frame : List Byte) : Statement (.ethDiscard port frame) := rfl
theorem Wf.sessionTimeout (port : Nat) : Statement (.sessionTimeout port) := rfl
theorem Wf.chal (m : Nat) : Statement (.chal m) := rfl
theorem Wf.claim (m : Nat) (w : Word) : Statement (.claim m w) := rfl
theorem Wf.claimResult (m : Nat) : Statement (.claimResult m) := rfl
theorem Wf.renew (m : Nat) (w : Word) : Statement (.renew m w) := rfl
theorem Wf.leaseExpiry : Statement .leaseExpiry := rfl
theorem Wf.handover (m : Nat) (w : Word) : Statement (.handover m w) := rfl
theorem Wf.handoverWindowClose : Statement .handoverWindowClose := rfl
theorem Wf.keySet (m : Nat) (w : Word) : Statement (.keySet m w) := rfl
theorem Wf.keyRemove (m : Nat) (w : Word) : Statement (.keyRemove m w) := rfl
theorem Wf.nonce (m : Nat) : Statement (.nonce m) := rfl
theorem Wf.attest (m : Nat) : Statement (.attest m) := rfl
theorem Wf.lcreq (m : Nat) : Statement (.lcreq m) := rfl
theorem Wf.svn (m : Nat) : Statement (.svn m) := rfl
theorem Wf.attestKeyBegin : Statement .attestKeyBegin := rfl
theorem Wf.attestKeyReady : Statement .attestKeyReady := rfl
theorem Wf.tamper (src : Nat) : Statement (.tamper src) := rfl
theorem Wf.waymark (d : Nat) : Statement (.waymark d) := rfl
theorem Wf.ringWrite (d : Nat) : Statement (.ringWrite d) := rfl
theorem Wf.win0Read (m : Nat) : Statement (.win0Read m) := rfl
theorem Wf.wchkRead (m : Nat) : Statement (.wchkRead m) := rfl
theorem Wf.oldest (m : Nat) (w : Word) : Statement (.oldest m w) := rfl
theorem Wf.flush (ok : Bool) : Statement (.flush ok) := rfl
theorem Wf.sectorErase (ok : Bool) : Statement (.sectorErase ok) := rfl
theorem Wf.pfw : Statement .pfw := rfl
theorem Wf.flasherr : Statement .flasherr := rfl
theorem Wf.lead : Statement .lead := rfl
theorem Wf.ceilingDown (d : Nat) : Statement (.ceilingDown d) := rfl
theorem Wf.ceilingUp : Statement .ceilingUp := rfl
theorem Wf.modeChange : Statement .modeChange := rfl
theorem Wf.voutCommand (ack : Bool) : Statement (.voutCommand ack) := rfl
theorem Wf.domainReady (d : Nat) (dom : Nat) : Statement (.domainReady d dom) := rfl
theorem Wf.domainTrip (d : Nat) (dom : Nat) : Statement (.domainTrip d dom) := rfl
theorem Wf.pwrIbkret (m : Nat) (w : Word) : Statement (.pwrIbkret m w) := rfl
theorem Wf.ledgerAccrue (d : Nat) (mean : Int) : Statement (.ledgerAccrue d mean) := rfl
theorem Wf.ledgerWrite : Statement .ledgerWrite := rfl
theorem Wf.monitorRead (d : Nat) (slacks : List Nat) : Statement (.monitorRead d slacks) := rfl
theorem Wf.tileRetire (m : Nat) (w : Word) : Statement (.tileRetire m w) := rfl
theorem Wf.retirementDetour (d : Nat) (p : Nat) (start : Nat) : Statement (.retirementDetour d p start) := rfl
theorem Wf.fwUpdate (m : Nat) (w : Word) : Statement (.fwUpdate m w) := rfl
theorem Wf.fwRejoinTimeout : Statement .fwRejoinTimeout := rfl
theorem Wf.porstNRise : Statement .porstNRise := rfl
theorem Wf.porstNPulse : Statement .porstNPulse := rfl
theorem Wf.startup (bad : List Nat) : Statement (.startup bad) := rfl
theorem Wf.autoarm : Statement .autoarm := rfl
theorem Wf.pkgBootcfgWrite (m : Nat) (w : Word) : Statement (.pkgBootcfgWrite m w) := rfl
theorem Wf.dieBist (m : Nat) (d : Nat) (w : Word) : Statement (.dieBist m d w) := rfl
theorem Wf.dieBistDone (d : Nat) (pass : Bool) : Statement (.dieBistDone d pass) := rfl
theorem Wf.haltedTileReset (d : Nat) (p : Nat) : Statement (.haltedTileReset d p) := rfl
theorem Wf.extest (tdi : List Bool) : Statement (.extest tdi) := rfl
theorem Wf.samplePreload (tdi : List Bool) : Statement (.samplePreload tdi) := rfl
theorem Wf.idcode : Statement .idcode := rfl
theorem Wf.tapClamp : Statement .tapClamp := rfl
theorem Wf.highz : Statement .highz := rfl
theorem Wf.extestPulse (tdi : List Bool) : Statement (.extestPulse tdi) := rfl
theorem Wf.extestTrain (tdi : List Bool) : Statement (.extestTrain tdi) := rfl
theorem Wf.craccess (dr : BitVec 76) : Statement (.craccess dr) := rfl
theorem Wf.bootstat : Statement .bootstat := rfl
theorem Wf.intscan : Statement .intscan := rfl
theorem Wf.bypass : Statement .bypass := rfl
theorem Wf.tamperDeassert (src : Nat) : Statement (.tamperDeassert src) := rfl
theorem Wf.pfwNRise : Statement .pfwNRise := rfl
theorem Wf.ibrakTrainEnd (l : Nat) (lanesBad : Nat) (authOk : Bool) : Statement (.ibrakTrainEnd l lanesBad authOk) := rfl
theorem Wf.ibrakBlockSend (l : Nat) (dir : Nat) (flips : List (BitVec 72)) : Statement (.ibrakBlockSend l dir flips) := rfl
theorem Wf.tjSample (d : Nat) (temps : List Int) : Statement (.tjSample d temps) := rfl
theorem Wf.wardenRejoin (d : Nat) : Statement (.wardenRejoin d) := rfl

end Sys2Proof.Laws
end

