-- ==== Sys2Proof/Laws/Step.lean ====
section
/-!
SUPPORT. What a command can do as a whole: every command but the rise of PORST_N runs one effect on a part that is out of
reset, if it names only what the part has.
-/
namespace Sys2Proof.Machine

/-- Every command but PORST_N_RISE is one effect, run under the check of its operands. -/
theorem exec_live (i : Instr) (h : i ≠ .porstNRise) : ∃ f : State → State, ∀ s, exec i s = live i.wf s f := by
  cases i <;> first
    | exact ⟨_, fun s => rfl⟩
    | exact absurd (Eq.refl _) h

/-- A command that is one effect completes, on a part out of reset, with what the effect leaves. -/
theorem completes {i : Instr} {s : State} {ok : Bool} {f : State → State} {P : State → Prop}
    (e : ∀ u, exec i u = live ok u f) (h : s.held = false) (hk : ok = true) (hp : P (s.keepQueue (f s))) :
    ∃ t, exec i s = .next t ∧ P t := ⟨_, (e s).trans (live_next h hk), hp⟩

/-- PORST_N_RISE is the power-up of a part in reset. -/
theorem exec_porstNRise (s : State) : exec .porstNRise s = .next (if s.held then s.keepQueue s.powerUp else s) := rfl

end Sys2Proof.Machine
end

