-- ==== Sys2Proof/Laws/Stores.lean ====
section
/-!
SUPPORT. The canonical form of the stacks, of flash, of the tiles' memories and of the registers: every operation that
reads or writes them keeps it, and the part has it after reset.
-/
namespace Sys2Proof.Machine

/-! ## Stacks -/

/-- The stored granules of every stack are in canonical form. -/
structure State.StacksWf (s : State) : Prop where
  wf : ∀ e, SMap.wf (fun _ => 0) (s.stack e).gran = true

/-- Only the stacks decide it. -/
theorem State.StacksWf.congr {s t : State} (h : s.StacksWf) (e : t.drams = s.drams) : t.StacksWf := by
  refine ⟨fun d => ?_⟩; have := h.wf d; unfold State.stack at this ⊢; rw [e]; exact this

/-- A stack that comes to rest with canonical granules keeps the form. -/
theorem State.StacksWf.onStack {s : State} (h : s.StacksWf) {d : Nat} {f : Stack → Stack}
    (hf : SMap.wf (fun _ => 0) (f (s.stack d)).gran = true) : (s.onStack d f).StacksWf := by
  refine ⟨fun e => ?_⟩
  by_cases he : e = d
  · subst he; rw [State.stack_onStack_self]; exact hf
  · rw [State.stack_onStack_of_ne s f he]; exact h.wf e

/-- A change of a stack beside its granules keeps the form. -/
theorem State.StacksWf.beside {s : State} (h : s.StacksWf) (d : Nat) (f : Stack → Stack) (hf : ∀ x, (f x).gran = x.gran) :
    (s.onStack d f).StacksWf := h.onStack (by rw [hf]; exact h.wf d)

/-- Dropping a range of granules keeps the form. -/
theorem State.StacksWf.drop {s : State} (h : s.StacksWf) (d : Nat) (f : Stack → Stack) (p : Nat → Bool)
    (hf : ∀ x, (f x).gran = SMap.dropIf p x.gran) : (s.onStack d f).StacksWf :=
  h.onStack (by rw [hf]; exact SMap.wf_dropIf (h.wf d))

/-- A store of a granule keeps the form. -/
theorem State.StacksWf.dput {s : State} (h : s.StacksWf) (d k : Nat) (g : Gran) : (s.dput d k g).StacksWf := by
  unfold State.dput
  extract_lets sel hit mask g1 s1
  have h1 : s1.StacksWf := h.onStack (SMap.wf_set (h.wf d))
  split
  · exact h1.congr (by simp only [State.wf_eq, State.wr_drams])
  · exact h1

/-- An armed mask that acts keeps the form. -/
theorem State.StacksWf.flipAt {s : State} (h : s.StacksWf) (d lo hi : Nat) : (s.flipAt d lo hi).StacksWf := by
  unfold State.flipAt
  simp only
  split
  · exact h.dput ..
  · exact h

/-- Counting a finding keeps the form. -/
theorem State.StacksWf.dfound {s : State} (h : s.StacksWf) (d : Nat) (c : Cls3) (fn k syn : Nat) :
    (s.dfound d c fn k syn).StacksWf := by
  unfold State.dfound
  extract_lets cls s1 row
  have h1 : s1.StacksWf := h.congr ((State.wr_drams ..).trans (State.wr_drams ..))
  have hb : ∀ (hi lo : Nat), (s1.bump (aDram d 0x0C) hi lo 1).StacksWf :=
    fun _ _ => h1.congr (by rw [State.bump_eq, State.wr_drams])
  clear_value s1 cls
  cases c
  · exact h1
  · exact (hb ..).beside _ _ (fun _ => rfl)
  · exact h1
  · exact ((hb ..).beside d (fun x => { x with rowDue := addRow x.rowDue row }) (fun _ => rfl)).congr (State.mark_drams ..)

/-- A read of a granule keeps the form. -/
theorem State.StacksWf.dread {s : State} (h : s.StacksWf) (d fn k : Nat) : (s.dread d fn k).1.StacksWf := by
  unfold State.dread
  simp only
  generalize eccClass false ((s.stack d).gr k) = x
  obtain ⟨c, x⟩ := x
  cases c <;> simp only
  · exact h
  · exact (h.dfound ..).beside _ _ (fun _ => rfl)
  · exact h.dfound ..
  · exact (h.dfound ..).dput ..

/-- A write of a granule keeps the form. -/
theorem State.StacksWf.dwrite {s : State} (h : s.StacksWf) (d k : Nat) (x : BitVec 72) : (s.dwrite d k x).StacksWf :=
  h.dput ..

/-- A merge into a granule keeps the form. -/
theorem State.StacksWf.dmerge {s : State} (h : s.StacksWf) (d fn k : Nat) (mask x : BitVec 72) :
    (s.dmerge d fn k mask x).StacksWf := by
  unfold State.dmerge
  split
  · exact h.dwrite ..
  · simp only
    split
    · exact h.dread ..
    · exact (h.dread ..).dwrite ..

/-- A read of one word keeps the form. -/
theorem State.StacksWf.dword {s : State} (h : s.StacksWf) (d fn p w : Nat) : (s.dword d fn p w).1.StacksWf :=
  h.dread ..

/-- A write of words keeps the form. -/
theorem State.StacksWf.dwords (d fn p : Nat) : ∀ (l : List Word) {s : State} (w : Nat), s.StacksWf →
    (s.dwords d fn p w l).StacksWf
  | [], _, _, h => by simpa only [State.dwords] using h
  | [a], s, w, h => by
    unfold State.dwords
    split
    · exact h.dmerge ..
    · exact State.StacksWf.dwords d fn p [] _ (h.dmerge ..)
  | a :: b :: r, s, w, h => by
    unfold State.dwords
    split
    · exact State.StacksWf.dwords d fn p r _ (h.dwrite ..)
    · exact State.StacksWf.dwords d fn p (b :: r) _ (h.dmerge ..)

/-- A read of words keeps the form. -/
theorem State.StacksWf.dreads (d fn p : Nat) : ∀ (n : Nat) {s : State} (w : Nat), s.StacksWf →
    (s.dreads d fn p w n).1.StacksWf
  | 0, _, _, h => h
  | 1, _, w, h => h.dword ..
  | n + 2, _, w, h => by
    unfold State.dreads
    split
    · exact State.StacksWf.dreads d fn p n (w + 2) (h.dread ..)
    · exact State.StacksWf.dreads d fn p (n + 1) (w + 1) (h.dword ..)

/-- Taking slots keeps the form. -/
theorem State.StacksWf.takeSlots {s : State} (h : s.StacksWf) (d row n : Nat) : (s.takeSlots d row n).StacksWf :=
  h.beside _ _ (fun _ => rfl)

/-- A read through the window keeps the form. -/
theorem State.StacksWf.winRead {s : State} (h : s.StacksWf) (addr n : Nat) : (s.winRead addr n).1.StacksWf := by
  unfold State.winRead
  split
  · exact h
  · split
    · exact State.StacksWf.dreads _ _ _ _ _ (h.takeSlots ..)
    · exact h

/-- A write through the window keeps the form. -/
theorem State.StacksWf.winWrite {s : State} (h : s.StacksWf) (addr : Nat) (l : List Word) :
    (s.winWrite addr l).1.StacksWf := by
  unfold State.winWrite
  split
  · exact h
  · split
    · simp only
      split
      · simp only
        split
        · exact State.StacksWf.dwords _ _ _ _ _ (State.StacksWf.takeSlots
            (State.StacksWf.dwords _ _ _ _ _ (h.takeSlots ..)) ..)
        · exact State.StacksWf.dwords _ _ _ _ _ (h.takeSlots ..)
      · exact State.StacksWf.dwords _ _ _ _ _ (h.takeSlots ..)
    · exact h

/-- Making a group's index entries invalid keeps the form. -/
theorem State.StacksWf.histClear {s : State} (h : s.StacksWf) (d g : Nat) : (s.histClear d g).StacksWf := by
  unfold State.histClear
  exact (h.drop d _ (fun k => decide (4 * s.indexStart d g ≤ k ∧ k < 4 * gib (s.hgSum d + g + 1))) (fun _ => rfl)).flipAt ..

/-- The return of a stack keeps the form. -/
theorem State.StacksWf.stackReturn {s : State} (h : s.StacksWf) (d : Nat) : (s.stackReturn d).StacksWf := by
  unfold State.stackReturn
  split
  · exact h
  · extract_lets lo hi tw s0 s1
    have fold : ∀ (l : List Nat) (u : State), (l.foldl (fun (s : State) i =>
        s.onLink (64 * d + i) (fun x => { x with lostTo := some (s.tick - 64) })) u).drams = u.drams := by
      intro l
      induction l with
      | nil => intro u; rfl
      | cons e r ih => intro u; exact (ih _).trans rfl
    have h0 : s0.StacksWf := h.congr (fold _ _)
    have h1 : s1.StacksWf := (h0.drop d _ (fun k => decide (lo ≤ k ∧ k < hi)) (fun _ => rfl)).flipAt ..
    exact h1.congr (by simp only [State.wf_eq, State.wr_drams])

/-- Copying parcels from a stack to another leaves the target canonical. -/
theorem wf_copyParcels (f t : SMap Gran) (p q n : Nat) (h : SMap.wf (fun _ => 0) t = true) :
    SMap.wf (fun _ => 0) (copyParcels f t p q n) = true := by
  have fold : ∀ (l : List (Nat × Gran)) (m : SMap Gran), SMap.wf (fun _ => 0) m = true →
      SMap.wf (fun _ => 0)
        (l.foldl (fun (m : SMap Gran) e => SMap.set (fun _ => 0) m (e.1 - 4 * p + 4 * q) e.2) m) = true := by
    intro l
    induction l with
    | nil => intro m hm; exact hm
    | cons e r ih => intro m hm; exact ih _ (SMap.wf_set hm)
  exact fold _ _ (SMap.wf_dropIf h)

/-- A sweep of granules read under Table 8.6 keeps the form. -/
theorem State.StacksWf.dsweep {s : State} (h : s.StacksWf) (d p n : Nat) : (s.dsweep d p n).StacksWf := by
  have fold : ∀ (l : List (Nat × Gran)) (u : State), u.StacksWf →
      (l.foldl (fun (s : State) e => (s.dread d 3 e.1).1) u).StacksWf := by
    intro l
    induction l with
    | nil => intro u hu; exact hu
    | cons e r ih => intro u hu; exact ih _ (hu.dread ..)
  exact fold _ _ h

/-- The slack spent on restoring a twinned table keeps the form. -/
theorem State.StacksWf.restore {s : State} (h : s.StacksWf) (d : Nat) : (s.restore d).StacksWf := by
  unfold State.restore
  split
  · exact h
  · split
    · exact h.beside _ _ (fun _ => rfl)
    · split
      · exact h
      · extract_lets done n s1 s2
        have h1 : s1.StacksWf := ((h.takeSlots ..).takeSlots ..).dsweep ..
        have h2 : s2.StacksWf := (h1.onStack (wf_copyParcels _ _ _ _ _ (h1.wf d))).flipAt ..
        exact h2.onStack (by split <;> exact h2.wf d)

/-- The end of restoring keeps the form. -/
theorem State.StacksWf.rebuildEnd {s : State} (h : s.StacksWf) (d : Nat) : (s.rebuildEnd d).StacksWf := by
  unfold State.rebuildEnd
  split
  · exact h.congr (by simp only [State.wf_eq, State.wr_drams])
  · exact h

/-! ## Flash -/

/-- The bytes of flash are in canonical form: an unlisted byte reads as erased, 0xFF. -/
def State.FlashWf (s : State) : Prop := SMap.wf (fun _ => 0xFF) s.flash = true

/-- Programming bytes keeps the form. -/
theorem State.FlashWf.program : ∀ (l : List Byte) {s : State} (a : Nat), s.FlashWf → (s.program a l).FlashWf
  | [], _, _, h => h
  | _ :: r, _, a, h => State.FlashWf.program r (a + 1) (SMap.wf_set h)

/-- Erasing bytes keeps the form. -/
theorem State.FlashWf.erase {s : State} (h : s.FlashWf) (a n : Nat) : (s.erase a n).FlashWf :=
  SMap.wf_dropIf (p := fun k => decide (a ≤ k ∧ k < a + n)) h

/-- Writing a firmware slot keeps the form. -/
theorem State.FlashWf.flashWords {s : State} (h : s.FlashWf) (a : Nat) (l : List Word) : (s.flashWords a l).FlashWf := by
  have fold : ∀ (l : List (Nat × Byte)) (m : SMap Byte), SMap.wf (fun _ => 0xFF) m = true →
      SMap.wf (fun _ => 0xFF) (l.foldl (fun (m : SMap Byte) e => SMap.set (fun _ => 0xFF) m (a + e.1) e.2) m) = true := by
    intro l
    induction l with
    | nil => intro m hm; exact hm
    | cons e r ih => intro m hm; exact ih _ (SMap.wf_set hm)
  exact fold _ _ h

/-! ## Reset -/

/-- After reset the registers, the stacks, flash and the memories of every tile are in canonical form. -/
theorem State.reset_wf : SMap.wf regReset State.reset.regs = true ∧ State.reset.StacksWf ∧ State.reset.FlashWf ∧
    ∀ d p, SMap.wf (fun _ => 0) (State.reset.tile d p).gran = true :=
  ⟨rfl, ⟨fun _ => rfl⟩, rfl, fun _ _ => rfl⟩

end Sys2Proof.Machine
end

