-- ==== Sys2Proof/Laws/Tiles.lean ====
section
/-!
SUPPORT. What the operations of a tile can reach: everything beside the tiles of a list of keys and the pair-mismatch word
of the die stays.
-/
namespace Sys2Proof.Machine

/-- Everything but the tiles of the keys listed, the die's pair-mismatch word, the waymarks raised and what is noted about
tiles is as before. -/
def State.TilesOnly (l : List Nat) (d : Nat) (s t : State) : Prop :=
  StoresKept s t ∧ t.tick = s.tick ∧ t.img = s.img ∧ t.sec = s.sec ∧ t.own = s.own ∧ t.out = s.out ∧
  RegsBut (fun q => q = aPwr (0x58 + d)) s t ∧ ∀ e q, tkey e q ∉ l → t.tile e q = s.tile e q

/-- Nothing changes. -/
theorem State.TilesOnly.refl (l : List Nat) (d : Nat) (s : State) : s.TilesOnly l d s :=
  ⟨⟨rfl, rfl, rfl, rfl, rfl, rfl, rfl⟩, rfl, rfl, rfl, rfl, rfl, fun _ _ => rfl, fun _ _ _ => rfl⟩

/-- One change after another. -/
theorem State.TilesOnly.trans {l : List Nat} {d : Nat} {s t u : State} (h : s.TilesOnly l d t) (k : t.TilesOnly l d u) :
    s.TilesOnly l d u := by
  obtain ⟨⟨a1, a2, a3, a4, a5, a6, a7⟩, a9, a10, a11, a12, a13, a14, a15⟩ := h
  obtain ⟨⟨b1, b2, b3, b4, b5, b6, b7⟩, b9, b10, b11, b12, b13, b14, b15⟩ := k
  exact ⟨⟨b1.trans a1, b2.trans a2, b3.trans a3, b4.trans a4, b5.trans a5, b6.trans a6, b7.trans a7⟩,
    b9.trans a9, b10.trans a10, b11.trans a11, b12.trans a12, b13.trans a13, fun q hq => (b14 q hq).trans (a14 q hq),
    fun e q hq => (b15 e q hq).trans (a15 e q hq)⟩

/-- Putting a tile back reaches only that tile. -/
theorem State.setTile_only {l : List Nat} {d p : Nat} (s : State) (c : Nat) (t : Tile) (h : tkey d p ∈ l) :
    s.TilesOnly l c (s.setTile d p t) :=
  ⟨⟨rfl, rfl, rfl, rfl, rfl, rfl, rfl⟩, rfl, rfl, rfl, rfl, rfl, fun _ _ => rfl,
    fun _ _ k => State.tile_setTile_of_ne s t (fun e => k (e ▸ h))⟩

/-- Changing a tile reaches only that tile. -/
theorem State.onTile_only {l : List Nat} {d p : Nat} (s : State) (c : Nat) (f : Tile → Tile) (h : tkey d p ∈ l) :
    s.TilesOnly l c (s.onTile d p f) := s.setTile_only c _ h

/-- Writing the die's pair-mismatch word reaches no tile. -/
theorem State.mismatch_only (l : List Nat) (d n k : Nat) (s : State) :
    s.TilesOnly l d ((s.bump (aPwr (0x58 + d)) 17 0 n).wf (aPwr (0x58 + d)) 22 18 k) :=
  ⟨⟨rfl, rfl, rfl, rfl, rfl, rfl, rfl⟩, rfl, rfl, rfl, rfl, rfl,
    fun q hq => by rw [State.rd_wf_of_ne _ hq, State.rd_bump_of_ne _ hq], fun _ _ _ => rfl⟩

/-- The keys of a tile and its pair partner. -/
def State.pairKeys (s : State) (d p : Nat) : List Nat := tkey d p :: (s.partner d p).toList.map (tkey d)

/-- A tile's own key is among them. -/
theorem State.mem_pairKeys (s : State) (d p : Nat) : tkey d p ∈ s.pairKeys d p := by simp [State.pairKeys]

/-- A tile put back, seen from its pair. -/
theorem State.setTile_pair (s : State) (d p : Nat) (t : Tile) : s.TilesOnly (s.pairKeys d p) d (s.setTile d p t) :=
  s.setTile_only d t (s.mem_pairKeys d p)

/-- A count of a route's words in the tick reaches no tile. -/
theorem State.countWord_only (l : List Nat) (c d : Nat) (x : FlitAt) (s : State) : s.TilesOnly l c (s.countWord d x) :=
  ⟨⟨rfl, rfl, rfl, rfl, rfl, rfl, rfl⟩, rfl, rfl, rfl, rfl, rfl, fun _ _ => rfl, fun _ _ _ => rfl⟩

/-- What a junction admits from a tile reaches that tile only. -/
theorem State.reach_only {l : List Nat} {d p : Nat} (s : State) (c : Nat) (h : tkey d p ∈ l) :
    s.TilesOnly l c (s.reach d p) := by
  have fold : ∀ (xs : List FlitAt) (q : State × List FlitAt), s.TilesOnly l c q.1 →
      s.TilesOnly l c (xs.foldl (fun (q : State × List FlitAt) x =>
        if q.1.enters d p x.port x && x.taken / 32 % 2 == 0 && q.1.allowsWord d x then
          (q.1.countWord d x, q.2 ++ [{ x with taken := x.taken + 32 }])
        else (q.1, q.2 ++ [x])) q).1 := by
    intro xs
    induction xs with
    | nil => intro q hq; exact hq
    | cons x r ih =>
      intro q hq
      refine ih _ ?_
      dsimp only
      split
      · exact hq.trans (State.countWord_only l c d x q.1)
      · exact hq
  exact (fold _ _ (State.TilesOnly.refl l c s)).trans (State.onTile_only _ c _ h)

/-- A note about tiles to be tested reaches no tile. -/
theorem State.distrust_only (l : List Nat) (c : Nat) (k : List Nat) (s : State) : s.TilesOnly l c (s.distrust k) :=
  ⟨⟨rfl, rfl, rfl, rfl, rfl, rfl, rfl⟩, rfl, rfl, rfl, rfl, rfl, fun _ _ => rfl, fun _ _ _ => rfl⟩

/-- Words that leave a tile reach it and its pair partner. -/
theorem State.leave_pair (s : State) (d p : Nat) (t : Tile) (outs : List OutWord) :
    s.TilesOnly (s.pairKeys d p) d (s.leave d p t outs) := by
  unfold State.leave
  split
  · rename_i q hq
    have hk : tkey d q ∈ s.pairKeys d p := by simp [State.pairKeys, hq]
    have hp := s.mem_pairKeys d p
    split
    · have hpr : tkey d (if s.isPrimary d p then p else q) ∈ s.pairKeys d p := by split <;> assumption
      have hpa : tkey d (if s.isPrimary d p then q else p) ∈ s.pairKeys d p := by split <;> assumption
      simp only
      generalize pairAll _ _ _ _ = z
      generalize s.flitsOut d _ z.1 = z1
      generalize s.flitsOut d _ z.2.1 = z2
      have h := ((s.setTile_pair d p { t with rig := t.rig ++ outs }).trans
        (State.setTile_only _ d z1 hpr)).trans (State.setTile_only _ d z2 hpa)
      have h := (h.trans (State.reach_only _ d hpr)).trans (State.reach_only _ d hpa)
      generalize State.reach (State.reach _ _ _) _ _ = w at h ⊢
      split
      · exact h
      · exact (h.trans (State.mismatch_only _ d _ _ _)).trans (State.distrust_only _ d _ _)
    · exact (s.setTile_pair d p _).trans (State.reach_only _ d hp)
  · exact (s.setTile_pair d p _).trans (State.reach_only _ d (s.mem_pairKeys d p))

/-- Cycles of a wait reach the tile only. -/
theorem State.stall_pair (s : State) (d p ext : Nat) : s.TilesOnly (s.pairKeys d p) d (s.stall d p ext) := by
  unfold State.stall
  split
  · exact State.TilesOnly.refl _ _ _
  · exact s.setTile_pair d p _

/-- One step of a resumable operation reaches the tile only. -/
theorem State.stepIssue_pair (s : State) (d p : Nat) (t : Tile) (m : Move) (lvl shape ext : Nat) (once fin : Tile → Tile) :
    s.TilesOnly (s.pairKeys d p) d (s.stepIssue d p t m lvl shape ext once fin) := by
  unfold State.stepIssue
  extract_lets
  repeat' (first | exact s.setTile_pair d p _ | exact s.stall_pair d p ext | split)

/-- One body bundle reaches the tile and its pair partner. -/
theorem State.bodyIssue_pair (s : State) (d p : Nat) (t : Tile) (x : ExpSt) (ext : Nat) :
    s.TilesOnly (s.pairKeys d p) d (s.bodyIssue d p t x ext) := by
  unfold State.bodyIssue
  extract_lets e shape at0
  generalize bodyBundle t.sigByte e x.ops x.opAt x.off = r
  cases r with
  | error st => exact s.setTile_pair d p _
  | ok v =>
    obtain ⟨ms, q, u⟩ := v
    dsimp only
    generalize firstOf u (t.manyStop ms) = f
    cases f with
    | some st => exact s.setTile_pair d p _
    | none =>
      dsimp only
      split
      · exact s.stepIssue_pair d p _ _ _ _ _ _ _
      · generalize s.issueMoves d p _ _ _ _ _ _ = y
        cases y with
        | wait => exact s.stall_pair d p ext
        | trap t2 st c => exact s.setTile_pair d p _
        | ok t2 outs ctl c cost => exact s.leave_pair d p _ _

end Sys2Proof.Machine
end

