-- ==== Sys2Proof/Tests/Slice0.lean ====
section
/-!
SUPPORT. Tests and witnesses. An ill-formed term for each check of WellFormed; for every statement with hypotheses, and for
each of its clauses, a concrete state and operands that meet them together; and one step of some commands, with results
taken from the spec. Expected results come from the spec's tables and worked examples, by hand.
-/
namespace Sys2Proof.Tests

set_option Elab.async false

open Sys2Proof Sys2Proof.Machine

/-! ## Ill-formed commands are refused by the checks -/

theorem ill_die : (Instr.pfw).wf = true ∧ (Instr.waymark 8).wf = false ∧ (Instr.waymark 7).wf = true := by decide
theorem ill_tile : (Instr.bundle 0 73 0).wf = false ∧ (Instr.bundle 7 72 0).wf = true := by decide
theorem ill_slot : (Instr.stateCopyEnd 0 64).wf = false ∧ (Instr.stateCopyEnd 0 63).wf = true := by decide
theorem ill_link : (Instr.lockGain 512 []).wf = false ∧ (Instr.lockGain 511 []).wf = true := by decide
theorem ill_input : (Instr.markerMissing 2 0).wf = false ∧ (Instr.markerMissing 1 0).wf = true := by decide
theorem ill_junction : (Instr.flitForward 0 72 4 1 0).wf = false ∧ (Instr.flitForward 0 71 4 1 0).wf = true := by decide
theorem ill_channel : (Instr.flitForward 0 0 8 1 0).wf = false ∧ (Instr.flitForward 0 0 7 1 0).wf = true := by decide
theorem ill_output : (Instr.flitForward 0 0 4 5 0).wf = false ∧ (Instr.flitForward 0 0 4 4 0).wf = true := by decide
theorem ill_group : (Instr.historyWrite 0 4).wf = false ∧ (Instr.historyWrite 0 3).wf = true := by decide
theorem ill_ibrak : (Instr.retrain 10).wf = false ∧ (Instr.retrain 9).wf = true := by decide
theorem ill_direction : (Instr.ibrakBlockSend 0 2 []).wf = false ∧ (Instr.ibrakBlockSend 0 1 []).wf = true := by decide
theorem ill_stream : (Instr.lookupAnswer 0 0 4).wf = false ∧ (Instr.lookupAnswer 0 0 3).wf = true := by decide
theorem ill_port : (Instr.sessionTimeout 2).wf = false ∧ (Instr.sessionTimeout 1).wf = true := by decide
theorem ill_endpoint : (Instr.pcieRead 2 0 8).wf = false ∧ (Instr.pcieRead 1 0 8).wf = true := by decide
theorem ill_inbound : (Instr.inboundArrive 0 0 8).wf = false ∧ (Instr.inboundArrive 0 0 7).wf = true := by decide
theorem ill_tamper : (Instr.tamper 5).wf = false ∧ (Instr.tamper 4).wf = true := by decide
theorem ill_domain : (Instr.domainReady 0 17).wf = false ∧ (Instr.domainReady 0 16).wf = true := by decide
theorem ill_master : (Instr.tick0Read 5).wf = false ∧ (Instr.tick0Read 24).wf = false ∧ (Instr.tick0Read 704).wf = false ∧
    (Instr.tick0Read 703).wf = true := by decide
theorem ill_cursor : (Instr.win0Read 16).wf = false ∧ (Instr.win0Read 15).wf = true := by decide
theorem ill_mailbox : (Instr.chal 5).wf = false ∧ (Instr.chal 4).wf = true := by decide
theorem ill_parcel : (Instr.rowRepair 0 7635497415 0).wf = false ∧ (Instr.rowRepair 0 7635497414 0).wf = true := by decide

/-! ## A part that runs -/

/-- The part out of reset, start-up done (phase 7), every domain on, all wardens healthy, warden 0 the lead, master 0 the
steward, all stacks up, the tick valid and 1,000. -/
def up : State :=
  let s : State := { State.reset with
    held := false, tick := 1000, sym := 10 ^ 13,
    boot := { State.reset.boot with rom := List.range 8, healthy := List.range 8 } }
  let s1 := (List.range 8).foldl (fun (s : State) d => (s.wr (aPwr (0x18 + d)) 0xAAAAAAAA).wr (aDram d 3) 2) s
  ((((s1.wr (aPwr 0x20) 0xAAAA00).wr aBoot 7).wr (aOwn 0) 0).wr aTimStat 0x28).wr aTimCfg 1000

/-- up with tile 5 of die 0 as given. -/
def withTile (t : Tile) : State := up.setTile 0 5 t

/-- A tile whose instruction memory begins with 8 bytes, running at P0 from address 0. -/
def code (bytes : Nat) : Tile :=
  { Tile.reset with gran := [(0x8000, eccEncode (BitVec.ofNat 72 bytes))], phase := .run }

/-- A message with its check (Table 2.3). -/
def msg (ty : Byte) (pl : List Byte) : List Byte :=
  let l := ty :: BitVec.ofNat 8 pl.length :: pl
  l ++ [BitVec.ofNat 8 (crc16 l / 256), BitVec.ofNat 8 (crc16 l)]

/-- An input that tracks. -/
def tracks : TimIn := { TimIn.reset with tracking := true }

theorem up_is_ready : up.ready = true ∧ up.early = false ∧ up.steward = 0 ∧ up.lead = 0 ∧ up.tickValid = true ∧
    up.stackUp 7 = true ∧ up.rowOn 7 71 = true ∧ up.healthy 7 = true := by decide +kernel

/-! ## Witnesses: the part as a whole, ticks -/

theorem wit_HeldPartIgnoresCommands : State.reset.held = true ∧ Instr.pfw.wf = true ∧ Instr.pfw ≠ .porstNRise := by decide

theorem wit_AnswersExactlyWellFormed : Instr.pfw.wf = true ∧ (Instr.waymark 8).wf = false := by decide

theorem wit_QueueInvariantKept : ({ up with pending := [.pfw, .waymark 7] } : State).queueOk := by
  unfold State.queueOk; decide

theorem wit_MarkerCounts : let s : State := { up with tm0 := tracks }
    s.held = false ∧ (s.tm 0).tracking = true ∧ 5 ≠ s.period ∧ (s.tm 0).fault = false ∧ (s.tm 0).early = false ∧
    (s.wr aTimStat 0x29).elig 0 = true ∧ ((s.wr aTimStat 0x29).tm 0).tracking = true := by decide +kernel

theorem wit_TicksetLoadsNextTick : parseMsg (msg 1 [0, 0, 0, 0, 1, 2]) true = some (1, [0, 0, 0, 0, 1, 2]) ∧
    up.held = false ∧ (up.wr aTimStat 0x20).actsOn 0 1 = true ∧ up.armed = false ∧ up.arming = false := by decide +kernel

theorem wit_MilestoneAdvancesTick : up.held = false ∧ up.tickLoad = none := by decide +kernel

theorem wit_AcceptReachesReadout :
    parseMsg (msg 2 [0, 0, 0, 0, 3, 232, 0, 1, 0, 9]) true = some (2, [0, 0, 0, 0, 3, 232, 0, 1, 0, 9]) ∧
    (up.wr aTimStat 0x20).held = false ∧ (up.wr aTimStat 0x20).actsOn 0 2 = true := by decide +kernel

theorem wit_Tick0ReadLatches_CounterClear : masterOk 0 = true ∧ Served 0 0x43 up ∧ Permitted 0 0x47 up := by
  unfold Permitted Served Reached Alone; decide +kernel

theorem wit_CommitSetsPending : masterOk 0 = true ∧ bitOf (1 : Word) 0 = true ∧ Permitted 0 0x41 up ∧
    Permitted 0 (aDie 7 0x102) up ∧ Permitted 0 (aDram 7 2) up ∧ Permitted 0 (aGrp 7 3 1) up ∧
    Permitted 0 (aLink 511 2) up ∧ Permitted 0 (aPwr 1) up := by
  unfold Permitted Served Reached Alone; decide +kernel

theorem wit_RegisterWriteByClass : masterOk 0 = true ∧ Permitted 0 (aLink 511 8) up ∧ Permitted 0 (aLink 511 0) up ∧
    Served 1 (aLink 511 0) up ∧ up.mayWrite 1 (aLink 511 0) = false ∧
    (regAt 1 (aLink 511 0)).any (fun x => !x.2.1.perMaster) = true ∧
    Served 0 0x1_FFFF_FFFF up ∧ regAt 0 0x1_FFFF_FFFF = none ∧ Served 0 0x4F up ∧ regAt 0 0x4F = none := by
  unfold Permitted Served Reached Alone; decide +kernel

/-! ## Witnesses: tile registers -/

theorem wit_TileCommitAndDoorbell : TileServed 0 7 72 up ∧ up.mayWrite 0 (aTile 7 72 0x3F) = true ∧
    up.mayWrite 0 (aTile 7 72 8) = true := by
  unfold TileServed Alone; decide +kernel

theorem wit_PopDiscardsHeads : TileServed 0 0 5 up ∧ up.mayWrite 0 (aTile 0 5 0x2C) = true := by
  unfold TileServed Alone; decide +kernel

theorem wit_TcrWriteFromOutside : TileServed 0 0 5 up ∧ up.mayWrite 0 (aTile 0 5 0) = true ∧
    ((up.tile 0 5).placed = false ∧ up.tileFlag 0 5 = 0) ∧
    ((withTile (code 0)).tile 0 5).phase ≠ .halt ∧ TileServed 0 0 5 (withTile { code 0 with placed := true }) := by
  unfold TileServed Alone; decide +kernel

theorem wit_PoisonMarksGranule : TileServed 0 0 5 up ∧ up.mayWrite 0 (aTile 0 5 0x1C) = true ∧
    granNameOk 5 (0x23FFF : Word) = true ∧ bitOf (0x23FFF : Word) 17 = true ∧
    (up.tile 0 5).flipOn (fld (0x23FFF : Word) 16 14) (fld (0x23FFF : Word) 13 0) = false := by
  unfold TileServed Alone; decide +kernel

theorem wit_SignpostDataAccess_IndexedTableAccess : TileServed 0 0 5 up ∧ up.mayWrite 0 (aTile 0 5 0x41) = true ∧
    (up.tile 0 5).gr 3 ((up.tile 0 5).spOff / 8) = eccEncode 0 ∧
    (up.tile 0 5).sealedCode 3 (up.tile 0 5).spOff = false ∧
    Permitted 0 (aDie 7 0x101) up ∧ Permitted 0 (aDram 7 0x21) up := by
  unfold TileServed Permitted Served Reached Alone; decide +kernel
theorem wit_SignpostDataAccess_IndexedTableAccess_flip : ∀ i, (up.tile 0 5).flipOn 3 i = false := by
  intro i; have h : bitOf ((up.tile 0 5).ior 0x1B) 18 = false := by decide +kernel
  simp [Tile.flipOn, h]

/-! ## Witnesses: tiles that run -/

/-- r1 takes the literal 5 (Tables 4.1 to 4.3): header 00, destination 01, source E5. -/
def mv : Insn := ⟨false, .none, .bundle [⟨1, 0xE5, 0, 5, 0, 1⟩], 3, none⟩

theorem decode_move : (code 0xE50100).insn 2 = .ok mv := by decide +kernel
theorem wit_BundleMovesRegister : let s := withTile (code 0xE50100)
    s.held = false ∧ s.canIssue 0 5 (s.tile 0 5) = true ∧ s.partner 0 5 = none ∧ (s.tile 0 5).PlainIssue ∧
    (s.tile 0 5).insn (s.tile 0 5).level = .ok mv := by
  unfold Tile.PlainIssue; decide +kernel
theorem wit_BundleMovesRegister_clean : ∀ k, eccSyn ((code 0xE50100).gr 2 k) = 0 := by
  intro k
  by_cases h : k = 0
  · subst h; decide +kernel
  · have e : (code 0xE50100).gr 2 k = 0 := by
      simp [Tile.gr, Tile.gkey, code, Tile.reset, SMap.get]
      exact fun h0 => absurd h0 h
    rw [e]; decide +kernel

/-- alu0 adds the literal 5 to its latched operand. -/
def addMv : Insn := ⟨false, .none, .bundle [⟨0x3A, 0xE5, 1, 5, 0, 1⟩], 4, none⟩
theorem wit_BundleMovesRegister_alu : let s := withTile { code 0x01E53A00 with sock := [(0x38, 7)] }
    s.canIssue 0 5 (s.tile 0 5) = true ∧ s.partner 0 5 = none ∧ (s.tile 0 5).PlainIssue ∧
    (s.tile 0 5).insn (s.tile 0 5).level = .ok addMv ∧ (s.tile 0 5).guardOk ⟨0x3A, 0xE5, 1, 5, 0, 1⟩ = true ∧
    aluOp 1 ((s.tile 0 5).sk 0x38) ((s.tile 0 5).sk 0x39) 5 = some ⟨12, false, false, false⟩ := by
  unfold Tile.PlainIssue; decide +kernel
theorem wit_BundleMovesRegister_operand : let s := withTile (code 0xE53800)
    (s.tile 0 5).insn (s.tile 0 5).level = .ok ⟨false, .none, .bundle [⟨0x38, 0xE5, 0, 5, 0, 1⟩], 3, none⟩ ∧
    sockKind 0x38 = some .rw := by decide +kernel
/-- The instruction at the pc has no decode trap. -/
def dOk (t : Tile) : Bool := match t.insn t.level with
  | .ok i => (t.decodeStop t.level (t.runs i) i).isNone
  | .error _ => false
theorem wit_PrefixesBegin_repI : let s := withTile (code 0xE50100_0480)
    s.canIssue 0 5 (s.tile 0 5) = true ∧ (s.tile 0 5).PlainIssue ∧ dOk (s.tile 0 5) = true ∧ (s.tile 0 5).fetched = false ∧
    (s.tile 0 5).insn (s.tile 0 5).level = .ok ⟨false, .repI 5, .bundle [⟨1, 0xE5, 0, 5, 0, 3⟩], 5, none⟩ := by
  unfold Tile.PlainIssue; decide +kernel
theorem wit_PrefixesBegin_repS :
    let s := withTile { code 0xE50100_81 with sock := [(0x2B, 3)] }
    s.canIssue 0 5 (s.tile 0 5) = true ∧ (s.tile 0 5).PlainIssue ∧ dOk (s.tile 0 5) = true ∧
    fld ((s.tile 0 5).sk 0x2B) 17 0 ≠ 0 ∧
    (s.tile 0 5).insn (s.tile 0 5).level = .ok ⟨false, .repS, .bundle [⟨1, 0xE5, 0, 5, 0, 2⟩], 4, none⟩ := by
  unfold Tile.PlainIssue; decide +kernel
theorem wit_PrefixesBegin_seal : let s := withTile (code 0xE50100_84)
    s.canIssue 0 5 (s.tile 0 5) = true ∧ (s.tile 0 5).PlainIssue ∧ dOk (s.tile 0 5) = true ∧
    (s.tile 0 5).insn (s.tile 0 5).level = .ok ⟨true, .none, .bundle [⟨1, 0xE5, 0, 5, 0, 2⟩], 4, none⟩ := by
  unfold Tile.PlainIssue; decide +kernel
theorem wit_PrefixesBegin_loopI : let s := withTile (code 0x01_0003_82)
    s.canIssue 0 5 (s.tile 0 5) = true ∧ (s.tile 0 5).PlainIssue ∧ dOk (s.tile 0 5) = true ∧
    (s.tile 0 5).insn (s.tile 0 5).level = .ok ⟨false, .none, .loopI 4 1, 4, none⟩ := by
  unfold Tile.PlainIssue; decide +kernel
theorem wit_PrefixesBegin_loopS : let s := withTile (code 0x01_02_83)
    s.canIssue 0 5 (s.tile 0 5) = true ∧ (s.tile 0 5).PlainIssue ∧ dOk (s.tile 0 5) = true ∧
    (s.tile 0 5).insn (s.tile 0 5).level = .ok ⟨false, .none, .loopS 2 1 1, 3, none⟩ := by
  unfold Tile.PlainIssue; decide +kernel
theorem wit_MacroBegins :
    let s := withTile { code 0xC0 with gran := [(0x8000, eccEncode 0xC0), (0xC000, eccEncode (1 + 0x200 * 2 ^ 32 + 3 * 2 ^ 48))] }
    s.canIssue 0 5 (s.tile 0 5) = true ∧ (s.tile 0 5).PlainIssue ∧ dOk (s.tile 0 5) = true ∧
    (s.tile 0 5).insn (s.tile 0 5).level = .ok ⟨false, .none, .macro_ 0 0, 1, none⟩ := by
  unfold Tile.PlainIssue; decide +kernel

/-- A trap of code 2 raised at address 6, its TCR writes done. -/
def tr : Trap := ⟨2, 7, 6, 0, true, false, true, 0⟩
theorem wit_TrapEntrySaves :
    let s := withTile { code 0 with
      raised := some tr, tcrQ := [(1, 2)], rep := some 4, loop := some ⟨8, 2, 1, 3, false, false⟩,
      exp := some ⟨0, 1, 0, [], true, 2, 4, 5, 0⟩ }
    let u := withTile { code 0 with raised := some { tr with code := 0x11, soft := false } }
    s.held = false ∧ s.clocked 0 5 = true ∧ (s.tile 0 5).raised = some tr ∧ tr.tcrDone = true ∧
    (s.tile 0 5).tcrQ.getLast? = some (1, 2) ∧ (s.tile 0 5).rep = some 4 ∧ (s.tile 0 5).loop.isSome = true ∧
    (s.tile 0 5).exp.isSome = true ∧ u.clocked 0 5 = true ∧ (u.tile 0 5).raised.isSome = true ∧ (u.tile 0 5).rep = none ∧
    (u.tile 0 5).rsmRep = none ∧ (u.tile 0 5).loop = none ∧ (u.tile 0 5).exp = none ∧ (u.tile 0 5).rsmMc = none := by
  decide +kernel
theorem wit_EventsAreTaken :
    ((withTile { code 0 with io := [(7, 4)] }).tile 0 5).lateDue = true ∧
    ((withTile { code 0 with io := [(0, 64), (7, 8)] }).tile 0 5).lateDue = false ∧
    ((withTile { code 0 with io := [(0, 64), (7, 8)] }).tile 0 5).tollDue false = true ∧
    ((withTile { code 0 with io := [(0, 8), (7, 2)] }).tile 0 5).lateDue = false ∧
    ((withTile { code 0 with io := [(0, 8), (7, 2)] }).tile 0 5).tollDue false = false ∧
    ((withTile { code 0 with io := [(0, 8), (7, 2)] }).tile 0 5).migrDue false = true ∧
    ((withTile { code 0 with io := [(0, 8), (7, 1)] }).tile 0 5).lateDue = false ∧
    ((withTile { code 0 with io := [(0, 8), (7, 1)] }).tile 0 5).tollDue false = false ∧
    ((withTile { code 0 with io := [(0, 8), (7, 1)] }).tile 0 5).migrDue false = false ∧
    ((withTile { code 0 with io := [(0, 8), (7, 1)] }).tile 0 5).bellDue false = true ∧
    up.partner 0 5 = none := by decide +kernel

/-- A placed P1 tile with its routine enabled. -/
def rtnTile (ph : Phase) (next : Nat) : Tile :=
  { Tile.reset with io := [(0, 1), (0x100, 0x800000)], phase := ph, placed := true, nextN := BitVec.ofNat 48 next }
theorem wit_RoutineBegins : let s := withTile (rtnTile .wait 1000)
    let u := withTile { Tile.reset with phase := .wait, waitAt := 1000 }
    (s.canBegin 0 5 (s.tile 0 5) = true ∨ (withTile (rtnTile .wait 999)).canBegin 0 5 (rtnTile .wait 999) = true) ∧
    (u.tile 0 5).phase = .wait ∧ (u.tile 0 5).level ≠ 0 ∧ (u.tile 0 5).raised = none ∧
    (u.tile 0 5).eventDue (u.partner 0 5).isSome = false ∧ notEarlier u.tick (u.tile 0 5).waitAt = true ∧
    u.depositsIn 0 5 ((u.tile 0 5).waitAt - 1) = true := by decide +kernel

theorem wit_RoutineOverrunSkipAbandon :
    let s := withTile { rtnTile .run 1000 with inRtn := true, rtn := 990 }
    let u := withTile (rtnTile .wait 900)
    ((s.tile 0 5).overDue s.tick = true) ∧ ((u.tile 0 5).skipDue u.tick = true) ∧ u.tickGone 0 5 (u.tile 0 5) = false ∧
    ((s.tile 0 5).abandonDue s.tick = true) ∧ (s.tile 0 5).phase ≠ .halt := by decide +kernel

theorem wit_TollEventCounted : ((withTile { code 0 with evq := [5] }).tile 0 5).evq = [5] := by decide +kernel

/-- A store of a granule of data space that has retired by cycle due. -/
def st (g due : Nat) : SbEntry := ⟨g, 0xFF, 5, 0, due⟩
/-- A write-back of exchange granule 2 that master 9 (code 9) found. -/
def wbx : WbEntry := ⟨0x4002, 5, some 9⟩
theorem wit_StoresReachMemory :
    let s := withTile { code 0 with sb := [st 0 2], clk := 2, wb := [⟨0, 5, none⟩] }
    let u := up.setTile 7 72 { code 0 with sb := [st 0x4FFF 0], io := [(0x1E, 1)] }
    let v := withTile { code 0 with sb := [st 0x4002 0], wb := [wbx] }
    (s.tile 0 5).sb = [st 0 2] ∧ (s.tile 0 5).gr (dataGran 0).1 (dataGran 0).2 = eccEncode 0 ∧
    (s.tile 0 5).flipOn 0 0 = false ∧ (st 0 2).due ≤ (s.tile 0 5).clk ∧ (s.tile 0 5).sbBlocked (st 0 2) = false ∧
    (s.tile 0 5).clk < (st 0 3).due ∧ (s.tile 0 5).phase = .run ∧
    (u.tile 7 72).sb = [st 0x4FFF 0] ∧ (u.tile 7 72).sbBlocked (st 0x4FFF 0) = true ∧
    (s.tile 0 5).wb = [⟨0, 5, none⟩] ∧ (s.tile 0 5).ungkey 0 = 0 ∧
    (v.tile 0 5).wb = [wbx] ∧ wbx.key / 0x4000 = 1 ∧ wbx.agent = some 9 ∧ (v.tile 0 5).ungkey wbx.key = 2 ∧
    (v.tile 0 5).flipOn 1 2 = false ∧ ((v.tile 0 5).ownWrite 1 2).isSome = true := by decide +kernel

theorem wit_ScrubAdvances : let s := withTile { Tile.reset with io := [(0x10, 1)] }
    bitOf ((s.tile 0 5).ior 0x10) 0 = true ∧
    eccSyn ((s.tile 0 5).gr (scrubAt ((s.tile 0 5).iof 0x17 14 0)).1 (scrubAt ((s.tile 0 5).iof 0x17 14 0)).2) = 0 ∧
    SMap.get (fun _ => 0) s.pwr.tile (tkey 0 5) ≠ 4 ∧ s.rowOn 0 5 = true ∧ State.reset.rowOn 0 5 = false := by
  decide +kernel

theorem wit_DataSideAccess : (up.tile 0 5).gr (dataGran 0x8FFF).1 (dataGran 0x8FFF).2 = eccEncode 0 ∧
    up.mayWrite 0 (aTile 0 5 (0x1_0000 + 0x8FFF)) = true ∧ up.held = false ∧ (up.tile 0 5).bcp = none ∧
    up.mayWrite 1 (aTile 0 5 (0x1_0000 + 0x8FFF)) = false ∧
    (up.tile 0 5).flipOn (dataGran 0x8FFF).1 (dataGran 0x8FFF).2 = false := by decide +kernel

theorem wit_VaultWipes : let s := up.setTile 7 72 { Tile.reset with io := [(0x1E, 1)], vwipe := 3 }
    bitOf ((s.tile 7 72).ior 0x1E) 0 = true ∧ (s.tile 7 72).vwipe = 2 + 1 := by decide +kernel
theorem wit_VaultWipes_flip (t : Tile) (h : bitOf (t.ior 0x1B) 18 = false) : ∀ i, t.flipOn 4 i = false := by
  intro i; simp [Tile.flipOn, h]

/-! ### Moves to the units, and other clauses -/

/-- Every granule of instruction memory is a clean codeword, where only the first holds code. -/
theorem clean_code (t : Tile) (n : Nat) (h : t.gran = (code n).gran) (hn : eccSyn (eccEncode (BitVec.ofNat 72 n)) = 0) :
    ∀ k, eccSyn (t.gr 2 k) = 0 := by
  intro k
  have e : t.gr 2 k = (code n).gr 2 k ∨ t.gr 2 k = (code n).gr 2 ((k + 4096) % 8192) := by
    unfold Tile.gr Tile.gkey; rw [h]; cases t.ihalf <;> simp [code, Tile.reset]
  have f : ∀ k, eccSyn ((code n).gr 2 k) = 0 := by
    intro k
    by_cases z : k = 0
    · subst z; exact hn
    · have e : (code n).gr 2 k = 0 := by
        simp [Tile.gr, Tile.gkey, code, Tile.reset, SMap.get]
        exact fun h0 => absurd h0 z
      rw [e]; decide +kernel
  rcases e with e | e <;> rw [e] <;> exact f _

/-- The code of a bundle of one move: destination, source, operation. -/
def bun (dst src op : Nat) : Nat := dst * 256 + src * 65536 + op * 2 ^ 24
/-- What a tile's next instruction is, if it has one move: its destination, operation, immediate and the address after. -/
def oneMove (t : Tile) : Option (Insn × Move) := match t.insn t.level with
  | .ok i => match i.body with
    | .bundle [m] => some (i, m)
    | _ => none
  | .error _ => none
/-- Tile 5 of die 0 is about to issue a one-move bundle; its granules apart, OneMove. -/
def about (s : State) (dst op : Nat) : Bool :=
  let t := s.tile 0 5
  !s.held && s.canIssue 0 5 t && s.partner 0 5 == none && t.exp == none && t.rep == none && t.loop == none && !t.sealed &&
  !t.stepping && t.hold == none && t.rsmRep == none && t.rsmMc == none && t.tcrQ == [] && t.soft == none && t.psn == [] &&
  (oneMove t).any (fun x => x.1.undef == none && !x.1.sealed && x.1.rep == .none && x.2.dst == dst &&
    x.2.op == op && (decide (0xE0 ≤ x.2.src) || decide (x.2.src < 0x20)) && t.guardOk x.2)
theorem code_clean : ∀ n ∈ [bun 0x82 0xE5 0x2F, bun 0x82 0xE5 0x09, bun 0x82 0xE5 2, bun 0x92 0xE5 0, bun 0x92 0xE5 0x10,
    bun 0xA2 0xE5 1, bun 0xB1 0xE5 7, bun 0xB2 0xE5 7, bun 0xC3 0xE5 2, bun 0x2F 0xE5 3, bun 0x28 0xE5 0, bun 0x29 0xE5 0xFF,
    bun 0x2A 0xE5 0, bun 0x2C 0xE5 0, bun 0x30 0xE5 0xE, bun 0x31 0xE5 0], eccSyn (eccEncode (BitVec.ofNat 72 n)) = 0 := by
  decide +kernel
theorem wit_BundleMovesRegister_store : let s := withTile { code (bun 0x82 0xE5 0x2F) with sock := [(0x80, 10)] }
    about s 0x82 0x2F = true ∧ bitOf ((s.tile 0 5).ior 0x1E) 0 = false ∧
    (s.tile 0 5).map (5 == 72) (effAddr ((s.tile 0 5).sk 0x80) 5) = some 15 := by decide +kernel
theorem wit_BundleMovesRegister_load : let s := withTile { code (bun 0x82 0xE5 0x09) with sock := [(0x80, 10)] }
    let u := withTile { code (bun 0x82 0xE5 2) with sock := [(0x80, 11)] }
    about s 0x82 9 = true ∧ bitOf ((s.tile 0 5).ior 0x1E) 0 = false ∧ (s.tile 0 5).sb = [] ∧
    (s.tile 0 5).map (5 == 72) (effAddr ((s.tile 0 5).sk 0x80) 5) = some 15 ∧
    eccClass false ((s.tile 0 5).bcpFlush.gr (dataGran 15).1 (dataGran 15).2) = (.clean, 0) ∧
    about u 0x82 2 = true ∧ (u.tile 0 5).map2 (5 == 72) (effAddr ((u.tile 0 5).sk 0x80) 5) = some 16 := by
  decide +kernel
theorem wit_BundleMovesRegister_io : let s := withTile { code (bun 0x92 0xE5 0) with sock := [(0x90, 3)] }
    let u := withTile { code (bun 0x92 0xE5 0x10) with sock := [(0x90, 3), (0x91, 77)] }
    about s 0x92 0 = true ∧ effAddr ((s.tile 0 5).sk 0x90) 5 = 8 ∧ (tileReg 5 8).isSome = true ∧
    about u 0x92 0x10 = true ∧ (u.tile 0 5).level ≠ 0 ∧ (tileReg 5 0x2C).any (fun r => !r.1.hasRws) = true ∧
    about (withTile { code (bun 0x92 0xE5 0x10) with sock := [(0x90, 0x27), (0x91, 77)], io := [(0, 1)] }) 0x92 0x10 = true := by decide +kernel
theorem wit_BundleMovesRegister_window :
    let s := withTile { code (bun 0x92 0xE5 0) with sock := [(0x90, 0xFFFA)], io := [(0, 0)] }
    let u := withTile { code (bun 0x92 0xE5 0x10) with sock := [(0x90, 0x7FFB), (0x91, 77)], io := [(0, 0)] }
    about s 0x92 0 = true ∧ effAddr ((s.tile 0 5).sk 0x90) 5 = 0xFFFF ∧ (s.tile 0 5).level = 2 ∧ (s.tile 0 5).port.length < 16 ∧
    about u 0x92 0x10 = true ∧ effAddr ((u.tile 0 5).sk 0x90) 5 = 0x8000 ∧ (u.tile 0 5).level = 2 := by
  decide +kernel
/-- A table of four parcels in image im0's place, bound to handle 3 of tile 5. -/
theorem wit_BundleMovesRegister_look :
    let s := withTile { code (bun 0xA2 0xE5 1) with sock := [(0xA0, 6)], io := [(0x32, wd (2 ^ 15 + 4096)), (0x33, wd (4 * 64))] }
    about s 0xA2 1 = true ∧ bitOf ((s.tile 0 5).ior (0x30 + 2 * 1)) 15 = true ∧
    (s.tile 0 5).lkHeld 1 + 2 ^ (s.tile 0 5).iof (0x30 + 2 * 1) 13 12 ≤ 16 := by decide +kernel
theorem wit_BundleMovesRegister_egress :
    let s := withTile { code (bun 0xB1 0xE5 7) with io := [(0x5F, wd (511 + 2 ^ 9))] }
    let u := withTile { code (bun 0xB2 0xE5 7) with io := [(0x5F, wd (511 + 2 ^ 9))] }
    about s 0xB1 7 = true ∧ about u 0xB2 7 = true ∧ (s.tile 0 5).slotAt 7 s.tick = some (511, 1000) ∧
    (s.tile 0 5).cpl.contains (511, 1000) = false ∧ (s.tile 0 5).egFull = false ∧
    ((s.tile 0 5).sk 0xB0).toNat < s.linkW 511 := by decide +kernel
theorem wit_BundleMovesRegister_mesh :
    let s := withTile { code (bun 0xC3 0xE5 2) with io := [(0x62, wd (2 ^ 14 + 3 * 4096 + 33))] }
    about s 0xC3 2 = true ∧ bitOf ((s.tile 0 5).ior (0x60 + 2)) 14 = true ∧ (s.tile 0 5).iof (0x60 + 2) 13 12 = 3 ∧
    (s.tile 0 5).chFull 3 = false := by decide +kernel
theorem wit_BundleMovesRegister_jumps : about (withTile (code (bun 0x2F 0xE5 3))) 0x2F 3 = true ∧
    about (withTile (code (bun 0x28 0xE5 0))) 0x28 0 = true ∧ about (withTile (code (bun 0x30 0xE5 0xE))) 0x30 0xE = true ∧
    about (withTile (code (bun 0x2C 0xE5 0))) 0x2C 0 = true ∧ ((code (bun 0x30 0xE5 0xE))).level ≠ 0 ∧
    about (withTile { code (bun 0x2C 0xE5 0) with io := [(0, 1)], inRtn := true }) 0x2C 0 = true := by
  decide +kernel
/-- A tile with a stack of all data memory below 0x8000, its pointer given. -/
def stk (n sp : Nat) : Tile := { code n with io := [(0, 0xFF000000), (6, wd sp)] }
theorem wit_BundleMovesRegister_call : about (withTile (stk (bun 0x29 0xE5 0xFF) 0x8000)) 0x29 0xFF = true ∧
    about (withTile (stk (bun 0x2A 0xE5 0) 0x7FF0)) 0x2A 0 = true := by
  decide +kernel
theorem wit_BundleMovesRegister_retx :
    let s := withTile { code (bun 0x31 0xE5 0) with io := [(1, 0x44), (2, wd (2 ^ 15 + 2 ^ 16 + 2 ^ 14)), (3, 1), (4, 1)] }
    about s 0x31 0 = true ∧ (s.tile 0 5).level ≠ 0 ∧ bitOf ((s.tile 0 5).ior 2) 16 = true ∧ bitOf ((s.tile 0 5).ior 2) 15 = true ∧
    retxBad (s.tile 0 5).tcr (retxKeep (s.tile 0 5).tcr ((s.tile 0 5).ior 3)) 0 = false ∧
    retxBad (s.tile 0 5).tcr (retxKeep (s.tile 0 5).tcr ((s.tile 0 5).ior 4)) 0 = false := by
  decide +kernel

theorem wit_AluArithmetic : let u : Tile := { Tile.reset with io := [(0, 48)], sock := [(0x38, 0x7FFFFFFFF), (0x78, 0x800000000)] }
    (aluOp 5 (u.sk 0x38) (u.sk (0x38 + 1)) 1).any (fun x => x.ovf && x.v) = true ∧ bitOf u.tcr 4 = true ∧
    (divOp 0 (u.sk 0x78) 0).any (fun x => x.trap == 6) = true ∧ bitOf u.tcr 5 = true ∧
    (divOp 0 (u.sk 0x78) 0xFFFFFFFFF).any (fun x => x.trap == 7) = true ∧ (0x800000000 : Word).toInt = -34359738368 ∧
    (0xFFFFFFFFF : Word).toInt = -1 := by decide +kernel
theorem wit_PrefixesBegin_skip : let s := withTile (code 0xE50100_81)
    s.canIssue 0 5 (s.tile 0 5) = true ∧ dOk (s.tile 0 5) = true ∧ (s.tile 0 5).fetched = false ∧
    fld ((s.tile 0 5).sk 0x2B) 17 0 = 0 := by decide +kernel
theorem wit_EventsAreTaken_clocked : up.clocked 0 5 = true ∧ up.held = false := by decide +kernel
theorem wit_RoutineBegins_wait : let u := withTile { Tile.reset with phase := .wait, waitAt := 1000 }
    u.clocked 0 5 = true ∧ u.held = false := by decide +kernel
theorem wit_RoutineOverrunSkipAbandon_migr : (withTile (rtnTile .wait 900)).tickGone 0 5 (rtnTile .wait 900) = false ∧
    (rtnTile .wait 900).migrAt = none := by decide +kernel
theorem wit_TollEventCounted_kinds : let s := withTile { code 0 with io := [(0, 64)], evq := [4] }
    fld (1 : Word) 3 0 = 1 ∧ fld (2 : Word) 3 0 = 2 ∧ fld (3 : Word) 3 0 = 3 ∧ fld (4 : Word) 3 0 = 4 ∧ bitOf (s.tile 0 5).tcr 6 = true ∧ (s.tile 0 5).phase ≠ .halt ∧
    bitOf ((withTile (code 0)).tile 0 5).tcr 6 = false := by decide +kernel

/-! ## Witnesses: mesh, Ibrak links, crossroads -/

/-- A flit of route 0 and bank 0 at a port, sealed, its entry naming output port o. -/
def fl (port o : Nat) (f : BitVec 72) : FlitAt := ⟨port, f, 0, some (wd (1 + 2 ^ (o + 1)))⟩
/-- up with a flit at an input of junction 9 of die 0. -/
def withFlit (x : FlitAt) : State := up.onJunc 0 9 (fun j => { j with inq := [x] })
/-- up with an allowance of one word on route 0 and a flit in outbound channel 3 of tile 7 of die 0. -/
def outFlit : State :=
  (up.wr (aNet 0 127 0 0) 3).setTile 0 7 { Tile.reset with outc := [fl 3 2 (flitSeal 0)] }
theorem wit_FlitForwards : let s := withFlit (fl 4 3 (flitSeal 0))
    let u := withFlit (fl 7 0 (flitSeal 0 ^^^ 1))
    let v := withFlit (fl 4 3 (flitSeal 0 ^^^ BitVec.ofNat 72 (2 ^ 40)))
    s.jHead 0 9 4 = some (fl 4 3 (flitSeal 0)) ∧ flitHErr (flitSeal 0) = false ∧ neighbour 9 3 = some 17 ∧
    flitDErr (flitSeal 0) = false ∧ entryOk 0 9 (s.jEntry 0 9 (fl 4 3 (flitSeal 0))) = true ∧
    fld (s.jEntry 0 9 (fl 4 3 (flitSeal 0))) 5 1 = 2 ^ 3 ∧ s.admitted 0 9 4 (fl 4 3 (flitSeal 0)) = true ∧
    s.turn 0 9 3 = some 4 ∧
    u.jHead 0 9 7 = some (fl 7 0 (flitSeal 0 ^^^ 1)) ∧ flitDErr (flitSeal 0 ^^^ 1) = true ∧
    flitHErr (flitSeal 0 ^^^ 1) = false ∧ u.admitted 0 9 7 (fl 7 0 (flitSeal 0 ^^^ 1)) = true ∧ u.turn 0 9 0 = some 7 ∧
    v.jHead 0 9 4 = some (fl 4 3 (flitSeal 0 ^^^ BitVec.ofNat 72 (2 ^ 40))) ∧
    flitHErr (flitSeal 0 ^^^ BitVec.ofNat 72 (2 ^ 40)) = true ∧ entryOk 0 9 (0 : Word) = false := by decide +kernel
theorem wit_FlitForwards_edge : let s := outFlit
    s.jHead 0 7 3 = some (fl 3 2 (flitSeal 0)) ∧ entryOk 0 7 (s.jEntry 0 7 (fl 3 2 (flitSeal 0))) = true ∧
    fld (s.jEntry 0 7 (fl 3 2 (flitSeal 0))) 5 1 = 2 ^ 2 ∧ neighbour 7 2 = none ∧ (sideDir 0 1).isSome = true ∧
    (sideDir 0 1).any (fun x => !(s.ibkOos x.1)) = true ∧ s.admitted 0 7 3 (fl 3 2 (flitSeal 0)) = true ∧
    s.turn 0 7 2 = some 3 := by decide +kernel

theorem wit_InboundArrives : let s := up.onJunc 0 5 (fun j => { j with inq := [⟨15, 0, 0, none⟩] })
    let u := s.setTile 0 5 { Tile.reset with inb := List.replicate 15 ⟨7, 0, false⟩ }
    (s.junc 0 5).inq.find? (fun (y : FlitAt) => y.port = 8 + 7) = some ⟨15, 0, 0, none⟩ ∧ s.partner 0 5 ≠ some 5 ∧
    (∀ e ∈ 5 :: (u.partner 0 5).toList, waiting (u.tile 0 e).inb 7 < 16) := by decide +kernel

/-- A block of an Ibrak direction. -/
def blk (n : Nat) : IbkBlock := ⟨n, 0, false, [0, 0, 0, 0], []⟩
/-- up with link 9 in service, and direction 1 of it with the blocks given held, replaying and on the wire, in its fourth
failure. -/
def ibkSt (held replaying : List IbkBlock) (wire : List IbkBlock) : State :=
  (up.wr (aIbk (linkEnds 9).1) 1).onDir 9 1 (fun x => { x with
    held := held, replaying := replaying, wire := wire.map IbkBlock.bits, failRun := 3 })
theorem wit_IbrakBlocks : let s := ibkSt [] [] []
    let u := ibkSt (List.replicate 15 (blk 0)) [] []
    let v := ibkSt (List.replicate 16 (blk 0)) [] []
    let r := ibkSt [blk 4] [blk 4] []
    s.held = false ∧ s.ibkUp 9 = true ∧ (s.dir 9 1).replaying = [] ∧ (u.dir 9 1).held.length < 16 ∧
    (v.dir 9 1).replaying = [] ∧ 16 ≤ (v.dir 9 1).held.length ∧ r.ibkUp 9 = true ∧ (r.dir 9 1).replaying = [blk 4] := by
  decide +kernel
set_option maxRecDepth 100000 in
theorem wit_IbrakBlocks_good : blockGood (blk 0).bits.1 = true := by decide +kernel
set_option maxRecDepth 100000 in
theorem wit_IbrakBlocks_late : blockGood (blk 4095).bits.1 = true := by decide +kernel
set_option maxRecDepth 100000 in
theorem wit_IbrakBlocks_bad : blockGood ((blk 0).bits.1 ^^^ 1) = false := by decide +kernel
set_option maxRecDepth 100000 in
theorem wit_IbrakBlocks_receive : let s := ibkSt [] [] [blk 0]
    (s.dir 9 1).wire = [(blk 0).bits] ∧ (blockRead (blk 0).bits).seq = (s.dir 9 1).want ∧
    (s.dir 9 1).failRun = 3 ∧ s.ibkUp 9 = true ∧ (up.dir 9 1).failRun < 3 ∧
    (blockRead (blk 4095).bits).seq ≠ (s.dir 9 1).want := by
  decide +kernel

theorem wit_IbrakRetrains : (up.wr (aIbk (linkEnds 9).1) 1).ibkUp 9 = true ∧
    (up.wr (aIbk (linkEnds 9).1) 2).rb (aIbk (linkEnds 9).1) 1 = true ∧ 4 ∉ up.sec.active ∧
    (up.ibLink 9).fails < 2 ∧ 2 ≤ ((up.setIbLink 9 ⟨2, false⟩).wr (aIbk (linkEnds 9).1) 2 |>.ibLink 9).fails ∧
    ((up.setIbLink 9 ⟨2, false⟩).wr (aIbk (linkEnds 9).1) 2).rb (aIbk (linkEnds 9).1) 1 = true := by decide +kernel

theorem wit_TransactionAnswers : masterOk 703 = true ∧ Served 703 0 up ∧ up.isMaster 703 = true ∧ up.isMaster 3 = true ∧
    Alone 1 up ∧ burstBad 1 1 = true ∧ up.hasMaster 3 = true ∧
    (({ up with drains := [⟨3, 0, 0, 0⟩] } : State).draining 3 = true) ∧
    (({ up with drains := [⟨3, 0, 0, 0⟩] } : State).hasMaster 3 = true) := by
  unfold Served Reached Alone; decide +kernel

/-- A window load of PKG_ID, and a window store of PKG_TIM_CNTCLR. -/
def load0 : PortReq := ⟨false, 0, 0, 0, false, false⟩
def store47 : PortReq := ⟨true, 0, 0x47, 3, false, false⟩
/-- A look of one word at stream 3. -/
def look3 : LkReq := ⟨3, 1, 1, 0, 1, (0, 0), none, false, false, []⟩
theorem wit_WindowLoadAnswers_LookupAnswers : let s := withTile { code 0 with port := [load0], lkReq := [look3] }
    (s.tile 0 5).port = load0 :: [] ∧ load0.held = false ∧ load0.store = false ∧ load0.drop = false ∧ load0.addr = 0 ∧
    s.partner 0 5 = none ∧ Reached (0x80 + 72 * 0 + 5) 0 s ∧ s.draining (0x80 + 72 * 0 + 5) = false ∧
    ((withTile { code 0 with port := [store47] }).tile 0 5).port = store47 :: [] ∧ store47.store = true ∧
    store47.addr = 0x47 ∧ Reached (8 + 7) 0x47 s ∧ Reached (0x80 + 72 * 0 + 5) 0x47 s ∧
    (s.tile 0 5).lkReq.find? (fun (y : LkReq) => y.stream = 3) = some look3 ∧ look3.held = false ∧
    (s.lookWords 0 look3).isSome = true ∧ s.lookCopy 0 look3 = some ((0, 0), false) ∧ 1 ≤ look3.w ∧ 1 ≤ look3.ew ∧
    s.lookCopy 0 { look3 with dead := true } = none ∧ look3.got = [] ∧
    (s.lookWords 0 { look3 with dead := true }).isSome = true ∧
    (s.lookWords 0 { look3 with got := [(7, false)] }).isSome = true := by
  unfold Reached; decide +kernel
theorem wit_WindowLoadAnswers_LookupAnswers_full :
    let s := up.onStack 0 (fun x => { x with used := [(6, up.cap)] })
    look3.held = false ∧ s.lookWords 0 look3 = none := by decide +kernel

theorem wit_MasterResetDrains : up.isMaster 1 = true ∧ up.steward ≠ 1 ∧ masterOk 703 = true ∧ up.isMaster 703 = true ∧
    up.isMaster 3 = true ∧
    ({ up with drains := [⟨3, 1, 2, 0⟩] } : State).drains.find? (fun (y : Drain) => y.master = 3) = some ⟨3, 1, 2, 0⟩ ∧
    (∀ y ∈ ({ up with drains := [⟨3, 1, 2, 0⟩] } : State).parked, y.master ≠ 3) ∧
    ({ up with parked := [.xact ⟨3, 0, 0, false, [], false⟩] } : State).parked.filter (fun (y : Parked) => y.master = 3) =
      [.xact ⟨3, 0, 0, false, [], false⟩] ∧
    (([⟨3, 1, 2, 0⟩] : List Drain).erase ⟨3, 1, 2, 0⟩).any (fun (y : Drain) => y.master = 3) = false := by
  decide +kernel

/-! ## Witnesses: links -/

/-- up with the shortest tick and link 511 as a Gylitu link in lock. -/
def linkUp : State := ((up.wr aTimCfg 8).wr (aLink 511 0) 1).wr (aLink 511 3) 1
/-- linkUp with net bits that the receiver of link 511 has not read. -/
def netOf (l : List Bool) : State :=
  linkUp.onLink 511 (fun x => { x with rxl := { x.rxl with net := l.map (fun b => some (b, 0)) } })
/-- The net bits of a frame of link 511. -/
def fr (n : Tick) : List Bool := frameBits n 5 (List.replicate 16 9)
set_option maxRecDepth 100000 in
theorem wit_IngressStatus_hears : (netOf (fr 1000)).Hears 511 [] ((fr 1000).map (fun b => (b, 0))) [] := by
  unfold State.Hears; decide +kernel
set_option maxRecDepth 100000 in
theorem wit_IngressStatus : let s := netOf (fr 1000)
    linkUp.linkW 511 = 16 ∧ s.held = false ∧ (s.link 511).rx.any (fun (x : RxTick) => x.tick == 1000) = false ∧
    2 * (0 : Int) ≤ s.window 511 ∧ s.linkCfg 511 4 4 = 0 ∧ frameGood 16 ((fr 1000).map (fun b => (b, 0))) = true ∧
    frameGood 16 ((fr 1000).map (fun b => (b, 2))) = false ∧
    ((linkUp.wr (aLink 511 0) 17).linkCfg 511 4 4 = 1) ∧ ofBitsMsb (((fr 1001).drop 1).take 4) ≠ (1000 : Tick).toNat % 16 ∧
    s.window 511 < 2 * 1000 ∧ (-1 : Int) < 0 ∧
    (linkUp.wr (aLink 511 0) (wd (1 + 2 ^ 15))).lineOn 511 = true ∧ linkUp.clamped = false ∧
    (linkUp.wr (aLink 511 0) (wd (1 + 2 ^ 15))).linkCfg 511 16 15 = 1 := by decide +kernel
theorem wit_IngressStatus_close :
    let r : RxTick := ⟨1000, 0, [], false, 0⟩
    let f : RxFrame := ⟨1000, true, false, 0, []⟩
    ((linkUp.onLink 511 (fun x => { x with rx := [r] })).link 511).rx.any (fun (x : RxTick) => x.tick == 1000) = true ∧
    ((linkUp.onLink 511 (fun x => { x with rxl := { x.rxl with frame := some f } })).link 511).rxl.frame = some f ∧
    f.inWin = true ∧ f.tick = 1000 ∧ linkUp.inService 511 = true ∧ (linkUp.link 511).rxl.frame = none ∧
    (linkUp.link 511).rx.any (fun (x : RxTick) => x.tick == 1000) = false := by decide +kernel
/-- 128 net bits go onto the line in two blocks and come back from it (R444). -/
theorem test_line :
    (((LineRx.reset.arrive false true (LineTx.push LineTx.reset false ((fr 1000).take 128)).2).1.net).map
      (fun b => (b.getD (false, 9)).1)) = (fr 1000).take 128 := by decide +kernel

/-- linkUp with a channel of deadline l on link 511, its slots and the last milestone observed. -/
def linkCh (l : Nat) (y : List Slot) (obs : Tick) : State :=
  (linkUp.wr (aLink 511 7) (wd (2 ^ 18 + l))).onLink 511 (fun x => { x with slots := y, obs := obs, newFrom := 1 })
/-- A word for slot 1,000 of link 511. -/
def ew : EgWrite := ⟨511, 0, 1000, 3, 7, 0, false⟩
/-- A slot of a tick that a write was accepted for; d: in the delay area. -/
def sl (n : Tick) (d : Bool) : Slot := ⟨n, [], true, false, false, d, false⟩
/-- A state with the tile 5 of die 0 about to write w, and ws waiting at the island of die 7. -/
def egSt (s : State) (w : EgWrite) (ws : List EgWrite) : State :=
  (s.setTile 0 5 { code 0 with eg := [w] }).onDie 7 (fun x => { x with delayed := ws })
theorem wit_EgressWriteToFrame_full :
    let s := egSt (linkCh 100 [] 999) { ew with tick := 936 } (List.replicate 256 ew)
    (s.tile 0 5).eg = [{ ew with tick := 936 }] ∧ s.islandFull { ew with tick := 936 } = true := by decide +kernel
theorem wit_EgressWriteToFrame :
    let s := egSt (linkCh 100 [sl 1000 false] 999) ew []
    (s.tile 0 5).eg = [ew] ∧ s.islandFull ew = false ∧ s.slotClosed 511 1000 = false ∧
    ew.epoch % 256 = s.egressEpoch 511 1000 ∧ ({ ew with epoch := 1 } : EgWrite).epoch % 256 ≠ s.egressEpoch 511 1000 ∧
    s.delayDue 511 1000 = false ∧ (s.slotAt 511 1000).map (fun y => y.inDelay) = some false ∧
    (egSt up ew []).slotClosed 511 1000 = true ∧ (egSt up ew []).islandFull ew = false := by decide +kernel
theorem wit_EgressWriteToFrame_delay :
    let s := egSt (linkCh 100 [sl 936 true] 999) { ew with tick := 936 } (List.replicate 255 ew)
    s.islandFull { ew with tick := 936 } = false ∧ s.slotClosed 511 936 = false ∧
    ew.epoch % 256 = s.egressEpoch 511 936 ∧ s.slotAt 511 936 = some (sl 936 true) ∧ (sl 936 true).complete = false ∧
    (sl 936 true).lost = false ∧ ew.complete = false := by decide +kernel
theorem wit_EgressWriteToFrame_send :
    let f : Frame := ⟨1000, 900, 0, []⟩
    let s := (linkCh 100 [] 999).onLink 511 (fun x => { x with built := [f] })
    s.inService 511 = true ∧ s.linkCfg 511 16 15 = 0 ∧ s.clamped = false ∧ (s.link 511).built = [f] ∧
    notEarlier s.tick f.at_ = true ∧ (s.link 511).retrain = false ∧
    notEarlier s.tick (1001 : Tick) = false ∧ ((linkCh 100 [] 999).link 511).built = [] ∧
    (s.link 511).txl.sent ≠ some s.tick := by decide +kernel

/-- linkCh with the channel of another image before it, of deadline lo from tick 0 on, the new image's first tick nf. -/
def linkOld (l lo : Nat) (nf : Tick) (y : List Slot) : State :=
  (linkCh l y 999).onLink 511 (fun x => { x with old := some (lo, 0, 4, [3]), newFrom := nf })
theorem wit_SlotCloses :
    let s := linkCh 100 [sl 901 false] 999
    let u := linkOld 100 90 912 [sl 911 false]
    laterTick (linkCh 100 [] 1000).tick ((linkCh 100 [] 1000).link 511).obs = false ∧
    laterTick s.tick (s.link 511).obs = true ∧ (s.link 511).obs + 1 + 1 = 1001 ∧ s.chL 511 = some 100 ∧
    notEarlier ((1001 : Tick) - BitVec.ofNat 48 100) (s.link 511).newFrom = true ∧ (s.link 511).old = none ∧
    s.slotAt 511 901 = some (sl 901 false) ∧
    (u.link 511).old = some (90, 0, 4, [3]) ∧ laterTick (u.link 511).newFrom ((1001 : Tick) - BitVec.ofNat 48 90) = true ∧
    notEarlier ((1001 : Tick) - BitVec.ofNat 48 90) 0 = true ∧
    notEarlier ((1001 : Tick) - BitVec.ofNat 48 100) (u.link 511).newFrom = false ∧ u.chL 511 = some 100 ∧
    u.slotAt 511 911 = some (sl 911 false) := by decide +kernel
theorem wit_SlotCloses_old :
    let s := linkOld 100 90 911 []
    let u := linkOld 90 100 911 [sl 901 false]
    let v := (linkCh 100 [] 999).onLink 511 (fun x => { x with newFrom := 902 })
    laterTick (s.link 511).newFrom ((1001 : Tick) - BitVec.ofNat 48 90) = false ∧ s.chL 511 = some 100 ∧
    (s.link 511).old = some (90, 0, 4, [3]) ∧
    notEarlier ((1001 : Tick) - BitVec.ofNat 48 100) (s.link 511).newFrom = false ∧
    u.chL 511 = some 90 ∧ notEarlier ((1001 : Tick) - BitVec.ofNat 48 90) (u.link 511).newFrom = true ∧
    (u.link 511).old = some (100, 0, 4, [3]) ∧ laterTick (u.link 511).newFrom ((1001 : Tick) - BitVec.ofNat 48 100) = true ∧
    (v.link 511).old = none ∧ notEarlier ((1001 : Tick) - BitVec.ofNat 48 100) (v.link 511).newFrom = false := by
  decide +kernel
theorem wit_SlotCloses_delayed : (linkCh 100 [sl 901 true] 999).DelayClean 511 901 (fun _ => 0) := by
  intro i _
  have h : ((linkCh 100 [sl 901 true] 999).stack (511 / 64)).gran = [] := by decide +kernel
  rw [Stack.gr, h]
  show eccClass false 0 = (.clean, 0)
  decide +kernel
theorem wit_SlotCloses_waiting : (linkCh 100 [sl 901 true] 999).waiting 511 901 = [] := by decide +kernel
theorem wit_SlotCloses_move :
    let s := linkCh 100 [sl 936 false] 999
    let full := s.onStack 7 (fun x => { x with used := [(4, s.cap)] })
    (s.link 511).slots.find? (fun (x : Slot) => !x.inDelay && s.delayDue 511 x.tick) = some (sl 936 false) ∧
    (∀ z ∈ (s.link 511).slots, z.tick = (sl 936 false).tick → z = sl 936 false) ∧ (s.wr (aDram 7 3) 3).stackUp 7 = false ∧
    s.stackUp 7 = true ∧ full.slotsFree 7 4 (full.delaySlots 511) = false ∧ s.slotsFree 7 4 (s.delaySlots 511) = true ∧
    s.rb (aDram 7 0x14) 35 = false ∧ 2 * 7 + 1 ≤ s.linkW 511 := by decide +kernel
theorem wit_SlotCloses_merge :
    let s := egSt (linkCh 100 [sl 936 true] 999) ew [{ ew with tick := 936 }]
    let full := s.onStack 7 (fun x => { x with used := [(4, s.cap)] })
    (s.link 511).slots.find? (fun (x : Slot) => !x.inDelay && s.delayDue 511 x.tick) = none ∧
    ((linkCh 100 [] 999).die 7).delayed.find? (fun (w : EgWrite) => w.link == 511) = none ∧
    (s.die 7).delayed.find? (fun (x : EgWrite) => x.link == 511) = some { ew with tick := 936 } ∧
    full.slotsFree 7 4 2 = false ∧ s.slotsFree 7 4 2 = true ∧ s.rb (aDram 7 0x14) 35 = false ∧
    eccClass false ((s.stack 7).gr (4 * s.delayPlace 511 936 + (1 + 3) / 2)) = (.clean, 0) := by decide +kernel

/-- A block of 66 line bits with a header. -/
def block (h0 h1 : Bool) : List Bool := h0 :: h1 :: List.replicate 64 false
theorem wit_LockChanges_ReadoutModeLinks :
    let s := ((up.wr (aLink 511 0) 2).onLink 511 (fun x => { x with dgs := [[1, 2]] }))
    let off := linkUp.wr (aLink 511 3) 0
    off.lineOn 511 = true ∧ off.linkCfg 511 16 15 = 0 ∧ off.linkCfg 511 1 0 = 1 ∧ off.rb (aLink 511 3) 0 = false ∧
    off.linkCfg 511 2 2 = 0 ∧ (off.link 511).rxl.buf = [] ∧ (off.link 511).rxl.good = 0 ∧
    (∀ b ∈ List.replicate 64 (block false true), b.length = 66 ∧ (b.headD false != (b.drop 1).headD false) = true) ∧
    s.lineOn 511 = true ∧ s.linkCfg 511 1 0 = 2 ∧ s.rb (aLink 511 3) 0 = false ∧ s.linkCfg 511 16 15 = 0 ∧
    s.clamped = false ∧ s.ethMode 511 = true ∧ (s.link 511).dgs = [[1, 2]] ∧ linkUp.ethMode 511 = false := by decide +kernel
theorem wit_LockChanges_ReadoutModeLinks_loss :
    let s := linkUp.onLink 511 (fun x => { x with rxl := { x.rxl with bad := List.replicate 15 true } })
    s.rb (aLink 511 3) 0 = true ∧ (s.link 511).rxl.frame = none ∧ (s.link 511).rxl.buf.length < 66 ∧ s.lineOn 511 = true ∧
    s.linkCfg 511 16 15 = 0 ∧ s.linkCfg 511 1 0 = 1 ∧
    ((s.link 511).rxl.arrive (s.linkCfg 511 2 2 == 1) true (block true true)).2.lost = 1 ∧
    ((s.link 511).rxl.arrive (s.linkCfg 511 2 2 == 1) true (block true true)).2.lock = false := by decide +kernel

theorem wit_GranuleCode : (5 : BitVec 72).toNat < 2 ^ 64 ∧
    (eccClass true (eccEncode 5 ^^^ BitVec.ofNat 88 (2 ^ 63))) = (.corrected, 5) ∧
    (eccClass false (eccEncode 5 ^^^ BitVec.ofNat 88 (2 ^ 71) ^^^ BitVec.ofNat 88 (2 ^ 87))) = (.corrected, 5) ∧
    (eccClass true (eccEncode 5 ^^^ BitVec.ofNat 88 1 ^^^ BitVec.ofNat 88 2 ^^^ BitVec.ofNat 88 (2 ^ 87))).1 = .uncorrectable := by
  decide +kernel
theorem wit_StoresReachMemory_held : let s := withTile { code 0 with
      wb := [wbx]
      bcp := some ⟨0x4002, 7, 1, []⟩ }
    (s.tile 0 5).wb = [wbx] ∧ (s.tile 0 5).bcpAt (wbx.key / 0x4000) ((s.tile 0 5).ungkey wbx.key) = true := by decide +kernel
theorem wit_ScrubAdvances_retired : SMap.get (fun _ => 0)
    ({ up with pwr := { up.pwr with tile := [(tkey 0 5, 4)] } } : State).pwr.tile (tkey 0 5) = 4 ∧
    bitOf ((withTile { Tile.reset with io := [(0x10, 1), (0x17, wd (scrubLen 5 - 1))] } |>.tile 0 5).ior 0x10) 0 = true := by
  decide +kernel
theorem wit_DataSideAccess_served : TileServed 0 7 71 up ∧ up.sideOk 0 7 71 0x8_0000 = false ∧ up.isMaster 0 = true ∧
    Alone (aTile 7 71 0x8_0000) up ∧ (up.setDom 7 8 0).sideOk 0 7 71 0 = false ∧
    up.mayWrite 1 (aTile 7 71 0x1_0000) = false ∧ (up.tile 7 71).flipOn (dataGran 0).1 (dataGran 0).2 = false ∧
    ((up.tile 7 71).bcpYield (dataGran 0).1 (dataGran 0).2).gr (dataGran 0).1 (dataGran 0).2 = eccEncode 0 := by
  unfold TileServed Alone; decide +kernel
theorem wit_VaultWipes_lead : up.lead = 0 ∧ (7 : Nat) ≠ up.lead ∧ up.held = false ∧ up.akState ≠ 3 := by decide +kernel
/-- up with a flit of two output ports, north and L, at an input of junction 9 of die 0; n: what became of it so far. -/
def twoWays (n : Nat) : State := withFlit ⟨4, flitSeal 0, n, some (wd (1 + 2 + 2 ^ 4))⟩
theorem wit_FlitForwards_copies :
    (twoWays 0).jHead 0 9 4 = some ⟨4, flitSeal 0, 0, some (wd (1 + 2 + 2 ^ 4))⟩ ∧
    entryOk 0 9 ((twoWays 0).jEntry 0 9 ⟨4, flitSeal 0, 0, some (wd (1 + 2 + 2 ^ 4))⟩) = true ∧
    (twoWays 0).admitted 0 9 4 ⟨4, flitSeal 0, 0, some (wd (1 + 2 + 2 ^ 4))⟩ = true ∧ (twoWays 0).turn 0 9 3 = some 4 ∧
    (twoWays 0).turn 0 9 0 = some 4 ∧
    (0 ||| 2 ^ 3 ||| 32) % 32 &&& fld (wd (1 + 2 + 2 ^ 4)) 5 1 ≠ fld (wd (1 + 2 + 2 ^ 4)) 5 1 ∧
    (twoWays 40).turn 0 9 0 = some 4 ∧ (twoWays 40).turn 0 9 3 = none ∧
    (40 ||| 2 ^ 0 ||| 32) % 32 &&& fld (wd (1 + 2 + 2 ^ 4)) 5 1 = fld (wd (1 + 2 + 2 ^ 4)) 5 1 := by decide +kernel
/-- outFlit with the tick's allowance of its route used up; n: what became of its flit so far. -/
def heldFlit (n : Nat) : State :=
  ((up.wr (aNet 0 127 0 0) (wd (3 + 2 ^ 17 * 7))).onDie 0 (fun x => { x with allow := [(0, 1)] })).setTile 0 7
    { Tile.reset with outc := [⟨3, flitSeal 0, n, some (wd (1 + 2 ^ 3))⟩] }
theorem wit_FlitForwards_hold : ∀ n ∈ [0, 64],
    (heldFlit n).jHead 0 7 3 = some ⟨3, flitSeal 0, n, some (wd (1 + 2 ^ 3))⟩ ∧
    entryOk 0 7 ((heldFlit n).jEntry 0 7 ⟨3, flitSeal 0, n, some (wd (1 + 2 ^ 3))⟩) = true ∧
    (heldFlit n).admitted 0 7 3 ⟨3, flitSeal 0, n, some (wd (1 + 2 ^ 3))⟩ = false := by decide +kernel
theorem wit_TransactionAnswers_timeout :
    let s : State := { up with xrq := [⟨3, 5, 2, false, [], false⟩] }
    s.held = false ∧ s.isMaster 3 = true ∧
    s.xrq.find? (fun (r : XrReq) => r.master = 3 ∧ r.addr = 5 ∧ r.write = false) = some ⟨3, 5, 2, false, [], false⟩ := by
  decide +kernel
theorem wit_WindowLoadAnswers : let s := withTile { code 0 with port := [load0] }
    Served (0x80 + 72 * 0 + 5) 0 s ∧ s.draining (0x80 + 72 * 0 + 5) = false ∧
    Served (8 + 7) 0x47 (up.setTile 7 72 { code 0 with port := [store47] }) ∧
    (up.setTile 7 72 { code 0 with port := [store47] }).partner 7 72 = none := by
  unfold Served Reached Alone; decide +kernel
theorem wit_MasterResetDrains_own :
    windowOf (0x80 + 72 * 0 + 5) = some (0, 5) ∧ up.draining 1 = false ∧ up.hasMaster (0x80 + 72 * 0 + 5) = true ∧
    up.tap.clamped = false ∧ windowOf 3 = none := by decide +kernel

/-! ## Witnesses: stacks, history, readout -/

/-- linkUp with a history area for each group of die 7, and group 3's history writer at a step. -/
def withHist (h : HistSt) : State :=
  (linkUp.wr (aDram 7 0) (wd (1 + 64 + 4096 + 2 ^ 18))).onStack 7 (fun x => { x with hist := [(3, h)] })
theorem wit_HistoryWrites : let s := withHist HistSt.reset
    let full := s.onStack 7 (fun x => { x with used := [(3, s.cap)] })
    s.tickValid = true ∧ s.stackUp 7 = true ∧ s.depth 7 3 ≠ 0 ∧ s.histOf 7 3 = HistSt.reset ∧
    full.slotsFree 7 3 (histSlots 0 16) = false ∧ s.slotsFree 7 3 (histSlots 0 16) = true ∧ s.rb (aDram 7 0x14) 35 = false ∧
    notEarlier s.tick s.tick = true ∧
    (s.onLink 511 (fun x => { x with rx := [⟨1000, 2, List.replicate 16 5, false, 0⟩] })).histReady 7 3 1000 = true := by
  decide +kernel
theorem wit_HistoryWrites_words : let s := withHist ⟨true, 990, 1, false, none⟩
    (s.histOf 7 3).step = 1 ∧ s.slotsFree 7 3 (histSlots 1 16) = true ∧ s.inService 511 = true ∧ 511 = 64 * 7 + 16 * 3 + 15 ∧
    frameWords s.period (s.rf (aGrp 7 3 0) 0 0) = 16 ∧ (s.histWords 511 990).length = 16 ∧
    ((withHist ⟨true, 990, 2, false, some (980, 990)⟩).histOf 7 3).step = 2 ∧
    (withHist ⟨true, 990, 2, false, some (980, 990)⟩).slotsFree 7 3 (histSlots 2 16) = true ∧
    ((withHist ⟨true, 990, 2, false, none⟩).histOf 7 3).active = true := by decide +kernel

/-- A readout request for a profile. -/
def rq (p : Nat) : RdReq := ⟨900, p, 5, false, 990⟩
/-- withHist with RDP as given and profile 63 of die 7: link 448, BEFORE 1, for the host; a request for it in service at a
tick of its window, a datagram to be handed and an entry for the ring. -/
def rdSt (rdp next : Nat) : State :=
  let s := (withHist HistSt.reset).wr (aDram 7 0) (wd (1 + 64 + 4096 + 2 ^ 18 + 2 ^ 24 * rdp))
  ((s.wr (aProf 7 63 0) 1).wr (aProf 7 63 2) (wd (1 + 2 ^ 14))).onStack 7 (fun x => { x with
    svc := some ⟨rq 63, next, [], 0, 0, []⟩, dgs := [⟨448, 990, [1]⟩], ring := some (List.replicate 8 0, 0) })
theorem wit_ReadoutEngine_request :
    let s : State := { rdSt 0 0 with reqs := [(rq 63, [3, 7])] }
    let full := s.onStack 7 (fun x => { x with queue := List.replicate 16 (rq 0) })
    (takeReq 7 s.reqs).1 = some (rq 63) ∧ (takeReq 7 up.reqs).1 = none ∧ s.profLinks 7 63 ≠ [] ∧ s.reqBad 7 (rq 63) = false ∧
    64 ≤ (rq 64).prof ∧ s.profLinks 7 0 = [] ∧ (s.stack 7).queue.length < 16 ∧ 16 ≤ (full.stack 7).queue.length ∧
    s.reqBad 7 { rq 63 with tick := 5097 } = true := by decide +kernel
theorem wit_ReadoutEngine_serve :
    (rdSt 0 0).inServe 7 = some ⟨rq 63, 0, [], 0, 0, []⟩ ∧ (rdSt 0 0).profCfg 7 63 = (1, 0, 1, 0) ∧
    notEarlier (rdSt 0 0).tick ((rq 63).tick + BitVec.ofInt 48 ((1000 : Int) - 1) + 2) = false ∧
    notEarlier (rdSt 0 0).tick ((rq 63).tick + BitVec.ofInt 48 ((0 : Int) - 1) + 2) = true ∧
    (rdSt 0 0).rf (aDram 7 0) 33 24 = 0 ∧ 1 < (rdSt 1 0).readSlots 7 ((rdSt 1 0).profLinks 7 63) ∧
    (rdSt 1 0).rf (aDram 7 0) 33 24 = 1 ∧ (rdSt 1023 0).readSlots 7 ((rdSt 1 0).profLinks 7 63) ≤ 1023 ∧
    (rdSt 1023 1).rf (aDram 7 0) 33 24 = 1023 ∧ (rdSt 1023 1).usedSlots 7 5 = 0 ∧ 0 + 1 ≤ 1 + 0 ∧ 1 + 0 < 1 + 1 := by
  decide +kernel
theorem wit_ReadoutEngine : let u := rdSt 0 0
    (u.stack 7).dgs = [⟨448, 990, [1]⟩] ∧ (990 : Tick) ≠ u.tick ∧ ({ u with tick := 990 } : State).tick = 990 ∧
    (u.stack 7).ring = some (List.replicate 8 0, 0) ∧ u.stackUp 7 = true ∧
    (List.replicate 8 (0 : Word)).length / 8 < u.storeStart 7 - u.rdbufStart 7 ∧
    u.rf (aDram 7 0x19) 24 0 = u.rf (aDram 7 0x1A) 24 0 ∧ u.rb (aDram 7 0x14) 35 = false ∧
    u.rf (aDram 7 0x19) 24 0 < u.storeStart 7 - u.rdbufStart 7 ∧
    (let v := u.wr (aDram 7 0x1A) 1
     v.rf (aDram 7 0x19) 24 0 ≠ v.rf (aDram 7 0x1A) 24 0 ∧
     (v.rf (aDram 7 0x1A) 24 0 + (v.storeStart 7 - v.rdbufStart 7) - v.rf (aDram 7 0x19) 24 0) %
      (v.storeStart 7 - v.rdbufStart 7) ≤ (List.replicate 8 (0 : Word)).length / 8) := by decide +kernel

theorem wit_StackCare : let s := (up.wr (aDram 7 1) 4).onStack 7 (fun x => { x with wb := [(9, 5)] })
    s.stackUp 7 = true ∧ s.usedSlots 7 1 < s.rref ∧ s.usedSlots 7 2 < s.rf (aDram 7 1) 7 0 ∧
    (s.stack 7).wb = [(9, 5)] ∧ s.rb (aDram 7 0x14) 35 = false ∧ (up.wr (aDram 7 1) 0).rf (aDram 7 1) 7 0 = 0 ∧
    (up.wr (aDram 7 1) 0).slotsFree 7 8 1 = true ∧ (up.stack 7).wb = [] ∧
    (up.wr (aDram 7 0x0F) (wd (parcels - 1))).rf (aDram 7 0x0F) 32 0 + 1 = parcels ∧
    (s.onStack 7 (fun x => { x with used := [(7, 1)] })).chargeOf s.img.armed 7 7 <
      (s.onStack 7 (fun x => { x with used := [(7, 1)] })).usedSlots 7 7 ∧ 1 ∉ (s.stack 7).flags := by decide +kernel
theorem wit_StackCare_row : ({ Stack.reset with rowDue := [Config.rowOf 7635497414] } : Stack).qualifies
    (Config.rowOf 7635497414) = true := by
  simp [Stack.qualifies, Stack.reset]

theorem wit_StackLostAndBack : Permitted 0 (aDram 7 4) up ∧ up.stackState 7 ≠ 3 ∧
    (up.wr (aDram 7 3) 3).stackState 7 ≠ 2 ∧ (up.wr (aDram 7 3) 3).stackPowered 7 = true ∧
    (up.wr (aDram 7 3) 0x802).rb (aDram 7 3) 11 = true ∧ (up.wr (aDram 7 3) 0x802).stackUp 7 = true := by
  unfold Permitted Served Reached Alone; decide +kernel

/-! ## Witnesses: images -/

/-- An image with no tile. -/
def im0 : Image :=
  { epoch := 3, need := 0, period := 1000, minmode := 0, rigor := false, swapok := true, manifest := [],
    tiles := [], signposts := [], routes := [], deposits := [], egress := [], tables := [], states := [] }
/-- The record of logical tile 0. -/
def rec0 (detour : Nat) : ImgTile :=
  { ltile := 0, kc := 0, j := 0, detour := detour, sprec := 0, entry := 16, saddr := 32, cyc := 0,
    hrsv := 0, start := 0, scyc := 0, acc := 0, byt := 0, regs := [], prog := [], segs := [] }
/-- up with AT 1,016 and a standby image shown as valid. -/
def sby0 : State :=
  let s : State := { up with img := { up.img with standby := some im0 } }
  (s.wr 0x82 1016).wr aImgStat 2
/-- The same with an image armed. -/
def arm0 : State := { sby0 with img := { sby0.img with armed := some im0 } }

theorem wit_ImageCommandsAccepted : masterOk 0 = true ∧ Permitted 0 0x81 sby0 ∧ sby0.imgBusy = false ∧ sby0.arming = false ∧
    sby0.swapping = false ∧ sby0.img.disarmAt = none ∧ sby0.ready = true ∧ sby0.armed = false ∧ sby0.sby = 2 ∧
    sby0.img.standby = some im0 ∧ sby0.tickValid = true ∧ im0.period = sby0.period ∧ sby0.ahead sby0.cmdAt 16 = true ∧
    sby0.placeable im0 = true := by
  unfold Permitted Served Reached Alone; decide +kernel
theorem wit_ImageCommandsAccepted_swap : Permitted 0 0x81 arm0 ∧ arm0.imgBusy = false ∧ arm0.arming = false ∧
    arm0.swapping = false ∧ arm0.img.disarmAt = none ∧ arm0.img.armed = some im0 ∧ arm0.img.standby = some im0 ∧
    arm0.sby = 2 ∧ arm0.updating = false ∧ arm0.wardensFor im0 = true ∧ (∀ d, d < 8 → arm0.detoursOn d = []) ∧
    im0.swapok = true ∧ arm0.ahead arm0.cmdAt 16 = true ∧ arm0.swapClash im0 im0 arm0.cmdAt = false ∧ arm0.armed = true := by
  unfold Permitted Served Reached Alone; decide +kernel

theorem wit_ImageMilestones :
    ({ up with img := { up.img with loading := some 0 } } : State).img.loading = some 0 ∧ up.boot.auto = 0 ∧
    ({ up with boot := { up.boot with auto := 1 } } : State).boot.auto = 1 ∧ up.held = false ∧
    ({ sby0 with img := { sby0.img with armAt := some 1000 } } : State).img.armAt = some 1000 ∧
    notEarlier sby0.tick 1000 = true ∧ sby0.img.standby = some im0 ∧
    ({ arm0 with img := { arm0.img with disarmAt := some 1000 } } : State).img.disarmAt = some 1000 ∧
    arm0.img.armed = some im0 ∧ (∀ e ∈ arm0.imageTiles im0, (arm0.tile e.1 e.2).inRtn = false) := by decide +kernel

/-- up in a swap at milestone 1,000 to an image with one tile, on which the tile 5 of die 0 carries slot 0. -/
def swp (t : Tile) (x : List ImgTile) : State :=
  let s : State := { arm0 with img := { arm0.img with standby := some { im0 with tiles := x }, swapAt := some 1000 }, tick := 1001 }
  (s.wr (aPlace 0 0) 5).setTile 0 5 t
theorem wit_ImageMilestones_switch : let s := swp { code 0 with phase := .idle } [rec0 0]
    let u := swp { code 0 with io := [(0, 1)], phase := .wait, placed := true, nextN := 1000 } []
    s.img.swapAt = some 1000 ∧ s.healthy 0 = true ∧ s.img.standby = some { im0 with tiles := [rec0 0] } ∧ tkey 0 5 ∉ s.img.switched ∧
    s.recordOn { im0 with tiles := [rec0 0] } 0 5 = some (rec0 0) ∧ (s.tile 0 5).placed = false ∧
    1 ≤ ticksSince s.tick ((rec0 0).tickFrom 1000) ∧
    u.recordOn im0 0 5 = none ∧ (u.tile 0 5).placed = true ∧ u.waitsForSwap 0 5 1000 ∧
    1 ≤ ticksSince u.tick (u.tile 0 5).nextN := by
  unfold State.waitsForSwap; decide +kernel
theorem wit_ImageMilestones_stop :
    let s := withTile { code 0 with io := [(0, 1)], phase := .wait, placed := true, nextN := 999, stopAt := some 900 }
    s.img.swapAt = none ∧ (s.tile 0 5).stopAt = some 900 ∧ s.waitsForSwap 0 5 900 ∧
    1 ≤ ticksSince s.tick (s.tile 0 5).nextN := by
  unfold State.waitsForSwap; decide +kernel
theorem wit_ImageMilestones_complete : let s := swp (code 0) []
    s.img.swapAt = some 1000 ∧ s.img.armed = some im0 ∧ s.img.standby = some im0 ∧ notEarlier s.tick 1000 = true ∧
    (∀ n, n < 512 → s.oldGone n 1000 = true) ∧ (im0.tiles = []) := by decide +kernel

/-- up with one tile armed in slot 0 of die 0, on tile 5. -/
def moved (t : Tile) (detour : Nat) (l : List Detour) : State :=
  let im : Image := { im0 with tiles := [rec0 detour], states := [⟨0, 4, []⟩] }
  let s : State := { up with img := { up.img with armed := some im, detours := SMap.set (fun _ => []) [] 0 l } }
  (s.wr (aPlace 0 0) 5).setTile 0 5 t
theorem wit_DetoursMoveSlots : let s := moved { code 0 with placed := true } 1 []
    s.slotRecord 0 0 = some ({ im0 with tiles := [rec0 1], states := [⟨0, 4, []⟩] }, rec0 1) ∧ s.detoursAllowed 0 = true ∧
    laterTick (BitVec.ofNat 48 1010) s.tick = true ∧ s.canMove 0 (movesOfPair false 0 64) = true ∧ (rec0 1).detour = 1 ∧
    (({ im0 with tiles := [rec0 1], states := [⟨0, 4, []⟩] } : Image).stateOf 0).any (fun (y : ImgState) => y.w == 4) = true ∧
    (rec0 2).detour = 2 ∧ (BitVec.ofNat 48 1010 : Tick).toNat % 2 ^ (rec0 2).kc = (rec0 2).j ∧
    (moved { code 0 with placed := true } 2 []).canMove 0 (movesOfPair false 0 64) = true := by decide +kernel
/-- A non-convergent detour of slot 0 from tile 5 to tile 64, whose freeze milestone has come. -/
def det : Detour := ⟨0, 5, 64, false, 999, 999, 1, false, false⟩
theorem wit_DetoursMoveSlots_copy : let s := (moved (code 0) 2 [det]).wr (aPlace 0 0) 64
    (s.detoursOn 0).find? (fun (y : Detour) => y.slot = 0) = some det ∧
    s.slotRecord 0 0 = some ({ im0 with tiles := [rec0 2], states := [⟨0, 4, []⟩] }, rec0 2) ∧ det.conv = false ∧
    notEarlier s.tick (det.start + 1) = true ∧ s.phys 0 0 = det.to_ ∧ s.healthy 0 = true ∧ s.oldIdle 0 det = true := by decide +kernel
theorem wit_DetoursMoveSlots_retire : let s : State := { up with pwr := { up.pwr with tile := [(tkey 7 71, 6)] } }
    s.healthy 7 = true ∧ s.updating = false ∧ SMap.get (fun _ => 0) s.pwr.tile (tkey 7 71) = 6 ∧ (s.tile 7 71).placed = false := by decide +kernel

theorem wit_IngressStatus_service : let s := netOf (fr 1000)
    s.inService 511 = true ∧ s.reported 511 1000 = false ∧ notEarlier s.tick 1000 = true ∧ notEarlier s.tick 1001 = false ∧
    (linkUp.wr (aLink 511 0) (wd (1 + 2 ^ 15))).held = false := by decide +kernel
/-- linkUp with the alignment buffer of link 511. -/
def aligned (l : List (Tick × Option RxFrame × Bool)) : State := linkUp.onLink 511 (fun x => { x with align := l })
theorem wit_IngressStatus_align :
    let f : RxFrame := ⟨1001, false, false, 0, []⟩
    let s := aligned [(1001, none, false)]
    let u := linkUp.onLink 511 (fun x => { x with rxl := { x.rxl with frame := some f } })
    s.reported 511 1001 = false ∧ (∃ e ∈ (s.link 511).align, e.1 = 1001) ∧ (u.link 511).rxl.frame = some f ∧ f.inWin = false ∧
    (u.link 511).align = [] ∧ notEarlier u.tick 1001 = false ∧ notEarlier u.tick 1000 = true ∧ u.inService 511 = true ∧
    u.domainOn (511 / 64) (9 + groupOf 511) = true ∧ up.inService 511 = false ∧ up.depositsAt 511 1000 = [] ∧
    up.reported 511 1000 = false := by decide +kernel
/-- up with an image armed that deposits link 511 in tile 5 of die 0, link 511 in no mode of frames, its group off or on. -/
def depSt (dom : Nat) : State :=
  let im : Image := { im0 with tiles := [rec0 0], deposits := [⟨511, 0, [(0, 0, 0, 0)]⟩] }
  let s : State := { up with img := { up.img with armed := some im } }
  ((s.wr (aPlace 0 0) 5).setTile 0 5 { code 0 with placed := true }).setDom 7 12 dom
theorem wit_IngressStatus_closed : (depSt 2).depositsAt 511 1000 ≠ [] ∧ (depSt 2).inService 511 = false ∧
    ((depSt 2).depositsAt 511 1000).map (fun e => tkey e.1 e.2.1) = [tkey 0 5] ∧ (depSt 2).domainOn 7 12 = true ∧
    (depSt 0).domainOn 7 12 = false ∧ (depSt 0).depositsAt 511 1000 ≠ [] := by decide +kernel
theorem wit_IngressStatus_granules : (64 : Nat) % 2 = 0 ∧ 64 + [(9 : Word), 8].length ≤ 4096 ∧ 2 * 0 + 1 < [(9 : Word), 8].length ∧
    (Tile.reset.depositAt 511 false 64 [9, 8]).gr 1 (64 / 2 + 0) = eccEncode (wordBits 0 9 ||| wordBits 1 8) := by
  decide +kernel
theorem wit_IngressStatus_flip (t : Tile) (h : bitOf (t.ior 0x1B) 18 = false) : ∀ k, t.flipOn 1 k = false := by
  intro k; simp [Tile.flipOn, h]
theorem wit_FrameRoundTrip : (5 : Nat) < 512 ∧ 0 < (List.replicate 16 (9 : Word)).length := by decide
theorem wit_LockChanges_readout : let s := up.wr (aLink 511 0) 2
    let u := s.wr (aLink 511 3) 1
    s.lineOn 511 = true ∧ s.linkCfg 511 16 15 = 0 ∧ s.linkCfg 511 1 0 = 2 ∧ s.rb (aLink 511 3) 0 = false ∧
    u.rb (aLink 511 3) 0 = true ∧ (u.link 511).rxl.frame = none ∧ u.linkCfg 511 1 0 = 2 ∧
    (u.link 511).rxl.buf.length < 66 ∧ (u.link 511).lossLogged = false := by decide +kernel
theorem wit_ReadoutModeLinks : let s := (up.wr (aLink 511 0) 2).onLink 511 (fun x => { x with dgs := [[1, 2]] })
    s.ethMode 511 = true ∧ s.linkCfg 511 16 15 = 0 ∧ s.clamped = false ∧ (s.link 511).dgs = [[1, 2]] ∧
    ((s.wr (aLink 511 0x19) 29).rf (aLink 511 0x19) 13 0 < [(1 : Byte), 2].length + 28) ∧
    (s.link 511).built = [] ∧ (s.link 511).txl.sent ≠ some s.tick ∧ (linkUp.ethMode 511 = false) ∧
    (s.wr (aLink 511 0) (wd (2 + 2 ^ 15))).linkCfg 511 16 15 ≠ 0 := by decide +kernel
theorem wit_HistoryWrites_hold :
    let s := (withHist ⟨true, 990, 1, false, none⟩).onStack 7 (fun x => { x with hist := [(2, ⟨true, 990, 0, true, none⟩), (3, ⟨true, 980, 1, false, none⟩)] })
    ((([0, 1, 2, 3] : List Nat).filter (fun g => (s.histOf 7 g).active && !(s.histOf 7 g).held &&
      (s.histOf 7 g).moved.isNone && notEarlier s.tick ((s.histOf 7 g).tick + 2))).map (fun g => (s.histOf 7 g).tick)).eraseDups.filter
      (fun x => !(([0, 1, 2, 3] : List Nat).any (fun g => (s.histOf 7 g).held && (s.histOf 7 g).tick == x))) = [980] ∧
    2 ∉ (s.stack 7).flags ∧ ((withHist ⟨true, 990, 2, false, some (990, 7)⟩).histOf 7 3).moved = some (990, 7) ∧
    frameWords linkUp.period (linkUp.rf (aGrp 7 3 0) 0 0) % 2 = 0 ∧ (7 : Nat) < 16 / 2 := by decide +kernel
theorem wit_ReadoutEngine_ring : let s := (rdSt 1 0).onStack 7 (fun x => { x with ring := some (List.replicate 16 0, 0) })
    (s.stack 7).ring = some (List.replicate 16 0, 0) ∧ s.stackUp 7 = true ∧ (s.wr (aDram 7 3) 3).stackUp 7 = false ∧
    min (16 / 8 - 0) (s.rf (aDram 7 0) 33 24 - s.usedSlots 7 5) = 1 ∧ 16 / 8 < s.storeStart 7 - s.rdbufStart 7 ∧
    0 + 1 < 16 / 8 ∧ 16 / 8 ≤ 1 + min (16 / 8 - 1) (s.rf (aDram 7 0) 33 24 - s.usedSlots 7 5) ∧
    s.rb (aDram 7 0x14) 35 = false := by decide +kernel
theorem wit_StackCare_copy : let s := (up.wr (aDram 7 1) 4).onStack 7 (fun x => { x with copying := 3 })
    s.stackUp 7 = true ∧ s.usedSlots 7 2 < s.rf (aDram 7 1) 7 0 ∧ (s.stack 7).copying ≠ 0 ∧ (up.stack 7).copying = 0 ∧
    (7635497414 : Nat) < 7635497415 := by decide +kernel
theorem wit_StackLostAndBack_rebuild : let s := up.onStack 7 (fun x => { x with rebuild := [5] })
    (s.stack 7).rebuild ≠ [] ∧ ((up.wr (aDram 7 3) 0x802).stack 7).rebuild = [] ∧
    (up.wr (aDram 7 3) 0).rb (aDram 7 0x14) 35 = false := by decide +kernel

/-! ## Witnesses: stewardship, security, logbook -/

/-- up with nobody steward, a lease that has run out, and a handover window open. -/
def ownSt (steward : Nat) : State :=
  let s : State := { up with own := { up.own with claims := [(3, none, 7, 65535), (2, some [1], 0, 10)] } }
  s.wr (aOwn 0) (wd (steward + 2 ^ 22))
theorem wit_StewardshipClaims : Served 3 (aOwn 0x100) up ∧ Served 3 (aOwn 0x102) up ∧ up.ready = true ∧ up.mbResult 3 ≠ 1 ∧
    bitOf (wd (2 ^ 19)) 19 = true ∧ (ownSt 0).own.claims = (3, none, 7, 65535) :: [(2, some [1], 0, 10)] ∧ (∀ x ∈ (ownSt 0).xrq, x.auth = false) ∧
    masterOk 0 = true ∧
    Permitted 0 (aOwn 1) up ∧ 10 ≤ fld (60000 : Word) 15 0 ∧ fld (60000 : Word) 15 0 ≤ 60000 ∧
    (ownSt 0).steward ≠ 7 ∧ (ownSt 0).due (ownSt 0).own.leaseEnd = true := by
  unfold Permitted Served Reached Alone; decide +kernel
theorem wit_HandoverAndOwnerList : let s := up.wr (aKey 7 0) 1
    Permitted 0 (aOwn 2) up ∧ bitOf (8 : Word) 3 = true ∧ fld (9 : Word) 2 0 ≠ up.steward ∧ fld (9 : Word) 2 0 < 4 ∧
    fld (15 : Word) 2 0 = 7 ∧ up.steward ≠ 7 ∧ (ownSt 0).rb (aOwn 0) 22 = true ∧ (ownSt 0).due (ownSt 0).own.hovEnd = true ∧
    Permitted 0 (aOwn 0x90) s ∧ fld (0x46 : Word) 6 5 ≠ 3 ∧ 7 ≠ fld (0x46 : Word) 2 0 ∧ s.rb (aKey 7 0) 0 = true ∧
    s.rf (aOwn 0) 5 3 ≠ fld (0x46 : Word) 2 0 := by
  unfold Permitted Served Reached Alone; decide +kernel

theorem wit_SecurityCommands : Served 3 (aSec 0x100) up ∧ up.ready = true ∧ up.rf (aMine 3 (aSec 0x101)) 3 0 ≠ 1 ∧
    (up.wr aSecBoot (wd (2 * 2 ^ 21))).akState = 2 ∧ (up.wr aSecBoot (wd (2 * 2 ^ 21))).rf (aSec 0x41) 20 0 + 1 ≤ 2 ^ 20 ∧
    up.akState = 0 ∧ up.sec.active = [] ∧ up.rf aSecBoot 10 0 < 1024 ∧ (up.wr aSecBoot (wd (2 ^ 21))).akState = 1 ∧
    4 ∉ up.sec.active := by
  unfold Served Reached Alone; decide +kernel

/-- A waymark of die 7, and a record of it. -/
def mk7 : Mark := ⟨7, 0, 0, 0x012, 1, 2, 3, 1000, true⟩
def rc7 (seq : Word) : Rec := ⟨seq, mk7, 1000, 0⟩
/-- up with a record in ring 7 and one in its queue, and a latch and a cursor of master 15 there. -/
def logSt : State :=
  let s : State := { up with
    marks := [mk7], logs := [(7, { LogUnit.reset with ring := [rc7 5] })],
    latch := SMap.set (fun _ => none) [] 15 (some ⟨7, some (0, 5), false, true⟩) }
  s.wr (aCur 15 0x100) 7
theorem wit_LogbookRecords :
    let u : State := { up with marks := [mk7], logs := [(7, { LogUnit.reset with queue := [(rc7 0, false)] })] }
    takeMark (fun m => up.unitOf m.die == 7) ({ up with marks := [mk7] } : State).marks = some (mk7, []) ∧
    (up.log 7).queue.length < 8 ∧ (up.log 7).queue.getLast? = none ∧ (up.log 7).ring.getLast? = none ∧
    up.logUp 7 = true ∧ (u.log 7).queue = (rc7 0, false) :: [] ∧ (u.log 7).ring.length < 4096 ∧ (u.log 7).lost = 0 ∧ curOk 15 = true ∧
    logSt.logUp (logSt.rf (aCur 15 0x100) 2 0) = true ∧
    findSeq (logSt.rd (aCur 15 0x101)) 0 (logSt.log (logSt.rf (aCur 15 0x100) 2 0)).ring = some (0, rc7 5) ∧
    logSt.latchOf 15 = some ⟨7, some (0, 5), false, true⟩ ∧ (logSt.log 7).slot 0 = some (rc7 5) ∧ (rc7 5).seq = 5 ∧
    bitOf (15 : Word) 3 = true ∧ (logSt.log (fld (15 : Word) 2 0)).ring.head? = some (rc7 5) ∧
    Served 15 (aLog 0x108) logSt ∧ Served 15 (aLog 0x110) logSt ∧ Served 15 (aLog 0x100) logSt := by
  unfold Served Reached Alone; decide +kernel

/-- up with a flush to record 5 begun, sector 3 in use. -/
def flushSt : State :=
  let s : State := { logSt with flushTo := some 5, flash := [(sectAt 3, 0x54)] }
  s.wr (aLog 3) 3
theorem wit_LogbookFlash : flushSt.flushTo = some 5 ∧ flushSt.pfwLow = false ∧ flushSt.flashReach = true ∧
    flushSt.nrec < 1820 ∧ flushSt.sect ∉ flushSt.badSect ∧ flushSt.sect = 3 ∧ flushSt.sectBlank flushSt.sect = false ∧
    flushSt.unflushed.filter (fun (x : Rec) => !(laterSeq x.seq 5)) = [rc7 5] ∧
    (up.wr (aLog 1) 2).rb (aLog 1) 1 = true := by decide +kernel
/-- up with sector 1 in use and sector 2 not erased. -/
def eraseSt : State := ({ up with flash := [(sectAt 2 + 7, 0)] } : State).wr (aLog 3) 1
theorem wit_LogbookFlash_erase : eraseSt.sectsAhead[0]? = some 2 ∧ eraseSt.erasedAhead = 0 ∧ eraseSt.flashReach = true ∧
    eraseSt.pfwLow = false := by decide +kernel
theorem wit_LogbookFlash_lead :
    let s : State := { up with boot := { up.boot with healthy := [7, 2], lead := 0 } }
    (List.range 8).all (fun d => s.healthy d == (d == 2 || d == 7)) = true ∧ s.healthy s.lead = false := by decide +kernel
/-- up with every Ibrak link out of service. -/
def cutOff : State := (List.range 10).foldl (fun (s : State) l => (s.wr (aIbk (linkEnds l).1) 4).wr (aIbk (linkEnds l).2) 4)
  { up with boot := { up.boot with healthy := [3], lead := 3 } }
theorem wit_LogbookFlash_cut : cutOff.flashReach = false ∧ cutOff.held = false ∧
    cutOff.flashErrAt = none ∧ (10 : Nat) ^ 13 < 10 ^ 13 + symSec := by decide +kernel

theorem wit_ImageCommandsAccepted_wardens : arm0.placeable im0 = true ∧
    (let s : State := { depSt 2 with boot := { up.boot with healthy := [1] }, img := { (depSt 2).img with standby := some im0 } }
     (s.wr aImgStat 2).wardensFor im0 = true ∧ (s.img.armed.any (fun im => !(s.wardensFor im)) = true) ∧
     (s.wr aImgStat 2).sby = 2 ∧ (s.wr aImgStat 2).imgBusy = false ∧ (s.wr aImgStat 2).updating = false) := by decide +kernel
theorem wit_ImageMilestones_autoarm : let s : State := { sby0 with boot := { up.boot with auto := 3, autoDly := 16 } }
    s.boot.auto = 3 ∧ s.tickValid = true ∧ s.img.standby = some im0 ∧ im0.period = s.period ∧
    s.ahead (s.tick + BitVec.ofNat 48 s.boot.autoDly) 16 = true ∧ s.placeable im0 = true := by decide +kernel
theorem wit_ImageMilestones_healthy : up.healthy 0 = true ∧ up.swapReached im0 im0 = true ∧
    ({ up with img := { up.img with loading := some 0 } } : State).boot.auto = 0 := by decide +kernel
theorem wit_DetoursMoveSlots_auto : let s := moved { code 0 with placed := true } 1 []
    s.autoMoves 0 (movesOfPair false 0 64) = true := by decide +kernel
/-- moved, with state ranges of one granule. -/
def copySt : State :=
  let im : Image := { im0 with tiles := [rec0 2], states := [⟨0, 4, [(8, 2)]⟩] }
  let s := (moved (code 0) 2 [det]).wr (aPlace 0 0) 64
  { s with img := { s.img with armed := some im } }
theorem wit_DetoursMoveSlots_ranges : let s := copySt
    s.oldIdle 0 det = true ∧ det.from_ ≠ det.to_ ∧
    (s.img.armed.any (fun im => (im.stateOf 0).any (fun y => decide (4 ∈ granulesOf y.ranges)))) = true ∧
    eccClass false ((s.tile 0 5).gr (dataGran 8).1 (dataGran 8).2) = (.clean, 0) ∧
    eccClass false ((s.tile 0 64).gr (dataGran 8).1 (dataGran 8).2) = (.clean, 0) := by decide +kernel
theorem wit_DetoursMoveSlots_flip (t : Tile) (h : bitOf (t.ior 0x1B) 18 = false) : ∀ mem k, t.flipOn mem k = false := by
  intro mem k; simp [Tile.flipOn, h]
theorem wit_StewardshipClaims_decided :
    (ownSt 0).claimCheck 3 none 7 65535 ≠ 2 ∧ (ownSt 0).flashReach = true ∧ cutOff.flashReach = false ∧ (65535 : Nat) < 65536 := by
  decide +kernel
theorem wit_HandoverAndOwnerList_flash : (up.wr (aKey 7 0) 1).flashReach = true ∧ (cutOff.wr (aKey 7 0) 1).flashReach = false := by
  decide +kernel
theorem wit_SecurityCommands_running : let s : State := { up with sec := { up.sec with running := [(3, 3, some [1])] } }
    s.sec.running = [(3, 3, some [1])] ∧ up.leadVault = true ∧
    (up.setTile 0 72 { Tile.reset with io := [(0x1E, 1)] }).leadVault = false ∧ up.rf aSecBoot 10 0 < 1024 ∧
    1024 ≤ (up.wr aSecBoot 1024).rf aSecBoot 10 0 ∧ (up.wr aSecBoot 1024).akState = 0 ∧ (akOid < 2 ^ 32) := by decide +kernel
theorem wit_SecurityCommands_tamper : let s : State := { up with sec := { up.sec with running := [(3, 3, none)], active := [1] } }
    4 ∉ s.sec.active ∧ 1 ∈ s.sec.active ∧ (∀ x ∈ s.sec.running, x.1 < 5) := by decide +kernel

/-- A state whose next milestone applies the field x that a COMMIT holds. -/
def holds (s : State) (x : Stage) : State := { s with going := [x], mile := [] }
/-- up with link 511 named by an image that is armed. -/
def namedSt : State :=
  { up with img := { up.img with armed := some { im0 with egress := [⟨511, 100, 0, []⟩] } } }
theorem wit_MilestoneAdvancesTick_held :
    let x : Stage := ⟨aTimCfg, 0xFFF, 500⟩
    let y : Stage := ⟨aDram 7 0, 0xFFFFFF, wd (60 + 60 * 64 + 60 * 4096 + 61 * 2 ^ 18)⟩
    let z : Stage := ⟨aLink 511 0, 0x1FFFF, 2⟩
    (holds arm0 x).mile = [] ∧ (holds arm0 x).going = [x] ∧ (holds arm0 x).armed = true ∧
    x.changes ((holds arm0 x).rd x.key) (maskOf 9 0) = true ∧ up.armed = false ∧
    240 < fld (y.apply (up.rd y.key)) 5 0 + fld (y.apply (up.rd y.key)) 11 6 + fld (y.apply (up.rd y.key)) 17 12 +
      fld (y.apply (up.rd y.key)) 23 18 ∧ y.changes (up.rd y.key) (maskOf 23 0) = true ∧
    namedSt.named 511 = true ∧ z.changes (namedSt.rd z.key) (maskOf 3 0 ||| maskOf 16 15) = true ∧ up.named 511 = false ∧
    fld (z.apply (up.rd z.key)) 1 0 = 2 ∧ (up.wr (aGrp 7 3 0) 1).rate 511 = 1 ∧ up.rate 511 = 0 := by decide +kernel
theorem wit_MilestoneAdvancesTick_tile :
    let s := withTile { code 0 with io := [(0x31, 37)], going := [⟨0x30, 0xFFFF, 37⟩] }
    let u := withTile { code 0 with mile := [⟨0x100, 0xFFFFFFFFF, 77⟩] }
    s.held = false ∧ (∀ e ∈ List.range 8, s.detoursOn e = []) ∧ (s.tile 0 5).mile = [] ∧
    (s.tile 0 5).going = [⟨0x30, 0xFFFF, 37⟩] ∧ lkdBad ((s.tile 0 5).ior 0x31) = true ∧ lkdBad 35 = false ∧
    (u.tile 0 5).mile = [⟨0x100, 0xFFFFFFFFF, 77⟩] ∧ (u.tile 0 5).going = [] := by decide +kernel
theorem wit_MilestoneAdvancesTick_slew : let s : State := { up.wr aTimStat 0x30 with slewLeft := 52 }
    s.held = false ∧ s.flywheel = false ∧ s.rb aTimStat 4 = true ∧ (50 : Int) ≤ s.slewLeft - 2 := by decide +kernel
theorem wit_ResetState : (regAt 5 aTimCfg).isSome = true ∧ masterOk 5 = false ∧ masterOk 703 = true ∧
    (regAt 703 aTimCfg).any (fun x => x.2.1.fields.any (fun f => f.ixr == 0)) = true ∧
    (findReg regsTile 0).any (fun x => x.1.fields.any (fun f => f.ixr == 0)) = true := by decide +kernel
theorem wit_RegisterWriteByClass_other : Served 8 (aOwn 0x102) up ∧ regAt 8 (aOwn 0x102) = none ∧ regNamed (aOwn 0x102) = true ∧
    up.mayWrite 8 (aOwn 0x102) = true ∧ regNamed 0x1_FFFF_FFFF = false ∧ regNamed (aLink 511 0) = true ∧
    Served 703 (aOwn 0x102) up ∧ regAt 703 (aOwn 0x102) = none := by
  unfold Served Reached Alone; decide +kernel
theorem wit_TcrWriteFromOutside_warden : TileServed 0 7 72 up ∧ up.mayWrite 0 (aTile 7 72 0) = true ∧
    (up.tile 7 72).placed = false ∧ up.tileFlag 7 72 = 0 ∧
    ({ up with pwr := { up.pwr with tile := [(tkey 0 5, 4)] } } : State).tileFlag 0 5 = 4 := by
  unfold TileServed Alone; decide +kernel
theorem wit_SignpostDataAccess_sealed : let s := withTile { code 0 with io := [(0, 0)] }
    (up.tile 0 5).gr 3 ((up.tile 0 5).spOff / 8) = eccEncode 0 ∧
    ((withTile { code 0 with io := [(0, 1), (0x40, 0)] }).tile 0 5).sealedCode 3
      ((withTile { code 0 with io := [(0, 1), (0x40, 0)] }).tile 0 5).spOff = true ∧ s.held = false := by decide +kernel
theorem wit_BundleMovesRegister_table :
    let x : ImgTable := ⟨3, 2, false, 0, 0, 4, [], 100, 0⟩
    let t := { code (bun 0xA2 0xE5 1) with io := [(0x32, wd (2 ^ 15 + 4096 + 3)), (0x33, wd (4 * 64))], placed := true }
    let im : Image := { im0 with tiles := [rec0 0], tables := [x] }
    let s : State := { moved t 0 [] with img := { (moved t 0 []).img with armed := some im } }
    about s 0xA2 1 = true ∧ s.tableOf 0 5 ((s.tile 0 5).iof (0x30 + 2 * 1) 11 0) = some x ∧
    (s.tile 0 5).iof (0x31 + 2 * 1) 10 6 = 4 := by decide +kernel

/-! ## Witnesses: modes, domains, start-up, ports -/

/-- up in mode 1, ceiling 1, request 2. -/
def modeSt : State := up.wr (aPwr 0) (wd (2 + 4 + 8 + 32))
theorem wit_ModesAndAging :
    let hot : State := { modeSt with pwr := { modeSt.pwr with hot := [(7, 1)], cool := (List.range 8).map (fun d => (d, 1)) } }
    let dec : State := { modeSt with pwr := { modeSt.pwr with decTick := 999 } }
    modeSt.mode = 1 ∧ modeSt.ceil = 1 ∧ modeSt.reqMode = 2 ∧ (∀ y ∈ (-45 : Int) :: [125], -45 ≤ y ∧ y ≤ 125) ∧
    0 < hot.modeNow ∧ hot.heldFor hot.pwr.hot 7 symMs = true ∧ hot.rb (aPwr 0) 2 = true ∧ hot.ceil < 2 ∧
    (∀ d, d < 8 → hot.heldFor hot.pwr.cool d (10 * symSec) = true) ∧
    laterTick dec.tick dec.pwr.decTick = true ∧
    (dec.wr (aPwr 0) (wd (0 + 8 + 32))).decided < (dec.wr (aPwr 0) (wd (0 + 8 + 32))).mode ∧
    (dec.wr (aPwr 0) (wd (1 + 64))).mode < (dec.wr (aPwr 0) (wd (1 + 64))).decided ∧
    (dec.wr (aPwr 0) (wd (1 + 64))).pwr.volt = (dec.wr (aPwr 0) (wd (1 + 64))).wantMv ∧
    (dec.wr (aPwr 0) (wd (1 + 64))).pwr.ackAt + symMs / 10 ≤ (dec.wr (aPwr 0) (wd (1 + 64))).sym ∧
    (up.wr (aPwr 0) (wd 64)).pwr.volt ≠ (up.wr (aPwr 0) (wd 64)).wantMv ∧ up.pwr.sentAt = none ∧ up.busReach = true ∧
    up.flashReach = true ∧ up.healthy 7 = true ∧ up.domainOn 7 (71 / 8) = true ∧ 0 < up.slmin ∧ up.tileFlag 7 71 ≠ 4 ∧
    up.trimOf 7 (71 / 8) < 12 ∧ cutOff.flashReach = false ∧ cutOff.held = false := by decide +kernel

theorem wit_DomainsTilesAndFirmware : (up.setDom 7 16 1).domState 7 16 = 1 ∧ up.domState 7 8 = 2 ∧
    Permitted 0 (aPwr 0x50) up ∧ bitOf (0x200 : Word) 9 = true ∧ up.domainOn (linkEnds 9).1.1 14 = true ∧
    up.domainOn (linkEnds 9).2.1 14 = true ∧
    Permitted 0 (aPwr 0x4A) (up.wr (aPwr 0x49) (wd (7 + 8 * 71))) ∧ bitOf (0x8000 : Word) 15 = true ∧
    (up.wr (aPwr 0x49) (wd (7 + 8 * 71))).rf (aPwr 0x49) 2 0 = 7 ∧
    (up.wr (aPwr 0x49) (wd (7 + 8 * 71))).rf (aPwr 0x49) 9 3 = 71 ∧ up.tileFlag 7 71 = 0 ∧
    Permitted 0 (aDie 7 0x200) up ∧ bitOf (wd (128 + 71)) 7 = true ∧ fld (wd (128 + 71)) 6 0 = 71 ∧
    (up.tile 7 71).placed = false ∧ (up.die 7).bist = none ∧ up.domainOn 7 (71 / 8) = true ∧
    (∀ y ∈ up.detoursOn 7, y.to_ ≠ 71) ∧
    ((up.onDie 7 (fun x => { x with bist := some 71 })).die 7).bist = some 71 ∧
    ((withTile { code 0 with phase := .halt }).tile 0 5).phase = .halt ∧
    SMap.get (fun _ => 0) up.pwr.lastReset (tkey 0 5) = 0 := by
  unfold Permitted Served Reached Alone; decide +kernel
theorem wit_DomainsTilesAndFirmware_trip : ∀ n, (up.link n).rxl.frame = none := by
  intro n
  have h : up.links = [] := by decide +kernel
  rw [State.link, h]; rfl
theorem wit_DomainsTilesAndFirmware_halted : let s := moved { code 0 with phase := .halt, placed := true } 0 []
    (s.tile 0 5).phase = .halt ∧ (s.tile 0 5).placed = true ∧ s.recordOn { im0 with tiles := [rec0 0], states := [⟨0, 4, []⟩] } 0 5 =
      some (rec0 0) ∧ s.tileImage 0 5 = some { im0 with tiles := [rec0 0], states := [⟨0, 4, []⟩] } := by decide +kernel
theorem wit_DomainsTilesAndFirmware_update :
    let s : State := { up.wr (aPwr 0x62) 2 with pwr := { up.pwr with fwDie := some 7 } }
    Permitted 0 (aPwr 0x61) up ∧ up.updating = false ∧ up.swapping = false ∧ (∀ x, x < 8 → up.detoursOn x = []) ∧
    2 ≤ up.boot.healthy.length ∧ 7 ≠ up.lead ∧ up.healthy 7 = true ∧ s.updating = true ∧ s.pwr.fwDie = some 7 ∧
    s.pwr.fwAt + symSec ≤ s.sym := by
  unfold Permitted Served Reached Alone; decide +kernel

theorem wit_StartupAndTap : up.held = false ∧ (up.wr aBoot 0).rf aBoot 3 0 = 0 ∧ (up.wr aBoot 2).rf aBoot 3 0 = 2 ∧
    up.sec.active = [] ∧ (up.wr aBoot 3).rf aBoot 3 0 = 3 ∧ (up.wr aBoot 4).rf aBoot 3 0 = 4 ∧
    (up.wr aBoot 5).rf aBoot 3 0 = 5 ∧ Permitted 0 0xC1 up ∧ 16 ≤ fld (wd (16 * 2 ^ 13)) 28 13 ∧
    (up.wr (aSec 0) 0).lc = 0 ∧ (up.wr (aSec 0) 1).extestOk = true ∧ (up.wr (aSec 0) 2).extestOk = false ∧
    Reached 4 0 (up.wr (aSec 0) 3) ∧ (up.wr (aSec 0) 3).scanPends = false ∧ up.tap.clamped = false ∧
    (up.wr (aSec 0) 3).service = true ∧ bitOf (0 : BitVec 76) 72 = false ∧ fld (0 : BitVec 76) 71 36 = 0 ∧
    (up.wr (aSec 0) 2).service = false := by
  unfold Permitted Served Reached Alone; decide +kernel

theorem wit_PcieRequests : Reached 1 0 up ∧ up.draining 1 = false ∧ [(1 : Byte), 2, 3, 4].length = 4 ∧ (up.pcie 1).low = none ∧
    Reached 0 0x47 up ∧ up.mayWrite 0 0x47 = true ∧ (List.replicate 8 (3 : Byte)).length = 8 ∧ 2 ^ 36 - 1 < 2 ^ 36 := by
  unfold Reached; decide +kernel

/-- A message on management Ethernet (Table 13.7): OP, SESSION, SEQ, COUNT, ADDR, data. -/
def eth (op : Byte) (session seq count addr : Nat) (data : List Byte) : List Byte :=
  [0x54, 0x47, 1, op] ++ toBe 4 session ++ toBe 2 seq ++ toBe 2 count ++ [0, 0, 0, 0] ++ toBe 8 addr ++ data
/-- The way of a frame from a sender to port 1 of up. -/
def flow : EthFlow := ⟨up.rf (aEth 1 0) 23 0 * 2 ^ 24 + up.rf (aEth 1 1) 23 0, 9, 7, up.rf (aEth 1 2) 31 0, 5, up.rf (aEth 1 3) 15 0⟩
/-- A frame that carries a message to port 1. -/
def ethIn (body : List Byte) : List Byte := udpFrame flow ⟨none, 0, 0, 0, 64, true⟩ body
/-- up with master 3 as steward and a session of that sender with token 77 on port 1. -/
def ethSt : State := { up.wr (aOwn 0) 3 with eth1 := some ⟨flow.src, 77, 4, [], 0⟩ }
/-- The frame opens a session where none is. -/
theorem wit_EthernetSessions_open : let l := ethIn (eth 1 0 0 0 0 [])
    up.ethAccepts 1 l = true ∧ ethGood (udpPayload l) = true ∧ (ethFields (udpPayload l)).op = 1 ∧
    (ethFields (udpPayload l)).seq = 0 ∧ up.eth 1 = none := by decide +kernel
theorem wit_EthernetSessions_keepalive :
    ethSt.EthNext 1 (ethIn (eth 3 77 5 0 0 [])) ⟨flow.src, 77, 4, [], 0⟩ (ethFields (udpPayload (ethIn (eth 3 77 5 0 0 [])))) ∧
    (ethFields (udpPayload (ethIn (eth 3 77 5 0 0 [])))).op = 3 := by unfold State.EthNext; decide +kernel
theorem wit_EthernetSessions_close :
    ethSt.EthNext 1 (ethIn (eth 2 77 5 0 0 [])) ⟨flow.src, 77, 4, [], 0⟩ (ethFields (udpPayload (ethIn (eth 2 77 5 0 0 [])))) ∧
    (ethFields (udpPayload (ethIn (eth 2 77 5 0 0 [])))).op = 2 := by unfold State.EthNext; decide +kernel
theorem wit_EthernetSessions_read : let m := ethFields (udpPayload (ethIn (eth 0x10 77 5 1 0 [])))
    ethSt.EthNext 1 (ethIn (eth 0x10 77 5 1 0 [])) ⟨flow.src, 77, 4, [], 0⟩ m ∧ m.op = 0x10 ∧ m.count = 1 ∧ m.addr = 0 ∧
    Reached (2 + 1) 0 ethSt := by unfold State.EthNext Reached; decide +kernel
theorem wit_EthernetSessions_write :
    let l := ethIn (eth 0x11 77 5 1 0x47 (List.replicate 9 1))
    ethSt.EthNext 1 l ⟨flow.src, 77, 4, [], 0⟩ (ethFields (udpPayload l)) ∧ (ethFields (udpPayload l)).op = 0x11 ∧
    (ethFields (udpPayload l)).count = 1 ∧ (ethFields (udpPayload l)).addr = 0x47 ∧ Reached (2 + 1) 0x47 ethSt ∧
    ethSt.mayWrite (2 + 1) 0x47 = true := by unfold State.EthNext Reached; decide +kernel
theorem wit_EthernetSessions_discard : let l := ethIn (eth 3 78 5 0 0 [])
    up.ethAccepts 1 [1, 2] = false ∧ ethSt.ethAccepts 1 l = true ∧ ethGood (udpPayload l) = true ∧
    ethSt.eth 1 = some ⟨flow.src, 77, 4, [], 0⟩ ∧ (ethFields (udpPayload l)).op ≠ 1 ∧
    (ethFields (udpPayload l)).session ≠ (77 : BitVec 32).toNat ∧
    ethSt.due (0 + ethSt.rf (aEth 1 3) 31 16 * symMs) = true := by decide +kernel

theorem wit_LogbookRecords_oldest : (logSt.log (fld (15 : Word) 2 0)).ring.head? = some (rc7 5) ∧ curOk 15 = true := by decide +kernel
theorem wit_LogbookFlash_pfw : flushSt.flashReach = true ∧ (up.wr (aLog 1) 2).sect ∉ (up.wr (aLog 1) 2).badSect ∧
    (up.wr (aLog 1) 2).nrec + 40 ≤ 1820 ∧ (cutOff.wr (aLog 1) 2).rb (aLog 1) 1 = true ∧ (cutOff.wr (aLog 1) 2).pfwLow = false := by
  decide +kernel
theorem wit_LogbookFlash_err : ({ cutOff with flashErrAt := some (10 ^ 13 - symSec) } : State).flashReach = false ∧
    (10 ^ 13 - symSec) + symSec ≤ ({ cutOff with flashErrAt := some (10 ^ 13 - symSec) } : State).sym ∧
    (10 : Nat) ^ 13 < (10 ^ 13 - symSec + 1) + symSec := by decide +kernel
theorem wit_ModesAndAging_up :
    let s : State := { modeSt.wr (aPwr 0) (wd (1 + 64)) with pwr := { modeSt.pwr with decTick := 999, decAt := 0, sentAt := none } }
    laterTick s.tick s.pwr.decTick = true ∧ s.mode < s.decided ∧ s.voltOk = true ∧ s.pwr.decAt + symMs / 10 ≤ s.sym ∧
    s.pwr.ackAt + symMs / 10 ≤ s.sym := by decide +kernel
theorem wit_ModesAndAging_vout : let s := up.wr (aPwr 0) (wd 64)
    let u : State := { s with pwr := { s.pwr with sentAt := some (10 ^ 13 - 5), sentMv := s.wantMv } }
    s.voltOk = false ∧ s.busReach = true ∧ s.pwr.sentAt = none ∧ u.pwr.sentAt = some (10 ^ 13 - 5) ∧ u.pwr.sentMv = u.wantMv ∧
    u.sym < 10 ^ 13 - 5 + symMs ∧
    ({ s with pwr := { s.pwr with sentAt := some (10 ^ 13 - symMs), sentMv := s.wantMv } } : State).sym =
      10 ^ 13 - symMs + symMs := by decide +kernel
theorem wit_ModesAndAging_slow :
    let s : State := { withTile { code 0 with placed := true } with pwr := { up.pwr with trim := [(0, 12)] } }
    s.healthy 0 = true ∧ s.domainOn 0 (5 / 8) = true ∧ (List.replicate 6 0).getD 5 0 < s.slmin ∧ 12 ≤ s.trimOf 0 (5 / 8) ∧
    (s.tile 0 5).placed = true ∧ s.tileFlag 0 5 = 0 ∧ up.trimOf 0 (5 / 8) < 12 ∧ (List.replicate 73 0).length = 73 ∧
    up.trimOf 0 15 < 12 := by decide +kernel
theorem wit_DomainsTilesAndFirmware_ready : (up.setDom 7 15 1).domState 7 15 = 1 ∧ (up.wr (aSec 0) 0).lc = 0 ∧
    (up.wr (aSec 0) 2).lc ≠ 0 ∧ (up.setDom 7 12 1).domState 7 12 = 1 ∧ (up.setDom 7 8 1).domState 7 8 = 1 ∧
    (∀ e ∈ List.range 8, up.detoursOn e = []) := by decide +kernel
theorem wit_DomainsTilesAndFirmware_reset :
    SMap.get (fun _ => 0) ({ up with pwr := { up.pwr with lastReset := [(tkey 0 5, 10 ^ 13 + 1 - symSec)] } } : State).pwr.lastReset
      (tkey 0 5) + symSec ≤ up.sym + 1 := by decide +kernel
theorem wit_DomainsTilesAndFirmware_flash : cutOff.flashReach = false ∧ cutOff.held = false ∧ up.flashReach = true ∧
    (let s : State := { cutOff with boot := { cutOff.boot with healthy := [3, 4] } }
     s.flashReach = false ∧ 2 ≤ s.boot.healthy.length ∧ s.healthy 4 = true ∧ 4 ≠ s.lead) := by decide +kernel
theorem wit_StartupAndTap_phases : (∀ d ∈ [0, 1], d ∉ [2]) ∧ up.pwr.rows = [] ∧ (up.wr 0xC1 1).rb 0xC1 0 = true ∧
    up.rb 0xC1 0 = false ∧ (up.wr 0xC1 (wd (2 ^ 29))).rb 0xC1 29 = true ∧ up.tileFlag 7 71 ≠ 4 := by decide +kernel
theorem wit_StartupAndTap_scan : let s : State := { up.wr (aSec 0) 3 with xrq := [⟨4, 0, 0, false, [], false⟩] }
    s.service = true ∧ s.scanPends = true ∧ s.tap.clamped = false ∧ Served 4 0 (up.wr (aSec 0) 3) ∧
    ({ up with tap := { up.tap with clamped := true } } : State).tap.clamped = true := by
  unfold Served Reached Alone; decide +kernel
theorem wit_StartupAndTap_cells : chainCells.length = 1627 := by decide +kernel
theorem wit_PcieRequests_halves : Served 1 0 up ∧ up.clamped = false ∧ Served 0 0x47 up ∧
    (let s : State := { up with pcie1 := { PcieSt.reset with up := some (5, 7, 1) } }
     s.draining 1 = false ∧ (s.pcie 1).up = some (5, 7, 1) ∧ (1 : Nat) < 2) := by
  unfold Served Reached Alone; decide +kernel
theorem wit_EthernetSessions_served : Served (2 + 1) 0 ethSt ∧ Served (2 + 1) 0x47 ethSt ∧ ethSt.clamped = false ∧
    up.clamped = false := by unfold Served Reached Alone; decide +kernel

/-! ## Worked examples of the spec -/

/-- PKG_CAP0 after reset is o002_104_002_010 (spec/00, Worked example: decoding PKG_CAP0). -/
theorem test_pkg_cap0 : State.reset.rd 1 = wd 0o002104002010 := by decide +kernel

/-- Bundle B8 of Example 4.1: two guarded moves, guards 1 and 9 (Table 4.5). -/
theorem test_decode_b8 : (code 0x00E0B1000_2B19109).insn 2 =
    .ok ⟨false, .none, .bundle [⟨0xB1, 2, 0, 0, 1, 2⟩, ⟨0xB1, 0xE0, 0, 0, 9, 5⟩], 8, none⟩ := by decide +kernel
/-- Bundle B9 of Example 4.1 (Table 4.5). -/
theorem test_decode_b9 : (code 0xE02C00E0B211).insn 2 =
    .ok ⟨false, .none, .bundle [⟨0xB2, 0xE0, 0, 0, 0, 1⟩, ⟨0x2C, 0xE0, 0, 0, 0, 4⟩], 6, none⟩ := by decide +kernel
/-- Bundle B7 of Example 4.1 (Table 4.5): alu3.r to p1, 0 to lnk.ea. -/
theorem test_decode_b7 : (code 0xE0B0532101).insn 2 =
    .ok ⟨false, .none, .bundle [⟨0x21, 0x53, 0, 0, 0, 1⟩, ⟨0xB0, 0xE0, 0, 0, 0, 3⟩], 5, none⟩ := by decide +kernel
/-- Opcode bytes 0x85 to 0xBF are reserved (Table 4.1). -/
theorem test_decode_reserved : (code 0x85).insn 2 = .error ⟨0x02, 0, none⟩ := by decide +kernel

/-- divs of −7 by 2, and of 7 by −2 (spec/05, the div section). -/
theorem test_divs : (divOp 0 (wdI (-7)) 2).map (fun x => (x.q, x.rm)) = some (wdI (-3), wdI (-1)) ∧
    (divOp 0 7 (wdI (-2))).map (fun x => (x.q, x.rm)) = some (wdI (-3), 1) := by decide +kernel
/-- Example 5.2: the two nperms, the or, minnu, popc and geu (Table 5.11). -/
theorem test_road_key :
    prmOp 0 0o012340000001 0o000000777000 49202 = some 0o000000000340 ∧
    prmOp 0 0o400160000000 0o000003050000 15488 = some 0o003160000000 ∧
    (aluOp 0x09 0o000000000340 0 0o003160000000).map (fun x => x.r) = some 0o003160000340 ∧
    (aluOp 0x43 0o003160000340 0 0o001001001001).map (fun x => x.r) = some 0o001001000001 ∧
    (bfuOp 6 0 0 0o001001000001).isSome = true := by decide +kernel

/-- Example 8.1: stored bits 0 and 1 have syndromes 0x4EAB and 0x9D56, together the class corrected. -/
theorem test_syndromes : eccSyn (eccEncode 5 ^^^ 1) = 0x4EAB ∧ eccSyn (eccEncode 5 ^^^ 2) = 0x9D56 ∧
    (eccClass false (eccEncode 0o000000000001123456701234 ^^^ 3)) = (.corrected, 0o000000000001123456701234) := by
  decide +kernel

/-! ## One step of some commands -/

/-- The state after a command, or the state as it was if the command does not answer one. -/
def after (i : Instr) (s : State) : State :=
  match exec i s with
  | .next t => t
  | .fault _ => s
  | .refused _ => s

/-- The bundle of decode_move puts 5 into g1 and goes on at address 3 (R95, R119). -/
theorem test_bundle : ((after (.bundle 0 5 0) (withTile (code 0xE50100))).tile 0 5).sk 1 = 5 ∧
    ((after (.bundle 0 5 0) (withTile (code 0xE50100))).tile 0 5).pc = 3 := by decide +kernel
/-- A reserved opcode traps UNDEF: the trap is raised with code 2 and its entry goes to the vector of code 2 (R131, R311). -/
theorem test_undef : ((after (.bundle 0 5 0) (withTile (code 0x85))).tile 0 5).raised.map (fun x => x.code) = some 2 := by
  decide +kernel
theorem test_trap_vector : ((after (.trapEntry 0 5) (withTile { code 0 with raised := some tr })).tile 0 5).pc = 0x20 := by
  decide +kernel
/-- The tick number wraps at 2^48 (R53). -/
theorem test_tick_wraps : (after .milestone { up with tick := BitVec.ofNat 48 (2 ^ 48 - 1) }).tick = 0 := by decide +kernel
/-- A write from another master than the steward ends DENIED, code 3 (R2). -/
theorem test_denied : (after (.pkgTimCntclr 1 3) up).out = [.resp 1 3 []] := by decide +kernel
/-- A part in reset takes nothing (R629), and an event of a part that does not exist is a fault. -/
theorem test_held : (after .milestone State.reset) = State.reset := by decide +kernel
theorem test_no_part : exec (.bundle 8 0 0) up = .fault .noSuchPart := by rfl
/-- PORST_N rises: PKG_BOOT shows phase 0 (R629, R631). -/
theorem test_porst : (after .porstNRise State.reset).held = false ∧ (after .porstNRise State.reset).rf aBoot 3 0 = 0 := by
  decide +kernel
/-- The state after a step, or the state as it was. -/
def stepped (s : State) : State :=
  match step s with
  | .next t => t
  | .fault _ => s
  | .refused _ => s
/-- A step takes the front of the queue and leaves the rest; on an empty queue nothing happens (log entry 1). -/
theorem test_step_queue : (stepped { up with pending := [.milestone, .pfw] }).pending = [.pfw] ∧
    (stepped { up with pending := [.milestone, .pfw] }).tick = 1001 ∧ stepped up = up := by decide +kernel
/-- IDCODE is 0x1851276F, shifted out least significant bit first (R649). -/
theorem test_idcode : (after .idcode up).out.head? =
    some (.tdo ((List.range 8).flatMap (fun _ => tapBits 32 0x1851276F))) := by decide +kernel

end Sys2Proof.Tests
end

section
/-!
SUPPORT. What surrounds the access that a transaction carries: what an effect on registers leaves as it was, the turn of the
target port, the units put on the links crossed and the answer; and the COMMIT registers of the part.
-/
namespace Sys2Proof.Machine

/-! ## What an effect on registers leaves -/

/-- From s to u no register changed but those that p names; the stores, the tick and what has been sent stayed. -/
structure RegEffect (p : Nat → Prop) (s u : State) : Prop where
  regs : RegsBut p s u
  stores : StoresKept s u
  tick : u.tick = s.tick
  out : u.out = s.out

/-- One effect after another. -/
theorem RegEffect.trans {p q : Nat → Prop} {s t u : State} (h : RegEffect p s t) (k : RegEffect q t u) :
    RegEffect (fun a => p a ∨ q a) s u := by
  obtain ⟨h1, ⟨a1, a2, a3, a4, a5, a6, a7⟩, h3, h4⟩ := h
  obtain ⟨k1, ⟨b1, b2, b3, b4, b5, b6, b7⟩, k3, k4⟩ := k
  exact ⟨fun a ha => (k1 a (fun e => ha (.inr e))).trans (h1 a (fun e => ha (.inl e))),
    ⟨b1.trans a1, b2.trans a2, b3.trans a3, b4.trans a4, b5.trans a5, b6.trans a6, b7.trans a7⟩, k3.trans h3, k4.trans h4⟩

/-- An effect reaches no more than any wider set of registers. -/
theorem RegEffect.mono {p q : Nat → Prop} {s u : State} (h : RegEffect p s u) (hpq : ∀ a, p a → q a) : RegEffect q s u :=
  ⟨fun a ha => h.regs a (fun e => ha (hpq a e)), h.stores, h.tick, h.out⟩

/-- A register write reaches that register. -/
theorem State.wr_effect (s : State) (k : Nat) (v : Word) : RegEffect (fun q => q = k) s (s.wr k v) :=
  ⟨fun _ hq => State.rd_wr_of_ne s v hq, ⟨rfl, rfl, rfl, rfl, rfl, rfl, rfl⟩, rfl, rfl⟩

/-- Counting beats reaches the master's toll register. -/
theorem State.xrBeats_effect (s : State) (m n : Nat) : RegEffect (fun q => q = aToll m) s (s.xrBeats m n) :=
  ⟨fun _ hq => s.rd_xrBeats m n hq, by simp [StoresKept], by simp, by simp⟩

/-- A waymark reaches no register. -/
theorem State.mark_effect (s : State) (d kd ix c : Nat) (x y z : Word) :
    RegEffect (fun _ => False) s (s.mark d kd ix c x y z) :=
  ⟨fun _ _ => rfl, ⟨rfl, rfl, rfl, rfl, rfl, rfl, rfl⟩, rfl, rfl⟩

/-- Putting a tile back reaches no register. -/
theorem State.setTile_effect (s : State) (d p : Nat) (t : Tile) : RegEffect (fun _ => False) s (s.setTile d p t) :=
  ⟨fun _ _ => rfl, ⟨rfl, rfl, rfl, rfl, rfl, rfl, rfl⟩, rfl, rfl⟩

/-! ## The turn of the target port, the links crossed and the answer -/

/-- The state in which a transaction of master m that takes its turn at once sets out: the target port has its master as the one
served last (R397). -/
def State.turnTaken (s : State) (m addr : Nat) : State :=
  { s with xrLast := SMap.set (fun _ => 1023) s.xrLast (s.portOf addr) m }

/-- Taking the turn reaches no register. -/
theorem State.turnTaken_effect (s : State) (m addr : Nat) : RegEffect (fun _ => False) s (s.turnTaken m addr) :=
  ⟨fun _ _ => rfl, ⟨rfl, rfl, rfl, rfl, rfl, rfl, rfl⟩, rfl, rfl⟩

/-- The beats of a transaction that takes its turn at once are counted. -/
def State.setOut (s : State) (m addr : Nat) : State := (s.turnTaken m addr).xrBeats m 1

/-- Setting out reaches the master's toll register. -/
theorem State.setOut_effect (s : State) (m addr : Nat) : RegEffect (fun q => q = aToll m) s (s.setOut m addr) :=
  ((s.turnTaken_effect m addr).trans (State.xrBeats_effect _ m 1)).mono (fun _ h => h.resolve_left id)

@[simp] theorem State.setOut_staged (s : State) (m addr : Nat) : (s.setOut m addr).staged = s.staged := by
  simp [State.setOut, State.turnTaken]
@[simp] theorem State.setOut_going (s : State) (m addr : Nat) : (s.setOut m addr).going = s.going := by
  simp [State.setOut, State.turnTaken]
@[simp] theorem State.setOut_mile (s : State) (m addr : Nat) : (s.setOut m addr).mile = s.mile := by
  simp [State.setOut, State.turnTaken]
@[simp] theorem State.setOut_tiles (s : State) (m addr : Nat) : (s.setOut m addr).tiles = s.tiles := by
  simp [State.setOut, State.turnTaken]

/-- The only waymark that counting a beat can raise is NETTOLL, code 0x031 (R397). -/
theorem State.mem_marks_setOut (s : State) (m addr : Nat) {k : Mark} (h : k ∈ (s.setOut m addr).marks) :
    k ∈ s.marks ∨ k.code = 0x031 := by
  obtain ⟨f, g, e | e⟩ := (s.turnTaken m addr).xrBeats_cases m 1 <;> rw [State.setOut, e] at h
  · exact .inl h
  · rw [State.mark, List.mem_append, List.mem_singleton] at h
    exact h.imp id (fun e => by rw [e])

/-- t is u with the units of an exchange on the links it crossed, and master m answered code c with the words l (R362, R395). -/
structure AnsweredAs (m c : Nat) (l : List Word) (u t : State) : Prop where
  rd : ∀ q, t.rd q = u.rd q
  tiles : t.tiles = u.tiles
  staged : t.staged = u.staged
  going : t.going = u.going
  mile : t.mile = u.mile
  marks : t.marks = u.marks
  tick : t.tick = u.tick
  kept : AccessKept u t
  out : t.out = u.out ++ [.resp m c l]

/-- u with longer queues on the Ibrak links, and some free values used up: what an exchange over them comes to (R362, R382). -/
structure UnitsQueued (u t : State) : Prop where
  same : ∃ ibk free, t = { u with ibk := ibk, free := free }
  dirs : ∀ k e, { t.dir k e with queue := (u.dir k e).queue } = u.dir k e

/-- Nothing is queued. -/
theorem UnitsQueued.refl (u : State) : UnitsQueued u u := ⟨⟨u.ibk, u.free, rfl⟩, fun _ _ => rfl⟩

/-- One exchange after another. -/
theorem UnitsQueued.trans {s t u : State} (h : UnitsQueued s t) (k : UnitsQueued t u) : UnitsQueued s u := by
  obtain ⟨⟨i, f, rfl⟩, hd⟩ := h
  obtain ⟨⟨i', f', rfl⟩, kd⟩ := k
  refine ⟨⟨i', f', rfl⟩, fun a e => ?_⟩
  have := congrArg (fun x : IbkDir => { x with queue := (s.dir a e).queue }) (kd a e)
  exact this.trans (hd a e)

/-- Units put on a direction of a link. -/
theorem State.unitsOn_queued (s : State) (l dir cls n : Nat) : UnitsQueued s (s.unitsOn l dir cls n) := by
  refine ⟨⟨_, s.free, rfl⟩, fun k e => ?_⟩
  by_cases h : 2 * k + e = 2 * l + dir
  · simp [State.unitsOn, State.dir, State.onDir, h]
  · simp [State.unitsOn, State.dir, State.onDir, SMap.get_set_of_ne _ _ _ h]

/-- An exchange over the links of a path. -/
theorem State.crossOn_queued (s : State) (a b cls n m : Nat) (path : List Nat) :
    UnitsQueued s (s.crossOn a b cls n m path) := by
  have fold : ∀ (l : List Nat) (u : State), UnitsQueued u (l.foldl (fun (s : State) l =>
      (s.unitsOn l (pathDir a b l) cls n).unitsOn l (1 - pathDir a b l) cls m) u) := by
    intro l
    induction l with
    | nil => exact UnitsQueued.refl
    | cons x r ih => exact fun u => ((u.unitsOn_queued ..).trans (State.unitsOn_queued ..)).trans (ih _)
  unfold State.crossOn
  split
  · exact UnitsQueued.refl s
  · exact (fold path s).trans ⟨⟨_, _, rfl⟩, fun _ _ => rfl⟩

/-- The units of a transaction on the links that it crossed. -/
theorem State.xrCross_queued (s s0 : State) (m addr out back : Nat) : UnitsQueued s (s.xrCross s0 m addr out back) := by
  unfold State.xrCross
  split
  · exact UnitsQueued.refl s
  · split
    · exact UnitsQueued.refl s
    · exact s.crossOn_queued ..

/-- An answer is sent; JTAG's is kept in its register as well (R652). -/
theorem State.answer_eq (s : State) (m c : Nat) (l : List Word) :
    ∃ tap, s.answer m c l = { s with out := s.out ++ [.resp m c l], tap := tap } := by
  unfold State.answer
  split
  · exact ⟨_, rfl⟩
  · exact ⟨s.tap, rfl⟩

/-- The end of a transaction: its units on the links crossed, and its answer. -/
theorem State.answeredAs (s u s0 : State) (m addr out back c : Nat) (l : List Word) :
    AnsweredAs m c l u (s.keepQueue ((u.xrCross s0 m addr out back).answer m c l)) := by
  obtain ⟨⟨ibk, free, e⟩, hd⟩ := u.xrCross_queued s0 m addr out back
  obtain ⟨tap, ea⟩ := (u.xrCross s0 m addr out back).answer_eq m c l
  rw [ea]
  refine ⟨fun q => ?_, ?_, ?_, ?_, ?_, ?_, ?_, ⟨?_, ?_, ?_, ?_, hd, ?_, ?_⟩, ?_⟩ <;> rw [e] <;> rfl

/-- The stores after an effect on registers and the end of its transaction. -/
theorem RegEffect.accessKept {p : Nat → Prop} {s u t : State} {m c : Nat} {l : List Word} (h : RegEffect p s u)
    (k : AnsweredAs m c l u t) : AccessKept s t := by
  obtain ⟨a1, a2, a3, a4, a5, a6, a7⟩ := h.stores
  obtain ⟨b1, b2, b3, b4, b5, b6, b7⟩ := k.kept
  have hd : ∀ x e, u.dir x e = s.dir x e := fun x e => by rw [State.dir, a5]; rfl
  exact ⟨b1.trans a1, b2.trans a2, b3.trans a3, b4.trans a4, fun x e => by rw [← hd]; exact b5 x e,
    b6.trans a6, b7.trans a7⟩

/-- The registers after an effect on them and the end of its transaction. -/
theorem RegEffect.regsBut {p : Nat → Prop} {s u t : State} {m c : Nat} {l : List Word} (h : RegEffect p s u)
    (k : AnsweredAs m c l u t) : RegsBut p s t := fun q hq => (k.rd q).trans (h.regs q hq)

/-- An effect on registers alone, answered OK. -/
theorem RegEffect.regsOnly {p : Nat → Prop} {s u t : State} {m : Nat} {l : List Word}
    (h : RegEffect (fun q => p q ∨ q = aToll m) s u) (ht : u.tiles = s.tiles) (k : AnsweredAs m 0 l u t) :
    RegsOnly m p l s t :=
  ⟨h.regsBut k, k.tiles.trans ht, h.accessKept k, k.tick.trans h.tick, by rw [k.out, h.out]⟩

/-! ## Commits of the part -/

/-- A part that serves a write is out of reset. -/
theorem Permitted.outOfReset {m a : Nat} {s : State} (h : Permitted m a s) : s.held = false := by
  obtain ⟨⟨⟨hheld, -⟩, -⟩, -⟩ := h
  exact hheld

/-- A write with GO = 1 of a COMMIT register reaches that register. -/
theorem State.commitGo_effect (s : State) (c : Nat) {w : Word} (hw : bitOf w 0 = true) :
    RegEffect (fun q => q = c) s (s.commitGo c w) := by
  rw [State.commitGo, if_pos hw, State.wf_eq]
  exact ⟨fun q hq => State.rd_wr_of_ne _ _ hq, ⟨rfl, rfl, rfl, rfl, rfl, rfl, rfl⟩, rfl, rfl⟩

/-- It shows PENDING, holds what is staged under it, and leaves the rest staged (R8, R10). -/
theorem State.commitGo_holds (s : State) (c : Nat) {w : Word} (hw : bitOf w 0 = true) :
    (s.commitGo c w).rb c 1 = true ∧ (s.commitGo c w).tiles = s.tiles ∧
      (s.commitGo c w).going = stageAll s.going (s.staged.filter (fun (y : Stage) => commitOf y.key == c)) ∧
      (s.commitGo c w).staged = s.staged.filter (fun (y : Stage) => commitOf y.key != c) := by
  rw [State.commitGo, if_pos hw]
  exact ⟨State.rb_wb_self _ c true (by decide), rfl, rfl, rfl⟩

/-- Register addresses of a die are in region 1. -/
theorem aDie_lt {d o : Nat} (hd : d < 8) (ho : o < 0x2000_0000) : aDie d o < 0x2_0000_0000 := by unfold aDie; omega

/-- Those of its DRAM block. -/
theorem aDram_lt {d o : Nat} (hd : d < 8) (ho : o < 0x1_0000) : aDram d o < 0x2_0000_0000 := aDie_lt hd (by omega)

/-- Those of its link groups. -/
theorem aGrp_lt {d g o : Nat} (hd : d < 8) (hg : g < 4) (ho : o < 0x100) : aGrp d g o < 0x2_0000_0000 := aDie_lt hd (by omega)

/-- Those of its links. -/
theorem aLink_lt {n o : Nat} (hn : n < 512) (ho : o < 0x40) : aLink n o < 0x2_0000_0000 := aDie_lt (by omega) (by omega)

/-- A PWR_ block. -/
theorem blockOf_aPwr {o : Nat} (ho : o < 0x1_0000) : blockOf (aPwr o) = some (.pwr, o) := by
  unfold blockOf aPwr
  rw [if_neg (by omega), if_neg (by omega), if_neg (by omega), if_neg (by omega), if_pos (by omega), Nat.add_sub_cancel_left]

/-- A permitted write of a COMMIT register of region 0 or 1 is that commit. -/
theorem State.regPut_commit (s : State) {m c o : Nat} {b : Block} {r : RegSpec} {k : Nat} {w : Word}
    (hb : blockOf c = some (b, o)) (h : isCommitReg c = true) : s.regPut m c b r k w = s.commitGo c w := by
  rw [isCommitReg, hb] at h
  cases b <;> simp at h <;> simp [State.regPut, hb, h]

/-- A command that is a permitted write with GO = 1 of a COMMIT register of region 0 or 1. -/
theorem commit_write {i : Instr} {s : State} {m c o j : Nat} {w : Word} {b : Block} {r : RegSpec} {ok : Bool}
    (e : exec i s = live ok s (fun s => s.doWrite m c w)) (hok : ok = true) (hm : masterOk m = true)
    (hw : bitOf w 0 = true) (hp : Permitted m c s) (hc : c < 0x2_0000_0000) (hb : blockOf c = some (b, o))
    (hr : findReg b.regs o = some (r, j)) (hpm : r.perMaster = false)
    (hcr : ∀ a, blockOf a = some (b, o) → isCommitReg a = true := by intro _ h; simp [isCommitReg, h]) :
    ∃ t, exec i s = .next t ∧ t.rb c 1 = true ∧
      t.going = stageAll s.going (s.staged.filter (fun (y : Stage) => commitOf y.key == c)) ∧
      t.staged = s.staged.filter (fun (y : Stage) => commitOf y.key != c) ∧ RegsOnly m (fun q => q = c) [] s t := by
  refine ⟨_, e.trans (live_next hp.outOfReset hok), ?_⟩
  rw [State.doWrite_reg w hm hc hp (regAt_of hb hr hpm) hpm (s1 := s.turnTaken m c) rfl, State.regPut_commit _ hb (hcr c hb)]
  have k := State.answeredAs s ((s.setOut m c).commitGo c w) (s.turnTaken m c) m c 1 0 0 []
  obtain ⟨hb, ht, hg, hs⟩ := (s.setOut m c).commitGo_holds c hw
  refine ⟨by rw [← hb]; exact congrArg (bitOf · 1) (k.rd c), k.going.trans ?_, k.staged.trans ?_, ?_⟩
  · rw [hg, State.setOut_going, State.setOut_staged]
  · rw [hs, State.setOut_staged]
  · exact RegEffect.regsOnly (((s.setOut_effect m c).trans ((s.setOut m c).commitGo_effect c hw)).mono
      (fun _ h => h.symm)) (ht.trans (s.setOut_tiles m c)) k

/-- Settles O11: each of the six commands is a permitted write of a COMMIT register. -/
theorem commitSetsPending : Obligations.CommitSetsPending := by
  intro s m d g n w hm hd hg hn hw x hx hp
  have hdie : dieOk d = true := decide_eq_true hd
  have hgrp : grpOk g = true := decide_eq_true hg
  have hlink : linkOk n = true := decide_eq_true hn
  simp only [List.mem_cons, List.not_mem_nil, or_false] at hx
  rcases hx with rfl | rfl | rfl | rfl | rfl | rfl
  · exact commit_write rfl hm hm hw hp (by simp) (b := .pkg) rfl rfl rfl
  · have hb := blockOf_aDie hd (show 0x102 < 0x1_0000 by decide)
    exact commit_write rfl (by simp [hm, hdie]) hm hw hp (aDie_lt hd (by decide)) hb rfl rfl
  · have hb := blockOf_aDram hd (show 2 < 0x1_0000 by decide)
    exact commit_write rfl (by simp [hm, hdie]) hm hw hp (aDram_lt hd (by decide)) hb rfl rfl
  · have hb := blockOf_aGrp hd hg (show 1 < 0x100 by decide)
    exact commit_write rfl (by simp [hm, hdie, hgrp]) hm hw hp (aGrp_lt hd hg (by decide)) hb rfl rfl
  · have hb := blockOf_aLink hn (show 2 < 0x40 by decide)
    exact commit_write rfl (by simp [hm, hlink]) hm hw hp (aLink_lt hn (by decide)) hb rfl rfl
  · have hb := blockOf_aPwr (show 1 < 0x1_0000 by decide)
    exact commit_write rfl hm hm hw hp (by unfold aPwr; omega) hb rfl rfl

end Sys2Proof.Machine
end

section
/-!
SUPPORT. A single-word write that takes its turn at once, at any target; and a permitted write of a tile register.
-/
namespace Sys2Proof.Machine

/-! ## What a transaction that sets out finds -/

@[simp] theorem State.early_setOut (s : State) (m addr : Nat) : (s.setOut m addr).early = s.early :=
  State.early_xrBeats _ m 1
@[simp] theorem State.mayWrite_setOut (s : State) (m addr q a : Nat) : (s.setOut m addr).mayWrite q a = s.mayWrite q a :=
  State.mayWrite_xrBeats _ m 1 q a
@[simp] theorem State.servedBy_setOut (s : State) (m addr a : Nat) : (s.setOut m addr).servedBy a = s.servedBy a :=
  State.servedBy_xrBeats _ m 1 a
@[simp] theorem State.tile_setOut (s : State) (m addr d p : Nat) : (s.setOut m addr).tile d p = s.tile d p :=
  State.tile_xrBeats _ m 1 d p
@[simp] theorem State.tick_setOut (s : State) (m addr : Nat) : (s.setOut m addr).tick = s.tick := (s.setOut_effect m addr).tick

/-- A master of the part reaches the dies that it reached. -/
theorem State.reaches_setOut (s : State) {m : Nat} (addr : Nat) {d : Nat} (hm : masterOk m = true) (hd : d < 8) :
    (s.setOut m addr).reaches m d = s.reaches m d := State.reaches_xrBeats _ m 1 m d (masterDie_lt hm) hd

/-- A tile's row is powered as before. -/
theorem State.rowOn_setOut (s : State) (m addr p : Nat) {d : Nat} (hd : d < 8) :
    (s.setOut m addr).rowOn d p = s.rowOn d p := by
  have h := (s.setOut_effect m addr).regs (aPwr (0x18 + d)) (ne_aToll_low (by unfold aPwr; omega))
  simp only [State.rowOn, State.domainOn, State.rf, h]

/-! ## A write in its turn -/

/-- A write of one word is performed and answered, unless it was issued by a steward that has lost stewardship since. -/
theorem State.perform_write {s : State} {m addr : Nat} {auth : Bool} (w : Word)
    (h : (auth && true && s.steward != m) = false) :
    s.perform ⟨m, addr, 0, true, [w], auth⟩ = (s.xrWrite m addr w).1.answer m (s.xrWrite m addr w).2 [] := by
  unfold State.perform State.transact
  simp only [h, Bool.false_eq_true, if_false, if_true, List.headD_cons]

/-- A write that takes its turn at once: beats counted, the word written, the response recorded, the units on the links
crossed, the answer. -/
theorem State.doWrite_alone {s u : State} {m addr c : Nat} {w : Word} (hm : s.isMaster m = true) (ha : Alone addr s)
    (h8 : addr / 0x1_0000_0000 % 16 < 8) (hw : (s.setOut m addr).busWrite m addr w = (u, c)) :
    s.doWrite m addr w = ((u.record m addr c).xrCross (s.turnTaken m addr) m addr 1 0).answer m c [] := by
  have hauth : (m == s.steward && true && (s.turnTaken m addr).steward != m) = false := by
    rw [show (s.turnTaken m addr).steward = s.steward from rfl]
    by_cases h : m = s.steward <;> simp [h]
  have hx : (s.turnTaken m addr).xrWrite m addr w = ((u.record m addr c).xrCross (s.turnTaken m addr) m addr 1 0, c) := by
    rw [State.xrWrite, ← State.setOut, hw]
  rw [State.doWrite, State.issue_alone _ _ _ hm ha h8, ← State.turnTaken, State.perform_write w hauth, hx]

/-! ## Tile registers -/

/-- The region of a tile's address. -/
theorem aTile_region {d p o : Nat} (hd : d < 8) (hp : p < 73) (ho : o < 0x8_0000) :
    aTile d p o / 0x1_0000_0000 % 16 = 3 ∧ aTile d p o % 0x10_0000_0000 = aTile d p o := by
  unfold aTile; omega

/-- The physical tile that a region-3 address names. -/
theorem State.tileAt_aTile (s : State) {d p o : Nat} (hd : d < 8) (hp : p < 73) (ho : o < 0x8_0000) :
    s.tileAt (aTile d p o) = some (d, [p], o) := by
  have h1 : aTile d p o / 0x1_0000_0000 = 3 := by unfold aTile; omega
  have h2 : aTile d p o / 0x2000_0000 % 8 = d := by unfold aTile; omega
  have h3 : aTile d p o / 0x40_0000 % 128 = p := by unfold aTile; omega
  have h4 : ¬(aTile d p o / 0x8_0000 % 8 ≠ 0 ∨ 72 < p) := by unfold aTile; omega
  have h5 : aTile d p o % 0x8_0000 = o := by unfold aTile; omega
  unfold State.tileAt
  simp only [h1, h2, h3, h5, if_true, if_neg h4]

/-- Every register of a die's tiles is behind one port. -/
theorem State.portOf_aTile (s : State) {d p o : Nat} (hd : d < 8) (hp : p < 73) (ho : o < 0x8_0000) :
    s.portOf (aTile d p o) = 4 * d + 2 := by
  obtain ⟨h1, h2⟩ := aTile_region hd hp ho
  simp [State.portOf, State.targetDie, h1, h2, s.tileAt_aTile hd hp ho]

/-- A permitted write into a powered tile, of a register that is neither TILE_TCR nor TILE_SP_DATA. -/
theorem State.tileWrite_reg {s : State} {m d p o named : Nat} {w : Word} (ho : o < 0x8000) (h0 : o ≠ 0) (h41 : o ≠ 0x41)
    (hr : (tileReg p o).isSome = true) (hrow : s.rowOn d p = true) (hw : s.mayWrite m named = true) :
    s.tileWrite m d p o named w false = (s.setTile d p ((s.tile d p).regWrite s.tick d p o 4 w), 0) := by
  have hno : ¬(0x8000 ≤ o ∨ (tileReg p o).isNone = true) := by
    rw [Option.isNone_iff_eq_none, ← Option.not_isSome_iff_eq_none]; simp [hr, ho]
  rw [State.tileWrite, if_neg (by simp [hrow]; omega), if_pos (by omega), if_neg hno]
  simp [State.tileRegWrite, hw, h0, h41]

/-- A served and permitted write of a tile register that is neither TILE_TCR nor TILE_SP_DATA: the register's own effect on the
tile, and the answer OK. -/
theorem State.doWrite_tile {s : State} {m d p o : Nat} (w : Word) (hm : masterOk m = true) (hd : d < 8) (hp : p < 73)
    (ho : o < 0x8000) (h0 : o ≠ 0) (h41 : o ≠ 0x41) (hr : (tileReg p o).isSome = true) (hs : TileServed m d p s)
    (hw : s.mayWrite m (aTile d p o) = true) :
    s.doWrite m (aTile d p o) w =
      (((s.setOut m (aTile d p o)).setTile d p ((s.tile d p).regWrite s.tick d p o 4 w)).xrCross
        (s.turnTaken m (aTile d p o)) m (aTile d p o) 1 0).answer m 0 [] := by
  obtain ⟨-, him, hearly, hreach, hrow, hal⟩ := hs
  have ho8 : o < 0x8_0000 := by omega
  obtain ⟨hreg, hmod⟩ := aTile_region hd hp ho8
  have hal : Alone (aTile d p o) s := by
    intro r hr; rw [s.portOf_aTile hd hp ho8, ← s.portOf_aTile hd hp (by decide : 0 < 0x8_0000)]; exact hal r hr
  have hone := State.tileWrite_reg (s := s.setOut m (aTile d p o)) (w := w) ho h0 h41 hr
    ((s.rowOn_setOut m _ p hd).trans hrow) ((s.mayWrite_setOut m _ m (aTile d p o)).trans hw)
  rw [State.tile_setOut, State.tick_setOut] at hone
  have hbus : (s.setOut m (aTile d p o)).busWrite m (aTile d p o) w =
      ((s.setOut m (aTile d p o)).setTile d p ((s.tile d p).regWrite s.tick d p o 4 w), 0) := by
    unfold State.busWrite State.tilesWrite
    simp [hreg, hmod, hearly, State.tileAt_aTile _ hd hp ho8, s.reaches_setOut _ hm hd, hreach, hone]
  exact State.doWrite_alone him hal (by omega) hbus

/-- A command that is such a write of a tile register: what it leaves in the tile, and that it reaches no other. -/
theorem tile_write {i : Instr} {s : State} {m d p o : Nat} {w : Word} {ok : Bool}
    (e : exec i s = live ok s (fun s => s.doWrite m (aTile d p o) w)) (hok : ok = true) (hm : masterOk m = true)
    (hd : d < 8) (hp : p < 73) (ho : o < 0x8000) (h0 : o ≠ 0) (h41 : o ≠ 0x41) (hr : (tileReg p o).isSome = true)
    (hs : TileServed m d p s) (hw : s.mayWrite m (aTile d p o) = true) :
    ∃ t, exec i s = .next t ∧ TileAnswered m d p [] s t ∧
      t.tile d p = { (s.tile d p).regWrite s.tick d p o 4 w with marks := [] } := by
  refine ⟨_, e.trans (live_next hs.1 hok), ?_⟩
  rw [State.doWrite_tile w hm hd hp ho h0 h41 hr hs hw]
  have k := State.answeredAs s ((s.setOut m (aTile d p o)).setTile d p ((s.tile d p).regWrite s.tick d p o 4 w))
    (s.turnTaken m (aTile d p o)) m (aTile d p o) 1 0 0 []
  have h := ((s.setOut_effect m (aTile d p o)).trans (State.setTile_effect _ d p ((s.tile d p).regWrite s.tick d p o 4 w))).mono
    (fun _ h => h.resolve_right id)
  refine ⟨⟨h.regsBut k, fun a b hab => ?_, h.accessKept k, k.tick.trans h.tick, by rw [k.out, h.out]⟩, ?_⟩
  · rw [State.tile, k.tiles]
    exact (State.tile_setTile_of_ne _ _ hab).trans (s.tile_setOut m _ a b)
  · rw [State.tile, k.tiles]
    exact State.tile_setTile_self _ d p _

/-- Settles O13: both commands are permitted writes of a tile register, with the register's own effect on the tile. -/
theorem tileCommitAndDoorbell : Obligations.TileCommitAndDoorbell := by
  intro s m d p w hm hd hp hs
  have hok : (masterOk m && dieOk d && tileOk p) = true := by simp [hm, dieOk, tileOk, hd, hp]
  refine ⟨fun hw hgo => ?_, fun hw => ?_⟩
  · obtain ⟨t, he, ha, ht⟩ := tile_write (i := .tileCommit m d p w) rfl hok hm hd hp (by decide) (by decide) (by decide)
      (by rw [tileReg, if_neg (by simp)]; rfl) hs hw
    have hc : (s.tile d p).regWrite s.tick d p 0x3F 4 w = (s.tile d p).commitGo w := rfl
    rw [hc, Tile.commitGo, if_pos hgo] at ht
    refine ⟨t, he, ha, ?_, ?_, ?_, fun q hq => ?_⟩ <;> rw [ht]
    · exact (congrArg (bitOf · 1) (Tile.ior_iow_self ..)).trans (bitOf_putFld_natB _ true (by decide))
    · rfl
    · rfl
    · exact (Tile.ior_iow ..).trans (if_neg hq)
  · obtain ⟨t, he, ha, ht⟩ := tile_write (i := .dbellWrite m d p w) rfl hok hm hd hp (by decide) (by decide) (by decide)
      (by rw [tileReg, if_neg (by simp)]; rfl) hs hw
    have hc : (s.tile d p).regWrite s.tick d p 8 4 w = ((s.tile d p).iow 8 w).iowf 7 0 0 1 := rfl
    rw [hc, Tile.iowf_eq] at ht
    have hio : ∀ q, (t.tile d p).ior q = (((s.tile d p).iow 8 w).iow 7 (putFld (((s.tile d p).iow 8 w).ior 7) 0 0 1)).ior q :=
      fun q => by rw [ht]; rfl
    refine ⟨t, he, ha, ?_, ?_, fun q h7 h8 => ?_⟩ <;> rw [hio]
    · rw [Tile.ior_iow, if_neg (by decide), Tile.ior_iow_self]
    · rw [Tile.ior_iow_self]; exact bitOf_putFld_natB _ true (by decide)
    · rw [Tile.ior_iow, if_neg h7, Tile.ior_iow, if_neg h8]

end Sys2Proof.Machine
end

section
/-!
SUPPORT. Register writes by class (R1 to R7): a permitted write of a link's register, and a write of region 0 or 1 that is not
performed, with the response recorded on the master's die.
-/
namespace Sys2Proof.Machine

/-! ## Writes under the access codes -/

/-- Staging under an empty mask stages nothing. -/
@[simp] theorem stageAdd_none (l : List Stage) (k : Nat) (v : Word) : stageAdd l k 0 v = l := by
  unfold stageAdd; exact if_pos rfl

/-- A write under the access codes reaches that register. -/
theorem State.genWrite_effect (s : State) (r : RegSpec) (k addr : Nat) (w : Word) :
    RegEffect (fun q => q = k) s (s.genWrite r k addr w) := by
  unfold State.genWrite
  have h : RegEffect (fun q => q = k) s { s.wr k (r.write (s.rd k) w).val with
      staged := stageAdd s.staged k (r.write (s.rd k) w).commit w, mile := stageAdd s.mile k (r.write (s.rd k) w).mile w } :=
    ⟨fun _ hq => State.rd_wr_of_ne s _ hq, ⟨rfl, rfl, rfl, rfl, rfl, rfl, rfl⟩, rfl, rfl⟩
  dsimp only
  split
  · exact (h.trans (State.mark_effect ..)).mono (fun _ e => e.resolve_right id)
  · exact h

/-- The register's word in force after it. -/
theorem State.rd_genWrite_self (s : State) (r : RegSpec) (k addr : Nat) (w : Word) :
    (s.genWrite r k addr w).rd k = (r.write (s.rd k) w).val := by
  unfold State.genWrite; dsimp only; split <;> exact State.rd_wr_self s k _

/-- What it stages. -/
theorem State.genWrite_staged (s : State) (r : RegSpec) (k addr : Nat) (w : Word) :
    (s.genWrite r k addr w).staged = stageAdd s.staged k (r.write (s.rd k) w).commit w := by
  unfold State.genWrite; dsimp only; split <;> rfl

/-- It reaches no tile. -/
theorem State.genWrite_tiles (s : State) (r : RegSpec) (k addr : Nat) (w : Word) :
    (s.genWrite r k addr w).tiles = s.tiles := by
  unfold State.genWrite; dsimp only; split <;> rfl

/-- The waymarks: REFUSED with the register and the value written, where a field named a reserved encoding (R4). -/
theorem State.genWrite_marks (s : State) (r : RegSpec) (k addr : Nat) (w : Word) :
    (s.genWrite r k addr w).marks = s.marks ++ if (r.write (s.rd k) w).refused then
      [⟨(regSource s.lead addr).1, (regSource s.lead addr).2.1, (regSource s.lead addr).2.2, 0x011, wd addr, w, 0, s.tick,
        (s.wr k (r.write (s.rd k) w).val).tickValid⟩] else [] := by
  unfold State.genWrite; dsimp only
  split
  · rfl
  · exact (List.append_nil _).symm

/-! ## LINK_CFG and LINK_RXERR0 -/

/-- LINK_CFG (Table 11.9). -/
def linkCfgSpec : RegSpec := regsLink0[0]
/-- LINK_RXERR0 (Table 11.9). -/
def linkRxerr0Spec : RegSpec := regsLink0[8]

/-- A word whose bits are taken under a mask and then under its complement is taken whole. -/
theorem word_of_halves (c w a : Word) : ((c &&& ~~~a) ||| (w &&& a)) &&& ~~~(~~~a) ||| (w &&& ~~~a) = w := by
  apply BitVec.eq_of_getLsbD_eq
  intro i hi
  simp only [BitVec.getLsbD_or, BitVec.getLsbD_and, BitVec.getLsbD_not]
  cases a.getLsbD i <;> simp [hi]

/-- Both fields of LINK_RXERR0 are live and cover the word. -/
theorem linkRxerr0_write (c w : Word) : linkRxerr0Spec.write c w = ⟨w, 0, 0, 0, false⟩ := by
  have hm : maskOf 35 18 = ~~~maskOf 17 0 := by decide
  simpa [linkRxerr0Spec, regsLink0, RegSpec.write, Field.write, Field.isBad, hm] using word_of_halves c w (maskOf 17 0)

/-- A field of class commit: its bits are staged unless the value is reserved, which is refused (R4, R7). -/
theorem Field.write_commit {f : Field} (w : Word) (r : WrRes) (ha : f.acc = .rws) (hc : f.cls = .commit) :
    f.write w r = { r with commit := r.commit ||| (if f.isBad (fld w f.hi f.lo) then 0 else maskOf f.hi f.lo),
                           refused := r.refused || f.isBad (fld w f.hi f.lo) } := by
  rw [Field.write, ha, hc]
  cases f.isBad (fld w f.hi f.lo) <;> simp

/-- Every field of LINK_CFG is of class commit; MODE, WIN and TEST have a reserved encoding each (Table 11.9). -/
theorem linkCfg_write (c w : Word) : linkCfgSpec.write c w =
    ⟨c, maskOf 4 2 ||| (if fld w 1 0 = 3 then 0 else maskOf 1 0) ||| (if fld w 14 5 = 0 then 0 else maskOf 14 5) |||
      (if fld w 16 15 = 3 then 0 else maskOf 16 15), 0, 0, decide (fld w 1 0 = 3 ∨ fld w 14 5 = 0 ∨ fld w 16 15 = 3)⟩ := by
  have h3 : ∀ v, (decide (3 ≤ v) && decide (v ≤ 3)) = decide (v = 3) := fun v => by
    rw [← Bool.decide_and, decide_eq_decide]; omega
  have hm : ∀ x : Word, x ||| maskOf 2 2 ||| maskOf 3 3 ||| maskOf 4 4 = maskOf 4 2 ||| x := fun x => by
    rw [BitVec.or_assoc, BitVec.or_assoc, BitVec.or_comm]; rfl
  simp [linkCfgSpec, regsLink0, RegSpec.write, Field.write_commit, Field.isBad, h3, hm, Bool.decide_or, Bool.or_assoc]

/-- The source that a waymark of a link's register names (Table 15.2). -/
theorem regSource_aLink (lead : Nat) {n o : Nat} (hn : n < 512) (ho : o < 0x40) :
    regSource lead (aLink n o) = (n / 64, 2, n) := by
  have h1 : ¬aLink n o < 0x1_0000_0000 := by unfold aLink aDie; omega
  have h2 : aLink n o < 0x2_0000_0000 := by unfold aLink aDie; omega
  have h3 : aLink n o % 0x1_0000_0000 / 0x2000_0000 = n / 64 := by unfold aLink aDie; omega
  have h4 : aLink n o % 0x2000_0000 = 0x3_0000 + 0x40 * (n % 64) + o := by unfold aLink aDie; omega
  have h5 : 64 * (n / 64) + (0x3_0000 + 0x40 * (n % 64) + o - 0x3_0000) / 0x40 = n := by omega
  unfold regSource
  simp only [h3, h4, if_neg h1, if_pos h2]
  rw [if_pos (by omega), h5]

/-- REGISTER_WRITE is the write of one word. -/
theorem exec_registerWrite (m a : Nat) (w : Word) (s : State) :
    exec (.registerWrite m a w) s = live (masterOk m) s (fun s => s.doWrite m a w) := rfl

/-- A permitted write of a link's register other than LINK_COMMIT and LINK_EQ: the register's effect, and the answer OK. -/
theorem link_write {s : State} {m n o j : Nat} (w : Word) {r : RegSpec} (hm : masterOk m = true) (hn : n < 512)
    (ho : o < 0x40) (h2 : o ≠ 2) (h4 : o ≠ 4) (hr : findReg regsLink o = some (r, j)) (hpm : r.perMaster = false)
    (hp : Permitted m (aLink n o) s) :
    ∃ t, exec (.registerWrite m (aLink n o) w) s = .next t ∧
      AnsweredAs m 0 [] ((s.setOut m (aLink n o)).genWrite r (aLink n o) (aLink n o) w) t := by
  have hb := blockOf_aLink hn ho
  have hput : ∀ u : State, u.regPut m (aLink n o) .link r (aLink n o) w = u.genWrite r (aLink n o) (aLink n o) w :=
    fun u => by simp [State.regPut, hb, h2, h4]
  refine ⟨_, (exec_registerWrite ..).trans (live_next hp.outOfReset hm), ?_⟩
  rw [State.doWrite_reg w hm (aLink_lt hn ho) hp (regAt_of hb hr hpm) hpm (s1 := s.turnTaken m (aLink n o)) rfl, hput]
  exact State.answeredAs ..

/-- A permitted write of LINK_RXERR0 is in force at once (R5). -/
theorem linkRxerr0_written {s : State} {m n : Nat} (w : Word) (hm : masterOk m = true) (hn : n < 512)
    (hp : Permitted m (aLink n 8) s) :
    ∃ t, exec (.registerWrite m (aLink n 8) w) s = .next t ∧ t.rd (aLink n 8) = w ∧ t.staged = s.staged ∧
      RegsOnly m (fun q => q = aLink n 8) [] s t := by
  have hr : findReg regsLink 8 = some (linkRxerr0Spec, 0) := rfl
  obtain ⟨t, he, k⟩ := link_write w hm hn (by decide) (by decide) (by decide) hr rfl hp
  refine ⟨t, he, ?_, ?_, ?_⟩
  · rw [k.rd, State.rd_genWrite_self, linkRxerr0_write]
  · rw [k.staged, State.genWrite_staged, linkRxerr0_write, stageAdd_none, State.setOut_staged]
  · exact RegEffect.regsOnly (((s.setOut_effect m _).trans (State.genWrite_effect ..)).mono (fun _ h => h.symm))
      ((State.genWrite_tiles ..).trans (s.setOut_tiles m _)) k

/-- A permitted write of LINK_CFG stages the fields that name no reserved encoding, and raises REFUSED where one names one (R4,
R7). -/
theorem linkCfg_written {s : State} {m n : Nat} (w : Word) (hm : masterOk m = true) (hn : n < 512)
    (hp : Permitted m (aLink n 0) s) :
    ∃ t, exec (.registerWrite m (aLink n 0) w) s = .next t ∧ RegsOnly m (fun _ => False) [] s t ∧
      t.staged = stageAdd s.staged (aLink n 0) (linkCfgSpec.write (s.rd (aLink n 0)) w).commit w ∧
      (if fld w 1 0 = 3 ∨ fld w 14 5 = 0 ∨ fld w 16 15 = 3 then
        ∃ k, t.marks.getLast? = some k ∧ k.code = 0x011 ∧ k.die = n / 64 ∧ k.kind = 2 ∧ k.index = n ∧
          k.d0 = wd (aLink n 0) ∧ k.d1 = w
       else ∀ k ∈ t.marks, k ∈ s.marks ∨ k.code = 0x031) := by
  have hr : findReg regsLink 0 = some (linkCfgSpec, 0) := rfl
  obtain ⟨t, he, k⟩ := link_write w hm hn (by decide) (by decide) (by decide) hr rfl hp
  have hne : aLink n 0 ≠ aToll m := ne_aToll_off (by omega) (by omega)
  have hrd := (s.setOut_effect m (aLink n 0)).regs _ hne
  have hmarks := k.marks.trans (State.genWrite_marks ..)
  refine ⟨t, he, RegEffect.regsOnly ?_ ((State.genWrite_tiles ..).trans (s.setOut_tiles m _)) k, ?_, ?_⟩
  · obtain ⟨_, hst, htick, hout⟩ := (s.setOut_effect m _).trans
      (State.genWrite_effect (s.setOut m _) linkCfgSpec (aLink n 0) _ w)
    refine ⟨fun q hq => ?_, hst, htick, hout⟩
    have hq' : q ≠ aToll m := fun e => hq (.inr e)
    by_cases h : q = aLink n 0
    · rw [h, State.rd_genWrite_self, linkCfg_write, hrd]
    · exact ((State.genWrite_effect ..).regs q h).trans ((s.setOut_effect m _).regs q hq')
  · rw [k.staged, State.genWrite_staged, hrd, State.setOut_staged]
  · rw [hmarks, linkCfg_write]
    split
    · rename_i h
      rw [if_pos (decide_eq_true h), regSource_aLink _ hn (by decide)]
      exact ⟨_, List.getLast?_concat, rfl, rfl, rfl, rfl, rfl, rfl⟩
    · rename_i h
      rw [if_neg (by simpa using h), List.append_nil]
      exact fun _ hk => s.mem_marks_setOut m _ hk

/-! ## Writes that are not performed -/

/-- The code of a master fits its field (Table 9.10). -/
theorem masterCode_lt (m : Nat) : masterCode m < 256 := by
  unfold masterCode; split <;> [skip; split] <;> omega

/-- Recording a response changes registers only. -/
theorem State.record_eq (s : State) (m addr c : Nat) : ∃ regs, s.record m addr c = { s with regs := regs } := by
  unfold State.record
  split
  · exact ⟨s.regs, rfl⟩
  · simp only [State.bump_eq, State.wf_eq, State.wr]
    exact ⟨_, rfl⟩

/-- A response other than OK changes the two words of the master's die that record it. -/
theorem State.record_effect (s : State) (m addr c : Nat) :
    RegEffect (fun q => q = aDie (masterDie m) 0x124 ∨ q = aDie (masterDie m) 0x125) s (s.record m addr c) := by
  have hregs : RegsBut (fun q => q = aDie (masterDie m) 0x124 ∨ q = aDie (masterDie m) 0x125) s (s.record m addr c) := by
    intro q hq
    obtain ⟨h4, h5⟩ := not_or.1 hq
    unfold State.record
    split
    · rfl
    · rw [State.rd_bump_of_ne _ h5, State.rd_wf_of_ne _ h5, State.rd_wf_of_ne _ h5, State.rd_wf_of_ne _ h5,
        State.rd_wr_of_ne _ _ h4]
  obtain ⟨regs, e⟩ := s.record_eq m addr c
  rw [e] at hregs ⊢
  exact ⟨hregs, ⟨rfl, rfl, rfl, rfl, rfl, rfl, rfl⟩, rfl, rfl⟩

/-- The record holds the address, the response and the master (R395, Table 9.10). -/
theorem State.record_holds (s : State) {m c : Nat} (addr : Nat) (h0 : c ≠ 0) (h8 : c < 8) :
    (s.record m addr c).rd (aDie (masterDie m) 0x124) = wd addr ∧
      (s.record m addr c).rf (aDie (masterDie m) 0x125) 2 0 = c ∧
      (s.record m addr c).rf (aDie (masterDie m) 0x125) 10 3 = masterCode m := by
  have hne : aDie (masterDie m) 0x124 ≠ aDie (masterDie m) 0x125 := by unfold aDie; omega
  have hcode := masterCode_lt m
  rw [State.record, if_neg h0]
  refine ⟨?_, ?_, ?_⟩
  · rw [State.rd_bump_of_ne _ hne, State.rd_wf_of_ne _ hne, State.rd_wf_of_ne _ hne, State.rd_wf_of_ne _ hne, State.rd_wr_self]
  · simp only [State.rf, State.rd_bump, State.rd_wf, if_true]
    rw [fld_putFld_apart _ _ (by omega), fld_putFld_apart _ _ (by omega), fld_putFld_apart _ _ (by omega),
      fld_putFld_self _ _ (by omega)]
    exact Nat.mod_eq_of_lt h8
  · simp only [State.rf, State.rd_bump, State.rd_wf, if_true]
    rw [fld_putFld_apart _ _ (by omega), fld_putFld_apart _ _ (by omega), fld_putFld_self _ _ (by omega)]
    exact Nat.mod_eq_of_lt hcode

/-- A served write of region 0 or 1 that is not performed: the response is recorded and answered; u is what it left, c its
code. -/
theorem write_unperformed {s u : State} {m a c : Nat} {w : Word} (hm : masterOk m = true) (ha : a < 0x2_0000_0000)
    (hs : Served m a s) (hu : (s.setOut m a).regWrite m a w = (u, c)) (hf : RegEffect (fun _ => False) (s.setOut m a) u)
    (h0 : c ≠ 0) (h8 : c < 8) :
    ∃ t, exec (.registerWrite m a w) s = .next t ∧
      RegsBut (fun q => q = aToll m ∨ q = aDie (masterDie m) 0x124 ∨ q = aDie (masterDie m) 0x125) s t ∧
      t.rd (aDie (masterDie m) 0x124) = wd a ∧ t.rf (aDie (masterDie m) 0x125) 2 0 = c ∧
      t.rf (aDie (masterDie m) 0x125) 10 3 = masterCode m ∧ AccessKept s t ∧ t.out = s.out ++ [.resp m c []] ∧
      AnsweredAs m c [] (u.record m a c) t := by
  obtain ⟨⟨hh, him, -⟩, hal⟩ := hs
  have hbus : (s.setOut m a).busWrite m a w = (u, c) := by
    rw [State.busWrite, if_pos (by omega), Nat.mod_eq_of_lt (by omega), hu]
  refine ⟨_, (exec_registerWrite ..).trans (live_next hh hm), ?_⟩
  rw [State.doWrite_alone him hal (by omega) hbus]
  have k := State.answeredAs s (u.record m a c) (s.turnTaken m a) m a 1 0 c []
  have h := (((s.setOut_effect m a).trans hf).trans (u.record_effect m a c)).mono
    (q := fun q => q = aToll m ∨ q = aDie (masterDie m) 0x124 ∨ q = aDie (masterDie m) 0x125)
    (fun _ h => h.imp (fun h => h.resolve_right id) id)
  obtain ⟨h1, h2, h3⟩ := u.record_holds (m := m) a h0 h8
  exact ⟨h.regsBut k, (k.rd _).trans h1, by rw [State.rf, k.rd]; exact h2, by rw [State.rf, k.rd]; exact h3,
    h.accessKept k, by rw [k.out, h.out], k⟩

/-- A master that is served reaches the register's die as its transaction sets out. -/
theorem State.regReach_setOut {s : State} {m a : Nat} (hm : masterOk m = true) (hs : Served m a s) :
    (s.setOut m a).regReach m a = true := by
  obtain ⟨⟨-, -, hearly, hd, hreach⟩, -⟩ := hs
  simp [State.regReach, State.shut, hearly, s.reaches_setOut a hm hd, hreach]

/-- A write that its master may not make, of a word that is not the master's own, is refused whole: DENIED (R2, R537). -/
theorem State.regWrite_denied {s : State} {m a : Nat} {w : Word} (hr : s.regReach m a = true) (hn : regNamed a = true)
    (hpm : ∀ (b : Block) (r : RegSpec) (k : Nat), regAt m a = some (b, r, k) → r.perMaster = false)
    (hw : s.mayWrite m a = false) : s.regWrite m a w = (s.denied m a 0, 3) := by
  rw [State.regWrite, hr]
  cases h : regAt m a with
  | none => simp [hn, hw]
  | some x => obtain ⟨b, r, k⟩ := x; simp [hpm b r k h, hw]

/-- A write where the master has no register ends NOTARGET (R395, R678). -/
theorem State.regWrite_notarget {s : State} {m a : Nat} {w : Word} (hr : s.regReach m a = true) (ha : regAt m a = none)
    (hw : regNamed a = false ∨ s.mayWrite m a = true) : s.regWrite m a w = (s, 2) := by
  rw [State.regWrite, hr, ha]
  rcases hw with h | h <;> simp [h]

/-- Settles O12: a live and a commit-class register of a link, a write refused whole, and a write where no register is. -/
theorem registerWriteByClass : Obligations.RegisterWriteByClass := by
  intro s m n a w hm hn ha
  refine ⟨linkRxerr0_written w hm hn, fun hp => ?_, fun hs hnamed hpm hw => ?_, fun hs hnone hw => ?_⟩
  · obtain ⟨t, he, hr, hst, hmk⟩ := linkCfg_written w hm hn hp
    exact ⟨t, he, hr, by rw [hst, linkCfg_write], hmk⟩
  · obtain ⟨t, he, h1, h2, h3, h4, h5, h6, k⟩ := write_unperformed (w := w) hm ha hs
      (State.regWrite_denied (State.regReach_setOut hm hs) hnamed hpm ((s.mayWrite_setOut ..).trans hw))
      (State.mark_effect ..) (by decide) (by decide)
    obtain ⟨regs, hu⟩ := ((s.setOut m a).denied m a 0).record_eq m a 3
    rw [hu] at k
    refine ⟨t, ⟨masterDie m, 6, masterCode m, 0x010, wd (masterCode m), wd a, 0, (s.setOut m a).tick,
      (s.setOut m a).tickValid⟩, he, h1, h2, h3, h4, k.staged.trans (s.setOut_staged m a), k.mile.trans (s.setOut_mile m a),
      k.going.trans (s.setOut_going m a), k.tiles.trans (s.setOut_tiles m a), h5, h6, ?_, rfl, rfl, rfl⟩
    exact (congrArg List.getLast? k.marks).trans List.getLast?_concat
  · obtain ⟨t, he, h1, h2, h3, h4, h5, h6, k⟩ := write_unperformed (w := w) hm ha hs
      (State.regWrite_notarget (State.regReach_setOut hm hs) hnone (hw.imp id (s.mayWrite_setOut ..).trans))
      ⟨fun _ _ => rfl, ⟨rfl, rfl, rfl, rfl, rfl, rfl, rfl⟩, rfl, rfl⟩ (by decide) (by decide)
    obtain ⟨regs, hu⟩ := (s.setOut m a).record_eq m a 2
    rw [hu] at k
    exact ⟨t, he, h1, h2, h3, h4, k.staged.trans (s.setOut_staged m a), k.tiles.trans (s.setOut_tiles m a), h5, h6⟩

end Sys2Proof.Machine
end

section
/-!
SUPPORT. A milestone at which a tile's committed field and the commit that switches its row off are both due: the row goes
off first, and its tiles are as after power-up (Table 16.4).
-/
namespace Sys2Proof.Machine

/-- The state after commands, one after the other; one that stops leaves the state. -/
def State.afterAll (s : State) (l : List Instr) : State :=
  l.foldl (fun (s : State) i => match exec i s with
    | .next t => t
    | .fault _ => s
    | .refused _ => s) s

/-- Start-up is done (PHASE 7), every domain of die 0 is on, its warden is healthy and the lead, and master 0 is the steward. -/
def dieZeroUp : State :=
  ((({ State.reset with held := false, boot := { State.reset.boot with healthy := [0] } } : State).wr (aPwr 0x18) 0xAAAAAAAA).wr
    aBoot 7).wr (aOwn 0) 0

/-- The steward writes word B of the first lookup descriptor of tile 5, a free tile of row 0, and commits it; then it writes
PWR_DOM0 with row 0 off, and commits that. -/
def rowGoesOff : State :=
  dieZeroUp.afterAll [.registerWrite 0 (aTile 0 5 0x31) 0x45, .tileCommit 0 0 5 1, .registerWrite 0 (aPwr 0x10) 0xFFFE,
    .pwrCommit 0 1]

/-- The descriptor word as committed: KSH 5, KW 1, KW2 0. -/
def keyFields : Stage := ⟨0x31, 0xFFFF, 0x45⟩

/-- Both commits are held, and no detour is in progress. -/
theorem rowGoesOff_holds : rowGoesOff.held = false ∧ (∀ e, e < 8 → rowGoesOff.detoursOn e = []) ∧
    (rowGoesOff.tile 0 5).mile = [] ∧ (rowGoesOff.tile 0 5).going = [keyFields] ∧
    rowGoesOff.going = [⟨aPwr 0x10, 0xFFFF, 0xFFFE⟩] := by decide +kernel

/-- R267 does not refuse the descriptor, and it changes what is in force. -/
theorem keyFields_good : lkdBad (keyFields.apply ((rowGoesOff.tile 0 5).ior 0x31)) = false ∧
    keyFields.apply ((rowGoesOff.tile 0 5).ior 0x31) = 0x45 := by decide +kernel

/-- After the milestone the register of tile 5 reads its reset value: KSH 0, KW 1. -/
theorem rowGoesOff_milestone : ((rowGoesOff.afterAll [.milestone]).tile 0 5).ior 0x31 = 0x40 := by decide +kernel

/-- Refutes O8: a lookup descriptor that a tile's COMMIT holds does not come into force, and stays unrefused, at a milestone at
which PWR_COMMIT switches off the row of the tile. -/
theorem not_milestoneAdvancesTick : ¬ Obligations.MilestoneAdvancesTick := by
  rintro ⟨-, -, hTile, -⟩
  obtain ⟨hheld, hdet, hmile, hgoing, -⟩ := rowGoesOff_holds
  obtain ⟨hgood, hval⟩ := keyFields_good
  obtain ⟨t, ht, -, hforce⟩ := (hTile rowGoesOff 0 5 keyFields hheld (by decide) (by decide) hdet).1 hmile hgoing
    (by decide) (by decide)
  have hafter : rowGoesOff.afterAll [.milestone] = t := by simp [State.afterAll, ht]
  have hnow : (t.tile 0 5).ior 0x31 = 0x40 := hafter ▸ rowGoesOff_milestone
  rw [if_pos (by decide : keyFields.key % 2 = 1), if_neg (by rw [show keyFields.key = 0x31 from rfl, hgood]; decide)] at hforce
  exact absurd (hnow.symm.trans (hforce.trans hval)) (by decide)

end Sys2Proof.Machine
end

section
/-!
SUPPORT. Egress: what a write or completion makes of its slot, what its tile keeps of it, and the bits of a tick on the line.
-/
namespace Sys2Proof.Machine

/-! ## Counters -/

/-- A count of one in a field that saturates. -/
theorem State.rf_bump_one (s : State) (k : Nat) {hi lo : Nat} (h : hi < 36) :
    (s.bump k hi lo 1).rf k hi lo = min (2 ^ (hi + 1 - lo) - 1) (s.rf k hi lo + 1) := by
  rw [s.rf_bump_self k 1 h, satAdd, Nat.min_comm]

/-- Likewise at a tile. -/
theorem Tile.iof_bump_one (t : Tile) (k : Nat) {hi lo : Nat} (h : hi < 36) :
    (t.bump k hi lo 1).iof k hi lo = min (2 ^ (hi + 1 - lo) - 1) (t.iof k hi lo + 1) := by
  rw [Tile.iof, Tile.ior_bump, if_pos rfl, fld_putFld_self _ _ h, Nat.mod_eq_of_lt (satAdd_lt _ _ _), satAdd, Nat.min_comm]

/-- A counter that is counted is the one register that changes. -/
theorem State.regsBut_bump (s : State) (k hi lo n : Nat) : RegsBut (fun q => q = k) s (s.bump k hi lo n) :=
  fun _ h => s.rd_bump_of_ne h

/-! ## Accesses to a stack reach no tile -/

@[simp] theorem State.dput_tiles (s : State) (d k : Nat) (g : Gran) : (s.dput d k g).tiles = s.tiles := by
  unfold State.dput
  extract_lets sel hit mask g1 s1
  split
  · simp only [State.wf_eq, State.wr_tiles]; rfl
  · rfl

@[simp] theorem State.dfound_tiles (s : State) (d : Nat) (c : Cls3) (fn k syn : Nat) :
    (s.dfound d c fn k syn).tiles = s.tiles := by
  unfold State.dfound
  extract_lets cls s1 row
  have h1 : s1.tiles = s.tiles := (State.wr_tiles ..).trans (State.wr_tiles ..)
  clear_value s1
  cases c <;> simp [State.bump_eq, h1]

@[simp] theorem State.dread_tiles (s : State) (d fn k : Nat) : (s.dread d fn k).1.tiles = s.tiles := by
  unfold State.dread
  simp only
  generalize eccClass false ((s.stack d).gr k) = x
  obtain ⟨c, x⟩ := x
  cases c <;> simp

@[simp] theorem State.dwrite_tiles (s : State) (d k : Nat) (x : BitVec 72) : (s.dwrite d k x).tiles = s.tiles :=
  s.dput_tiles ..

@[simp] theorem State.dmerge_tiles (s : State) (d fn k : Nat) (mask x : BitVec 72) :
    (s.dmerge d fn k mask x).tiles = s.tiles := by
  unfold State.dmerge
  split
  · simp
  · dsimp only
    split <;> simp

@[simp] theorem State.dwords_tiles (d fn p : Nat) : ∀ (l : List Word) (s : State) (w : Nat),
    (s.dwords d fn p w l).tiles = s.tiles
  | [], _, _ => by rw [State.dwords]
  | [a], s, w => by
    unfold State.dwords
    split
    · simp
    · rw [State.dwords_tiles d fn p [], State.dmerge_tiles]
  | a :: b :: r, s, w => by
    unfold State.dwords
    split
    · rw [State.dwords_tiles d fn p r, State.dwrite_tiles]
    · rw [State.dwords_tiles d fn p (b :: r), State.dmerge_tiles]

/-! ## Slots (R78 to R81, R464) -/

/-- The slot of a tick after its change; one that was not there is made first. -/
theorem find_onSlot (l : List Slot) (T : Tick) (lost : Bool) {f : Slot → Slot} (hf : ∀ y, (f y).tick = y.tick) :
    (onSlot l T lost f).find? (fun (y : Slot) => y.tick = T) =
      some (f ((l.find? (fun (y : Slot) => y.tick = T)).getD ⟨T, [], false, false, false, false, lost⟩)) := by
  induction l with
  | nil => simp [onSlot, hf]
  | cons x r ih =>
    by_cases h : x.tick = T
    · simp [onSlot, h, hf]
    · simp [onSlot, h, ih]

/-- The same of a link's slots. -/
theorem State.slotAt_onSlotOf (s : State) (n : Nat) (T : Tick) {f : Slot → Slot} (hf : ∀ y, (f y).tick = y.tick) :
    (s.onSlotOf n T f).slotAt n T =
      some (f ((s.slotAt n T).getD ⟨T, [], false, false, false, false, s.slotLost n T⟩)) := by
  rw [State.slotAt, State.onSlotOf, State.link_onLink_self]
  exact find_onSlot _ _ _ hf

/-- Nothing is lost with a stack before its milestone N + 64 (R517). -/
theorem State.slotLost_of_near {s : State} {n : Nat} {T : Tick} (h : s.delayDue n T = false) : s.slotLost n T = false := by
  simp [State.slotLost, h]

/-- What a write or completion makes of its slot (R79, R80). -/
def EgWrite.change (w : EgWrite) (y : Slot) : Slot :=
  if y.complete || y.lost then y
  else if w.complete then { y with complete := true }
  else if y.inDelay then { y with wrote := true }
  else { y with wrote := true, words := SMap.set (fun _ => 0) y.words w.idx w.w }

/-- A slot keeps its tick. -/
theorem EgWrite.change_tick (w : EgWrite) (y : Slot) : (w.change y).tick = y.tick := by
  unfold EgWrite.change
  repeat' split
  all_goals rfl

/-- A word stands at its index of a slot outside the delay area, and the others as before. -/
theorem EgWrite.change_word {w : EgWrite} {y : Slot} (hd : y.inDelay = false) (hw : w.complete = false)
    (hy : (y.complete || y.lost) = false) :
    w.change y = { y with wrote := true, words := SMap.set (fun _ => 0) y.words w.idx w.w } := by
  simp [EgWrite.change, hd, hw, hy]

/-- A slot outside the delay area, in the cases of R79 and R80. -/
theorem EgWrite.change_spec (w : EgWrite) {y : Slot} (hd : y.inDelay = false) :
    if y.complete || y.lost then w.change y = y
    else if w.complete then w.change y = { y with complete := true }
    else (w.change y).wrote = true ∧ (w.change y).complete = false ∧ (w.change y).epx = y.epx ∧ ∀ i,
      SMap.get (fun _ => 0) (w.change y).words i = if i = w.idx then w.w else SMap.get (fun _ => 0) y.words i := by
  split
  · next h => exact if_pos h
  · next h =>
    have h := Bool.eq_false_of_not_eq_true h
    split
    · next hw => simp [EgWrite.change, h, hw]
    · next hw =>
      rw [EgWrite.change_word hd (Bool.eq_false_of_not_eq_true hw) h]
      exact ⟨rfl, (Bool.or_eq_false_iff.mp h).1, rfl, fun i => SMap.get_set _ _ _ _ _⟩

/-- A write or completion is its slot's change; then it waits at the island, or its slot goes to the delay area. -/
theorem State.slotWrite_eq (s : State) (w : EgWrite) : s.slotWrite w =
    (match s.slotAt w.link w.tick, (s.onSlotOf w.link w.tick w.change).slotAt w.link w.tick with
    | some y, _ => if y.inDelay && !y.complete && !y.lost && !w.complete then
        (s.onSlotOf w.link w.tick w.change).onDie (w.link / 64) (fun x => { x with delayed := x.delayed ++ [w] })
      else s.onSlotOf w.link w.tick w.change
    | none, some y => if s.delayDue w.link w.tick && !y.lost then (s.onSlotOf w.link w.tick w.change).slotMove w.link y
      else s.onSlotOf w.link w.tick w.change
    | none, none => s.onSlotOf w.link w.tick w.change) := by
  unfold State.slotWrite
  extract_lets n s1
  have e : s1 = s.onSlotOf w.link w.tick w.change := rfl
  clear_value s1
  subst n e
  cases s.slotAt w.link w.tick <;> cases (s.onSlotOf w.link w.tick w.change).slotAt w.link w.tick <;> rfl

/-- A write of a tick whose slot neither lies in the delay area nor has to go there changes the slot and nothing else. -/
theorem State.slotWrite_of_near {s : State} {w : EgWrite} (hd : s.delayDue w.link w.tick = false)
    (hy : ∀ y, s.slotAt w.link w.tick = some y → y.inDelay = false) :
    s.slotWrite w = s.onSlotOf w.link w.tick w.change := by
  rw [State.slotWrite_eq]
  cases h : s.slotAt w.link w.tick with
  | none => cases (s.onSlotOf w.link w.tick w.change).slotAt w.link w.tick <;> simp [hd]
  | some y => simp [hy y h]

/-- A word for a slot of the delay area waits at the island (R512). -/
theorem State.slotWrite_of_delayed {s : State} {w : EgWrite} {y : Slot} (h : s.slotAt w.link w.tick = some y)
    (hd : y.inDelay = true) (hc : y.complete = false) (hl : y.lost = false) (hw : w.complete = false) :
    s.slotWrite w = (s.onSlotOf w.link w.tick w.change).onDie (w.link / 64)
      (fun x => { x with delayed := x.delayed ++ [w] }) := by
  rw [State.slotWrite_eq]
  simp [h, hd, hc, hl, hw]

/-- Moving a slot to the delay area reaches no tile. -/
@[simp] theorem State.slotMove_tiles (s : State) (n : Nat) (y : Slot) : (s.slotMove n y).tiles = s.tiles := by
  unfold State.slotMove
  extract_lets d words s1
  have h1 : s1.tiles = s.tiles := (State.dwords_tiles ..).trans rfl
  clear_value s1
  split <;> simp [State.onSlotOf, h1]

/-- A write of a slot reaches no tile. -/
@[simp] theorem State.slotWrite_tiles (s : State) (w : EgWrite) : (s.slotWrite w).tiles = s.tiles := by
  have h1 : (s.onSlotOf w.link w.tick w.change).tiles = s.tiles := rfl
  rw [State.slotWrite_eq]
  repeat' split
  all_goals simp [h1]

/-! ## A write reaches its island (R79, R271) -/

/-- A write for a closed slot is counted late. -/
theorem State.egressApply_late {s : State} {w : EgWrite} (h : s.slotClosed w.link w.tick = true) :
    s.egressApply w = s.bump (aLink w.link 0x10) 35 18 1 := if_pos h

/-- A write of another epoch than its tick asks for is counted, and its slot notes it (R433). -/
theorem State.egressApply_epoch {s : State} {w : EgWrite} (h : s.slotClosed w.link w.tick = false)
    (he : w.epoch % 256 ≠ s.egressEpoch w.link w.tick) :
    s.egressApply w = (s.bump (aLink w.link 0x10) 17 0 1).onSlotOf w.link w.tick (fun y => { y with epx := true }) := by
  rw [State.egressApply, if_neg (by simp [h]), if_pos he]

/-- Any other changes its slot. -/
theorem State.egressApply_slot {s : State} {w : EgWrite} (h : s.slotClosed w.link w.tick = false)
    (he : w.epoch % 256 = s.egressEpoch w.link w.tick) : s.egressApply w = s.slotWrite w := by
  rw [State.egressApply, if_neg (by simp [h]), if_neg (not_not_intro he)]

/-- At the island a write reaches no tile. -/
@[simp] theorem State.egressApply_tiles (s : State) (w : EgWrite) : (s.egressApply w).tiles = s.tiles := by
  unfold State.egressApply
  extract_lets
  split
  · rfl
  · split
    · rfl
    · exact s.slotWrite_tiles w

/-- A tile that its oldest write or completion has left: r is what waits still, and a late one is counted (Table 6.7). -/
def Tile.egressLeft (t : Tile) (late : Bool) (r : List EgWrite) : Tile :=
  if late then Tile.bump { t with eg := r } 0x2A 35 18 1 else { t with eg := r }

@[simp] theorem Tile.egressLeft_eg (t : Tile) (late : Bool) (r : List EgWrite) : (t.egressLeft late r).eg = r := by
  cases late <;> rfl

/-- The tile counts a late one (Table 6.7). -/
theorem Tile.egressLeft_late (t : Tile) (r : List EgWrite) :
    (t.egressLeft true r).iof 0x2A 35 18 = min (2 ^ 18 - 1) (t.iof 0x2A 35 18 + 1) :=
  Tile.iof_bump_one { t with eg := r } 0x2A (by decide)

/-- Where a tile's waymarks stand is nothing to its registers. -/
theorem Tile.iof_marks (t : Tile) (l : List Mark) (k hi lo : Nat) :
    ({ t with marks := l } : Tile).iof k hi lo = t.iof k hi lo := rfl

/-- A write that waits for room at the island stays with its tile (R75, R512). -/
theorem State.egressArrive_full {s : State} {d p : Nat} {w : EgWrite} {r : List EgWrite} (h : (s.tile d p).eg = w :: r)
    (hf : s.islandFull w = true) : s.egressArrive d p = s := by
  rw [State.egressArrive, h]; exact if_pos hf

/-- Any other leaves it. -/
theorem State.egressArrive_leaves {s : State} {d p : Nat} {w : EgWrite} {r : List EgWrite} (h : (s.tile d p).eg = w :: r)
    (hf : s.islandFull w = false) : s.egressArrive d p =
      (s.onTile d p (fun t => t.egressLeft (s.slotClosed w.link w.tick) r)).egressApply w := by
  rw [State.egressArrive, h]; exact if_neg (by simp [hf])

/-- Only tiles decide what a tile reads. -/
theorem State.tile_congr {s t : State} (h : t.tiles = s.tiles) (d p : Nat) : t.tile d p = s.tile d p := by
  rw [State.tile, h]; rfl

/-- Only links decide what a link reads. -/
theorem State.link_congr {s t : State} (h : t.links = s.links) (n : Nat) : t.link n = s.link n := by
  rw [State.link, h]; rfl

/-! ## The bits of a tick on the line (R444, R452, R471) -/

/-- Packing net bits into blocks or codewords leaves the milestone that was sent last. -/
theorem LineTx.pack_sent (fec : Bool) : ∀ (k : Nat) (x : LineTx), (LineTx.pack fec k x).1.sent = x.sent
  | 0, _ => rfl
  | k + 1, x => by
    rw [LineTx.pack]
    dsimp only
    generalize (if fec then 1280 else 64) = n
    split
    · rfl
    · exact LineTx.pack_sent fec k _

/-- So does putting net bits onto the line. -/
theorem LineTx.push_sent (x : LineTx) (fec : Bool) (bits : List Bool) : (x.push fec bits).1.sent = x.sent :=
  LineTx.pack_sent ..

/-- What the transmitter of a link in frame mode makes of a tick: the bits of a frame, if any, then fill, k eighths of a net
bit in all. -/
def State.linePush (s : State) (n k : Nat) (bits : List Bool) : LineTx × List Bool :=
  LineTx.push { (s.link n).txl with sent := some s.tick, frac := k % 8 } (s.linkCfg n 3 3 == 1)
    (bits ++ List.replicate (k / 8 - bits.length) true)

/-- The eighths of a net bit that a link in frame mode has to send at a milestone (R450). -/
def State.lineEighths (s : State) (n : Nat) : Nat :=
  (s.link n).txl.frac + s.period * (if s.rate n = 0 then 625 else 250)

/-- In service and in no test mode, with no EXTEST-class instruction in force, link n carries frames. -/
structure State.Carries (s : State) (n : Nat) : Prop where
  service : s.inService n = true
  noTest : s.linkCfg n 16 15 = 0
  free : s.clamped = false

/-- A link that carries frames is on, in frame mode. -/
theorem State.Carries.mode {s : State} {n : Nat} (h : s.Carries n) : s.lineOn n = true ∧ s.linkCfg n 1 0 = 1 := by
  have := h.service
  simp only [State.inService, Bool.and_eq_true, beq_iff_eq] at this
  obtain ⟨⟨hm, hd⟩, -⟩ := this
  simp [State.lineOn, hm, hd]

/-- The bits of a tick of a link that carries frames. -/
theorem State.Carries.lineOut {s : State} {n : Nat} (h : s.Carries n) (bits : List Bool) :
    s.lineOut n bits = (s.onLink n (fun z => { z with txl := (s.linePush n (s.lineEighths n) bits).1 })).emit
      (.line n (s.linePush n (s.lineEighths n) bits).2) := by
  obtain ⟨hon, hm⟩ := h.mode
  unfold State.lineOut
  simp only [hon, h.free, h.noTest, hm, Bool.not_true, Bool.or_self, Bool.false_eq_true, if_false, if_true,
    show (0 : Nat) ≠ 1 by decide, show (0 : Nat) ≠ 2 by decide]
  rfl

/-! ## A built frame is sent (R38, R468) -/

/-- The counter of a link that a frame is counted in: decision frames, or default frames (Table 11.9). -/
def frameCounter (n : Nat) (f : Frame) : Nat := aLink n (if f.flags % 2 == 0 then 0x0D else 0x0E)

/-- The state in which a built frame is put onto the line: it waits no more, it is counted, and the part sends it. -/
def State.frameTaken (s : State) (n : Nat) (f : Frame) : State :=
  ((s.onLink n (fun x => { x with built := x.built.tail })).wrap (frameCounter n f) 1).emit (.frame n f)

/-- The frame waits no more. -/
theorem State.link_frameTaken (s : State) (n : Nat) (f : Frame) :
    (s.frameTaken n f).link n = { s.link n with built := (s.link n).built.tail } :=
  s.link_onLink_self n (fun x => { x with built := x.built.tail })

/-- The registers of a link's configuration, its group and its power are no frame counters. -/
theorem State.rd_frameTaken (s : State) (n : Nat) (f : Frame) {q : Nat} (h : q ≠ frameCounter n f) :
    (s.frameTaken n f).rd q = s.rd q := State.rd_wr_of_ne _ _ h

/-- A frame counter is a word of the link's block other than its first. -/
theorem frameCounter_ne (n : Nat) (f : Frame) {q : Nat} (h : q ≠ aLink n 0x0D) (h' : q ≠ aLink n 0x0E) :
    q ≠ frameCounter n f := by
  unfold frameCounter; split <;> assumption

/-- The frame is counted once: as a decision frame, or as a default frame. -/
theorem State.frameTaken_counts (s : State) (n : Nat) (f : Frame) :
    (s.frameTaken n f).rd (aLink n 0x0D) = s.rd (aLink n 0x0D) + wd (natB (f.flags % 2 == 0)) ∧
      (s.frameTaken n f).rd (aLink n 0x0E) = s.rd (aLink n 0x0E) + wd (natB (f.flags % 2 != 0)) := by
  have hself : (s.frameTaken n f).rd (frameCounter n f) = s.rd (frameCounter n f) + wd 1 := State.rd_wr_self ..
  have hne : aLink n 0x0D ≠ aLink n 0x0E := by unfold aLink aDie; omega
  cases hd : f.flags % 2 == 0 with
  | true =>
    have hc : frameCounter n f = aLink n 0x0D := by rw [frameCounter, hd]; rfl
    rw [bne, hd, s.rd_frameTaken n f (hc.symm ▸ hne.symm : aLink n 0x0E ≠ frameCounter n f), ← hc, hself]
    exact ⟨rfl, (BitVec.add_zero _).symm⟩
  | false =>
    have hc : frameCounter n f = aLink n 0x0E := by rw [frameCounter, hd]; rfl
    rw [bne, hd, s.rd_frameTaken n f (hc.symm ▸ hne : aLink n 0x0D ≠ frameCounter n f), ← hc, hself]
    exact ⟨(BitVec.add_zero _).symm, rfl⟩

/-- Sending a frame leaves what the line depends on. -/
theorem State.frameTaken_line (s : State) {n : Nat} (f : Frame) (hn : n < 512) :
    (∀ hi lo, (s.frameTaken n f).linkCfg n hi lo = s.linkCfg n hi lo) ∧
      (s.frameTaken n f).inService n = s.inService n ∧
      (s.frameTaken n f).clamped = s.clamped ∧ (s.frameTaken n f).lineEighths n = s.lineEighths n := by
  have hrd : ∀ q, q ≠ aLink n 0x0D → q ≠ aLink n 0x0E → (s.frameTaken n f).rd q = s.rd q :=
    fun q h h' => s.rd_frameTaken n f (frameCounter_ne n f h h')
  have hcfg := hrd (aLink n 0) (by unfold aLink aDie; omega) (by unfold aLink aDie; omega)
  have hgrp := hrd (aGrp (n / 64) (groupOf n) 0) (by unfold aGrp groupOf aLink aDie; omega)
    (by unfold aGrp groupOf aLink aDie; omega)
  have hpwr := hrd (aPwr (0x18 + n / 64)) (by unfold aPwr aLink aDie; omega) (by unfold aPwr aLink aDie; omega)
  have htim := hrd aTimCfg (by unfold aTimCfg aLink aDie; omega) (by unfold aTimCfg aLink aDie; omega)
  have hlc := hrd (aSec 0) (by unfold aSec aLink aDie; omega) (by unfold aSec aLink aDie; omega)
  have hlink := s.link_frameTaken n f
  have htap : (s.frameTaken n f).tap = s.tap := rfl
  have himg : (s.frameTaken n f).img = s.img := rfl
  refine ⟨fun hi lo => ?_, ?_, ?_, ?_⟩
  · rw [State.linkCfg, State.rf, hcfg]; rfl
  · simp only [State.inService, State.linkCfg, State.domainOn, State.rf, hcfg, hpwr, hlink]
  · simp only [State.clamped, State.extestOk, State.lc, State.armed, State.rf, hlc, htap, himg]
  · have hper : (s.frameTaken n f).period = s.period := by rw [State.period, State.rf, htim]; rfl
    have hrate : (s.frameTaken n f).rate n = s.rate n := by rw [State.rate, State.rf, hgrp]; rfl
    rw [State.lineEighths, hper, hrate, hlink]; rfl

/-- The link still carries frames. -/
theorem State.Carries.frameTaken {s : State} {n : Nat} (h : s.Carries n) (f : Frame) (hn : n < 512) :
    (s.frameTaken n f).Carries n := by
  obtain ⟨hcfg, hserv, hcl, -⟩ := s.frameTaken_line f hn
  exact ⟨hserv.trans h.service, (hcfg 16 15).trans h.noTest, hcl.trans h.free⟩

/-- The transmitter makes the same of a tick. -/
theorem State.linePush_frameTaken (s : State) {n : Nat} (f : Frame) (hn : n < 512) (k : Nat) (bits : List Bool) :
    (s.frameTaken n f).linePush n k bits = s.linePush n k bits := by
  obtain ⟨hcfg, -⟩ := s.frameTaken_line f hn
  have htxl : ((s.frameTaken n f).link n).txl = (s.link n).txl := by rw [s.link_frameTaken n f]
  rw [State.linePush, hcfg, htxl]; rfl

/-- Local triggers only ask for readouts (R493). -/
theorem State.triggers_eq (s : State) (n : Nat) (f : Frame) : ∃ reqs, s.triggers n f = { s with reqs := reqs } := by
  unfold State.triggers
  extract_lets d
  generalize List.range 4 = l
  induction l generalizing s with
  | nil => exact ⟨s.reqs, rfl⟩
  | cons i r ih =>
    rw [List.foldl_cons]
    extract_lets q
    split
    · obtain ⟨reqs, h⟩ := ih { s with reqs := _ }
      exact ⟨reqs, h⟩
    · exact ih s

/-- A built frame whose milestone has come, on a link that carries frames and does not retrain. -/
theorem State.Carries.frameSend {s : State} {n : Nat} (h : s.Carries n) {f : Frame} {r : List Frame}
    (hb : (s.link n).built = f :: r) (hm : notEarlier s.tick f.at_ = true) (hr : (s.link n).retrain = false) :
    ∃ reqs, s.frameSend n = { (s.frameTaken n f).lineOut n (frameBits f.tick f.flags f.words) with reqs := reqs } := by
  have hdue : (s.link n).built.head?.filter (fun (f : Frame) => notEarlier s.tick f.at_) = some f := by simp [hb, hm]
  have hgo : (s.inService n && s.linkCfg n 16 15 == 0 && !s.clamped && !(s.link n).retrain) = true := by
    simp [h.service, h.noTest, h.free, hr]
  have e : s.frameSend n = if f.flags % 2 == 0 then
      ((s.frameTaken n f).lineOut n (frameBits f.tick f.flags f.words)).triggers n f
      else (s.frameTaken n f).lineOut n (frameBits f.tick f.flags f.words) := by
    unfold State.frameSend
    rw [hdue]
    simp only [hgo, if_true, State.frameTaken, frameCounter]
    split <;> rfl
  rw [e]
  generalize (s.frameTaken n f).lineOut n (frameBits f.tick f.flags f.words) = u
  split
  · exact u.triggers_eq n f
  · exact ⟨u.reqs, rfl⟩

/-- With no frame due the link sends a tick of fill, once a milestone. -/
theorem State.frameSend_fill {s : State} {n : Nat}
    (hb : ∀ f, (s.link n).built.head? = some f → notEarlier s.tick f.at_ = false)
    (hs : (s.link n).txl.sent ≠ some s.tick) :
    s.frameSend n = s.lineOut n [] := by
  have hdue : (s.link n).built.head?.filter (fun (f : Frame) => notEarlier s.tick f.at_) = none := by
    cases hh : (s.link n).built.head? with
    | none => rfl
    | some f => simp [hb f hh]
  unfold State.frameSend
  rw [hdue]
  exact if_neg hs

/-! ## What the two commands come to -/

/-- A late write changes no slot; the link counts it (R78). -/
theorem State.egressApply_late_spec {s : State} {w : EgWrite} (h : s.slotClosed w.link w.tick = true) :
    (s.egressApply w).links = s.links ∧
      (s.egressApply w).rf (aLink w.link 0x10) 35 18 = min (2 ^ 18 - 1) (s.rf (aLink w.link 0x10) 35 18 + 1) ∧
      RegsBut (fun q => q = aLink w.link 0x10) s (s.egressApply w) := by
  rw [State.egressApply_late h]
  exact ⟨rfl, s.rf_bump_one _ (by decide), s.regsBut_bump _ _ _ _⟩

/-- One of another epoch is counted, and noted in its slot (R433). -/
theorem State.egressApply_epoch_spec {s : State} {w : EgWrite} (h : s.slotClosed w.link w.tick = false)
    (he : w.epoch % 256 ≠ s.egressEpoch w.link w.tick) :
    (s.egressApply w).rf (aLink w.link 0x10) 17 0 = min (2 ^ 18 - 1) (s.rf (aLink w.link 0x10) 17 0 + 1) ∧
      RegsBut (fun q => q = aLink w.link 0x10) s (s.egressApply w) ∧
      ∃ y, (s.egressApply w).slotAt w.link w.tick = some y ∧ y.epx = true := by
  rw [State.egressApply_epoch h he]
  exact ⟨s.rf_bump_one _ (by decide), s.regsBut_bump _ _ _ _, _, State.slotAt_onSlotOf _ _ _ (fun _ => rfl), rfl⟩

/-- A write or completion in time, its slot not one of the delay area (R79, R80). -/
theorem State.egressApply_near_spec {s : State} {w : EgWrite} (h : s.slotClosed w.link w.tick = false)
    (he : w.epoch % 256 = s.egressEpoch w.link w.tick) (hd : s.delayDue w.link w.tick = false)
    (hy : ∀ y, s.slotAt w.link w.tick = some y → y.inDelay = false) :
    (s.egressApply w).regs = s.regs ∧ ∃ y z, (s.egressApply w).slotAt w.link w.tick = some z ∧
      y = (s.slotAt w.link w.tick).getD ⟨w.tick, [], false, false, false, false, false⟩ ∧
      if y.complete || y.lost then z = y
      else if w.complete then z = { y with complete := true }
      else z.wrote = true ∧ z.complete = false ∧ z.epx = y.epx ∧ ∀ i,
        SMap.get (fun _ => 0) z.words i = if i = w.idx then w.w else SMap.get (fun _ => 0) y.words i := by
  rw [State.egressApply_slot h he, State.slotWrite_of_near hd hy]
  refine ⟨rfl, _, _, s.slotAt_onSlotOf _ _ w.change_tick, by rw [State.slotLost_of_near hd], w.change_spec ?_⟩
  cases hs : s.slotAt w.link w.tick with
  | none => rfl
  | some y => exact hy y hs

/-- A word in time for a slot of the delay area (R464, R512). -/
theorem State.egressApply_delayed_spec {s : State} {w : EgWrite} {y : Slot} (h : s.slotClosed w.link w.tick = false)
    (he : w.epoch % 256 = s.egressEpoch w.link w.tick) (hy : s.slotAt w.link w.tick = some y) (hd : y.inDelay = true)
    (hc : y.complete = false) (hl : y.lost = false) (hw : w.complete = false) :
    (s.egressApply w).regs = s.regs ∧ (s.egressApply w).drams = s.drams ∧
      ((s.egressApply w).die (w.link / 64)).delayed = (s.die (w.link / 64)).delayed ++ [w] ∧
      (s.egressApply w).slotAt w.link w.tick = some { y with wrote := true } := by
  rw [State.egressApply_slot h he, State.slotWrite_of_delayed hy hd hc hl hw]
  refine ⟨rfl, rfl, ?_, ?_⟩
  · rw [State.die_onDie_self]; rfl
  · have hz := s.slotAt_onSlotOf w.link w.tick w.change_tick
    rw [hy, Option.getD_some] at hz
    have hch : w.change y = { y with wrote := true } := by simp [EgWrite.change, hc, hl, hw, hd]
    exact hz.trans (congrArg some hch)

/-- The tile that a write has left, and the others, after it has reached its island. -/
theorem State.egressApply_onTile (s : State) (d p : Nat) (f : Tile → Tile) (w : EgWrite) :
    ((s.onTile d p f).egressApply w).tile d p = { f (s.tile d p) with marks := [] } ∧
      TilesBut (tkey d p) s ((s.onTile d p f).egressApply w) := by
  have ht := State.egressApply_tiles (s.onTile d p f) w
  exact ⟨(State.tile_congr ht d p).trans (s.tile_setTile_self d p _),
    fun e q h => (State.tile_congr ht e q).trans (s.tile_setTile_of_ne _ h)⟩

/-- A link that carries frames sends a built one when its milestone has come (R38, R468). -/
theorem State.Carries.frameSend_spec {s : State} {n : Nat} (h : s.Carries n) (hn : n < 512) {f : Frame} {r : List Frame}
    (hb : (s.link n).built = f :: r) (hm : notEarlier s.tick f.at_ = true) (hr : (s.link n).retrain = false) :
    ((s.frameSend n).link n).built = r ∧ (s.frameSend n).tiles = s.tiles ∧
      (s.frameSend n).out = s.out ++ [.frame n f,
        .line n (s.linePush n (s.lineEighths n) (frameBits f.tick f.flags f.words)).2] ∧
      (s.frameSend n).rd (aLink n 0x0D) = s.rd (aLink n 0x0D) + wd (natB (f.flags % 2 == 0)) ∧
      (s.frameSend n).rd (aLink n 0x0E) = s.rd (aLink n 0x0E) + wd (natB (f.flags % 2 != 0)) ∧
      RegsBut (fun q => q = aLink n 0x0D ∨ q = aLink n 0x0E) s (s.frameSend n) := by
  obtain ⟨reqs, e⟩ := h.frameSend hb hm hr
  obtain ⟨-, -, -, hk⟩ := s.frameTaken_line f hn
  rw [(h.frameTaken f hn).lineOut, hk, s.linePush_frameTaken f hn] at e
  generalize s.linePush n (s.lineEighths n) (frameBits f.tick f.flags f.words) = x at e ⊢
  have hrd : ∀ q, (s.frameSend n).rd q = (s.frameTaken n f).rd q := fun q => by rw [e]; rfl
  obtain ⟨hdec, hdef⟩ := s.frameTaken_counts n f
  refine ⟨?_, by rw [e]; rfl, ?_, ?_, ?_, fun q hq => ?_⟩
  · have hlinks : (s.frameSend n).links = ((s.frameTaken n f).onLink n (fun z => { z with txl := x.1 })).links := by
      rw [e]; rfl
    rw [State.link_congr hlinks, State.link_onLink_self, s.link_frameTaken n f, hb]; rfl
  · rw [e]; exact List.append_assoc s.out [.frame n f] [.line n x.2]
  · rw [hrd, hdec]
  · rw [hrd, hdef]
  · rw [hrd, s.rd_frameTaken n f (frameCounter_ne n f (fun h => hq (.inl h)) (fun h => hq (.inr h)))]

/-- With no frame due it sends a tick of fill, once a milestone (R452). -/
theorem State.Carries.frameSend_fill_spec {s : State} {n : Nat} (h : s.Carries n)
    (hb : ∀ f, (s.link n).built.head? = some f → notEarlier s.tick f.at_ = false)
    (hs : (s.link n).txl.sent ≠ some s.tick) :
    ((s.frameSend n).link n).built = (s.link n).built ∧ (s.frameSend n).tiles = s.tiles ∧
      (s.frameSend n).regs = s.regs ∧
      ((s.frameSend n).link n).txl.sent = some s.tick ∧
      (s.frameSend n).out = s.out ++ [.line n (s.linePush n (s.lineEighths n) []).2] := by
  have hlink : ((s.frameSend n).link n) = { s.link n with txl := (s.linePush n (s.lineEighths n) []).1 } := by
    rw [State.frameSend_fill hb hs, h.lineOut]
    exact s.link_onLink_self n (fun z => { z with txl := (s.linePush n (s.lineEighths n) []).1 })
  have hsent : (s.linePush n (s.lineEighths n) []).1.sent = some s.tick := LineTx.push_sent ..
  refine ⟨by rw [hlink], ?_, ?_, by rw [hlink]; exact hsent, ?_⟩ <;> rw [State.frameSend_fill hb hs, h.lineOut] <;> rfl

/-- Settles O40: every outcome of an egress write at its island, and of a milestone of a link that carries frames. -/
theorem egressWriteToFrame : Obligations.EgressWriteToFrame := by
  refine ⟨fun s d p w r hs hd hp hw _ => ?_, fun s n k hs hn hserv htest hcl hk => ?_⟩
  · have hok : (dieOk d && tileOk p) = true := by simp [dieOk, tileOk, hd, hp]
    have he : exec (.egressWriteArrive d p) s = .next (s.keepQueue (s.egressArrive d p)) :=
      live_next (f := fun s => s.egressArrive d p) hs hok
    refine ⟨fun hf => ?_, fun hf => ?_⟩
    · rw [he, State.egressArrive_full hw hf]; rfl
    · rw [State.egressArrive_leaves hw hf] at he
      obtain ⟨ht, hbut⟩ := s.egressApply_onTile d p (fun t => t.egressLeft (s.slotClosed w.link w.tick) r) w
      refine ⟨_, he, ?_, hbut, fun hc => ?_, fun hc hep => ?_,
        fun hc hep => ⟨fun hdue hy => ?_, fun y hy hdl hcp hl hwc => ?_⟩⟩
      · exact (congrArg Tile.eg ht).trans (Tile.egressLeft_eg ..)
      · obtain ⟨h1, h2, h3⟩ := State.egressApply_late_spec
          (s := s.onTile d p (fun t => t.egressLeft (s.slotClosed w.link w.tick) r)) hc
        refine ⟨h1, h2, ?_, h3⟩
        refine (congrArg (fun t => Tile.iof t 0x2A 35 18) ht).trans ?_
        rw [hc, Tile.iof_marks, Tile.egressLeft_late]
      · exact State.egressApply_epoch_spec (s := s.onTile d p _) hc hep
      · exact State.egressApply_near_spec (s := s.onTile d p _) hc hep hdue hy
      · exact State.egressApply_delayed_spec (s := s.onTile d p _) hc hep hy hdl hcp hl hwc
  · have h : s.Carries n := ⟨hserv, htest, hcl⟩
    have hlive : exec (.egressFrameSend n) s = .next (s.keepQueue (s.frameSend n)) :=
      live_next (f := fun s => s.frameSend n) hs (decide_eq_true hn)
    subst hk
    exact ⟨fun f r hb hm hr => ⟨_, hlive, h.frameSend_spec hn hb hm hr⟩,
      fun hb hsent => ⟨_, hlive, h.frameSend_fill_spec hb hsent⟩⟩

end Sys2Proof.Machine
end

section
/-!
SUPPORT. Flash as the logbook writes it: bytes programmed and erased, the record that a flush writes, and the fields of
LOG_FL1.
-/
namespace Sys2Proof.Machine

/-! ## Bytes of flash -/

/-- A read after keys are dropped. -/
theorem SMap.get_dropIf {α : Type} (d : Nat → α) (p : Nat → Bool) (m : SMap α) (k : Nat) :
    SMap.get d (SMap.dropIf p m) k = if p k then d k else SMap.get d m k := by
  induction m with
  | nil => simp [SMap.dropIf, SMap.get]
  | cons e r ih =>
    obtain ⟨j, v⟩ := e
    rw [SMap.dropIf] at ih ⊢
    by_cases hj : j = k
    · subst hj
      cases hp : p j <;> simp [SMap.get, hp, ih]
    · cases hp : p j <;> simp [SMap.get, hp, hj, ih]

/-- A byte of flash after an erase. -/
theorem State.flashByte_erase (s : State) (a n b : Nat) :
    (s.erase a n).flashByte b = if a ≤ b ∧ b < a + n then 0xFF else s.flashByte b := by
  rw [State.flashByte, State.erase, SMap.get_dropIf]
  simp only [decide_eq_true_eq]
  rfl

/-- Programming changes flash and nothing else. -/
theorem State.program_eq (l : List Byte) : ∀ (s : State) (a : Nat),
    ∃ flash, s.program a l = { s with flash := flash } := by
  induction l with
  | nil => exact fun s _ => ⟨s.flash, rfl⟩
  | cons b r ih => exact fun s a => ih { s with flash := SMap.set (fun _ => 0xFF) s.flash a b } (a + 1)

/-- A byte of flash after bytes are programmed. -/
theorem State.flashByte_program (l : List Byte) : ∀ (s : State) (a b : Nat),
    (s.program a l).flashByte b = if a ≤ b ∧ b < a + l.length then l.getD (b - a) 0 else s.flashByte b := by
  induction l with
  | nil => intro s a b; rw [if_neg (by simp only [List.length_nil]; omega)]; rfl
  | cons x r ih =>
    intro s a b
    rw [State.program, ih, List.length_cons]
    by_cases hb : b = a
    · subst hb
      rw [if_neg (by omega), if_pos (by omega), Nat.sub_self]
      exact SMap.get_set_self ..
    · by_cases hin : a + 1 ≤ b ∧ b < a + 1 + r.length
      · rw [if_pos hin, if_pos (by omega), show b - a = (b - (a + 1)) + 1 by omega, List.getD_cons_succ]
      · rw [if_neg hin, if_neg (by omega)]
        exact SMap.get_set_of_ne _ _ _ hb

/-- n bytes of a number are n bytes. -/
@[simp] theorem toLe_length (n v : Nat) : (toLe n v).length = n := by
  induction n generalizing v with
  | zero => rfl
  | succ n ih => rw [toLe, List.length_cons, ih]

/-- A record takes 36 bytes (R588). -/
@[simp] theorem Rec.bytes_length (r : Rec) : r.bytes.length = 36 := by
  simp [Rec.bytes, List.range_succ, packedLe]

/-! ## LOG_FL1 -/

/-- NREC after it is written. -/
theorem State.nrec_wf (s : State) (v : Nat) (h : v < 2048) : (s.wf (aLog 3) 20 10 v).nrec = v :=
  (s.rf_wf_self _ v (by decide)).trans (Nat.mod_eq_of_lt h)

/-- SECT is apart from NREC. -/
theorem State.sect_wf_nrec (s : State) (v : Nat) : (s.wf (aLog 3) 20 10 v).sect = s.sect := by
  rw [State.sect, State.rf, State.rd_wf, if_pos rfl, fld_putFld_apart _ _ (by decide)]; rfl

/-- Showing the erased sectors changes LOG_FL1. -/
theorem State.regsBut_showErased (s : State) : RegsBut (fun q => q = aLog 3) s s.showErased := fun _ h => s.rd_wf_of_ne h

/-- It reaches no tile. -/
theorem State.showErased_tiles (s : State) : s.showErased.tiles = s.tiles := State.wr_tiles ..

/-- NREC is apart from ERASED. -/
@[simp] theorem State.nrec_showErased (s : State) : s.showErased.nrec = s.nrec := by
  rw [State.nrec, State.rf, State.showErased, State.rd_wf, if_pos rfl, fld_putFld_apart _ _ (by decide)]; rfl

/-- So is the count of failures. -/
theorem State.fails_showErased (s : State) : s.showErased.rf (aLog 3) 35 24 = s.rf (aLog 3) 35 24 := by
  rw [State.rf, State.showErased, State.rd_wf, if_pos rfl, fld_putFld_apart _ _ (by decide)]; rfl

/-! ## A record written (R588, R589) -/

/-- Where the next record goes in the sector that is being filled. -/
def State.recAt (s : State) : Nat := sectAt s.sect + 16 + 36 * s.nrec

/-- A record stands at its place in the sector that is being filled, and is shown as the last one written. -/
def State.recPut (s : State) (r : Rec) : State :=
  ((s.program s.recAt r.bytes).wf (aLog 3) 20 10 (s.nrec + 1)).wr (aLog 2) r.seq

/-- While the sector that is being filled has room, it takes the next record, once it has its header. -/
theorem State.openSect_room {s : State} (hn : s.nrec < 1820) (hb : s.sect ∉ s.badSect) :
    s.openSect = if s.sectBlank s.sect then some (s.program (sectAt s.sect) (sectHeader 0)) else some s := by
  rw [State.openSect, if_pos ⟨hn, by simpa using hb⟩]

/-- A record is put into the sector that takes it. -/
theorem State.flashRec_eq (s : State) (r : Rec) : s.flashRec r = s.openSect.map (fun u => u.recPut r) := by
  rw [State.flashRec]; cases s.openSect <;> rfl

theorem State.regsBut_recPut (s : State) (r : Rec) : RegsBut (fun q => q = aLog 2 ∨ q = aLog 3) s (s.recPut r) := by
  obtain ⟨fl, e⟩ := State.program_eq r.bytes s s.recAt
  intro q hq
  rw [State.recPut, State.rd_wr_of_ne _ _ (fun h => hq (.inl h)), State.rd_wf_of_ne _ (fun h => hq (.inr h)), e]
  rfl

@[simp] theorem State.recPut_tiles (s : State) (r : Rec) : (s.recPut r).tiles = s.tiles := by
  obtain ⟨fl, e⟩ := State.program_eq r.bytes s s.recAt
  rw [State.recPut, e]; rfl

@[simp] theorem State.recPut_badSect (s : State) (r : Rec) : (s.recPut r).badSect = s.badSect := by
  obtain ⟨fl, e⟩ := State.program_eq r.bytes s s.recAt
  rw [State.recPut, e]; rfl

/-- It is the last one written. -/
theorem State.rd_recPut_last (s : State) (r : Rec) : (s.recPut r).rd (aLog 2) = r.seq := State.rd_wr_self ..

/-- The sector holds one record more. -/
theorem State.nrec_recPut {s : State} (r : Rec) (h : s.nrec < 1820) : (s.recPut r).nrec = s.nrec + 1 := by
  have e : (s.recPut r).nrec = ((s.program s.recAt r.bytes).wf (aLog 3) 20 10 (s.nrec + 1)).nrec := by
    rw [State.nrec, State.rf, State.recPut, State.rd_wr_of_ne _ _ (by decide)]; rfl
  rw [e, State.nrec_wf _ _ (by omega)]

/-- It is the sector that was being filled. -/
@[simp] theorem State.sect_recPut (s : State) (r : Rec) : (s.recPut r).sect = s.sect := by
  obtain ⟨fl, e⟩ := State.program_eq r.bytes s s.recAt
  have h : (s.recPut r).sect = ((s.program s.recAt r.bytes).wf (aLog 3) 20 10 (s.nrec + 1)).sect := by
    rw [State.sect, State.rf, State.recPut, State.rd_wr_of_ne _ _ (by decide)]; rfl
  rw [h, State.sect_wf_nrec, e]; rfl

/-- The record's bytes stand at its place, and every other byte of flash is as before. -/
theorem State.flashByte_recPut (s : State) (r : Rec) (b : Nat) :
    (s.recPut r).flashByte b =
      if s.recAt ≤ b ∧ b < s.recAt + 36 then r.bytes.getD (b - s.recAt) 0 else s.flashByte b := by
  have h := State.flashByte_program r.bytes s s.recAt b
  rwa [Rec.bytes_length] at h

/-! ## A flush and an erase -/

/-- A flush that has no record left to write but one, into the sector in use. -/
theorem State.flush_one {s : State} {q : Word} {r : Rec} (hq : s.flushTo = some q) (hp : s.pfwLow = false)
    (hr : s.flashReach = true) (hn : s.nrec < 1820) (hb : s.sect ∉ s.badSect) (hu : s.sectBlank s.sect = false)
    (hl : s.unflushed.filter (fun (x : Rec) => !(laterSeq x.seq q)) = [r]) :
    s.flush true = ({ s.recPut r with flushTo := none } : State).showErased := by
  have ho : s.openSect = some s := by rw [State.openSect_room hn hb, hu]; rfl
  have hf : s.flashRecs [r] = (s.recPut r, 1) := by
    rw [State.flashRecs, State.flashRec_eq, ho]; rfl
  simp only [State.flush, hq, hp, hr, ho, hl, hf, Bool.not_true, Bool.or_self, Bool.false_eq_true, if_false, if_true]
  rfl

/-- A flush whose program fails. -/
theorem State.flush_fails {s : State} {q : Word} (hq : s.flushTo = some q) (hp : s.pfwLow = false)
    (hr : s.flashReach = true) (hn : s.nrec < 1820) (hb : s.sect ∉ s.badSect) (hu : s.sectBlank s.sect = false) :
    s.flush false = (s.flashFail s.sect s.recAt).showErased := by
  have ho : s.openSect = some s := by rw [State.openSect_room hn hb, hu]; rfl
  simp only [State.flush, hq, hp, hr, ho, Bool.not_true, Bool.or_self, Bool.false_eq_true, if_false]
  rfl

/-- An erase of the next sector to be erased. -/
theorem State.sectorErase_ok {s : State} {k : Nat} (hp : s.pfwLow = false) (hr : s.flashReach = true)
    (hn : s.erasedAhead < 2) (hk : s.sectsAhead[s.erasedAhead]? = some k) :
    s.sectorErase true = (s.erase (sectAt k) 65536).showErased := by
  have hn : ¬ 2 ≤ s.erasedAhead := by omega
  simp [State.sectorErase, hp, hr, hn, hk]

/-- What a flush of one record into the sector in use leaves (R588). -/
theorem State.flush_one_spec {s : State} {q : Word} {r : Rec} (hq : s.flushTo = some q) (hp : s.pfwLow = false)
    (hr : s.flashReach = true) (hn : s.nrec < 1820) (hb : s.sect ∉ s.badSect) (hu : s.sectBlank s.sect = false)
    (hl : s.unflushed.filter (fun (x : Rec) => !(laterSeq x.seq q)) = [r]) :
    (s.flush true).flushTo = none ∧ (s.flush true).rd (aLog 2) = r.seq ∧ (s.flush true).nrec = s.nrec + 1 ∧
      (∀ j, j < 36 → (s.flush true).flashByte (s.recAt + j) = r.bytes.getD j 0) ∧
      (∀ a, a < s.recAt ∨ s.recAt + 36 ≤ a → (s.flush true).flashByte a = s.flashByte a) ∧
      (s.flush true).tiles = s.tiles ∧ RegsBut (fun a => a = aLog 2 ∨ a = aLog 3) s (s.flush true) := by
  rw [State.flush_one hq hp hr hn hb hu hl]
  generalize hw : ({ s.recPut r with flushTo := none } : State) = w
  have hrd : ∀ k, w.rd k = (s.recPut r).rd k := fun k => by rw [← hw]; rfl
  have hbyte : ∀ b, w.showErased.flashByte b = (s.recPut r).flashByte b := fun b => by rw [← hw]; rfl
  refine ⟨by rw [← hw]; rfl, ?_, ?_, fun j hj => ?_, fun a ha => ?_, ?_, fun k hk => ?_⟩
  · rw [w.regsBut_showErased _ (by decide), hrd, s.rd_recPut_last]
  · rw [w.nrec_showErased, ← s.nrec_recPut r hn, State.nrec, State.rf, hrd]; rfl
  · rw [hbyte, s.flashByte_recPut, if_pos (by omega), Nat.add_sub_cancel_left]
  · rw [hbyte, s.flashByte_recPut, if_neg (by omega)]
  · rw [← hw]; exact s.recPut_tiles r
  · rw [w.regsBut_showErased _ (fun h => hk (.inr h)), hrd, s.regsBut_recPut r _ hk]

/-- What a failed program leaves (R589). -/
theorem State.flashFail_spec (s : State) (k off : Nat) :
    ((s.flashFail k off).showErased).badSect = k :: s.badSect ∧ ((s.flashFail k off).showErased).flash = s.flash ∧
      ((s.flashFail k off).showErased).rf (aLog 3) 35 24 = min 4095 (s.rf (aLog 3) 35 24 + 1) ∧
      ((s.flashFail k off).showErased).tiles = s.tiles ∧ RegsBut (fun a => a = aLog 3) s (s.flashFail k off).showErased ∧
      ∃ m, ((s.flashFail k off).showErased).marks = s.marks ++ [m] ∧ m.code = 0x003 ∧ m.d0 = wd off := by
  refine ⟨rfl, rfl, ?_, rfl, fun a ha => ?_, _, rfl, rfl, rfl⟩
  · rw [State.fails_showErased]; exact s.rf_bump_one (aLog 3) (by decide)
  · rw [State.regsBut_showErased _ _ ha]; exact s.rd_bump_of_ne ha

/-- What an erase leaves (R589). -/
theorem State.erase_spec (s : State) (a n : Nat) :
    (∀ b, a ≤ b → b < a + n → ((s.erase a n).showErased).flashByte b = 0xFF) ∧
      (∀ b, b < a ∨ a + n ≤ b → ((s.erase a n).showErased).flashByte b = s.flashByte b) ∧
      ((s.erase a n).showErased).tiles = s.tiles ∧ RegsBut (fun q => q = aLog 3) s (s.erase a n).showErased := by
  have h := s.flashByte_erase a n
  refine ⟨fun b h1 h2 => ?_, fun b hb => ?_, State.showErased_tiles _,
    fun q hq => (State.regsBut_showErased _ q hq).trans rfl⟩
  · exact (h b).trans (if_pos ⟨h1, h2⟩)
  · exact (h b).trans (if_neg (by omega))

end Sys2Proof.Machine
end

section
/-!
SUPPORT. A power-fail warning: what settling the logbook and writing its youngest records to flash leave as it was, the flash
controller's reach among it; then the ledgers, FLASHERR and a new lead.
-/
namespace Sys2Proof.Machine

/-! ## What the logbook's own work leaves -/

/-- From s to t only the logbook has worked: of the LOG_ words below the loss counters those that p names, flash only where p
names LOG_FL1; nothing that the reach of the flash controller depends on, no tile and no flash write that waits. -/
structure LogWork (p : Nat → Prop) (s t : State) : Prop where
  tiles : t.tiles = s.tiles
  tap : t.tap = s.tap
  img : t.img = s.img
  boot : t.boot = s.boot
  ibl : t.ibl = s.ibl
  badSect : t.badSect = s.badSect
  nvWait : t.nvWait = s.nvWait
  pfwLow : t.pfwLow = s.pfwLow
  low : ∀ q, q = aSec 0 ∨ 0x1_0000_0000 ≤ q → fld (t.rd q) 2 0 = fld (s.rd q) 2 0
  regs : ∀ o, o < 0x10 → ¬ p o → t.rd (aLog o) = s.rd (aLog o)
  flash : ¬ p 3 → t.flash = s.flash

variable {p : Nat → Prop}

/-- No work. -/
theorem LogWork.refl (s : State) : LogWork p s s :=
  ⟨rfl, rfl, rfl, rfl, rfl, rfl, rfl, rfl, fun _ _ => rfl, fun _ _ _ => rfl, fun _ => rfl⟩

/-- One piece of work after another. -/
theorem LogWork.trans {s t u : State} (h : LogWork p s t) (k : LogWork p t u) : LogWork p s u :=
  ⟨k.tiles.trans h.tiles, k.tap.trans h.tap, k.img.trans h.img, k.boot.trans h.boot, k.ibl.trans h.ibl,
    k.badSect.trans h.badSect, k.nvWait.trans h.nvWait, k.pfwLow.trans h.pfwLow,
    fun q hq => (k.low q hq).trans (h.low q hq), fun o ho hp => (k.regs o ho hp).trans (h.regs o ho hp),
    fun hp => (k.flash hp).trans (h.flash hp)⟩

/-- Work under a wider set of words. -/
theorem LogWork.mono {p' : Nat → Prop} {s t : State} (h : LogWork p s t) (hp : ∀ o, p o → p' o) : LogWork p' s t :=
  { h with
    regs := fun o ho h' => h.regs o ho (fun e => h' (hp o e))
    flash := fun h' => h.flash (fun e => h' (hp 3 e)) }

/-- Rings, waymarks, a flush in progress and what is sent are the logbook's own. -/
theorem LogWork.beside (s : State) (logs : SMap LogUnit) (marks : List Mark) (flushTo : Option Word) (pcie0 pcie1 : PcieSt)
    (out : List Emit) :
    LogWork p s { s with logs := logs, marks := marks, flushTo := flushTo, pcie0 := pcie0, pcie1 := pcie1, out := out } :=
  ⟨rfl, rfl, rfl, rfl, rfl, rfl, rfl, rfl, fun _ _ => rfl, fun _ _ _ => rfl, fun _ => rfl⟩

/-- Flash programmed. -/
theorem LogWork.program (s : State) (a : Nat) (l : List Byte) (hp : p 3) : LogWork p s (s.program a l) := by
  obtain ⟨fl, e⟩ := State.program_eq l s a
  rw [e]
  exact ⟨rfl, rfl, rfl, rfl, rfl, rfl, rfl, rfl, fun _ _ => rfl, fun _ _ _ => rfl, fun h => absurd hp h⟩

/-- A LOG_ word written. -/
theorem LogWork.wr (s : State) {o : Nat} (v : Word) (ho : o < 0x10) (hp : p o) : LogWork p s (s.wr (aLog o) v) := by
  refine ⟨rfl, rfl, rfl, rfl, rfl, rfl, rfl, rfl, fun q hq => ?_, fun o' _ hp' => ?_, fun _ => rfl⟩
  · rw [s.rd_wr_of_ne v (by unfold aLog aSec at *; omega)]
  · have hne : o' ≠ o := fun e => hp' (e ▸ hp)
    exact s.rd_wr_of_ne v (by unfold aLog; omega)

/-- Losses counted, in bits 34 to 17 of the unit's word. -/
theorem LogWork.lost (s : State) (d n : Nat) : LogWork p s (s.bump (aLog (0x10 + d)) 34 17 n) := by
  refine ⟨rfl, rfl, rfl, rfl, rfl, rfl, rfl, rfl, fun q _ => ?_, fun o ho _ => ?_, fun _ => rfl⟩
  · rw [State.rd_bump]
    split
    · next h => rw [fld_putFld_apart _ _ (by decide), h]
    · rfl
  · exact s.rd_bump_of_ne (by unfold aLog; omega)

/-- A vector sent, or kept behind its mask (R528). -/
theorem State.msix_eq (s : State) (v : Nat) :
    ∃ pcie0 pcie1 out, s.msix v = { s with pcie0 := pcie0, pcie1 := pcie1, out := out } := by
  have one : ∀ (u : State) (ep : Nat),
      ∃ pcie0 pcie1 out, u.vector ep v = { u with pcie0 := pcie0, pcie1 := pcie1, out := out } := by
    intro u ep
    unfold State.vector State.setPcie State.land
    dsimp only
    repeat' split
    all_goals exact ⟨_, _, _, rfl⟩
  obtain ⟨a, b, o, e⟩ := one s 0
  obtain ⟨a', b', o', e'⟩ := one (s.vector 0 v) 1
  exact ⟨a', b', o', by rw [State.msix, e', e]⟩

/-! ## Settling (R582 to R585) -/

/-- A waymark arrives at its unit. -/
theorem LogWork.markArrive (s : State) (d : Nat) : LogWork p s (s.markArrive d) := by
  unfold State.markArrive
  split
  · exact LogWork.refl s
  · next m r _ => exact (LogWork.beside s _ _ _ _ _ _).trans (LogWork.lost (({ s with marks := r } : State).setLog d _) d _)

/-- A record is written into its ring. -/
theorem LogWork.ringPut (s : State) (d : Nat) (hp : p 0) : LogWork p s (s.ringPut d) := by
  unfold State.ringPut
  extract_lets u
  split
  · exact LogWork.refl s
  · extract_lets x q1 u1 u2 s1
    have h1 : LogWork p s s1 := (LogWork.beside s _ _ _ _ _ _).trans (LogWork.wr (s.setLog d u2) _ (by decide) hp)
    clear_value s1
    split
    · obtain ⟨a, b, o, e⟩ := s1.msix_eq 3
      refine h1.trans ?_
      rw [e, State.flushFor]
      split <;> exact LogWork.beside s1 _ _ _ _ _ _
    · exact h1

/-- Every waymark of a unit arrives, and every record is written. -/
theorem LogWork.settle (d : Nat) (hp : p 0) : ∀ (n : Nat) (s : State), LogWork p s (s.settle d n)
  | 0, s => LogWork.refl s
  | n + 1, s => by
    rw [State.settle]
    refine LogWork.trans ?_ (LogWork.settle d hp n _)
    split
    · exact (LogWork.markArrive s d).trans (LogWork.ringPut _ d hp)
    · exact LogWork.markArrive s d

/-! ## The flash controller's reach (R23) -/

/-- Links are in service as before. -/
theorem LogWork.ibkOos {s t : State} (h : LogWork p s t) : t.ibkOos = s.ibkOos := by
  funext l
  have hb := congrArg (Nat.testBit · 2) (h.low (aIbk (linkEnds l).1) (.inr (by unfold aIbk aDie; omega)))
  simp only [testBit_fld, Nat.zero_add] at hb
  have hrb : t.rb (aIbk (linkEnds l).1) 2 = s.rb (aIbk (linkEnds l).1) 2 := by simpa [State.rb, bitOf] using hb
  have hl : t.ibLink l = s.ibLink l := by rw [State.ibLink, h.ibl]; rfl
  rw [State.ibkOos, hrb, hl]; rfl

/-- The life-cycle state is as before. -/
theorem LogWork.lc {s t : State} (h : LogWork p s t) : t.lc = s.lc := h.low _ (.inl rfl)

/-- The controller is reached as before. -/
theorem LogWork.flashReach {s t : State} (h : LogWork p s t) : t.flashReach = s.flashReach := by
  have hpath : ∀ a b, t.pathUsed a b = s.pathUsed a b := fun a b => by rw [State.pathUsed, h.ibkOos]; rfl
  have hcl : t.clamped = s.clamped := by
    simp only [State.clamped, State.extestOk, State.armed, h.lc, h.tap, h.img]
  have hlead : t.lead = s.lead := congrArg BootSt.lead h.boot
  have hzero : t.healthy 0 = s.healthy 0 := congrArg (fun b : BootSt => b.healthy.contains 0) h.boot
  rw [State.flashReach, hcl, hlead, hzero, State.xrReach, hpath]; rfl

/-! ## Records written before power fails (R590) -/

/-- The sector and the count of its records do not depend on more than LOG_FL1. -/
theorem State.nrec_congr {s t : State} (h : t.rd (aLog 3) = s.rd (aLog 3)) : t.nrec = s.nrec ∧ t.sect = s.sect := by
  rw [State.nrec, State.sect, State.rf, State.rf, h]; exact ⟨rfl, rfl⟩

/-- A sector found for the next record. -/
theorem LogWork.openSect {s u : State} (h : s.openSect = some u) (hp : p 3) : LogWork p s u := by
  unfold State.openSect at h
  split at h
  · split at h
    · obtain rfl := Option.some.inj h; exact LogWork.program s _ _ hp
    · obtain rfl := Option.some.inj h; exact LogWork.refl s
  · split at h
    · exact absurd h (by simp)
    · split at h
      · obtain rfl := Option.some.inj h
        exact ((LogWork.program s _ _ hp).trans (LogWork.wr _ _ (by decide) hp)).trans (LogWork.wr _ _ (by decide) hp)
      · exact absurd h (by simp)

/-- A record put into it. -/
theorem LogWork.recPut (s : State) (r : Rec) (h2 : p 2) (h3 : p 3) : LogWork p s (s.recPut r) :=
  ((LogWork.program s _ _ h3).trans (LogWork.wr _ _ (by decide) h3)).trans (LogWork.wr _ _ (by decide) h2)

/-- Records written, as far as there is room. -/
theorem LogWork.flashRecs (h2 : p 2) (h3 : p 3) : ∀ (l : List Rec) (s : State), LogWork p s (s.flashRecs l).1
  | [], s => LogWork.refl s
  | r :: l, s => by
    rw [State.flashRecs, State.flashRec_eq]
    cases h : s.openSect with
    | none => exact LogWork.refl s
    | some u =>
      exact ((LogWork.openSect h h3).trans (LogWork.recPut u r h2 h3)).trans (LogWork.flashRecs h2 h3 l (u.recPut r))

/-- With room for all of them in the sector that is being filled, all are written. -/
theorem State.flashRecs_all : ∀ (l : List Rec) (s : State), s.sect ∉ s.badSect → s.nrec + l.length ≤ 1820 →
    (s.flashRecs l).2 = l.length
  | [], _, _, _ => rfl
  | r :: l, s, hb, hn => by
    rw [List.length_cons] at hn
    obtain ⟨u, hu, hr, hs, hbad⟩ :
        ∃ u, s.openSect = some u ∧ u.nrec = s.nrec ∧ u.sect = s.sect ∧ u.badSect = s.badSect := by
      rw [State.openSect_room (by omega) hb]
      split
      · obtain ⟨fl, e⟩ := State.program_eq (sectHeader 0) s (sectAt s.sect)
        exact ⟨_, rfl, by rw [e]; rfl, by rw [e]; rfl, by rw [e]⟩
      · exact ⟨s, rfl, rfl, rfl, rfl⟩
    rw [State.flashRecs, State.flashRec_eq, hu]
    refine congrArg (· + 1) (State.flashRecs_all l (u.recPut r) ?_ ?_)
    · rwa [State.sect_recPut, State.recPut_badSect, hs, hbad]
    · rw [State.nrec_recPut r (by omega)]; omega

/-! ## The warning (R590) -/

/-- The warning is noted, and counted. -/
def State.pfwCounted (s : State) : State := ({ s with pfwLow := true } : State).bump (aLog 4) 17 0 1

/-- That is nothing to the flash controller. -/
theorem State.pfwCounted_flashReach (s : State) : s.pfwCounted.flashReach = s.flashReach :=
  LogWork.flashReach (p := fun o => o = 4) (s := { s with pfwLow := true }) (LogWork.wr _ _ (by decide) rfl)

/-- The state in which the records are written: PFW is counted and logged, and every record stands in its ring. -/
def State.pfwSettled (s : State) : State :=
  let d := s.unitOf s.lead
  let s1 := s.pfwCounted.settle d (s.marks.length + 10)
  (s1.mark s1.lead 7 0 0x002 (wd s1.unflushed.length) 0 0).settle d 10

/-- The youngest 40 unflushed records. -/
def State.pfwLast (s : State) : List Rec := s.unflushed.drop (s.unflushed.length - 40)

/-- What is written of them, and how many. -/
def State.pfwWrite (s : State) : State × Nat := if s.flashReach then s.flashRecs s.pfwLast else (s, 0)

/-- After the writes: a flush in progress has ended if none is left out. -/
def State.pfwFlushed (s : State) : State :=
  if s.pfwWrite.2 = s.pfwLast.length then { s.pfwWrite.1 with flushTo := none } else s.pfwWrite.1

/-- An enabled warning settles the logbook, writes records and counts those left out. -/
theorem State.pfwWarn_eq {s : State} (hl : s.pfwLow = false) (he : s.rb (aLog 1) 1 = true) : s.pfwWarn =
    (s.pfwSettled.pfwFlushed.bump (aLog 4) 35 18 (s.pfwSettled.unflushed.length - s.pfwSettled.pfwWrite.2)).showErased := by
  rw [State.pfwWarn, if_neg (by simp [hl, he])]; rfl

/-- Settling: LOG_SEQ alone of the words below the loss counters. -/
theorem State.pfwSettled_work (s : State) :
    LogWork (fun o => o = 0) s.pfwCounted s.pfwSettled := by
  unfold State.pfwSettled
  extract_lets d s1
  have h1 : LogWork (fun o => o = 0) s.pfwCounted s1 := LogWork.settle (p := fun o => o = 0) d rfl _ _
  clear_value s1
  exact (h1.trans (LogWork.beside s1 _ _ _ _ _ _)).trans (LogWork.settle (p := fun o => o = 0) d rfl 10 _)

/-- Writing records: LOG_FSEQ and LOG_FL1. -/
theorem State.pfwFlushed_work (s : State) : LogWork (fun o => o = 2 ∨ o = 3) s s.pfwFlushed := by
  have h : LogWork (fun o => o = 2 ∨ o = 3) s s.pfwWrite.1 := by
    unfold State.pfwWrite
    split
    · exact LogWork.flashRecs (.inl rfl) (.inr rfl) _ s
    · exact LogWork.refl s
  unfold State.pfwFlushed
  split
  · exact h.trans (LogWork.beside _ _ _ _ _ _ _)
  · exact h

/-- With the controller out of reach no flash is written. -/
theorem State.pfwFlushed_flash {s : State} (h : s.flashReach = false) : s.pfwFlushed.flash = s.flash := by
  have hw : s.pfwWrite = (s, 0) := by rw [State.pfwWrite, h]; rfl
  rw [State.pfwFlushed, hw]; split <;> rfl

/-- With room for all 40 records a flush ends. -/
theorem State.pfwFlushed_ends {s : State} (h : s.flashReach = true) (hb : s.sect ∉ s.badSect) (hn : s.nrec + 40 ≤ 1820) :
    s.pfwFlushed.flushTo = none := by
  have hlen : s.pfwLast.length ≤ 40 := by rw [State.pfwLast, List.length_drop]; omega
  have hw : s.pfwWrite.2 = s.pfwLast.length := by
    rw [State.pfwWrite, if_pos h, State.flashRecs_all _ _ hb (by omega)]
  rw [State.pfwFlushed, if_pos hw]

/-- The records left out are counted apart from the warnings. -/
theorem State.pfwLeftOut (s : State) (n : Nat) :
    ((s.bump (aLog 4) 35 18 n).showErased).rf (aLog 4) 17 0 = s.rf (aLog 4) 17 0 := by
  rw [State.rf, State.regsBut_showErased _ _ (by decide), State.rd_bump, if_pos rfl, fld_putFld_apart _ _ (by decide)]; rfl

section
variable {s : State} (hl : s.pfwLow = false) (he : s.rb (aLog 1) 1 = true)
include hl he

/-- A warning in all is logbook work. -/
theorem State.pfwWarn_work : LogWork (fun _ => True) s.pfwCounted s.pfwWarn := by
  rw [State.pfwWarn_eq hl he]
  exact (((s.pfwSettled_work.mono (fun _ _ => trivial)).trans (s.pfwSettled.pfwFlushed_work.mono (fun _ _ => trivial))).trans
    (LogWork.wr _ _ (by decide) trivial)).trans (LogWork.wr _ _ (by decide) trivial)

/-- It is counted once (Table 15.5). -/
theorem State.pfwWarn_counts : s.pfwWarn.rf (aLog 4) 17 0 = min (2 ^ 18 - 1) (s.rf (aLog 4) 17 0 + 1) := by
  have hset : s.pfwSettled.rd (aLog 4) = s.pfwCounted.rd (aLog 4) := s.pfwSettled_work.regs 4 (by decide) (by decide)
  have hfl : s.pfwSettled.pfwFlushed.rd (aLog 4) = s.pfwSettled.rd (aLog 4) :=
    s.pfwSettled.pfwFlushed_work.regs 4 (by decide) (by decide)
  rw [State.pfwWarn_eq hl he, State.pfwLeftOut, State.rf, hfl, hset]
  exact State.rf_bump_one { s with pfwLow := true } (aLog 4) (by decide)

/-- A flush ends, where flash is reached and the sector that is being filled has room for 40 records. -/
theorem State.pfwWarn_ends (hr : s.flashReach = true) (hb : s.sect ∉ s.badSect) (hn : s.nrec + 40 ≤ 1820) :
    s.pfwWarn.flushTo = none := by
  have h3 : s.pfwSettled.rd (aLog 3) = s.pfwCounted.rd (aLog 3) := s.pfwSettled_work.regs 3 (by decide) (by decide)
  obtain ⟨hnrec, hsect⟩ := State.nrec_congr (h3.trans (State.rd_bump_of_ne _ (by decide)) : _ = s.rd (aLog 3))
  have hreach : s.pfwSettled.flashReach = true := s.pfwSettled_work.flashReach.trans (s.pfwCounted_flashReach.trans hr)
  have hbad : s.pfwSettled.badSect = s.badSect := s.pfwSettled_work.badSect
  rw [State.pfwWarn_eq hl he]
  exact State.pfwFlushed_ends hreach (by rwa [hsect, hbad]) (by rwa [hnrec])

/-- No flash is written where it is not. -/
theorem State.pfwWarn_flash (hr : s.flashReach = false) : s.pfwWarn.flash = s.flash := by
  have hreach : s.pfwSettled.flashReach = false := s.pfwSettled_work.flashReach.trans (s.pfwCounted_flashReach.trans hr)
  rw [State.pfwWarn_eq hl he]
  exact (State.pfwFlushed_flash hreach).trans (s.pfwSettled_work.flash (by decide))

end

/-! ## The ledgers (R23, R615) -/

/-- Putting a record into flash changes flash and nothing else. -/
theorem State.putRecord_eq (s : State) (a : Nat) (l : List Byte) :
    ∃ flash, s.putRecord a l = { s with flash := flash } := by
  unfold State.putRecord
  extract_lets seq b
  exact State.program_eq _ (s.erase b 0x1_0000) b

/-- The ledgers go to flash, or wait for its controller. -/
theorem State.ledgerWrite_eq (s : State) : ∃ flash nvWait, s.ledgerWrite = { s with flash := flash, nvWait := nvWait } ∧
    (s.flashReach = false → flash = s.flash ∧ 3 ∈ nvWait) := by
  unfold State.ledgerWrite
  split
  · next h =>
    obtain ⟨fl, e⟩ := s.putRecord_eq 0x3_0000 s.ledgerBytes
    exact ⟨fl, s.nvWait, e, fun h' => absurd (h.symm.trans h') (by decide)⟩
  · exact ⟨s.flash, _, rfl, fun _ => ⟨rfl, List.mem_cons_self⟩⟩

/-- What an enabled warning leaves, with the ledgers (R23, R590). -/
theorem State.pfw_spec {s : State} (hl : s.pfwLow = false) (he : s.rb (aLog 1) 1 = true) :
    s.pfwWarn.ledgerWrite.pfwLow = true ∧
      s.pfwWarn.ledgerWrite.rf (aLog 4) 17 0 = min (2 ^ 18 - 1) (s.rf (aLog 4) 17 0 + 1) ∧
      s.pfwWarn.ledgerWrite.tiles = s.tiles ∧
      (s.flashReach = true → s.sect ∉ s.badSect → s.nrec + 40 ≤ 1820 → s.pfwWarn.ledgerWrite.flushTo = none) ∧
      (s.flashReach = false → s.pfwWarn.ledgerWrite.flash = s.flash ∧ 3 ∈ s.pfwWarn.ledgerWrite.nvWait) := by
  have hw := State.pfwWarn_work hl he
  obtain ⟨fl, nv, e, hwait⟩ := s.pfwWarn.ledgerWrite_eq
  rw [e]
  refine ⟨hw.pfwLow, State.pfwWarn_counts hl he, hw.tiles, fun hr hb hn => State.pfwWarn_ends hl he hr hb hn,
    fun hr => ?_⟩
  obtain ⟨hfl, hnv⟩ := hwait (hw.flashReach.trans (s.pfwCounted_flashReach.trans hr))
  exact ⟨hfl.trans (State.pfwWarn_flash hl he hr), hnv⟩

/-! ## FLASHERR (R23) and LEAD (R28) -/

/-- While the second since the last FLASHERR lasts, none is raised. -/
theorem State.flashErr_waits {s : State} {a : Nat} (hr : s.flashReach = false) (ha : s.flashErrAt = some a)
    (h : s.sym < a + symSec) : s.flashErr = s := by
  have hany : s.flashErrAt.any (fun a => decide (s.sym < a + symSec)) = true := by
    rw [ha, Option.any_some]; exact decide_eq_true h
  rw [State.flashErr, if_neg (by simp [hr]), if_pos hany]

/-- Once it has passed, one is. -/
theorem State.flashErr_raised {s : State} (hr : s.flashReach = false)
    (h : ∀ a, s.flashErrAt = some a → a + symSec ≤ s.sym) :
    s.flashErr = ({ s with flashErrAt := some s.sym } : State).mark s.lead 7 0 0x003 0o777777777777 0 0 := by
  have hany : s.flashErrAt.any (fun a => decide (s.sym < a + symSec)) = false := by
    cases ha : s.flashErrAt with
    | none => rfl
    | some a => rw [Option.any_some]; exact decide_eq_false (Nat.not_lt.mpr (h a ha))
  rw [State.flashErr, if_neg (by simp [hr]), if_neg (by simp [hany])]

/-- The loss of the attestation key reaches SEC_BOOT and no other register (R563). -/
theorem State.akLost_effect (s : State) : RegEffect (fun q => q = aSecBoot) s s.akLost := by
  unfold State.akLost
  dsimp only
  have h1 : ∀ sec, RegEffect (fun q => q = aSecBoot) s { s with sec := sec } :=
    fun _ => ⟨fun _ _ => rfl, ⟨rfl, rfl, rfl, rfl, rfl, rfl, rfl⟩, rfl, rfl⟩
  split
  · exact h1 _
  · exact ((h1 _).trans (State.wr_effect _ aSecBoot _)).mono (fun _ h => h.elim id id)

/-- It reaches neither tiles nor waymarks, nor who has the lead. -/
theorem State.akLost_rest (s : State) :
    s.akLost.tiles = s.tiles ∧ s.akLost.marks = s.marks ∧ s.akLost.boot = s.boot := by
  unfold State.akLost
  dsimp only
  split <;> exact ⟨rfl, rfl, rfl⟩

/-- The lead role passes to the lowest healthy warden. -/
theorem State.leadFails_to {s : State} {d : Nat} (hd : d < 8) (hlead : s.healthy s.lead = false) (h : s.healthy d = true)
    (hlow : ∀ e, e < d → s.healthy e = false) : s.leadFails = s.leadTo d := by
  have hf : (List.range 8).find? (fun d => s.healthy d) = some d :=
    List.find?_range_eq_some.mpr ⟨h, List.mem_range.mpr hd, fun e he => by simp [hlow e he]⟩
  rw [State.leadFails, if_neg (by simp [hlead]), hf]

/-- What the passing of the role to another die leaves (R28). -/
theorem State.leadTo_spec {s : State} {d : Nat} (hd : d < 8) (hne : d ≠ s.lead) :
    ∃ k, (s.leadTo d).lead = d ∧ (s.leadTo d).rf aBoot 10 8 = d ∧ (s.leadTo d).marks = s.marks ++ [k] ∧
      k.code = 0x080 ∧ k.die = d ∧ k.d0 = wd s.lead ∧ k.d1 = wd d ∧
      RegsBut (fun a => a = aBoot ∨ a = aSecBoot) s (s.leadTo d) ∧ (s.leadTo d).tiles = s.tiles ∧ StoresKept s (s.leadTo d) := by
  rw [State.leadTo, if_neg hne]
  generalize hu : ({ s with boot := { s.boot with lead := d } } : State).wf aBoot 10 8 d = u
  have hreg : RegEffect (fun q => q = aBoot) s u := by
    rw [← hu]
    exact ⟨fun _ h => State.rd_wr_of_ne _ _ h, ⟨rfl, rfl, rfl, rfl, rfl, rfl, rfl⟩, rfl, rfl⟩
  have hboot : u.rf aBoot 10 8 = d := by
    rw [← hu, State.rf_wf_self _ _ _ (by decide)]; exact Nat.mod_eq_of_lt hd
  obtain ⟨hregs, hstores, -, -⟩ := hreg.trans u.akLost_effect
  obtain ⟨htiles, hmarks, hlead⟩ := u.akLost_rest
  have hself : u.akLost.rd aBoot = u.rd aBoot := u.akLost_effect.regs _ (by decide)
  refine ⟨⟨d, 0, 0, 0x080, wd s.lead, wd d, 0, u.akLost.tick, u.akLost.tickValid⟩,
    ?_, ?_, ?_, rfl, rfl, rfl, rfl, hregs, ?_, hstores⟩
  · exact (congrArg BootSt.lead hlead).trans (by rw [← hu]; rfl)
  · exact (congrArg (fun w => fld w 10 8) hself).trans hboot
  · exact congrArg (· ++ _) (hmarks.trans (by rw [← hu]; rfl))
  · exact htiles.trans (by rw [← hu]; rfl)

/-- Settles O55: the record that a flush writes, a failed program and an erase, a power-fail warning and its end, FLASHERR
and the passing of the lead. -/
theorem logbookFlash : Obligations.LogbookFlash := by
  intro s hs
  have hgo : ∀ f : State → State, live true s f = .next (s.keepQueue (f s)) := fun f => live_next hs rfl
  refine ⟨fun q hq hp hr hn hb hu => ⟨fun r hl => ?_, ?_⟩, fun k hp hr hn hk => ?_, fun hl he => ?_, ?_,
    fun hr => ⟨fun a ha h => ?_, fun h => ?_⟩,
    fun d hd hlead h hlow => ?_⟩
  · obtain ⟨h1, h2, h3, h4, h5, h6, h7⟩ := State.flush_one_spec hq hp hr hn hb hu hl
    exact ⟨_, hgo (State.flush · true), h1, h2, h3, h4, fun a ha => h5 a (by unfold State.recAt; omega), h6, h7⟩
  · refine ⟨_, hgo (State.flush · false), ?_⟩
    rw [State.flush_fails hq hp hr hn hb hu]
    exact s.flashFail_spec s.sect s.recAt
  · refine ⟨_, hgo (State.sectorErase · true), ?_⟩
    rw [State.sectorErase_ok hp hr hn hk]
    exact s.erase_spec (sectAt k) 65536
  · exact ⟨_, hgo (fun s => s.pfwWarn.ledgerWrite), State.pfw_spec hl he⟩
  · exact ⟨_, hgo (fun s => { s with pfwLow := false }), rfl, rfl, rfl, rfl, rfl, rfl, rfl, rfl, rfl, rfl⟩
  · refine (hgo State.flashErr).trans ?_
    rw [State.flashErr_waits hr ha h]; rfl
  · refine ⟨_, ⟨s.lead, 7, 0, 0x003, 0o777777777777, 0, 0, s.tick, s.tickValid⟩, hgo State.flashErr, ?_⟩
    rw [State.flashErr_raised hr h]
    exact ⟨rfl, rfl, rfl, rfl, rfl, rfl, rfl, rfl, rfl, rfl, rfl, rfl, rfl, rfl⟩
  · have hne : d ≠ s.lead := fun e => by rw [e, hlead] at h; exact absurd h (by decide)
    obtain ⟨k, hk⟩ := State.leadTo_spec hd hne
    refine ⟨_, k, hgo State.leadFails, ?_⟩
    rw [State.leadFails_to hd hlead h hlow]
    exact hk

end Sys2Proof.Machine
end

section
/-!
SUPPORT. The timing inputs: what a marker, a missing one and a message change.
-/
namespace Sys2Proof.Machine

/-! ## Fields -/

/-- A field put back as it stands changes nothing. -/
theorem putFld_fld {n : Nat} (w : BitVec n) (hi lo : Nat) : putFld w hi lo (fld w hi lo) = w := by
  apply BitVec.eq_of_getLsbD_eq
  intro i hi'
  rw [getLsbD_putFld]
  split
  next h =>
    have h1 : i - lo < hi + 1 - lo := by omega
    have h2 : lo + (i - lo) = i := by omega
    simp [testBit_fld, hi', h1, h2]
  next => rfl

/-- A counter that counts nothing keeps its register. -/
theorem State.rd_bump_zero (s : State) (k hi lo q : Nat) : (s.bump k hi lo 0).rd q = s.rd q := by
  have h0 : satAdd (hi + 1 - lo) (s.rf k hi lo) 0 = s.rf k hi lo := by
    have := fld_lt (s.rd k) hi lo
    simp only [satAdd, State.rf]; omega
  rw [State.rd_bump, h0, State.rf, putFld_fld]
  split
  next h => rw [h]
  next => rfl

/-! ## Timing inputs -/

/-- An input just set. -/
@[simp] theorem State.tm_setTm_self (s : State) (i : Nat) (x : TimIn) : (s.setTm i x).tm i = x := by
  unfold State.setTm State.tm; split <;> rfl

@[simp] theorem State.setTm_regs (s : State) (i : Nat) (x : TimIn) : (s.setTm i x).regs = s.regs := by
  unfold State.setTm; split <;> rfl
@[simp] theorem State.setTm_tick (s : State) (i : Nat) (x : TimIn) : (s.setTm i x).tick = s.tick := by
  unfold State.setTm; split <;> rfl
@[simp] theorem State.setTm_tiles (s : State) (i : Nat) (x : TimIn) : (s.setTm i x).tiles = s.tiles := by
  unfold State.setTm; split <;> rfl
@[simp] theorem State.setTm_out (s : State) (i : Nat) (x : TimIn) : (s.setTm i x).out = s.out := by
  unfold State.setTm; split <;> rfl

@[simp] theorem State.tm_wr (s : State) (k : Nat) (v : Word) (i : Nat) : (s.wr k v).tm i = s.tm i := rfl
@[simp] theorem State.rd_setTm (s : State) (i : Nat) (x : TimIn) (q : Nat) : (s.setTm i x).rd q = s.rd q := by
  rw [State.rd, State.setTm_regs]; rfl
@[simp] theorem State.rd_mark (s : State) (d k n c : Nat) (x y z : Word) (q : Nat) :
    (s.mark d k n c x y z).rd q = s.rd q := rfl

/-- The two fault counters are not PKG_TIM_STAT. -/
theorem aTimErr_ne_stat (i : Nat) : aTimErr i ≠ aTimStat := by unfold aTimErr aTimStat; omega

/-- Who supplies the milestones does not turn on a fault counter. -/
theorem State.supplies_codeErrs (s : State) (i n j : Nat) : (s.codeErrs i n).supplies j = s.supplies j := by
  have h : (s.codeErrs i n).rd aTimStat = s.rd aTimStat := s.rd_bump_of_ne (aTimErr_ne_stat i).symm
  unfold State.supplies State.flywheel State.active State.rb State.rf
  rw [h]

/-! ## What an expected position changes -/

@[simp] theorem State.supply_tick (s : State) (i : Nat) (b : Bool) : (s.supply i b).tick = s.tick := by
  unfold State.supply; simp [State.wb_eq]

@[simp] theorem State.loseInput_tick (s : State) (i : Nat) : (s.loseInput i).tick = s.tick := by
  unfold State.loseInput
  dsimp only
  split
  · split <;> simp [State.wb_eq, State.wf_eq]
  · simp [State.wb_eq, State.wf_eq]

/-- All that an expected position of an input can do: the input's own record, with the input lost or made eligible. -/
theorem State.inputTick_cases (s : State) (i : Nat) (filled bad : Bool) :
    ∃ x y, s.inputTick i filled bad = s.setTm i x ∨ s.inputTick i filled bad = (s.setTm i x).loseInput i ∨
      s.inputTick i filled bad = ((s.setTm i x).wb aTimStat i true).setTm i y := by
  unfold State.inputTick
  extract_lets x run missRun ended lacks faultRun x1 s1
  refine ⟨x1, { x1 with newly := true }, ?_⟩
  split
  · split
    · exact .inr (.inl rfl)
    · exact .inl rfl
  · split
    · exact .inr (.inr rfl)
    · exact .inl rfl

@[simp] theorem State.inputTick_tick (s : State) (i : Nat) (filled bad : Bool) : (s.inputTick i filled bad).tick = s.tick := by
  obtain ⟨x, y, h | h | h⟩ := s.inputTick_cases i filled bad <;> rw [h] <;> simp [State.wb_eq]

theorem State.supply_regs (s : State) (i : Nat) (b : Bool) : RegsBut (fun q => q = aTimStat) s (s.supply i b) := by
  intro q h
  unfold State.supply
  dsimp only
  rw [State.rd_setTm]
  exact (State.rd_wb_of_ne _ h).trans ((State.rd_wb_of_ne _ h).trans (State.rd_wb_of_ne _ h))

theorem State.loseInput_regs (s : State) (i : Nat) : RegsBut (fun q => q = aTimStat) s (s.loseInput i) := by
  intro q h
  unfold State.loseInput
  dsimp only
  split
  · split <;> simp [State.supply_regs _ _ _ q h, State.rd_wb_of_ne _ h, State.rd_wf_of_ne _ h]
  · simp [State.rd_wb_of_ne _ h, State.rd_wf_of_ne _ h]

/-- An expected position changes no register but PKG_TIM_STAT. -/
theorem State.inputTick_regs (s : State) (i : Nat) (filled bad : Bool) :
    RegsBut (fun q => q = aTimStat) s (s.inputTick i filled bad) := by
  intro q hq
  obtain ⟨x, y, h | h | h⟩ := s.inputTick_cases i filled bad <;> rw [h]
  · exact State.rd_setTm ..
  · exact (State.loseInput_regs _ _ q hq).trans (State.rd_setTm ..)
  · rw [State.rd_setTm, State.rd_wb_of_ne _ hq, State.rd_setTm]

/-- A correctly placed marker of an eligible input, with no fault in the tick that ends. -/
theorem State.inputTick_filled (s : State) (i : Nat) (he : s.elig i = true) (hx : (s.tm i).early = false) :
    s.inputTick i true false = s.setTm i { s.tm i with
      run := (s.tm i).run + 1, missRun := 0, faultRun := if (s.tm i).marked then (s.tm i).faultRun else 0, fault := false,
      marked := false, early := false } := by
  unfold State.inputTick
  simp [he, hx]

/-! ## Markers -/

/-- A misplaced marker of an input that tracks or supplies: one more code error than those it came with, and what the tick
remembers of it (R45). -/
theorem State.markerAt_misplaced (s : State) (i : Nat) {pos errs : Nat} (off : Int)
    (h : (s.tm i).tracking = true ∨ s.supplies i = true) (hp : pos ≠ s.period) :
    ∃ x, s.markerAt i pos errs off = ((s.codeErrs i errs).codeErrs i 1).setTm i x := by
  have hno : ¬ ((!((s.codeErrs i errs).tm i).tracking && !(s.codeErrs i errs).supplies i) = true) := by
    rw [s.supplies_codeErrs, State.codeErrs, State.bump_eq, State.tm_wr]
    rcases h with h | h <;> simp [h]
  unfold State.markerAt
  extract_lets s1 x
  rw [if_neg hno, if_neg hp]
  exact ⟨_, rfl⟩

/-- A correctly placed marker with no code error: the input's expected position (R58). -/
theorem State.markerAt_placed (s : State) (i : Nat) (off : Int) (h : (s.tm i).tracking = true) :
    s.markerAt i s.period 0 off =
      ((s.codeErrs i 0).setTm i { s.tm i with tracking := true, off := off }).inputTick i true (s.tm i).fault := by
  have hx : (s.codeErrs i 0).tm i = s.tm i := rfl
  unfold State.markerAt
  extract_lets s1 x
  rw [if_neg (by simp [x, s1, hx, h]), if_pos rfl]
  rw [show (x.fault || decide ((0 : Nat) ≠ 0)) = (s.tm i).fault by simp [x, s1, hx]]
  rfl

/-- Two counts of a saturating field are one of their sum. -/
theorem satAdd_satAdd (w a b c : Nat) : satAdd w (satAdd w a b) c = satAdd w a (b + c) := by
  have := Nat.two_pow_pos w
  simp only [satAdd]; omega

/-- A misplaced marker counts once more than its code errors, and does nothing else that reaches a register. -/
theorem State.markerAt_misplaced_spec (s : State) (i : Nat) {pos errs : Nat} (off : Int)
    (h : (s.tm i).tracking = true ∨ s.supplies i = true) (hp : pos ≠ s.period) :
    (s.markerAt i pos errs off).rf (aTimErr i) 23 12 = min 4095 (s.rf (aTimErr i) 23 12 + errs + 1) ∧
      RegsBut (fun q => q = aTimErr i) s (s.markerAt i pos errs off) ∧ (s.markerAt i pos errs off).tick = s.tick ∧
      (s.markerAt i pos errs off).tiles = s.tiles ∧ (s.markerAt i pos errs off).out = s.out := by
  obtain ⟨x, hx⟩ := s.markerAt_misplaced i (errs := errs) off h hp
  have hcode (u : State) (n : Nat) : (u.codeErrs i n).rf (aTimErr i) 23 12 = satAdd 12 (u.rf (aTimErr i) 23 12) n :=
    u.rf_bump_self _ _ (by decide)
  rw [hx]
  refine ⟨?_, fun q hq => ?_, State.setTm_tick .., State.setTm_tiles .., State.setTm_out ..⟩
  · rw [State.rf, State.rd_setTm, ← State.rf, hcode, hcode, satAdd_satAdd]
    simp only [satAdd]; omega
  · exact (State.rd_setTm ..).trans ((State.rd_bump_of_ne _ hq).trans (State.rd_bump_of_ne _ hq))

/-- A correctly placed marker of an eligible input in a tick without a fault lengthens its run and changes no register. -/
theorem State.markerAt_placed_spec (s : State) (i : Nat) (off : Int) (ht : (s.tm i).tracking = true)
    (hf : (s.tm i).fault = false) (hx : (s.tm i).early = false) (he : s.elig i = true) :
    ((s.markerAt i s.period 0 off).tm i).run = (s.tm i).run + 1 ∧ ((s.markerAt i s.period 0 off).tm i).missRun = 0 ∧
      ((s.markerAt i s.period 0 off).tm i).tracking = true ∧ (∀ q, (s.markerAt i s.period 0 off).rd q = s.rd q) ∧
      (s.markerAt i s.period 0 off).tick = s.tick := by
  have he' : ((s.codeErrs i 0).setTm i { s.tm i with tracking := true, off := off }).elig i = true := by
    rw [State.elig, State.rb, State.rd_setTm, State.codeErrs, State.rd_bump_zero]; exact he
  rw [s.markerAt_placed i off ht, hf, State.inputTick_filled _ i he' (by simpa using hx)]
  refine ⟨?_, ?_, ?_, fun q => ?_, ?_⟩
  · simp
  · simp
  · simp
  · rw [State.rd_setTm, State.rd_setTm, State.codeErrs, State.rd_bump_zero]
  · simp [State.codeErrs, State.bump_eq]

/-- An expected position without a marker counts in MISS of an input that supplies or tracks, and leaves the tick (R58). -/
theorem State.missAt_spec (s : State) (i errs : Nat) :
    (s.missAt i errs).tick = s.tick ∧ (s.missAt i errs).rf (aTimErr i) 11 0 =
      if (s.tm i).tracking = true ∨ s.supplies i = true then min 4095 (s.rf (aTimErr i) 11 0 + 1)
      else s.rf (aTimErr i) 11 0 := by
  have hmiss : (s.codeErrs i errs).rf (aTimErr i) 11 0 = s.rf (aTimErr i) 11 0 := by
    rw [State.codeErrs, State.rf, State.rd_bump, if_pos rfl, fld_putFld_apart _ _ (by decide)]; rfl
  have hc : (((s.codeErrs i errs).tm i).tracking || (s.codeErrs i errs).supplies i) =
      ((s.tm i).tracking || s.supplies i) := by rw [s.supplies_codeErrs]; rfl
  have hbump := (s.codeErrs i errs).rf_bump_one (aTimErr i) (hi := 11) (lo := 0) (by decide)
  unfold State.missAt
  extract_lets s1 x
  rw [hc]
  split
  next h =>
    rw [if_pos (by simpa using h)]
    refine ⟨State.inputTick_tick .., ?_⟩
    rw [State.rf, State.inputTick_regs _ _ _ _ _ (aTimErr_ne_stat i), ← State.rf, hbump, hmiss]; rfl
  next h =>
    rw [if_neg (by simpa using h)]
    exact ⟨rfl, hmiss⟩

/-- Settles O6: a misplaced marker, a correctly placed one, and a missing one. -/
theorem markersCounted : Obligations.MarkersCounted := by
  have hok {i : Nat} (hi : i < 2) : inpOk i = true := decide_eq_true hi
  exact ⟨⟨fun s i pos errs off hs hi ht hp =>
      ⟨_, live_next (f := (State.markerAt · i pos errs off)) hs (hok hi), s.markerAt_misplaced_spec i off ht hp⟩,
    fun s i off hs hi ht hf he hel =>
      ⟨_, live_next (f := (State.markerAt · i s.period 0 off)) hs (hok hi), s.markerAt_placed_spec i off ht hf he hel⟩⟩,
    fun s i errs hs hi => ⟨_, live_next (f := (State.missAt · i errs)) hs (hok hi), s.missAt_spec i errs⟩⟩

/-- Settles O9: the request that an accepted ACCEPT makes. -/
theorem acceptReachesReadout : Obligations.AcceptReachesReadout := by
  intro s i l pl hs hi hl ha
  refine ⟨_, live_next (f := (State.message · i l true)) hs (decide_eq_true hi), ?_⟩
  have h : s.message i l true = s.acceptMsg pl := by simp [State.message, hl, ha]
  simp only [h]
  exact ⟨rfl, rfl, rfl⟩

end Sys2Proof.Machine
end

section
/-!
SUPPORT. A single-word read of region 0 or 1 that takes its turn at once.
-/
namespace Sys2Proof.Machine

/-- A read that takes its turn at once: beats counted, the word read, the response recorded, the units on the links crossed,
the answer. -/
theorem State.doRead_alone {s u : State} {m addr : Nat} {w : Word} (hm : s.isMaster m = true) (ha : Alone addr s)
    (h8 : addr / 0x1_0000_0000 % 16 < 8) (hr : (s.setOut m addr).busRead m addr = (u, 0, w)) :
    s.doRead m addr = (u.xrCross (s.turnTaken m addr) m addr 0 1).answer m 0 [w] := by
  have hx : (s.turnTaken m addr).xrRead m addr = (u.xrCross (s.turnTaken m addr) m addr 0 1, 0, w) := by
    rw [State.xrRead, ← State.setOut, hr]
    rfl
  rw [State.doRead, State.issue_alone _ _ _ hm ha h8, ← State.turnTaken]
  unfold State.perform State.transact
  simp [hx]

/-- A served read of a register of region 0 or 1 that its master has: u is what the read leaves, v the word. -/
theorem State.doRead_reg {s u : State} {m addr k : Nat} {b : Block} {r : RegSpec} {v : Word} (hm : masterOk m = true)
    (ha : addr < 0x2_0000_0000) (hs : Served m addr s) (hr : regAt m addr = some (b, r, k))
    (hv : (s.setOut m addr).regView m addr b r k = (u, v)) :
    s.doRead m addr = (u.xrCross (s.turnTaken m addr) m addr 0 1).answer m 0 [v] := by
  have hreach := State.regReach_setOut hm hs
  obtain ⟨⟨-, him, -⟩, hal⟩ := hs
  refine State.doRead_alone him hal (by omega) ?_
  rw [State.busRead, if_pos (by omega), Nat.mod_eq_of_lt (by omega), State.regRead, hreach, hr]
  simp [hv]

/-- A write of PKG_TIM_CNTCLR reaches the fault counters (R72). -/
theorem State.clearErrs_effect (s : State) (w : Word) :
    RegEffect (fun q => q = aTimErr 0 ∨ q = aTimErr 1) s (s.clearErrs w) := by
  have hwr (u : State) (i : Nat) : RegEffect (fun q => q = aTimErr i) u (if bitOf w i then u.wr (aTimErr i) 0 else u) := by
    split
    · exact u.wr_effect ..
    · exact ⟨fun _ _ => rfl, ⟨rfl, rfl, rfl, rfl, rfl, rfl, rfl⟩, rfl, rfl⟩
  exact (hwr s 0).trans (hwr _ 1)

/-- It clears those of each input whose bit is 1. -/
theorem State.clearErrs_rd (s : State) (w : Word) {i : Nat} (hi : i < 2) :
    (s.clearErrs w).rd (aTimErr i) = if bitOf w i then 0 else s.rd (aTimErr i) := by
  have h01 : aTimErr 0 ≠ aTimErr 1 := by decide
  unfold State.clearErrs
  dsimp only
  obtain rfl | rfl : i = 0 ∨ i = 1 := by omega
  · cases bitOf w 0 <;> cases bitOf w 1 <;> simp [State.rd_wr, h01]
  · cases bitOf w 0 <;> cases bitOf w 1 <;> simp [State.rd_wr, h01.symm]

theorem State.clearErrs_tiles (s : State) (w : Word) : (s.clearErrs w).tiles = s.tiles := by
  unfold State.clearErrs
  dsimp only
  split <;> split <;> rfl

/-- The view of PKG_TIM_TICK0 is a read of the tick that latches its high bits. -/
theorem State.regView_tick0 (s : State) (m : Nat) (r : RegSpec) (k : Nat) :
    s.regView m 0x43 .pkg r k = s.readTick0 m := by
  have hb : blockOf 0x43 = some (.pkg, 0x43) := rfl
  simp [State.regView, hb]

/-- A served read of PKG_TIM_TICK0 (R71). -/
theorem tick0_read {s : State} {m : Nat} (hm : masterOk m = true) (hs : Served m 0x43 s) :
    ∃ t, exec (.tick0Read m) s = .next t ∧ t.rd (aMine m 0x44) = wd (s.tick.toNat / 2 ^ 36) ∧
      RegsOnly m (fun q => q = aMine m 0x44) [wd s.tick.toNat] s t := by
  obtain ⟨r, hr⟩ : ∃ r, regAt m 0x43 = some (.pkg, r, 0x43) := ⟨_, rfl⟩
  have hheld : s.held = false := by obtain ⟨⟨h, -⟩, -⟩ := hs; exact h
  have hv : (s.setOut m 0x43).regView m 0x43 .pkg r 0x43 =
      ((s.setOut m 0x43).wr (aMine m 0x44) (wd (s.tick.toNat / 2 ^ 36)), wd s.tick.toNat) := by
    rw [State.regView_tick0, State.readTick0, State.tick_setOut]
  refine ⟨_, live_next (f := (State.doRead · m 0x43)) hheld hm, ?_⟩
  rw [State.doRead_reg hm (by decide) hs hr hv]
  have k := State.answeredAs s ((s.setOut m 0x43).wr (aMine m 0x44) (wd (s.tick.toNat / 2 ^ 36))) (s.turnTaken m 0x43) m
    0x43 0 1 0 [wd s.tick.toNat]
  have he := ((s.setOut_effect m 0x43).trans (State.wr_effect _ (aMine m 0x44) (wd (s.tick.toNat / 2 ^ 36)))).mono
    (fun _ h => h.symm)
  exact ⟨(k.rd _).trans (State.rd_wr_self ..), RegEffect.regsOnly he
    ((State.wr_tiles ..).trans (s.setOut_tiles m 0x43)) k⟩

/-- A permitted write of PKG_TIM_CNTCLR (R72). -/
theorem cntclr_write {s : State} {m : Nat} (w : Word) (hm : masterOk m = true) (hp : Permitted m 0x47 s) :
    ∃ t, exec (.pkgTimCntclr m w) s = .next t ∧
      (∀ i, i < 2 → t.rd (aTimErr i) = if bitOf w i then 0 else s.rd (aTimErr i)) ∧
      RegsOnly m (fun q => q = aTimErr 0 ∨ q = aTimErr 1) [] s t := by
  obtain ⟨r, hr⟩ : ∃ r, regAt m 0x47 = some (.pkg, r, 0x47) := ⟨_, rfl⟩
  have hpm : r.perMaster = false := by cases hr; rfl
  have hput : (s.setOut m 0x47).regPut m 0x47 .pkg r 0x47 w = (s.setOut m 0x47).clearErrs w := rfl
  refine ⟨_, live_next (f := (State.doWrite · m 0x47 w)) hp.outOfReset hm, ?_⟩
  rw [State.doWrite_reg w hm (by decide) hp hr hpm (s1 := s.turnTaken m 0x47) rfl, ← State.setOut, hput]
  have k := State.answeredAs s ((s.setOut m 0x47).clearErrs w) (s.turnTaken m 0x47) m 0x47 1 0 0 []
  refine ⟨fun i hi => ?_, RegEffect.regsOnly
    (((s.setOut_effect m 0x47).trans (State.clearErrs_effect _ w)).mono (fun _ h => h.symm))
    ((State.clearErrs_tiles ..).trans (s.setOut_tiles m 0x47)) k⟩
  have hne : aTimErr i ≠ aToll m := ne_aToll_low (by unfold aTimErr; omega)
  rw [k.rd, State.clearErrs_rd _ w hi, (s.setOut_effect m 0x47).regs _ hne]

/-- Settles O10: the latch of the high bits, and the counters cleared. -/
theorem tickReadAndCounterClear : Obligations.TickReadAndCounterClear :=
  ⟨fun _ _ hm hs => tick0_read hm hs, fun _ _ w hm hp => cntclr_write w hm hp⟩

end Sys2Proof.Machine
end

section
/-!
SUPPORT. Reset values: a register whose fields lie apart reads each field's reset value, and every table of the part is of
such registers.
-/
namespace Sys2Proof.Machine

/-! ## Fields that lie apart -/

/-- The fields of a register lie apart and within the word, and each reset value fits its field. -/
def RegSpec.fieldsFit (r : RegSpec) : Bool :=
  decide (r.fields.Pairwise (fun f g => f.hi < g.lo ∨ g.hi < f.lo)) &&
    r.fields.all (fun f => decide (f.hi < 36 ∧ (f.ixr = 0 → f.rst < 2 ^ (f.hi + 1 - f.lo))))

/-- A field reads as before when fields apart from it are put. -/
theorem fld_putAll_apart (v : Field → Nat) {hi lo : Nat} {l : List Field} (h : ∀ g ∈ l, hi < g.lo ∨ g.hi < lo) (w : Word) :
    fld (l.foldl (fun w g => putFld w g.hi g.lo (v g)) w) hi lo = fld w hi lo := by
  induction l generalizing w with
  | nil => rfl
  | cons g l ih =>
    rw [List.foldl_cons, ih (fun x hx => h x (List.mem_cons_of_mem _ hx)),
      fld_putFld_apart _ _ (h g List.mem_cons_self)]

/-- A field of several that lie apart reads the low bits of what is put into it. -/
theorem fld_putAll (v : Field → Nat) {l : List Field} (hl : l.Pairwise (fun f g => f.hi < g.lo ∨ g.hi < f.lo)) {f : Field}
    (hf : f ∈ l) (h36 : f.hi < 36) (w : Word) :
    fld (l.foldl (fun w g => putFld w g.hi g.lo (v g)) w) f.hi f.lo = v f % 2 ^ (f.hi + 1 - f.lo) := by
  induction l generalizing w with
  | nil => cases hf
  | cons g l ih =>
    obtain ⟨hg, hl⟩ := List.pairwise_cons.1 hl
    rw [List.foldl_cons]
    rcases List.mem_cons.1 hf with rfl | hf
    · rw [fld_putAll_apart v (fun x hx => hg x hx), fld_putFld_self _ _ h36]
    · exact ih hl hf _

/-- A field whose reset value is the same for every index holds it in the register's reset value. -/
theorem RegSpec.fld_reset {r : RegSpec} (h : r.fieldsFit = true) (i : Nat) {f : Field} (hf : f ∈ r.fields) (h0 : f.ixr = 0) :
    fld (r.reset i) f.hi f.lo = f.rst := by
  simp only [RegSpec.fieldsFit, Bool.and_eq_true, List.all_eq_true, decide_eq_true_eq] at h
  obtain ⟨hl, hfit⟩ := h
  obtain ⟨h36, hrst⟩ := hfit f hf
  rw [RegSpec.reset, fld_putAll (fun f => f.rst + f.ixr * i) hl hf h36, h0, Nat.zero_mul, Nat.add_zero,
    Nat.mod_eq_of_lt (hrst h0)]

/-! ## The tables -/

/-- The tables of the part are of such registers. -/
theorem Block.regs_fieldsFit (b : Block) : b.regs.all RegSpec.fieldsFit = true := by cases b <;> decide +kernel

/-- Only the security, ownership and logbook blocks have registers of which each master has its own. -/
theorem Block.regs_shared (b : Block) (h : b ≠ .sec ∧ b ≠ .own ∧ b ≠ .log) :
    b.regs.all (fun r => !r.perMaster) = true := by
  obtain ⟨hs, ho, hl⟩ := h
  cases b
  case sec => exact absurd rfl hs
  case own => exact absurd rfl ho
  case log => exact absurd rfl hl
  all_goals decide +kernel

/-- A register that is found is one of the table. -/
theorem mem_of_findReg {l : List RegSpec} {o i : Nat} {r : RegSpec} (h : findReg l o = some (r, i)) : r ∈ l := by
  obtain ⟨x, hx, e⟩ := List.exists_of_findSome?_eq_some h
  split at e
  · cases e
  · obtain ⟨j, -, e⟩ := Option.map_eq_some_iff.1 e
    cases e; exact hx

/-- A field of a register of a block, in the block's word after reset. -/
theorem Block.fld_resetAt {b : Block} {o i : Nat} {r : RegSpec} (h : findReg b.regs o = some (r, i)) {f : Field}
    (hf : f ∈ r.fields) (h0 : f.ixr = 0) : fld (b.resetAt o) f.hi f.lo = f.rst := by
  rw [Block.resetAt, h]
  exact RegSpec.fld_reset (List.all_eq_true.1 b.regs_fieldsFit r (mem_of_findReg h)) i hf h0

/-- Addresses with a block end where region 1 does. -/
theorem lt_of_blockOf {a : Nat} {x : Block × Nat} (h : blockOf a = some x) : a < 0x2_0000_0000 := by
  by_contra hlt
  unfold blockOf at h
  rw [if_neg (by omega), if_neg (by omega), if_neg (by omega), if_neg (by omega), if_neg (by omega), if_neg (by omega),
    if_neg hlt] at h
  cases h

/-- Those of the security, ownership and logbook blocks are in region 0. -/
theorem lt_of_blockOf_package {a o : Nat} {b : Block} (h : blockOf a = some (b, o)) (hb : b = .sec ∨ b = .own ∨ b = .log) :
    a < 0x1_0000_0000 := by
  by_contra hlt
  unfold blockOf at h
  rw [if_neg (by omega), if_neg (by omega), if_neg (by omega), if_neg (by omega), if_neg (by omega), if_neg hlt] at h
  dsimp only at h
  repeat' split at h
  all_goals cases h
  all_goals simp at hb

/-- The word that a master finds at an address reads, where nothing is listed, the reset value of its block's word. -/
theorem regReset_of_regAt {m a k : Nat} {b : Block} {r : RegSpec} (h : regAt m a = some (b, r, k)) :
    ∃ o i, findReg b.regs o = some (r, i) ∧ regReset k = b.resetAt o := by
  unfold regAt at h
  split at h
  next => cases h
  next b' o hb =>
  split at h
  next => cases h
  next r' i hr =>
  obtain ⟨k', hk, e⟩ := Option.map_eq_some_iff.1 h
  cases e
  refine ⟨o, i, hr, ?_⟩
  have ha := lt_of_blockOf hb
  unfold ownKey at hk
  split at hk
  next =>
    cases hk
    rw [regReset, if_neg (by omega), hb]
  next hper =>
    have hpkg : b = .sec ∨ b = .own ∨ b = .log := by
      by_contra hno
      rw [not_or, not_or] at hno
      have := List.all_eq_true.1 (b.regs_shared hno) r (mem_of_findReg hr)
      exact hper this
    have ha := lt_of_blockOf_package hb hpkg
    have hmod : aMine m a % 0x1_0000_0000 = a := by unfold aMine; omega
    obtain ⟨-, hk⟩ := Option.ite_none_right_eq_some.1 hk
    cases hk
    rw [regReset, if_pos (by unfold aMine; omega), hmod, hb]

/-- The PORST_N edge of a part in reset. -/
theorem exec_porstNRise_held {s : State} (h : s.held = true) : exec .porstNRise s = .next (s.keepQueue s.powerUp) := by
  rw [exec_porstNRise, if_pos h]

/-- After the edge at a part that has just been powered up, the flywheel generates the milestones (R60). -/
theorem porst_flywheel : (State.reset.keepQueue State.reset.powerUp).flywheel = true ∧
    (State.reset.keepQueue State.reset.powerUp).tickValid = false ∧
    (State.reset.keepQueue State.reset.powerUp).tick = 0 ∧ (State.reset.keepQueue State.reset.powerUp).pending = [] := by
  decide +kernel

/-- A part whose queue is empty names nothing that it does not have. -/
theorem State.queueOk_of_empty {s : State} (h : s.pending = []) : s.queueOk := by
  intro i hi; rw [h] at hi; cases hi

/-- What the obligation names of the registers after power-up (Tables 2.4, 2.6, 14.14). -/
theorem reset_words : State.reset.rf 0 15 0 = 0x8512 ∧ State.reset.tickValid = false ∧ State.reset.period = 8 ∧
    State.reset.steward = 7 := by decide +kernel

/-- Settles O5: the tables are of registers whose fields lie apart, so that each field holds its reset value. -/
theorem resetState : Obligations.ResetState := by
  obtain ⟨hid, hval, hper, hstew⟩ := reset_words
  obtain ⟨hfly, hvalid, htick, hpend⟩ := porst_flywheel
  refine ⟨State.queueOk_of_empty rfl, rfl, rfl, rfl, rfl, rfl, hid, hval, hper, hstew,
    fun p => Tile.sk_p0 _, fun m a b r k _ hr f hf h0 => ?_, fun d p o i r hr f hf h0 => ?_,
    _, exec_porstNRise_held rfl, hfly, hvalid, htick, State.queueOk_of_empty hpend⟩
  · obtain ⟨o, i, hreg, hreset⟩ := regReset_of_regAt hr
    rw [State.rf, show State.reset.rd k = regReset k from rfl, hreset]
    exact Block.fld_resetAt hreg hf h0
  · exact Block.fld_resetAt (b := .tile) hr hf h0

end Sys2Proof.Machine
end

section
/-!
SUPPORT. Accesses to a stack: what they leave outside it, what a read of clean granules answers, and what a run of words
leaves in the granules.
-/
namespace Sys2Proof.Machine

/-! ## What an access to a stack leaves -/

/-- A word of the DRAM block of die d that the stack's accesses write: counts, findings and the flip mask (Table 12.7). -/
def stackWord (d q : Nat) : Prop := aDram d 0x0C ≤ q ∧ q ≤ aDram d 0x14

/-- From s to t nothing changed but stacks, waymarks and the words of die d that a stack's accesses write. -/
structure StackOnly (d : Nat) (s t : State) : Prop where
  links : t.links = s.links
  dies : t.dies = s.dies
  tiles : t.tiles = s.tiles
  regs : RegsBut (stackWord d) s t

namespace StackOnly
variable {d : Nat} {s t u : State}

theorem refl (d : Nat) (s : State) : StackOnly d s s := ⟨rfl, rfl, rfl, fun _ _ => rfl⟩

theorem trans (h : StackOnly d s t) (k : StackOnly d t u) : StackOnly d s u :=
  ⟨k.links.trans h.links, k.dies.trans h.dies, k.tiles.trans h.tiles, fun q hq => (k.regs q hq).trans (h.regs q hq)⟩

/-- Writing one of the words. -/
theorem wr (h : StackOnly d s t) (o : Nat) (v : Word) (ho : 0x0C ≤ o ∧ o ≤ 0x14) : StackOnly d s (t.wr (aDram d o) v) := by
  refine ⟨h.links, h.dies, h.tiles, fun q hq => (State.rd_wr_of_ne t v ?_).trans (h.regs q hq)⟩
  rintro rfl
  exact hq (by unfold stackWord aDram aDie; omega)

/-- Changing a stack. -/
theorem onStack (h : StackOnly d s t) (e : Nat) (f : Stack → Stack) : StackOnly d s (t.onStack e f) :=
  ⟨h.links, h.dies, h.tiles, h.regs⟩

/-- Raising a waymark. -/
theorem mark (h : StackOnly d s t) (e kd ix c : Nat) (x y z : Word) : StackOnly d s (t.mark e kd ix c x y z) :=
  ⟨h.links, h.dies, h.tiles, h.regs⟩

end StackOnly

theorem State.dput_only (s : State) (d k : Nat) (g : Gran) : StackOnly d s (s.dput d k g) := by
  unfold State.dput
  extract_lets sel hit mask g1 s1
  have h1 : StackOnly d s s1 := (StackOnly.refl d s).onStack d _
  clear_value s1
  split
  · exact (((h1.wr 0x11 _ (by decide)).wr 0x12 _ (by decide)).wr 0x13 _ (by decide)).wr 0x14 _ (by decide)
  · exact h1

theorem State.dfound_only (s : State) (d : Nat) (c : Cls3) (fn k syn : Nat) : StackOnly d s (s.dfound d c fn k syn) := by
  unfold State.dfound
  extract_lets cls s1 row
  have h1 : StackOnly d s s1 := ((StackOnly.refl d s).wr 0x0D _ (by decide)).wr 0x0E _ (by decide)
  clear_value s1
  cases c
  case corrected => exact (h1.wr 0x0C _ (by decide)).onStack d _
  case uncorrectable => exact ((h1.wr 0x0C _ (by decide)).onStack d _).mark ..
  case clean => exact h1
  case poisoned => exact h1

theorem State.dread_only (s : State) (d fn k : Nat) : StackOnly d s (s.dread d fn k).1 := by
  unfold State.dread
  dsimp only
  generalize eccClass false ((s.stack d).gr k) = x
  obtain ⟨c, x⟩ := x
  have h1 := s.dfound_only d c fn k (eccSyn ((s.stack d).gr k))
  cases c <;> dsimp only at h1 ⊢
  · exact StackOnly.refl d s
  · exact h1.onStack d _
  · exact h1
  · exact h1.trans (State.dput_only ..)

theorem State.dmerge_only (s : State) (d fn k : Nat) (mask x : BitVec 72) : StackOnly d s (s.dmerge d fn k mask x) := by
  unfold State.dmerge
  split
  · exact s.dput_only ..
  · dsimp only
    split
    · exact s.dread_only ..
    · exact (s.dread_only ..).trans (State.dput_only ..)

theorem State.dwords_only (d fn p : Nat) : ∀ (l : List Word) (s : State) (w : Nat), StackOnly d s (s.dwords d fn p w l)
  | [], s, _ => by rw [State.dwords]; exact StackOnly.refl d s
  | [a], s, w => by
    unfold State.dwords
    split
    · exact s.dmerge_only ..
    · exact (s.dmerge_only ..).trans (State.dwords_only d fn p [] _ _)
  | a :: b :: r, s, w => by
    unfold State.dwords
    split
    · exact (s.dput_only ..).trans (State.dwords_only d fn p r _ _)
    · exact (s.dmerge_only ..).trans (State.dwords_only d fn p (b :: r) _ _)

theorem State.dreads_only (d fn p : Nat) : ∀ (m : Nat) (s : State) (w : Nat), StackOnly d s (s.dreads d fn p w m).1
  | 0, s, _ => by rw [State.dreads]; exact StackOnly.refl d s
  | 1, s, w => by rw [State.dreads]; exact s.dread_only ..
  | m + 2, s, w => by
    rw [State.dreads]
    split
    · exact (s.dread_only ..).trans (State.dreads_only d fn p m _ _)
    · exact (s.dread_only ..).trans (State.dreads_only d fn p (m + 1) _ _)

theorem State.takeSlots_only (s : State) (d e row k : Nat) : StackOnly d s (s.takeSlots e row k) :=
  (StackOnly.refl d s).onStack e _

/-! ## Reads of clean granules -/

/-- A clean granule is read without any effect. -/
theorem State.dread_clean {s : State} {d k : Nat} (fn : Nat) {x : BitVec 72}
    (h : eccClass false ((s.stack d).gr k) = (.clean, x)) : s.dread d fn k = (s, x, false) := by
  unfold State.dread
  simp [h]

/-- The word of a granule's half. -/
theorem granWord_mod (x : BitVec 72) (w : Nat) : granWord x w = granWord x (w % 2) := by simp [granWord]

/-- Words of clean granules are read without any effect: f gives the data of each granule of the parcel run. -/
theorem State.dreads_clean {s : State} {d p : Nat} (fn : Nat) {f : Nat → BitVec 72} : ∀ (m w : Nat),
    (∀ i, i < m → eccClass false ((s.stack d).gr (4 * p + (w + i) / 2)) = (.clean, f ((w + i) / 2))) →
    s.dreads d fn p w m = (s, (List.range m).map (fun i => granWord (f ((w + i) / 2)) (w + i)), false)
  | 0, w, _ => rfl
  | 1, w, h => by
    have h0 : s.dread d fn (4 * p + w / 2) = (s, f (w / 2), false) := State.dread_clean fn (h 0 (by omega))
    rw [State.dreads]
    simp [State.dword, h0]
  | m + 2, w, h => by
    have h0 : s.dread d fn (4 * p + w / 2) = (s, f (w / 2), false) := State.dread_clean fn (h 0 (by omega))
    have hshift (k : Nat) (i : Nat) : w + k + i = w + (k + i) := by omega
    rw [State.dreads]
    by_cases hw : w % 2 = 0
    · have ih := State.dreads_clean fn (f := f) m (w + 2) (fun i hi => by rw [hshift]; exact h _ (by omega))
      have h1 : (w + 1) / 2 = w / 2 := by omega
      have h2 : (w + 1) % 2 = 1 := by omega
      simp only [if_pos hw, h0, ih, List.range_succ_eq_map, List.map_cons, List.map_map, hshift]
      simp [Function.comp_def, granWord_mod _ w, granWord_mod _ (w + 1), hw, h1, h2, Nat.add_comm 2]
    · have ih := State.dreads_clean fn (f := f) (m + 1) (w + 1) (fun i hi => by rw [hshift]; exact h _ (by omega))
      simp only [if_neg hw, State.dword, h0, ih, List.range_succ_eq_map (n := m + 1), List.map_cons, List.map_map, hshift]
      simp [Function.comp_def, Nat.add_comm 1]

/-! ## Runs of words written -/

/-- With no flip mask armed, a granule stored on a stack is the one change. -/
theorem State.dput_plain {s : State} {d : Nat} (k : Nat) (g : Gran) (h : s.rb (aDram d 0x14) 35 = false) :
    (s.dput d k g).regs = s.regs ∧ ((s.dput d k g).stack d).gr k = g ∧
      ∀ j, j ≠ k → ((s.dput d k g).stack d).gr j = (s.stack d).gr j := by
  have hit : bitOf (s.rd (aDram d 0x14)) 35 = false := h
  unfold State.dput
  simp only [hit, Bool.false_and, Bool.false_eq_true, if_false, State.stack_onStack_self]
  exact ⟨rfl, by simp [Stack.gr], fun j hj => by simp [Stack.gr, SMap.get_set_of_ne _ _ _ hj]⟩

/-- The mask stays unarmed. -/
theorem State.dput_unarmed {s : State} {d : Nat} (k : Nat) (g : Gran) (h : s.rb (aDram d 0x14) 35 = false) :
    (s.dput d k g).rb (aDram d 0x14) 35 = false := by
  obtain ⟨hr, -⟩ := State.dput_plain k g h
  rw [State.rb, State.rd, hr]; exact h

/-- The mask of a word is not that of a granule. -/
theorem wordMask_ne (i : Nat) : wordMask i ≠ BitVec.allOnes 72 := by
  unfold wordMask; split <;> decide +kernel

/-- Only stacks decide what a stack reads. -/
theorem State.stack_congr {s t : State} (h : t.drams = s.drams) (d : Nat) : t.stack d = s.stack d := by
  rw [State.stack, h]; rfl

/-- A granule stored on a stack leaves the others. -/
theorem State.gr_dput_of_ne (s : State) (d : Nat) {j k : Nat} (g : Gran) (h : j ≠ k) :
    ((s.dput d k g).stack d).gr j = (s.stack d).gr j := by
  unfold State.dput
  extract_lets sel hit mask g1 s1
  have h1 : (s1.stack d).gr j = (s.stack d).gr j := by
    simp [s1, Stack.gr, SMap.get_set_of_ne _ _ _ h]
  clear_value s1
  split
  · rw [State.wf_eq, State.stack_of_wr, State.stack_of_wr, State.stack_of_wr, State.stack_of_wr, h1]
  · exact h1

/-- A finding on a stack leaves its granules. -/
theorem State.gr_dfound (s : State) (d : Nat) (c : Cls3) (fn k syn j : Nat) :
    ((s.dfound d c fn k syn).stack d).gr j = (s.stack d).gr j := by
  unfold State.dfound
  extract_lets cls s1 row
  have h1 : (s1.stack d).gr j = (s.stack d).gr j := by simp [s1]
  clear_value s1
  have hbump (hi lo : Nat) : ((s1.bump (aDram d 0x0C) hi lo 1).stack d).gr j = (s.stack d).gr j := by
    rw [State.bump_eq, State.stack_of_wr, h1]
  cases c <;> dsimp only
  · exact h1
  · rw [State.stack_onStack_self]; exact hbump 17 0
  · exact h1
  · rw [State.stack_of_mark, State.stack_onStack_self]; exact hbump 35 18

/-- A granule read leaves the others. -/
theorem State.gr_dread_of_ne (s : State) (d fn : Nat) {j k : Nat} (h : j ≠ k) :
    ((s.dread d fn k).1.stack d).gr j = (s.stack d).gr j := by
  unfold State.dread
  dsimp only
  generalize eccClass false ((s.stack d).gr k) = x
  obtain ⟨c, x⟩ := x
  have h1 := s.gr_dfound d c fn k (eccSyn ((s.stack d).gr k)) j
  cases c <;> dsimp only at h1 ⊢
  · rw [State.stack_onStack_self]; exact h1
  · exact h1
  · rw [State.gr_dput_of_ne _ _ _ h]; exact h1

/-- A granule written under a mask leaves the others. -/
theorem State.gr_dmerge_of_ne (s : State) (d fn : Nat) {j k : Nat} (mask x : BitVec 72) (h : j ≠ k) :
    ((s.dmerge d fn k mask x).stack d).gr j = (s.stack d).gr j := by
  unfold State.dmerge
  split
  · exact s.gr_dput_of_ne d _ h
  · dsimp only
    split
    · exact s.gr_dread_of_ne d fn h
    · exact (State.gr_dput_of_ne _ d _ h).trans (s.gr_dread_of_ne d fn h)

/-- Whole granules of a run of words written from an even word on, and the granules before them; a w is word w of the run. -/
theorem State.dwords_gran {d p : Nat} (fn : Nat) {a : Nat → Word} : ∀ (l : List Word) (s : State) (w : Nat), w % 2 = 0 →
    s.rb (aDram d 0x14) 35 = false → (∀ i (h : i < l.length), l[i] = a (w + i)) →
    (∀ k, w ≤ 2 * k → 2 * k + 1 < w + l.length → ((s.dwords d fn p w l).stack d).gr (4 * p + k) =
      eccEncode (wordBits 0 (a (2 * k)) ||| wordBits 1 (a (2 * k + 1)))) ∧
    ∀ k, k < 4 * p + w / 2 → ((s.dwords d fn p w l).stack d).gr k = (s.stack d).gr k
  | [], s, w, _, _, _ => by
    rw [State.dwords]
    exact ⟨fun k h1 h2 => absurd h2 (by simp; omega), fun _ _ => rfl⟩
  | [x], s, w, hw, hf, _ => by
    rw [State.dwords, if_pos hw]
    refine ⟨fun k h1 h2 => absurd h2 (by simp; omega), fun k hk => ?_⟩
    exact s.gr_dmerge_of_ne d fn _ _ (by omega)
  | x :: y :: r, s, w, hw, hf, hl => by
    obtain ⟨hregs, hself, hother⟩ := State.dput_plain (4 * p + w / 2) (eccEncode (wordBits 0 x ||| wordBits 1 y)) hf
    have hx : x = a w := hl 0 (by simp)
    have hy : y = a (w + 1) := hl 1 (by simp)
    obtain ⟨ih1, ih2⟩ := State.dwords_gran fn r (s.dwrite d (4 * p + w / 2) (wordBits 0 x ||| wordBits 1 y)) (w + 2)
      (by omega) (State.dput_unarmed _ _ hf)
      (fun i h => (hl (i + 2) (by simp; omega)).trans (congrArg a (by omega)))
    unfold State.dwords
    rw [if_pos hw]
    refine ⟨fun k h1 h2 => ?_, fun k hk => ?_⟩
    · by_cases hk : w + 2 ≤ 2 * k
      · exact ih1 k hk (by simp at h2; omega)
      · have hk : 2 * k = w := by omega
        have e : 4 * p + k = 4 * p + w / 2 := by omega
        rw [ih2 _ (by omega), e, hk, ← hx, ← hy]
        exact hself
    · rw [ih2 k (by omega)]
      exact hother k (by omega)

end Sys2Proof.Machine
end

section
/-!
SUPPORT. A slot closes: what its frame is built from, and what is left of the slot; a slot or a waiting write goes to the
delay area.
-/
namespace Sys2Proof.Machine

/-! ## A slot read back for its close -/

/-- A slot that does not lie in the delay area, or was lost there, is read as it stands. -/
theorem State.slotBack_near {s : State} {n : Nat} {T : Tick}
    (h : ∀ y, s.slotAt n T = some y → y.inDelay = false ∨ y.lost = true) : s.slotBack n T = (s, s.slotAt n T) := by
  unfold State.slotBack
  cases hy : s.slotAt n T with
  | none => rfl
  | some y => rcases h y hy with h | h <;> simp [h]

/-- A list paired with its indices. -/
theorem zip_range_map {α : Type} (f : Nat → α) (m : Nat) :
    (List.range ((List.range m).map f).length).zip ((List.range m).map f) = (List.range m).map (fun i => (i, f i)) := by
  apply List.ext_getElem <;> simp

/-- A slot in the delay area whose granules are clean, with no write that waits, is read back from them (R464). -/
theorem State.slotBack_delayed {s : State} {n : Nat} {T : Tick} {y : Slot} {g : Nat → BitVec 72}
    (hy : s.slotAt n T = some y) (hd : y.inDelay = true) (hl : y.lost = false) (hg : s.DelayClean n T g)
    (hw : s.waiting n T = []) : (s.slotBack n T).2 = some
      { y with words := (List.range (s.linkW n)).map (fun i => (i, granWord (g ((1 + i) / 2)) (1 + i))) } := by
  have hread := State.dreads_clean (s := s.takeSlots (n / 64) 4 (s.delaySlots n)) (d := n / 64) (p := s.delayPlace n T) 4
    (f := g) (s.linkW n) 1 (fun i hi => by
      rw [State.takeSlots, State.stack_onStack_self]
      exact hg (1 + i) (by omega))
  unfold State.slotBack
  simp only [hy, hd, hl, hw, hread, Bool.not_false, Bool.and_self, if_true, List.foldl_nil, zip_range_map]

/-- The writes that wait for a slot are forgotten at the island, and that alone. -/
theorem State.waitingGone_links (s : State) (n : Nat) (T : Tick) : (s.waitingGone n T).links = s.links := rfl

/-- Reading a slot back leaves links and tiles, and of the registers all but the words of its die's stack. -/
theorem State.slotBack_kept (s : State) (n : Nat) (T : Tick) : (s.slotBack n T).1.links = s.links ∧
    (s.slotBack n T).1.tiles = s.tiles ∧ RegsBut (stackWord (n / 64)) s (s.slotBack n T).1 := by
  unfold State.slotBack
  cases s.slotAt n T with
  | none => exact ⟨rfl, rfl, fun _ _ => rfl⟩
  | some y =>
    dsimp only
    split
    · obtain ⟨hlinks, -, htiles, hregs⟩ := (s.takeSlots_only (n / 64) (n / 64) 4 (s.delaySlots n)).trans
        (State.dreads_only (n / 64) 4 (s.delayPlace n T) (s.linkW n) _ 1)
      exact ⟨hlinks, htiles, hregs⟩
    · exact ⟨rfl, rfl, fun _ _ => rfl⟩

/-! ## A frame is built -/

/-- The link after a frame has been built: the slot is gone, and the frame waits behind those built before. -/
theorem State.link_build (s : State) (n : Nat) (m T : Tick) (ep : Nat) (defs : List Word) :
    (s.build n m T ep defs).link n = { s.link n with
      slots := (s.link n).slots.filter (fun (y : Slot) => y.tick != T),
      built := (s.link n).built ++ [slotFrame m T (s.linkW n) ep defs (s.slotBack n T).2] } := by
  obtain ⟨hlinks, -⟩ := s.slotBack_kept n T
  have hl : ((s.slotBack n T).1.waitingGone n T).link n = s.link n := State.link_congr hlinks n
  unfold State.build State.slotGone
  dsimp only
  rw [State.link_onLink_self, State.link_onLink_self, hl]

/-- A slot that goes takes its waiting writes along, and nothing else. -/
theorem State.slotGone_tiles (s : State) (n : Nat) (T : Tick) : (s.slotGone n T).tiles = s.tiles := by
  rw [State.slotGone, State.onLink_tiles, State.waitingGone, State.onDie_tiles]
theorem State.slotGone_regs (s : State) (n : Nat) (T : Tick) : (s.slotGone n T).regs = s.regs := by
  rw [State.slotGone, State.onLink_regs, State.waitingGone, State.onDie_regs]
theorem State.rd_slotGone (s : State) (n : Nat) (T : Tick) (q : Nat) : (s.slotGone n T).rd q = s.rd q := by
  rw [State.rd, State.slotGone_regs, ← State.rd]

/-- Building a frame reaches no tile. -/
theorem State.build_tiles (s : State) (n : Nat) (m T : Tick) (ep : Nat) (defs : List Word) :
    (s.build n m T ep defs).tiles = s.tiles := by
  obtain ⟨-, htiles, -⟩ := s.slotBack_kept n T
  unfold State.build
  dsimp only
  rw [State.onLink_tiles, State.slotGone_tiles, htiles]

/-- Of the registers it reaches at most the words of the die's stack. -/
theorem State.build_regs (s : State) (n : Nat) (m T : Tick) (ep : Nat) (defs : List Word) :
    RegsBut (stackWord (n / 64)) s (s.build n m T ep defs) := by
  intro q hq
  obtain ⟨-, -, hregs⟩ := s.slotBack_kept n T
  unfold State.build
  dsimp only
  rw [State.rd_of_onLink, State.rd_slotGone, hregs q hq]

/-- None for a slot outside the delay area. -/
theorem State.build_regs_near {s : State} {n : Nat} {T : Tick} (m : Tick) (ep : Nat) (defs : List Word)
    (h : ∀ y, s.slotAt n T = some y → y.inDelay = false ∨ y.lost = true) : (s.build n m T ep defs).regs = s.regs := by
  unfold State.build
  dsimp only
  rw [State.onLink_regs, State.slotGone_regs, State.slotBack_near h]

/-- A link's block lies apart from the words of a stack. -/
theorem not_stackWord_aLink (n o d : Nat) (ho : o < 0x40) : ¬ stackWord d (aLink n o) := by
  unfold stackWord aDram aLink aDie; omega

/-- No slot of a tick is left where those of the tick have been dropped. -/
theorem find_filter_tick (l : List Slot) (T : Tick) (p : Slot → Bool) (hp : ∀ y : Slot, y.tick = T → p y = false) :
    (l.filter p).find? (fun (y : Slot) => y.tick = T) = none := by
  rw [List.find?_eq_none]
  intro y hy
  obtain ⟨-, hy⟩ := List.mem_filter.1 hy
  intro e
  rw [hp y (by simpa using e)] at hy
  exact absurd hy (by decide)

/-! ## The close of a milestone (R78, R429) -/

/-- The island has observed the milestone before m. -/
def State.observed (s : State) (n : Nat) : State := s.onLink n (fun y => { y with obs := (s.link n).obs + 1 })

/-- The tick of the new channel that is sent at milestone m, if one is. -/
def State.newDue (s : State) (n : Nat) (m : Tick) : Option Tick :=
  match s.chL n with
  | some l => if notEarlier (m - BitVec.ofNat 48 l) (s.link n).newFrom then some (m - BitVec.ofNat 48 l) else none
  | none => none

/-- The tick of the old channel that would be sent at milestone m, with its channel's epoch and default action, if one is. -/
def State.oldDue (s : State) (n : Nat) (m : Tick) : Option (Tick × Nat × List Word) :=
  match (s.link n).old with
  | some (l, fr, ep, defs) =>
    if laterTick (s.link n).newFrom (m - BitVec.ofNat 48 l) && notEarlier (m - BitVec.ofNat 48 l) fr then
      some (m - BitVec.ofNat 48 l, ep, defs)
    else none
  | none => none

theorem State.newDue_some {s : State} {n l : Nat} {m : Tick} (hl : s.chL n = some l)
    (h : notEarlier (m - BitVec.ofNat 48 l) (s.link n).newFrom = true) :
    s.newDue n m = some (m - BitVec.ofNat 48 l) := by simp [State.newDue, hl, h]

theorem State.newDue_none {s : State} {n : Nat} {m : Tick}
    (h : ∀ l, s.chL n = some l → notEarlier (m - BitVec.ofNat 48 l) (s.link n).newFrom = false) : s.newDue n m = none := by
  unfold State.newDue
  cases hl : s.chL n with
  | none => rfl
  | some l => simp [h l hl]

theorem State.oldDue_some {s : State} {n lo ep : Nat} {m fr : Tick} {defs : List Word}
    (h : (s.link n).old = some (lo, fr, ep, defs)) (h1 : laterTick (s.link n).newFrom (m - BitVec.ofNat 48 lo) = true)
    (h2 : notEarlier (m - BitVec.ofNat 48 lo) fr = true) : s.oldDue n m = some (m - BitVec.ofNat 48 lo, ep, defs) := by
  simp [State.oldDue, h, h1, h2]

theorem State.oldDue_none {s : State} {n : Nat} {m : Tick} (h : (s.link n).old = none) : s.oldDue n m = none := by
  simp [State.oldDue, h]

/-- In the gap of a swap no tick of the old channel falls on the milestone. -/
theorem State.oldDue_gap {s : State} {n lo ep : Nat} {m fr : Tick} {defs : List Word}
    (h : (s.link n).old = some (lo, fr, ep, defs)) (h1 : laterTick (s.link n).newFrom (m - BitVec.ofNat 48 lo) = false) :
    s.oldDue n m = none := by simp [State.oldDue, h, h1]

/-- The frame of a tick of the new channel. -/
def State.newBuilt (s : State) (n : Nat) (m T : Tick) : State :=
  (s.observed n).build n m T (s.newEpoch n) (s.txDefs n)

/-- A tick of the new channel alone: its frame is built, and the swap, if one was in progress, is over. -/
theorem State.closeAt_new {s : State} {n : Nat} {m T : Tick} (hm : m = (s.link n).obs + 1 + 1) (hn : s.newDue n m = some T)
    (ho : s.oldDue n m = none) :
    s.closeAt n ((s.link n).obs + 1) = (s.newBuilt n m T).onLink n (fun y => { y with old := none }) := by
  subst hm
  unfold State.closeAt
  extract_lets x s0 m1 newT oldT
  rw [show newT = _ from hn, show oldT = _ from ho]
  rfl

/-- A tick of each channel: the new channel's is built, the old one's is dropped and counted. -/
theorem State.closeAt_both {s : State} {n ep : Nat} {m T T2 : Tick} {defs : List Word} (hm : m = (s.link n).obs + 1 + 1)
    (hn : s.newDue n m = some T) (ho : s.oldDue n m = some (T2, ep, defs)) :
    s.closeAt n ((s.link n).obs + 1) = ((s.newBuilt n m T).bump (aLink n 0x0F) 35 18 1).slotGone n T2 := by
  subst hm
  unfold State.closeAt
  extract_lets x s0 m1 newT oldT
  rw [show newT = _ from hn, show oldT = _ from ho]
  rfl

/-- A tick of the old channel alone is built from that channel's epoch and default action. -/
theorem State.closeAt_old {s : State} {n ep : Nat} {m T : Tick} {defs : List Word} (hm : m = (s.link n).obs + 1 + 1)
    (hn : s.newDue n m = none) (ho : s.oldDue n m = some (T, ep, defs)) :
    s.closeAt n ((s.link n).obs + 1) = (s.observed n).build n m T ep defs := by
  subst hm
  unfold State.closeAt
  extract_lets x s0 m1 newT oldT
  rw [show newT = _ from hn, show oldT = _ from ho]
  rfl

/-- Outside a swap, with no tick to send, the milestone is observed and that is all. -/
theorem State.closeAt_none {s : State} {n : Nat} {m : Tick} (hm : m = (s.link n).obs + 1 + 1) (hn : s.newDue n m = none)
    (ho : (s.link n).old = none) : s.closeAt n ((s.link n).obs + 1) = s.observed n := by
  subst hm
  have hod : s.oldDue n ((s.link n).obs + 1 + 1) = none := State.oldDue_none ho
  unfold State.closeAt
  extract_lets x s0 m1 newT oldT
  rw [show newT = _ from hn, show oldT = _ from hod, show x.old = none from ho]
  rfl

/-- In the gap of a swap a default frame is built and counted. -/
theorem State.closeAt_gap {s : State} {n lo ep l : Nat} {m fr : Tick} {defs : List Word} (hm : m = (s.link n).obs + 1 + 1)
    (hn : s.newDue n m = none) (ho : (s.link n).old = some (lo, fr, ep, defs)) (hl : s.chL n = some l)
    (h1 : laterTick (s.link n).newFrom (m - BitVec.ofNat 48 lo) = false) :
    s.closeAt n ((s.link n).obs + 1) = ((s.observed n).bump (aLink n 0x0F) 17 0 1).onLink n (fun y =>
      { y with built := y.built ++
        [⟨m, m - BitVec.ofNat 48 l, egFlags 1 4 (s.newEpoch n), defWords (s.linkW n) (s.txDefs n)⟩] }) := by
  have hod : s.oldDue n m = none := State.oldDue_gap ho h1
  subst hm
  unfold State.closeAt
  extract_lets x s0 m1 newT oldT
  rw [show newT = _ from hn, show oldT = _ from hod, show x.old = _ from ho, hl]
  exact if_neg (by rw [h1]; decide)

/-! ## What a close comes to -/

/-- SLOT_CLOSE with no milestone to observe changes nothing. -/
theorem exec_slotClose_idle {s : State} {n : Nat} (hs : s.held = false) (hn : n < 512)
    (h : laterTick s.tick (s.link n).obs = false) : exec (.slotClose n) s = .next s := by
  refine (live_next (f := (State.slotClose · n)) hs (decide_eq_true hn)).trans ?_
  rw [State.slotClose, if_neg (by simp [h])]
  rfl

/-- Otherwise the island observes the oldest one that it has not observed. -/
theorem exec_slotClose {s : State} {n : Nat} (hs : s.held = false) (hn : n < 512)
    (h : laterTick s.tick (s.link n).obs = true) :
    exec (.slotClose n) s = .next (s.keepQueue (s.closeAt n ((s.link n).obs + 1))) := by
  refine (live_next (f := (State.slotClose · n)) hs (decide_eq_true hn)).trans ?_
  rw [State.slotClose, if_pos h]

/-- Observing a milestone leaves the slots. -/
theorem State.slotAt_observed (s : State) (n : Nat) (T : Tick) : (s.observed n).slotAt n T = s.slotAt n T := by
  rw [State.slotAt, State.observed, State.link_onLink_self]; rfl

/-- A frame keeps the milestone and the tick that it is built for. -/
theorem slotFrame_at (m T : Tick) (w ep : Nat) (defs : List Word) (x : Option Slot) :
    (slotFrame m T w ep defs x).at_ = m ∧ (slotFrame m T w ep defs x).tick = T := by
  unfold slotFrame
  repeat' split
  all_goals exact ⟨rfl, rfl⟩

/-- The frame of tick T of the new channel. -/
def State.newFrame (s : State) (n : Nat) (m T : Tick) : Frame :=
  slotFrame m T (s.linkW n) (s.newEpoch n) (s.txDefs n) ((s.observed n).slotBack n T).2

/-- A slot outside the delay area gives its frame as it stands. -/
theorem State.newFrame_near {s : State} {n : Nat} {T : Tick} (m : Tick)
    (h : ∀ y, s.slotAt n T = some y → y.inDelay = false ∨ y.lost = true) :
    s.newFrame n m T = slotFrame m T (s.linkW n) (s.newEpoch n) (s.txDefs n) (s.slotAt n T) := by
  rw [State.newFrame, State.slotBack_near (by rwa [State.slotAt_observed]), State.slotAt_observed]

/-- One in the delay area gives it with the words there (R464). -/
theorem State.newFrame_delayed {s : State} {n : Nat} {T : Tick} {y : Slot} {g : Nat → BitVec 72} (m : Tick)
    (hy : s.slotAt n T = some y) (hd : y.inDelay = true) (hl : y.lost = false) (hg : s.DelayClean n T g)
    (hw : s.waiting n T = []) :
    s.newFrame n m T = slotFrame m T (s.linkW n) (s.newEpoch n) (s.txDefs n) (some
      { y with words := (List.range (s.linkW n)).map (fun i => (i, granWord (g ((1 + i) / 2)) (1 + i))) }) := by
  have hb := State.slotBack_delayed (s := s.observed n) ((s.slotAt_observed n T).trans hy) hd hl hg hw
  rw [State.newFrame, hb]
  rfl

/-- The link once the frame of the new channel's tick is built. -/
theorem State.link_newBuilt (s : State) (n : Nat) (m T : Tick) : (s.newBuilt n m T).link n = { s.link n with
    obs := (s.link n).obs + 1, slots := (s.link n).slots.filter (fun (y : Slot) => y.tick != T),
    built := (s.link n).built ++ [s.newFrame n m T] } := by
  have hl : (s.observed n).link n = { s.link n with obs := (s.link n).obs + 1 } := State.link_onLink_self ..
  rw [State.newBuilt, State.link_build, hl]
  rfl

/-- The counter of dropped ticks, where no slot of the delay area is read and where one is. -/
theorem State.rd_newBuilt (s : State) (n : Nat) (m T : Tick) : (s.newBuilt n m T).rd (aLink n 0x0F) = s.rd (aLink n 0x0F) :=
  State.build_regs (s.observed n) n m T _ _ _ (not_stackWord_aLink n 0x0F _ (by decide))

/-- For a slot outside the delay area no register changes. -/
theorem State.newBuilt_regs {s : State} {n : Nat} {T : Tick} (m : Tick)
    (h : ∀ y, s.slotAt n T = some y → y.inDelay = false ∨ y.lost = true) : (s.newBuilt n m T).regs = s.regs :=
  State.build_regs_near (s := s.observed n) m _ _ (by rwa [State.slotAt_observed])

/-- A dropped tick's slot is gone. -/
theorem State.slotAt_slotGone (s : State) (n : Nat) (T : Tick) : (s.slotGone n T).slotAt n T = none := by
  rw [State.slotAt, State.slotGone, State.link_onLink_self]
  exact find_filter_tick _ T _ (fun y h => by simp [h])

/-- The first clause: a tick of the new channel closes. -/
theorem State.closeAt_new_spec {s : State} {n : Nat} {m T : Tick} (hm : m = (s.link n).obs + 1 + 1)
    (hn : s.newDue n m = some T) {t : State} (ht : t = s.closeAt n ((s.link n).obs + 1)) :
    (t.link n).obs = (s.link n).obs + 1 ∧ t.tiles = s.tiles ∧ (t.link n).built = (s.link n).built ++ [s.newFrame n m T] ∧
      t.slotAt n T = none ∧
      ((s.link n).old = none → (t.link n).slots = (s.link n).slots.filter (fun (y : Slot) => y.tick != T)) ∧
      ((∀ y, s.slotAt n T = some y → y.inDelay = false ∨ y.lost = true) →
        RegsBut (fun q => (s.link n).old ≠ none ∧ q = aLink n 0x0F) s t) ∧
      ∀ T2 ep defs, s.oldDue n m = some (T2, ep, defs) → t.slotAt n T2 = none ∧
        t.rf (aLink n 0x0F) 35 18 = min (2 ^ 18 - 1) (s.rf (aLink n 0x0F) 35 18 + 1) := by
  have hl := s.link_newBuilt n m T
  have htiles : (s.newBuilt n m T).tiles = s.tiles := State.build_tiles (s.observed n) n m T _ _
  cases ho : s.oldDue n m with
  | none =>
    rw [State.closeAt_new hm hn ho] at ht
    have hlink : t.link n = { (s.newBuilt n m T).link n with old := none } := by rw [ht, State.link_onLink_self]
    rw [hl] at hlink
    refine ⟨by rw [hlink], by rw [ht]; exact htiles, by rw [hlink], ?_, fun _ => by rw [hlink], fun h q _ => ?_,
      fun _ _ _ h => absurd h (by simp)⟩
    · rw [State.slotAt, hlink]
      exact find_filter_tick _ T _ (fun y h => by simp [h])
    · rw [ht, State.rd, State.onLink_regs, State.newBuilt_regs m h]; rfl
  | some x =>
    obtain ⟨T2, ep, defs⟩ := x
    rw [State.closeAt_both hm hn ho] at ht
    have hold : (s.link n).old ≠ none := fun h => by simp [State.oldDue_none h] at ho
    have hlink : t.link n = { (s.newBuilt n m T).link n with
        slots := ((s.newBuilt n m T).link n).slots.filter (fun (y : Slot) => y.tick != T2) } := by
      rw [ht, State.slotGone, State.link_onLink_self]; rfl
    rw [hl] at hlink
    refine ⟨by rw [hlink], by rw [ht, State.slotGone_tiles, State.bump_eq, State.wr_tiles, htiles], by rw [hlink], ?_,
      fun h => absurd h hold, fun h q hq => ?_,
      fun _ _ _ e => ?_⟩
    · rw [State.slotAt, hlink]
      dsimp only
      rw [List.filter_filter]
      exact find_filter_tick _ T _ (fun y h => by simp [h])
    · rw [ht, State.rd_slotGone, State.rd_bump_of_ne _ (fun e => hq ⟨hold, e⟩), State.rd, State.newBuilt_regs m h]; rfl
    · cases e
      refine ⟨ht ▸ State.slotAt_slotGone _ n T2, ?_⟩
      rw [ht, State.rf, State.rd_slotGone, ← State.rf, State.rf_bump_one _ _ (by decide), State.rf, s.rd_newBuilt n m T]
      rfl

/-- The second clause: a tick of the old channel alone, its slot outside the delay area. -/
theorem State.closeAt_old_spec {s : State} {n ep : Nat} {m T : Tick} {defs : List Word} (hm : m = (s.link n).obs + 1 + 1)
    (hn : s.newDue n m = none) (ho : s.oldDue n m = some (T, ep, defs))
    (hnear : ∀ y, s.slotAt n T = some y → y.inDelay = false ∨ y.lost = true) {t : State}
    (ht : t = s.closeAt n ((s.link n).obs + 1)) :
    (t.link n).obs = (s.link n).obs + 1 ∧ t.tiles = s.tiles ∧ t.regs = s.regs ∧
      (t.link n).slots = (s.link n).slots.filter (fun (y : Slot) => y.tick != T) ∧
      (t.link n).built = (s.link n).built ++ [slotFrame m T (s.linkW n) ep defs (s.slotAt n T)] := by
  rw [← s.slotAt_observed n] at hnear
  have hl : (s.observed n).link n = { s.link n with obs := (s.link n).obs + 1 } := State.link_onLink_self ..
  have hlink : t.link n = { s.link n with
      obs := (s.link n).obs + 1
      slots := (s.link n).slots.filter (fun (y : Slot) => y.tick != T)
      built := (s.link n).built ++ [slotFrame m T (s.linkW n) ep defs (s.slotAt n T)] } := by
    rw [ht, State.closeAt_old hm hn ho, State.link_build, hl, State.slotBack_near hnear, State.slotAt_observed]
    rfl
  refine ⟨by rw [hlink], ?_, ?_, by rw [hlink], by rw [hlink]⟩ <;> rw [ht, State.closeAt_old hm hn ho]
  · exact (State.build_tiles ..).trans (State.onLink_tiles ..)
  · exact (State.build_regs_near m ep defs hnear).trans (State.onLink_regs ..)

/-- The third clause: no tick to send, outside a swap. -/
theorem State.closeAt_none_spec {s : State} {n : Nat} {m : Tick} (hm : m = (s.link n).obs + 1 + 1)
    (hn : s.newDue n m = none) (ho : (s.link n).old = none) {t : State} (ht : t = s.closeAt n ((s.link n).obs + 1)) :
    (t.link n).obs = (s.link n).obs + 1 ∧ t.tiles = s.tiles ∧ t.regs = s.regs ∧ (t.link n).slots = (s.link n).slots ∧
      (t.link n).built = (s.link n).built := by
  have hlink : t.link n = { s.link n with obs := (s.link n).obs + 1 } := by
    rw [ht, State.closeAt_none hm hn ho, State.observed, State.link_onLink_self]
  refine ⟨by rw [hlink], ?_, ?_, by rw [hlink], by rw [hlink]⟩ <;> rw [ht, State.closeAt_none hm hn ho] <;> rfl

/-- The fourth clause: the gap of a swap. -/
theorem State.closeAt_gap_spec {s : State} {n lo ep l : Nat} {m fr : Tick} {defs : List Word}
    (hm : m = (s.link n).obs + 1 + 1) (hn : s.newDue n m = none) (ho : (s.link n).old = some (lo, fr, ep, defs))
    (hl : s.chL n = some l) (h1 : laterTick (s.link n).newFrom (m - BitVec.ofNat 48 lo) = false) {t : State}
    (ht : t = s.closeAt n ((s.link n).obs + 1)) :
    (t.link n).obs = (s.link n).obs + 1 ∧ t.tiles = s.tiles ∧ (t.link n).slots = (s.link n).slots ∧
      (t.link n).built = (s.link n).built ++ [⟨m, m - BitVec.ofNat 48 l, egFlags 1 4 (s.newEpoch n),
        defWords (s.linkW n) (s.txDefs n)⟩] ∧
      t.rf (aLink n 0x0F) 17 0 = min (2 ^ 18 - 1) (s.rf (aLink n 0x0F) 17 0 + 1) ∧
      RegsBut (fun q => q = aLink n 0x0F) s t := by
  rw [State.closeAt_gap hm hn ho hl h1] at ht
  have hlink : t.link n = { s.link n with obs := (s.link n).obs + 1, built := (s.link n).built ++
      [⟨m, m - BitVec.ofNat 48 l, egFlags 1 4 (s.newEpoch n), defWords (s.linkW n) (s.txDefs n)⟩] } := by
    rw [ht, State.link_onLink_self, State.bump_eq, State.link_of_wr, State.observed, State.link_onLink_self]
  have hrd (q : Nat) : t.rd q = ((s.observed n).bump (aLink n 0x0F) 17 0 1).rd q := by rw [ht, State.rd_of_onLink]
  refine ⟨by rw [hlink], ?_, by rw [hlink], by rw [hlink], ?_, fun q hq => ?_⟩
  · rw [ht, State.onLink_tiles, State.bump_eq, State.wr_tiles, State.observed, State.onLink_tiles]
  · rw [State.rf, hrd, ← State.rf, State.rf_bump_one _ _ (by decide), State.observed, State.rf, State.rd_of_onLink]
    rfl
  · rw [hrd, State.rd_bump_of_ne _ hq, State.observed, State.rd_of_onLink]

/-! ## To the delay area (R464, R512, R517) -/

/-- The one slot of a tick is the slot that the link finds for it. -/
theorem State.slotAt_of_unique {s : State} {n : Nat} {p : Slot → Bool} {y : Slot} (h : (s.link n).slots.find? p = some y)
    (hu : ∀ z ∈ (s.link n).slots, z.tick = y.tick → z = y) : s.slotAt n y.tick = some y := by
  have hy := List.mem_of_find?_eq_some h
  rw [State.slotAt]
  cases hz : (s.link n).slots.find? (fun (z : Slot) => z.tick = y.tick) with
  | none => exact absurd (List.find?_eq_none.1 hz y hy) (by simp)
  | some z => rw [hu z (List.mem_of_find?_eq_some hz) (by simpa using List.find?_some hz)]

/-- Without the stack the slot is lost, and nothing else changes (R517). -/
theorem State.slotMove_lost {s : State} {n : Nat} {y : Slot} (hup : s.stackUp (n / 64) = false)
    (hy : s.slotAt n y.tick = some y) : (s.slotMove n y).regs = s.regs ∧ (s.slotMove n y).tiles = s.tiles ∧
      (s.slotMove n y).drams = s.drams ∧
      (s.slotMove n y).slotAt n y.tick = some { y with inDelay := true, lost := true, words := [] } := by
  have e : s.slotMove n y = s.onSlotOf n y.tick (fun z => { z with inDelay := true, lost := true, words := [] }) := by
    unfold State.slotMove
    exact if_neg (by simp [hup])
  rw [e]
  refine ⟨rfl, rfl, rfl, ?_⟩
  rw [State.slotAt_onSlotOf s n y.tick (f := fun z => { z with inDelay := true, lost := true, words := [] })
    (fun _ => rfl), hy]
  rfl

/-- The header and the words of a slot as they are written to the delay area. -/
def State.slotRun (s : State) (n : Nat) (y : Slot) : List Word :=
  wd (natB y.wrote + 2 * natB y.epx + 4 * natB y.complete) ::
    (List.range (s.linkW n)).map (fun i => SMap.get (fun _ => 0) y.words i)

/-- The stack as the run has been written to it. -/
def State.slotStored (s : State) (n : Nat) (y : Slot) : State :=
  (s.takeSlots (n / 64) 4 (s.delaySlots n)).dwords (n / 64) 4 (s.delayPlace n y.tick) 0 (s.slotRun n y)

theorem State.slotMove_stored {s : State} {n : Nat} {y : Slot} (hup : s.stackUp (n / 64) = true) :
    s.slotMove n y = (s.slotStored n y).onSlotOf n y.tick (fun z => { z with inDelay := true, words := [] }) := by
  unfold State.slotMove
  exact if_pos hup

/-- Writing it leaves links, dies and tiles. -/
theorem State.slotStored_only (s : State) (n : Nat) (y : Slot) : StackOnly (n / 64) s (s.slotStored n y) :=
  (s.takeSlots_only ..).trans (State.dwords_only ..)

/-- A slot that moves keeps its flags, and its words go (R464). -/
theorem State.slotMove_kept {s : State} {n : Nat} {y : Slot} (hup : s.stackUp (n / 64) = true)
    (hy : s.slotAt n y.tick = some y) : (s.slotMove n y).tiles = s.tiles ∧
      (s.slotMove n y).slotAt n y.tick = some { y with inDelay := true, words := [] } ∧
      RegsBut (stackWord (n / 64)) s (s.slotMove n y) := by
  have ho := s.slotStored_only n y
  have hs : (s.slotStored n y).slotAt n y.tick = some y := by
    rw [State.slotAt, State.link_congr ho.links]; exact hy
  rw [State.slotMove_stored hup]
  refine ⟨ho.tiles, ?_, ho.regs⟩
  rw [State.slotAt_onSlotOf _ n y.tick (f := fun z => { z with inDelay := true, words := [] }) (fun _ => rfl), hs]
  rfl

/-- Word i of the run: the header, then the words. -/
theorem State.slotRun_get {s : State} {n : Nat} {y : Slot} {a : Nat → Word}
    (ha : ∀ i, a i = if i = 0 then wd (natB y.wrote + 2 * natB y.epx + 4 * natB y.complete)
      else SMap.get (fun _ => 0) y.words (i - 1)) (i : Nat) (h : i < (s.slotRun n y).length) :
    (s.slotRun n y)[i] = a (0 + i) := by
  rw [Nat.zero_add, ha]
  cases i <;> simp [State.slotRun]

/-- With no flip mask armed, its granules stand in the stack at its place (R464). -/
theorem State.slotMove_gran {s : State} {n : Nat} {y : Slot} {a : Nat → Word} (hup : s.stackUp (n / 64) = true)
    (hf : s.rb (aDram (n / 64) 0x14) 35 = false)
    (ha : ∀ i, a i = if i = 0 then wd (natB y.wrote + 2 * natB y.epx + 4 * natB y.complete)
      else SMap.get (fun _ => 0) y.words (i - 1)) {k : Nat} (hk : 2 * k + 1 ≤ s.linkW n) :
    ((s.slotMove n y).stack (n / 64)).gr (4 * s.delayPlace n y.tick + k) =
      eccEncode (wordBits 0 (a (2 * k)) ||| wordBits 1 (a (2 * k + 1))) := by
  have hlen : (s.slotRun n y).length = s.linkW n + 1 := by simp [State.slotRun]
  rw [State.slotMove_stored hup]
  exact (State.dwords_gran 4 (s.slotRun n y) (s.takeSlots (n / 64) 4 (s.delaySlots n)) 0 rfl hf
    (State.slotRun_get ha)).1 k (Nat.zero_le _) (by omega)

/-- A word merged into a clean granule of a stack, with no flip mask armed, is the one change. -/
theorem State.dmerge_word {s : State} {d k : Nat} (fn i : Nat) (w : Word) {g : BitVec 72}
    (hf : s.rb (aDram d 0x14) 35 = false) (hg : eccClass false ((s.stack d).gr k) = (.clean, g)) :
    (s.dmerge d fn k (wordMask i) (wordBits i w)).regs = s.regs ∧
      ((s.dmerge d fn k (wordMask i) (wordBits i w)).stack d).gr k =
        eccEncode (mergeBits g (wordMask i) (wordBits i w)) := by
  have e : s.dmerge d fn k (wordMask i) (wordBits i w) =
      s.dput d k (eccEncode (mergeBits g (wordMask i) (wordBits i w))) := by
    rw [State.dmerge, if_neg (wordMask_ne i), State.dread_clean fn hg]
    rfl
  obtain ⟨hregs, hself, -⟩ := State.dput_plain k (eccEncode (mergeBits g (wordMask i) (wordBits i w))) hf
  rw [e]
  exact ⟨hregs, hself⟩

/-- The oldest write that waits for a slot of a link, merged into its granule. -/
def State.writeMerged (s : State) (n : Nat) (w : EgWrite) : State :=
  (s.takeSlots (n / 64) 4 2).dmerge (n / 64) 4 (4 * s.delayPlace n w.tick + (1 + w.idx) / 2) (wordMask (1 + w.idx))
    (wordBits (1 + w.idx) w.w)

/-- It is forgotten at the island then (R512). -/
theorem State.delayApply_some {s : State} {n : Nat} {w : EgWrite}
    (h : (s.die (n / 64)).delayed.find? (fun (x : EgWrite) => x.link == n) = some w) :
    s.delayApply n = if s.slotsFree (n / 64) 4 2 then
      (s.writeMerged n w).onDie (n / 64) (fun x => { x with delayed := x.delayed.erase w }) else s := by
  unfold State.delayApply
  simp only [h]
  rfl

/-- With no write that waits there is nothing to do. -/
theorem State.delayApply_none {s : State} {n : Nat}
    (h : (s.die (n / 64)).delayed.find? (fun (x : EgWrite) => x.link == n) = none) : s.delayApply n = s := by
  unfold State.delayApply
  simp only [h]

/-- What merging the oldest waiting write leaves (R512). -/
theorem State.writeMerged_spec (s : State) (n : Nat) (w : EgWrite) {t : State}
    (ht : t = (s.writeMerged n w).onDie (n / 64) (fun x => { x with delayed := x.delayed.erase w })) :
    t.tiles = s.tiles ∧ t.links = s.links ∧ (t.die (n / 64)).delayed = (s.die (n / 64)).delayed.erase w ∧
      ∀ g : BitVec 72, s.rb (aDram (n / 64) 0x14) 35 = false →
        eccClass false ((s.stack (n / 64)).gr (4 * s.delayPlace n w.tick + (1 + w.idx) / 2)) = (.clean, g) →
        t.regs = s.regs ∧ (t.stack (n / 64)).gr (4 * s.delayPlace n w.tick + (1 + w.idx) / 2) =
          eccEncode (mergeBits g (wordMask (1 + w.idx)) (wordBits (1 + w.idx) w.w)) := by
  have ho : StackOnly (n / 64) s (s.writeMerged n w) := (s.takeSlots_only ..).trans (State.dmerge_only ..)
  have hdie : (s.writeMerged n w).die (n / 64) = s.die (n / 64) := by rw [State.die, ho.dies]; rfl
  refine ⟨by rw [ht, State.onDie_tiles, ho.tiles], by rw [ht, State.onDie_links, ho.links], ?_, fun g hf hg => ?_⟩
  · rw [ht, State.die_onDie_self, hdie]
  · obtain ⟨hregs, hgran⟩ := State.dmerge_word (s := s.takeSlots (n / 64) 4 2) 4 (1 + w.idx) w.w hf
      (by rw [State.takeSlots, State.stack_onStack_self]; exact hg)
    exact ⟨by rw [ht]; exact hregs, by rw [ht, State.stack_of_onDie]; exact hgran⟩

/-- SLOT_TO_DELAY_AREA that finds a slot to move. -/
theorem exec_slotToDelay {s : State} {n : Nat} {y : Slot} (hs : s.held = false) (hn : n < 512)
    (h : (s.link n).slots.find? (fun (x : Slot) => !x.inDelay && s.delayDue n x.tick) = some y) :
    exec (.slotToDelayArea n) s = .next (s.keepQueue
      (if !(s.stackUp (n / 64)) || s.slotsFree (n / 64) 4 (s.delaySlots n) then s.slotMove n y else s)) := by
  refine (live_next (f := (State.toDelay · n)) hs (decide_eq_true hn)).trans ?_
  simp only [State.toDelay, h]

/-- One that finds none. -/
theorem exec_slotToDelay_none {s : State} {n : Nat} (hs : s.held = false) (hn : n < 512)
    (h : (s.link n).slots.find? (fun (x : Slot) => !x.inDelay && s.delayDue n x.tick) = none) :
    exec (.slotToDelayArea n) s = .next (s.keepQueue (s.delayApply n)) := by
  refine (live_next (f := (State.toDelay · n)) hs (decide_eq_true hn)).trans ?_
  simp only [State.toDelay, h]

/-- Settles O41: the close of a milestone in its cases, and the two things that SLOT_TO_DELAY_AREA can do. -/
theorem slotCloses : Obligations.SlotCloses := by
  refine ⟨fun s n m hs hn hm => ⟨exec_slotClose_idle hs hn, fun ht => ⟨fun l T hl hT hnew => ?_,
    fun lo ep fr T defs hold hT hlater hfr hno hnear => ?_, fun hold hno => ?_, fun lo ep l fr defs hold hl hno hgap => ?_⟩⟩,
    fun s n hs hn => ⟨fun y hfind hu => ⟨fun hup => ?_, fun hup hfree => ?_, fun hup hfree => ?_⟩,
      fun hfind => ⟨fun hw => ?_, fun w hw => ⟨fun hfree => ?_, fun hfree => ?_⟩⟩⟩⟩
  · have hdue : s.newDue n m = some T := hT ▸ State.newDue_some hl (hT ▸ hnew)
    obtain ⟨hobs, htiles, hbuilt, hslot, hslots, hregs, hboth⟩ := State.closeAt_new_spec hm hdue rfl
    obtain ⟨hat, htick⟩ := slotFrame_at m T (s.linkW n) (s.newEpoch n) (s.txDefs n) ((s.observed n).slotBack n T).2
    exact ⟨_, s.newFrame n m T, exec_slotClose hs hn ht, hobs, htiles, hbuilt, hat, htick, hslot, hslots,
      fun h => ⟨State.newFrame_near m h, hregs h⟩, fun y g hy hd hl hg hw => State.newFrame_delayed m hy hd hl hg hw,
      fun lo ep fr defs hold h1 h2 => hboth _ ep defs (State.oldDue_some hold h1 h2)⟩
  · subst hT
    exact ⟨_, exec_slotClose hs hn ht,
      State.closeAt_old_spec hm (State.newDue_none hno) (State.oldDue_some hold hlater hfr) hnear
        (t := s.closeAt n ((s.link n).obs + 1)) rfl⟩
  · exact ⟨_, exec_slotClose hs hn ht, State.closeAt_none_spec hm (State.newDue_none hno) hold
      (t := s.closeAt n ((s.link n).obs + 1)) rfl⟩
  · have hno' : s.newDue n m = none := State.newDue_none (fun l' h => by rw [hl] at h; cases h; exact hno)
    exact ⟨_, exec_slotClose hs hn ht, State.closeAt_gap_spec hm hno' hold hl hgap
      (t := s.closeAt n ((s.link n).obs + 1)) rfl⟩
  · obtain ⟨hregs, htiles, hdrams, hslot⟩ := State.slotMove_lost hup (State.slotAt_of_unique hfind hu)
    refine ⟨_, exec_slotToDelay hs hn hfind, ?_⟩
    rw [if_pos (by simp [hup])]
    exact ⟨hregs, htiles, hdrams, hslot⟩
  · rw [exec_slotToDelay hs hn hfind, if_neg (by simp [hup, hfree])]
    rfl
  · obtain ⟨htiles, hslot, hregs⟩ := State.slotMove_kept hup (State.slotAt_of_unique hfind hu)
    refine ⟨_, exec_slotToDelay hs hn hfind, ?_⟩
    rw [if_pos (by simp [hfree])]
    exact ⟨htiles, hslot, hregs, fun hf k a hk ha => State.slotMove_gran hup hf ha hk⟩
  · rw [exec_slotToDelay_none hs hn hfind, State.delayApply_none hw]
    rfl
  · rw [exec_slotToDelay_none hs hn hfind, State.delayApply_some hw, if_neg (by simp [hfree])]
    rfl
  · refine ⟨_, exec_slotToDelay_none hs hn hfind, ?_⟩
    rw [State.delayApply_some hw, if_pos hfree]
    exact s.writeMerged_spec n w (t := (s.writeMerged n w).onDie _ _) rfl

end Sys2Proof.Machine
end

section
/-!
SUPPORT. Deposits into a tile's exchange memory: a data-side write reaches its granule alone, and pairs of words stand there as
whole granules.
-/
namespace Sys2Proof.Machine

/-! ## One granule of exchange memory -/

/-- Exchange memory has one bank: the key of a granule does not turn on the tile. -/
theorem Tile.gkey_exchange (t : Tile) (j : Nat) : t.gkey 1 j = 0x4000 + j := by simp [Tile.gkey]

/-- Only the memories decide what a granule of exchange memory holds. -/
theorem Tile.gr_exchange_congr {t u : Tile} (h : u.gran = t.gran) (j : Nat) : u.gr 1 j = t.gr 1 j := by
  rw [Tile.gr, Tile.gr, Tile.gkey_exchange, Tile.gkey_exchange, h]

/-- From t to u no granule of exchange memory changed but that of index idx, and the flip mask is armed as it was. -/
structure ExchangeOnly (idx : Nat) (t u : Tile) : Prop where
  flip : u.ior 0x1B = t.ior 0x1B
  others : ∀ j, j ≠ idx → u.gr 1 j = t.gr 1 j

namespace ExchangeOnly
variable {idx : Nat} {t u v : Tile}

theorem refl (idx : Nat) (t : Tile) : ExchangeOnly idx t t := ⟨rfl, fun _ _ => rfl⟩

theorem trans (h : ExchangeOnly idx t u) (k : ExchangeOnly idx u v) : ExchangeOnly idx t v :=
  ⟨k.flip.trans h.flip, fun j hj => (k.others j hj).trans (h.others j hj)⟩

/-- Writing another register than that of the mask's target. -/
theorem iow (h : ExchangeOnly idx t u) (k : Nat) (w : Word) (hk : 0x1B ≠ k) : ExchangeOnly idx t (u.iow k w) :=
  ⟨by rw [Tile.ior_iow, if_neg hk, h.flip], fun j hj => (Tile.gr_exchange_congr (u.iow_gran k w) j).trans (h.others j hj)⟩

/-- Raising a waymark. -/
theorem mark (h : ExchangeOnly idx t u) (c : Nat) (x y z : Word) : ExchangeOnly idx t (u.mark c x y z) :=
  ⟨h.flip, h.others⟩

/-- No mask applies to exchange memory where none did. -/
theorem flipOn (h : ExchangeOnly idx t u) (hf : ∀ k, t.flipOn 1 k = false) (k : Nat) : u.flipOn 1 k = false := by
  rw [← hf k]
  unfold Tile.flipOn Tile.iof
  rw [h.flip]

end ExchangeOnly

/-- A finding is counted and logged. -/
theorem Tile.found_exchange (t : Tile) (c : Cls3) (fn mem j syn idx : Nat) : ExchangeOnly idx t (t.found c fn mem j syn) := by
  have h0 := ExchangeOnly.refl idx t
  unfold Tile.found
  cases c
  case corrected => exact ((h0.iow 0x11 _ (by decide)).iow 0x13 _ (by decide)).iow 0x14 _ (by decide)
  case uncorrectable => exact (((h0.iow 0x12 _ (by decide)).mark ..).iow 0x13 _ (by decide)).iow 0x14 _ (by decide)
  case clean => exact (h0.iow 0x13 _ (by decide)).iow 0x14 _ (by decide)
  case poisoned => exact (h0.iow 0x13 _ (by decide)).iow 0x14 _ (by decide)

/-- With no mask that applies, a granule stored is the one change, and holds what was stored. -/
theorem Tile.store_exchange {t : Tile} {idx : Nat} (g : Gran) (hf : t.flipOn 1 idx = false) :
    ExchangeOnly idx t (t.store 1 idx g) ∧ (t.store 1 idx g).gr 1 idx = g := by
  have hfor : t.flipFor 1 idx = 0 := by
    simp only [Tile.flipOn, decide_eq_false_iff_not] at hf
    exact if_neg hf
  have hx : g ^^^ t.flipFor 1 idx = g := by rw [hfor]; exact BitVec.xor_zero
  unfold Tile.store
  extract_lets k t2
  rw [if_neg (by simp [hf])]
  have hg (j : Nat) : t2.gr 1 j = if j = idx then g else t.gr 1 j := by
    rw [Tile.gr, Tile.gr, Tile.gkey_exchange, Tile.gkey_exchange]
    simp only [t2, k, Tile.gkey_exchange, hx, SMap.get_set, Nat.add_left_cancel_iff]
  exact ⟨⟨rfl, fun j hj => by rw [hg, if_neg hj]⟩, by rw [hg, if_pos rfl]⟩

/-- A whole-granule write. -/
theorem Tile.writeWhole_exchange {t : Tile} {idx : Nat} (d : BitVec 72) (hf : ∀ k, t.flipOn 1 k = false) :
    ExchangeOnly idx t (t.writeWhole 1 idx d) ∧ (t.writeWhole 1 idx d).gr 1 idx = eccEncode d := by
  unfold Tile.writeWhole
  extract_lets t1
  have h1 : ExchangeOnly idx t t1 := by
    unfold t1
    split
    · exact (ExchangeOnly.refl idx t).iow 0x16 _ (by decide)
    · exact ExchangeOnly.refl idx t
  obtain ⟨h2, hg⟩ := Tile.store_exchange (eccEncode d) (h1.flipOn hf idx)
  exact ⟨h1.trans h2, hg⟩

/-- A narrow write. -/
theorem Tile.writePart_exchange {t : Tile} {idx : Nat} (fn : Nat) (mask d : BitVec 72) (hf : ∀ k, t.flipOn 1 k = false) :
    ExchangeOnly idx t (t.writePart fn 1 idx mask d) := by
  unfold Tile.writePart
  dsimp only
  generalize eccClass (memCode 1) (t.gr 1 idx) = x
  obtain ⟨c, old⟩ := x
  have h1 := t.found_exchange c fn 1 idx (eccSyn (t.gr 1 idx)) idx
  have hstore (g : Gran) := h1.trans (Tile.store_exchange g (h1.flipOn hf idx)).1
  cases c <;> dsimp only at h1 hstore ⊢
  · exact (Tile.store_exchange _ (hf idx)).1
  · exact hstore _
  · exact h1.iow 0x16 _ (by decide)
  · exact (hstore _).iow 0x16 _ (by decide)

/-- A write under a mask. -/
theorem Tile.write_exchange {t : Tile} {idx : Nat} (fn : Nat) (mask d : BitVec 72) (hf : ∀ k, t.flipOn 1 k = false) :
    ExchangeOnly idx t (t.write fn 1 idx mask d) := by
  unfold Tile.write
  split
  · exact (Tile.writeWhole_exchange d hf).1
  · exact Tile.writePart_exchange fn mask d hf

/-- A collision is counted. -/
theorem Tile.lostWords_exchange (t : Tile) (i agent : Nat) (lost : BitVec 72) (idx : Nat) :
    ExchangeOnly idx t (t.lostWords i agent lost) := by
  have hcol (u : Tile) (off : Nat) : ExchangeOnly idx u (u.xcol off agent) := by
    unfold Tile.xcol
    extract_lets t1
    have h1 : ExchangeOnly idx u t1 := ((ExchangeOnly.refl idx u).iow 0x15 _ (by decide)).iow 0x15 _ (by decide)
    split
    · exact h1
    · exact (h1.iow 0x15 _ (by decide)).mark ..
  have hif (u : Tile) (p : Prop) [Decidable p] (off : Nat) : ExchangeOnly idx u (if p then u.xcol off agent else u) := by
    split
    · exact hcol u off
    · exact ExchangeOnly.refl idx u
  exact (hif t _ _).trans (hif _ _ _)

/-- What a bcopy step has written to the granule goes to memory first (log entry 34). -/
theorem Tile.bcpYield_exchange {t : Tile} (idx : Nat) (hf : ∀ k, t.flipOn 1 k = false) :
    ExchangeOnly idx t (t.bcpYield 1 idx) := by
  unfold Tile.bcpYield Tile.bcpAt Tile.bcpFlush
  cases hb : t.bcp with
  | none => exact ExchangeOnly.refl idx t
  | some b =>
    dsimp only
    split
    next h =>
      have hg : dataGran (2 * b.gran) = (1, idx) := by simpa using h
      rw [hg]
      dsimp only
      have hfold (l : List (Nat × BitVec 72 × BitVec 72)) (em : BitVec 72) (u : Tile) : ExchangeOnly idx u
          (l.foldl (fun (t : Tile) x => t.lostWords idx x.1 (em &&& x.2.1 &&& (x.2.2 ^^^ b.data))) u) := by
        induction l generalizing u with
        | nil => exact ExchangeOnly.refl idx u
        | cons x l ih => exact (u.lostWords_exchange ..).trans (ih _)
      have h0 : ExchangeOnly idx t { t with bcp := none } := ⟨rfl, fun _ _ => rfl⟩
      exact (h0.trans (Tile.write_exchange 1 _ _ (h0.flipOn hf))).trans (hfold _ _ _)
    next => exact ExchangeOnly.refl idx t

/-- A data-side write that does not coincide with one of the tile. -/
theorem Tile.dataWrite_exchange {t : Tile} (idx agent : Nat) (mask d : BitVec 72) (hf : ∀ k, t.flipOn 1 k = false) :
    ExchangeOnly idx t (t.dataWrite 1 idx agent false mask d) := by
  have h1 := Tile.bcpYield_exchange idx hf
  exact h1.trans (Tile.write_exchange 4 mask d (h1.flipOn hf))

/-- One of a whole granule leaves its codeword. -/
theorem Tile.dataWrite_whole {t : Tile} (idx agent : Nat) (d : BitVec 72) (hf : ∀ k, t.flipOn 1 k = false) :
    (t.dataWrite 1 idx agent false (BitVec.allOnes 72) d).gr 1 idx = eccEncode d := by
  have h1 := Tile.bcpYield_exchange idx hf
  exact (Tile.writeWhole_exchange d (h1.flipOn hf)).2

/-! ## Words deposited (R337) -/

/-- The granules below the first word of a deposit stay, and its pairs stand as whole granules. -/
theorem Tile.depositAt_exchange (n : Nat) : ∀ (ws : List Word) (t : Tile) (off : Nat), off % 2 = 0 →
    (∀ k, t.flipOn 1 k = false) → (∀ j, j < off / 2 → (t.depositAt n false off ws).gr 1 j = t.gr 1 j) ∧
    ∀ i, 2 * i + 1 < ws.length → (t.depositAt n false off ws).gr 1 (off / 2 + i) =
      eccEncode (wordBits 0 (ws.getD (2 * i) 0) ||| wordBits 1 (ws.getD (2 * i + 1) 0))
  | [], t, off, _, _ => ⟨fun _ _ => rfl, fun i hi => absurd hi (by simp)⟩
  | [w], t, off, _, hf => ⟨fun j hj => (Tile.dataWrite_exchange (off / 2) _ _ _ hf).others j (by omega),
      fun i hi => absurd hi (by simp)⟩
  | w :: v :: r, t, off, hoff, hf => by
    have h1 := Tile.dataWrite_exchange (off / 2) (0x200 + n) (BitVec.allOnes 72) (wordBits 0 w ||| wordBits 1 v) hf
    have hself := Tile.dataWrite_whole (off / 2) (0x200 + n) (wordBits 0 w ||| wordBits 1 v) hf
    obtain ⟨hlow, hpair⟩ := Tile.depositAt_exchange n r _ (off + 2) (by omega) (h1.flipOn hf)
    rw [Tile.depositAt, if_pos hoff]
    refine ⟨fun j hj => (hlow j (by omega)).trans (h1.others j (by omega)), fun i hi => ?_⟩
    cases i with
    | zero => exact (hlow _ (by omega)).trans hself
    | succ i =>
      have e : off / 2 + (i + 1) = (off + 2) / 2 + i := by omega
      rw [e, hpair i (by simp at hi; omega)]
      rfl

end Sys2Proof.Machine
end

section
/-!
SUPPORT. Frames that arrive: what line bits leave of a link and of the part, the frame taken from the net stream, and how it
ends; deposits into tiles.
-/
namespace Sys2Proof.Machine

/-! ## What the receiver's steps leave -/

/-- A register of the block of link n, other than its configuration. -/
def linkRegs (n q : Nat) : Prop := ∃ o, 0 < o ∧ o < 0x40 ∧ q = aLink n o

/-- From s to t the receiver of link n has gone on: no report and no alignment buffer changed, no tile and no store, and no
register but those that p names. -/
structure Receives (n : Nat) (p : Nat → Prop) (s t : State) : Prop where
  rx : (t.link n).rx = (s.link n).rx
  align : (t.link n).align = (s.link n).align
  rising : (t.link n).rising = (s.link n).rising
  tick : t.tick = s.tick
  tiles : t.tiles = s.tiles
  img : t.img = s.img
  boot : t.boot = s.boot
  drams : t.drams = s.drams
  flash : t.flash = s.flash
  regs : RegsBut p s t

namespace Receives
variable {n : Nat} {p : Nat → Prop} {s t u : State}

theorem refl (n : Nat) (p : Nat → Prop) (s : State) : Receives n p s s :=
  ⟨rfl, rfl, rfl, rfl, rfl, rfl, rfl, rfl, rfl, fun _ _ => rfl⟩

theorem trans (h : Receives n p s t) (k : Receives n p t u) : Receives n p s u :=
  ⟨k.rx.trans h.rx, k.align.trans h.align, k.rising.trans h.rising, k.tick.trans h.tick, k.tiles.trans h.tiles,
    k.img.trans h.img, k.boot.trans h.boot, k.drams.trans h.drams, k.flash.trans h.flash,
    fun q hq => (k.regs q hq).trans (h.regs q hq)⟩

/-- Writing one of the registers. -/
theorem wr (h : Receives n p s t) {k : Nat} (v : Word) (hk : p k) : Receives n p s (t.wr k v) :=
  ⟨h.rx, h.align, h.rising, h.tick, h.tiles, h.img, h.boot, h.drams, h.flash,
    fun q hq => (State.rd_wr_of_ne t v (by rintro rfl; exact hq hk)).trans (h.regs q hq)⟩

/-- Changing the link's line side. -/
theorem onLink (h : Receives n p s t) (f : LinkSt → LinkSt) (hf : ∀ x, (f x).rx = x.rx ∧ (f x).align = x.align ∧
    (f x).rising = x.rising) : Receives n p s (t.onLink n f) := by
  obtain ⟨h1, h2, h3⟩ := hf (t.link n)
  refine ⟨?_, ?_, ?_, h.tick, h.tiles, h.img, h.boot, h.drams, h.flash, h.regs⟩ <;> rw [State.link_onLink_self]
  · rw [h1, h.rx]
  · rw [h2, h.align]
  · rw [h3, h.rising]

/-- Raising a waymark. -/
theorem mark (h : Receives n p s t) (d kd ix c : Nat) (x y z : Word) : Receives n p s (t.mark d kd ix c x y z) :=
  ⟨h.rx, h.align, h.rising, h.tick, h.tiles, h.img, h.boot, h.drams, h.flash, h.regs⟩

/-- More registers may be named. -/
theorem mono {q : Nat → Prop} (h : Receives n p s t) (hpq : ∀ a, p a → q a) : Receives n q s t :=
  ⟨h.rx, h.align, h.rising, h.tick, h.tiles, h.img, h.boot, h.drams, h.flash, fun a ha => h.regs a (fun e => ha (hpq a e))⟩

end Receives

/-! ## What does not turn on the receiver -/

/-- A register outside the link's block, or its first word, is none of those. -/
theorem linkRegs_ne {n q : Nat} (h : ∀ o, 0 < o → o < 0x40 → q ≠ aLink n o) : ¬ linkRegs n q := by
  rintro ⟨o, h1, h2, e⟩
  exact h o h1 h2 e

namespace Receives
variable {n : Nat} {s t : State} (h : Receives n (linkRegs n) s t)
include h

theorem linkCfg (hi lo : Nat) : t.linkCfg n hi lo = s.linkCfg n hi lo := by
  rw [State.linkCfg, State.rf, h.regs _ (linkRegs_ne (fun o _ _ => by unfold aLink aDie; omega))]; rfl

theorem domainOn (d i : Nat) (hd : d < 8) : t.domainOn d i = s.domainOn d i := by
  rw [State.domainOn, State.rf, h.regs _ (linkRegs_ne (fun o _ _ => by unfold aPwr aLink aDie; omega))]; rfl

theorem inService (hn : n < 512) : t.inService n = s.inService n := by
  rw [State.inService, h.linkCfg, h.domainOn _ _ (by omega), h.rising]; rfl

theorem period : t.period = s.period := by
  rw [State.period, State.rf, h.regs _ (linkRegs_ne (fun o _ _ => by unfold aTimCfg aLink aDie; omega))]; rfl

theorem rate : t.rate n = s.rate n := by
  rw [State.rate, State.rf, h.regs _ (linkRegs_ne (fun o _ _ => by unfold aGrp groupOf aLink aDie; omega))]; rfl

theorem linkW : t.linkW n = s.linkW n := by rw [State.linkW, h.period, h.rate]; rfl

theorem window : t.window n = s.window n := by rw [State.window, h.linkCfg, h.period, h.rate]; rfl

theorem reported (T : Tick) : t.reported n T = s.reported n T := by rw [State.reported, h.rx]; rfl

theorem tickWrong (f : RxFrame) : t.tickWrong n f = s.tickWrong n f := by rw [State.tickWrong, h.linkCfg]; rfl

end Receives

/-- The slots of a logical tile are among the 64 of its die. -/
theorem slotsOf_lt {r : Bool} {lt sl : Nat} (h : sl ∈ (slotsOf r lt).2) : sl < 64 := by
  cases r <;> simp [slotsOf] at h <;> omega

/-- Where deposits go turns on the image, the healthy wardens and DIE_PLACE alone. -/
theorem State.depositsAt_congr {s t : State} (himg : t.img = s.img) (hboot : t.boot = s.boot)
    (hplace : ∀ d sl, sl < 64 → t.rd (aPlace d sl) = s.rd (aPlace d sl)) (n : Nat) (T : Tick) :
    t.depositsAt n T = s.depositsAt n T := by
  have hnew (d p : Nat) : t.newOn d p T = s.newOn d p T := by
    unfold State.newOn State.healthy; rw [himg, hboot]
  have htiles (d sl : Nat) (h : sl < 64) : t.tilesFor d sl T = s.tilesFor d sl T := by
    unfold State.tilesFor State.detoursOn State.phys State.rf; rw [himg, hplace d sl h]
  have hof (im : Image) : t.depositsOf im n T = s.depositsOf im n T := by
    unfold State.depositsOf
    congr 1
    funext r
    dsimp only
    split
    · rfl
    · congr 1
      exact List.flatMap_congr (fun sl hsl => htiles _ sl (slotsOf_lt hsl))
  have hold : t.oldImage T = s.oldImage T := by unfold State.oldImage; rw [himg]
  unfold State.depositsAt
  simp only [hold, himg, hof, hnew]

theorem Receives.depositsAt {n : Nat} {s t : State} (h : Receives n (linkRegs n) s t) (T : Tick) :
    t.depositsAt n T = s.depositsAt n T :=
  State.depositsAt_congr h.img h.boot
    (fun d sl _ => h.regs _ (linkRegs_ne (fun o _ _ => by unfold aPlace aLink aDie; omega))) n T

/-! ## Line bits (R444 to R447) -/

/-- The registers that line bits write: LINK_STAT and the counters of the line code. -/
def lineRegs (n q : Nat) : Prop := q = aLink n 3 ∨ q = aLink n 0x0A ∨ q = aLink n 0x0B

theorem linkRegs_of_lineRegs {n q : Nat} (h : lineRegs n q) : linkRegs n q := by
  rcases h with rfl | rfl | rfl
  · exact ⟨3, by decide, by decide, rfl⟩
  · exact ⟨0x0A, by decide, by decide, rfl⟩
  · exact ⟨0x0B, by decide, by decide, rfl⟩

/-- A loss of lock is counted and logged. -/
theorem State.lossCount_receives (s : State) (n : Nat) : Receives n (lineRegs n) s (s.lossCount n) := by
  unfold State.lossCount
  extract_lets s1
  have h1 : Receives n (lineRegs n) s s1 :=
    ((Receives.refl n _ s).wr _ (.inl rfl)).wr _ (.inr (.inr rfl))
  clear_value s1
  split
  · exact h1
  · exact (h1.onLink (fun x => { x with lossLogged := true }) (fun _ => ⟨rfl, rfl, rfl⟩)).mark ..

/-- Line bits reach a receiver. -/
theorem State.lineIn_receives (s : State) (n : Nat) (bits : List Bool) : Receives n (lineRegs n) s (s.lineIn n bits) := by
  unfold State.lineIn
  extract_lets r s0 s1 s2
  have h0 : Receives n (lineRegs n) s s0 := by
    unfold s0
    split
    · exact Receives.refl n _ s
    · exact (Receives.refl n _ s).wr _ (.inl rfl)
  have h1 : Receives n (lineRegs n) s s1 := (((h0.onLink (fun x => { x with rxl := r.1 })
    (fun _ => ⟨rfl, rfl, rfl⟩)).wr _ (.inr (.inr rfl))).wr _ (.inr (.inl rfl))).wr _ (.inr (.inl rfl))
  have hfold (l : List Nat) (u : State) :
      Receives n (lineRegs n) u (l.foldl (fun (s : State) _ => s.lossCount n) u) := by
    induction l generalizing u with
    | nil => exact Receives.refl n _ u
    | cons x l ih => exact (u.lossCount_receives n).trans (ih _)
  have h2 : Receives n (lineRegs n) s s2 := h1.trans (hfold _ _)
  clear_value s2
  split
  · exact (h2.wr _ (.inl rfl)).onLink _ (fun _ => ⟨rfl, rfl, rfl⟩)
  · exact h2

/-! ## A whole frame from the net stream (R456) -/

/-- The bits of a frame that have all come, and the stream after them. -/
theorem frameTake_whole (rest : List (Option (Bool × Nat))) :
    ∀ l : List (Bool × Nat), frameTake l.length (l.map some ++ rest) = (l, rest, false)
  | [] => by cases rest <;> rfl
  | b :: l => by
    rw [List.length_cons, List.map_cons, List.cons_append, frameTake, frameTake_whole rest l]

/-- The net stream begins with a START bit, which has left its phase; outside the window the frame is counted as misaligned
(R456, R463). -/
def State.frameBegun (s : State) (n : Nat) (ph : Int) (inWin : Bool) (net : List (Option (Bool × Nat))) : State :=
  let s1 := (s.onLink n (fun y => { y with rxl := { y.rxl with net := net } })).setPhase n ph
  if inWin then s1 else s1.bump (aLink n 9) 17 0 1

/-- The frame has been taken in, and rest is the stream after it. -/
def State.frameHeard (s : State) (n : Nat) (ph : Int) (inWin : Bool) (net rest : List (Option (Bool × Nat))) : State :=
  ((s.frameBegun n ph inWin net).onLink n (fun y => { y with rxl := { y.rxl with net := rest } })).onLink n
    (fun y => { y with rxl := { y.rxl with frame := none } })

/-- A frame begins where none is being taken in. -/
theorem State.frameStart_begun {s : State} {n : Nat} {net : List (Option (Bool × Nat))} (T : Tick) (ph : Int)
    (hf : (s.link n).rxl.frame = none) (hnet : fromStart (s.link n).rxl.net = net) (h0 : net ≠ []) :
    s.frameStart n T ph = (s.frameBegun n ph (decide (0 ≤ ph ∧ 2 * ph ≤ s.window n)) net,
      some ⟨T, decide (0 ≤ ph ∧ 2 * ph ≤ s.window n), false, 0, []⟩) := by
  unfold State.frameStart
  simp only [hf, hnet, if_neg h0]
  rfl

/-- Its bits are the link's net stream. -/
theorem State.link_frameBegun (s : State) (n : Nat) (ph : Int) (inWin : Bool) (net : List (Option (Bool × Nat))) :
    (s.frameBegun n ph inWin net).link n = { s.link n with rxl := { (s.link n).rxl with net := net } } := by
  have h1 : ((s.onLink n (fun y => { y with rxl := { y.rxl with net := net } })).setPhase n ph).link n =
      { s.link n with rxl := { (s.link n).rxl with net := net } } := by
    rw [State.setPhase, State.wf_eq, State.wf_eq, State.link_of_wr, State.link_of_wr, State.link_onLink_self]
  unfold State.frameBegun
  dsimp only
  split
  · exact h1
  · rw [State.bump_eq, State.link_of_wr, h1]

/-- The link after the frame has been taken in. -/
theorem State.link_frameHeard (s : State) (n : Nat) (ph : Int) (inWin : Bool) (net rest : List (Option (Bool × Nat))) :
    (s.frameHeard n ph inWin net rest).link n = { s.link n with rxl := { (s.link n).rxl with net := rest, frame := none } } := by
  rw [State.frameHeard, State.link_onLink_self, State.link_onLink_self, State.link_frameBegun]

/-- One whole frame goes to its end. -/
theorem State.frameStep_whole {s : State} {n : Nat} {l : List (Bool × Nat)} {rest : List (Option (Bool × Nat))} (T : Tick)
    (ph : Int) (coin : Bool) (hf : (s.link n).rxl.frame = none) (hnet : fromStart (s.link n).rxl.net = l.map some ++ rest)
    (hl : l.length = 24 + 36 * s.linkW n) :
    s.frameStep n T ph coin = (s.frameHeard n ph (decide (0 ≤ ph ∧ 2 * ph ≤ s.window n)) (l.map some ++ rest) rest).tickEnd n T
      (some ⟨T, decide (0 ≤ ph ∧ 2 * ph ≤ s.window n), false, 0, l⟩) coin := by
  have h0 : l.map some ++ rest ≠ [] := by
    cases l with
    | nil => simp at hl; omega
    | cons b l => simp
  unfold State.frameStep
  rw [State.frameStart_begun T ph hf hnet h0]
  dsimp only
  rw [State.link_frameBegun]
  dsimp only
  rw [List.length_nil, Nat.sub_zero, ← hl, frameTake_whole]
  simp only [List.nil_append, Bool.false_or, decide_eq_true (Nat.le_refl l.length), if_true]
  rfl

/-- What taking in a frame leaves: LINK_STAT shows the phase, and the count of misaligned frames may have gone on. -/
theorem State.frameHeard_receives (s : State) (n : Nat) (ph : Int) (inWin : Bool) (net rest : List (Option (Bool × Nat)))
    {p : Nat → Prop} (h3 : p (aLink n 3)) (h9 : inWin = false → p (aLink n 9)) :
    Receives n p s (s.frameHeard n ph inWin net rest) := by
  have h1 : Receives n p s ((s.onLink n (fun y => { y with rxl := { y.rxl with net := net } })).setPhase n ph) :=
    (((Receives.refl n p s).onLink (fun y => { y with rxl := { y.rxl with net := net } }) (fun _ => ⟨rfl, rfl, rfl⟩)).wr _
      h3).wr _ h3
  have h2 : Receives n p s (s.frameBegun n ph inWin net) := by
    unfold State.frameBegun
    dsimp only
    split
    next => exact h1
    next h => exact h1.wr _ (h9 (by simpa using h))
  exact (h2.onLink (fun y => { y with rxl := { y.rxl with net := rest } }) (fun _ => ⟨rfl, rfl, rfl⟩)).onLink
    (fun y => { y with rxl := { y.rxl with frame := none } }) (fun _ => ⟨rfl, rfl, rfl⟩)

/-- The count of misaligned frames. -/
theorem State.frameHeard_misaligned (s : State) (n : Nat) (ph : Int) (net rest : List (Option (Bool × Nat))) :
    (s.frameHeard n ph false net rest).rf (aLink n 9) 17 0 = min (2 ^ 18 - 1) (s.rf (aLink n 9) 17 0 + 1) := by
  have hne : aLink n 9 ≠ aLink n 3 := by unfold aLink aDie; omega
  have hrd : ((s.onLink n (fun y => { y with rxl := { y.rxl with net := net } })).setPhase n ph).rd (aLink n 9) =
      s.rd (aLink n 9) := by
    rw [State.setPhase, State.rd_wf_of_ne _ hne, State.rd_wf_of_ne _ hne, State.rd_of_onLink]
  rw [State.frameHeard, State.rf, State.rd_of_onLink, State.rd_of_onLink, ← State.rf]
  rw [State.frameBegun, if_neg (by decide), State.rf_bump_one _ _ (by decide), State.rf, hrd]
  rfl

/-! ## Deposits (R406) -/

/-- Tiles changed one after the other, those of different keys: each is its change, and the others are as before. -/
theorem State.foldl_onTile (f : Nat × Nat × Nat → Tile → Tile) (es : List (Nat × Nat × Nat)) (s : State)
    (hnd : (es.map (fun e => tkey e.1 e.2.1)).Nodup) :
    (∀ e ∈ es, (es.foldl (fun (s : State) e => s.onTile e.1 e.2.1 (f e)) s).tile e.1 e.2.1 =
      { f e (s.tile e.1 e.2.1) with marks := [] }) ∧
    ∀ d p, tkey d p ∉ es.map (fun e => tkey e.1 e.2.1) →
      (es.foldl (fun (s : State) e => s.onTile e.1 e.2.1 (f e)) s).tile d p = s.tile d p := by
  induction es generalizing s with
  | nil => exact ⟨fun e he => absurd he (by simp), fun _ _ _ => rfl⟩
  | cons x es ih =>
    obtain ⟨hx, hnd⟩ := List.nodup_cons.1 hnd
    obtain ⟨ih1, ih2⟩ := ih (s.onTile x.1 x.2.1 (f x)) hnd
    have hother {d p : Nat} (h : tkey d p ≠ tkey x.1 x.2.1) : (s.onTile x.1 x.2.1 (f x)).tile d p = s.tile d p :=
      s.tile_setTile_of_ne _ h
    rw [List.foldl_cons]
    refine ⟨fun e he => ?_, fun d p hdp => ?_⟩
    · rcases List.mem_cons.1 he with rfl | he
      · rw [ih2 _ _ hx]
        exact s.tile_setTile_self _ _ _
      · rw [ih1 e he, hother (fun h => hx (List.mem_map.2 ⟨e, he, h⟩))]
    · rw [List.map_cons, List.mem_cons, not_or] at hdp
      rw [ih2 d p hdp.2, hother hdp.1]

/-- From s to t only tiles changed, with what they raise. -/
structure DepositsOnly (s t : State) : Prop where
  regs : t.regs = s.regs
  links : t.links = s.links
  drams : t.drams = s.drams
  flash : t.flash = s.flash

/-- A deposit reaches tiles only. -/
theorem State.deposit_tilesOnly (s : State) (n : Nat) (T : Tick) (words : List Word) (coin : Bool) :
    DepositsOnly s (s.deposit n T words coin) := by
  unfold State.deposit State.depositFrom
  generalize s.depositsAt n T = es
  induction es generalizing s with
  | nil => exact ⟨rfl, rfl, rfl, rfl⟩
  | cons x es ih =>
    obtain ⟨h1, h2, h3, h4⟩ := ih (s.onTile x.1 x.2.1 (fun t => t.depositAt n coin (x.2.2 + 0) words))
    exact ⟨h1.trans (State.setTile_regs ..), h2.trans (State.setTile_links ..), h3.trans (State.setTile_drams ..),
      h4.trans (State.setTile_flash ..)⟩

/-- A deposit goes to the places that the records name. -/
theorem State.deposit_deposited (s : State) (n : Nat) (T : Tick) (words : List Word) (coin : Bool) :
    Deposited n T words coin s (s.deposit n T words coin) :=
  fun hnd => State.foldl_onTile (fun e t => t.depositAt n coin (e.2.2 + 0) words) (s.depositsAt n T) s hnd

/-- The places and the tiles before are all that a deposit turns on, the tiles after all that it shows. -/
theorem Deposited.congr {n : Nat} {T : Tick} {words : List Word} {coin : Bool} {s u s' u' : State}
    (h : Deposited n T words coin s u) (hat : s'.depositsAt n T = s.depositsAt n T) (hs : s'.tiles = s.tiles)
    (hu : u'.tiles = u.tiles) : Deposited n T words coin s' u' := by
  intro hnd
  rw [hat] at hnd ⊢
  obtain ⟨h1, h2⟩ := h hnd
  exact ⟨fun e he => by rw [State.tile_congr hu, State.tile_congr hs]; exact h1 e he,
    fun d p hdp => by rw [State.tile_congr hu, State.tile_congr hs]; exact h2 d p hdp⟩

end Sys2Proof.Machine
end

section
/-!
SUPPORT. How a frame ends, or its window: the report of its tick, what is deposited, and what waits for the milestone.
-/
namespace Sys2Proof.Machine

/-! ## The end of a frame (R458, R459) -/

/-- The words of a frame's bits. -/
def frameWordsOf (w : Nat) (l : List (Bool × Nat)) : List Word :=
  (List.range w).map (fun i => bitsWord (l.map (fun b => b.1)) i)

/-- The report of a whole frame of W words. -/
def frameReport (T : Tick) (w : Nat) (l : List (Bool × Nat)) : RxTick :=
  ⟨T, if frameGood w l then 0 else 1, frameWordsOf w l, l.any (fun b => b.2 == 1),
    ofBitsMsb (((l.map (fun b => b.1)).drop 5).take 9)⟩

/-- A whole frame in its window, of a link in service, whose TICK is right or does not matter: its words are deposited, it is
reported, and one that is not good is counted. -/
theorem State.frameEnd_whole {s : State} {n : Nat} {T : Tick} {l : List (Bool × Nat)} (coin : Bool)
    (hr : s.reported n T = false) (hs : s.inService n = true) (hl : l.length = 24 + 36 * s.linkW n)
    (hw : s.tickWrong n ⟨T, true, false, 0, l⟩ = false) :
    s.frameEnd n ⟨T, true, false, 0, l⟩ coin =
      (if frameGood (s.linkW n) l then
        (s.deposit n T (frameWordsOf (s.linkW n) l) coin).onLink n (fun x => x.report (frameReport T (s.linkW n) l))
      else ((s.deposit n T (frameWordsOf (s.linkW n) l) coin).onLink n
        (fun x => x.report (frameReport T (s.linkW n) l))).bump (aLink n 8) 17 0 1) := by
  have hwords : (List.range (s.linkW n)).map (fun i => if 50 + 36 * i ≤ (l.map (fun b => b.1)).length then
      bitsWord (l.map (fun b => b.1)) i else s.rd (aLink n 1)) = frameWordsOf (s.linkW n) l := by
    refine List.map_congr_left (fun i hi => if_pos ?_)
    rw [List.length_map, hl]
    have := List.mem_range.1 hi
    omega
  have hok : (ofBitsMsb (((l.map (fun b => b.1)).drop (14 + 36 * s.linkW n)).take 10) ==
      crc10 (((l.map (fun b => b.1)).drop 1).take (13 + 36 * s.linkW n)) && l.all (fun b => b.2 != 2) &&
      decide (24 + 36 * s.linkW n ≤ (l.map (fun b => b.1)).length)) = frameGood (s.linkW n) l := by
    rw [List.length_map, hl, decide_eq_true (Nat.le_refl _), Bool.and_true]; rfl
  unfold State.frameEnd
  dsimp only
  rw [if_neg (by simp [hr]), if_neg (by simp [hs]), if_neg (by simp [hw]), hwords, hok]
  rfl

/-- With TCHK = 1 one whose TICK does not match is counted, and that is all (Table 11.4). -/
theorem State.frameEnd_wrong {s : State} {n : Nat} {T : Tick} {l : List (Bool × Nat)} (coin : Bool)
    (hr : s.reported n T = false) (hs : s.inService n = true) (hl : 5 ≤ l.length)
    (hw : s.tickWrong n ⟨T, true, false, 0, l⟩ = true) :
    s.frameEnd n ⟨T, true, false, 0, l⟩ coin = s.bump (aLink n 9) 35 18 1 := by
  unfold State.frameEnd
  dsimp only
  rw [if_neg (by simp [hr]), if_neg (by simp [hs]), if_pos hw, if_neg (by decide), List.length_map,
    if_neg (by omega)]

/-- One that began outside the window reports nothing. -/
theorem State.frameEnd_misaligned (s : State) (n : Nat) (T : Tick) (l : List (Bool × Nat)) (coin : Bool) :
    s.frameEnd n ⟨T, false, false, 0, l⟩ coin = s := by
  unfold State.frameEnd
  exact if_pos rfl

/-- A report is the newest. -/
theorem LinkSt.report_head (x : LinkSt) (r : RxTick) : (x.report r).rx.head? = some r := by
  simp [LinkSt.report]

/-- What a deposit and a report leave. -/
theorem State.reported_spec (s : State) (n : Nat) (T : Tick) (words : List Word) (coin : Bool) (r : RxTick) {t : State}
    (ht : t = (s.deposit n T words coin).onLink n (fun x => x.report r)) :
    (t.link n).rx.head? = some r ∧ (t.link n).rxl = (s.link n).rxl ∧ Deposited n T words coin s t ∧ t.regs = s.regs ∧
      t.drams = s.drams ∧ t.flash = s.flash := by
  obtain ⟨hregs, hlinks, hdrams, hflash⟩ := s.deposit_tilesOnly n T words coin
  have hlink : t.link n = (s.link n).report r := by rw [ht, State.link_onLink_self, State.link_congr hlinks]
  refine ⟨by rw [hlink, LinkSt.report_head], by rw [hlink]; rfl,
    (s.deposit_deposited n T words coin).congr rfl rfl ?_, ?_, ?_, ?_⟩ <;> rw [ht]
  · exact State.onLink_tiles ..
  · rw [State.onLink_regs, hregs]
  · rw [State.onLink_drams, hdrams]
  · rw [State.onLink_flash, hflash]

/-- The TICK of a frame is right, or does not matter. -/
theorem State.tickWrong_of_right {s : State} {n : Nat} {T : Tick} {l : List (Bool × Nat)} (b c : Bool) (k : Nat)
    (hl : 5 ≤ l.length)
    (h : s.linkCfg n 4 4 = 0 ∨ ofBitsMsb (((l.map (fun b => b.1)).drop 1).take 4) = T.toNat % 16) :
    s.tickWrong n ⟨T, b, c, k, l⟩ = false := by
  unfold State.tickWrong
  dsimp only
  rw [List.length_map]
  rcases h with h | h
  · simp [h]
  · rw [decide_eq_false (by rintro (h' | h') <;> [omega; exact h' h]), Bool.and_false]

theorem State.tickWrong_of_wrong {s : State} {n : Nat} {T : Tick} {l : List (Bool × Nat)} (b c : Bool) (k : Nat)
    (h1 : s.linkCfg n 4 4 = 1) (h : ofBitsMsb (((l.map (fun b => b.1)).drop 1).take 4) ≠ T.toNat % 16) :
    s.tickWrong n ⟨T, b, c, k, l⟩ = true := by
  unfold State.tickWrong
  dsimp only
  rw [decide_eq_true (.inr h), h1]
  rfl

/-! ## Line bits that bring a frame -/

/-- The state as a frame brought by line bits has been taken in. -/
def State.frameIn (s : State) (n : Nat) (ph : Int) (line : List Bool) (inWin : Bool) (l : List (Bool × Nat))
    (rest : List (Option (Bool × Nat))) : State :=
  (s.lineIn n line).frameHeard n ph inWin (l.map some ++ rest) rest

theorem State.frameIn_receives (s : State) (n : Nat) (ph : Int) (line : List Bool) (inWin : Bool) (l : List (Bool × Nat))
    (rest : List (Option (Bool × Nat))) {p : Nat → Prop} (h : ∀ q, lineRegs n q → p q) (h9 : inWin = false → p (aLink n 9)) :
    Receives n p s (s.frameIn n ph line inWin l rest) :=
  ((s.lineIn_receives n line).mono h).trans (State.frameHeard_receives _ n ph inWin _ rest (h _ (.inl rfl)) h9)

/-- The frame's bits have left the net stream. -/
theorem State.frameIn_net (s : State) (n : Nat) (ph : Int) (line : List Bool) (inWin : Bool) (l : List (Bool × Nat))
    (rest : List (Option (Bool × Nat))) : ((s.frameIn n ph line inWin l rest).link n).rxl.net = rest := by
  rw [State.frameIn, State.link_frameHeard]

/-- Line bits that bring one whole frame take it to its end. -/
theorem State.Hears.ingress {s : State} {n : Nat} {line : List Bool} {l : List (Bool × Nat)}
    {rest : List (Option (Bool × Nat))} (h : s.Hears n line l rest) (T : Tick) (ph : Int) (coin : Bool) {inWin : Bool}
    (hw : inWin = decide (0 ≤ ph ∧ 2 * ph ≤ s.window n)) :
    s.ingress n T.toNat ph line coin =
      (s.frameIn n ph line inWin l rest).tickEnd n T (some ⟨T, inWin, false, 0, l⟩) coin := by
  obtain ⟨hon, hcl, htest, hmode, hframe, hnet, hlen⟩ := h
  have hr := (s.lineIn_receives n line).mono (q := linkRegs n) (fun _ => linkRegs_of_lineRegs)
  have hT : BitVec.ofNat 48 T.toNat = T := BitVec.eq_of_toNat_eq (by simp)
  subst hw
  unfold State.ingress
  rw [if_neg (by simp [hon, hcl]), if_neg (by omega), if_neg (by omega), if_neg (by omega), hT,
    State.frameStep_whole T ph coin hframe hnet (by rw [hr.linkW]; exact hlen), hr.window]
  rfl

/-- Words of a link's block at different offsets are different. -/
theorem aLink_ne (n : Nat) {o o' : Nat} (h : o ≠ o') : aLink n o ≠ aLink n o' := by unfold aLink aDie; omega

/-- A word of the link's block that line bits do not write. -/
theorem not_lineRegs_aLink (n : Nat) {o : Nat} (h : o ≠ 3 ∧ o ≠ 0x0A ∧ o ≠ 0x0B) : ¬ lineRegs n (aLink n o) := by
  obtain ⟨h3, hA, hB⟩ := h
  rintro (e | e | e)
  · exact aLink_ne n h3 e
  · exact aLink_ne n hA e
  · exact aLink_ne n hB e

/-- A frame in the window of a tick whose milestone has come, on a link in service, its TICK right: the report, the deposit,
and the count of one that is not good. -/
theorem State.Hears.reports {s : State} {n : Nat} {line : List Bool} {l : List (Bool × Nat)}
    {rest : List (Option (Bool × Nat))} (h : s.Hears n line l rest) (hn : n < 512) {T : Tick} {ph : Int} (coin : Bool)
    (hph : 0 ≤ ph ∧ 2 * ph ≤ s.window n) (hcome : notEarlier s.tick T = true) (hserv : s.inService n = true)
    (hrep : s.reported n T = false)
    (hT : s.linkCfg n 4 4 = 0 ∨ ofBitsMsb (((l.map (fun b => b.1)).drop 1).take 4) = T.toNat % 16) {t : State}
    (ht : t = s.ingress n T.toNat ph line coin) :
    (t.link n).rxl.net = rest ∧ (t.link n).rx.head? = some (frameReport T (s.linkW n) l) ∧
      Deposited n T (frameWordsOf (s.linkW n) l) coin s t ∧
      t.rf (aLink n 8) 17 0 = (if frameGood (s.linkW n) l then s.rf (aLink n 8) 17 0
        else min (2 ^ 18 - 1) (s.rf (aLink n 8) 17 0 + 1)) ∧
      RegsBut (fun q => q = aLink n 3 ∨ q = aLink n 8 ∨ q = aLink n 0x0A ∨ q = aLink n 0x0B) s t ∧
      t.drams = s.drams ∧ t.flash = s.flash := by
  have hu := s.frameIn_receives n ph line true l rest (p := lineRegs n) (fun _ h => h) (fun h => absurd h (by decide))
  have hnet := s.frameIn_net n ph line true l rest
  rw [h.ingress T ph coin (decide_eq_true hph).symm] at ht
  obtain ⟨-, -, -, -, -, -, hlen⟩ := h
  generalize s.frameIn n ph line true l rest = u at hu hnet ht
  have hm := hu.mono (q := linkRegs n) (fun _ => linkRegs_of_lineRegs)
  have hwhole := State.frameEnd_whole (s := u) (T := T) (l := l) coin ((hm.reported T).trans hrep)
    ((hm.inService hn).trans hserv) (by rw [hm.linkW]; exact hlen)
    (State.tickWrong_of_right _ _ _ (by omega) (hT.imp (hm.linkCfg 4 4).trans id))
  rw [State.tickEnd, hu.tick, if_pos hcome, hwhole, hm.linkW] at ht
  obtain ⟨hhead, hrxl, hdep, hregs, hdrams, hflash⟩ := u.reported_spec n T (frameWordsOf (s.linkW n) l) coin
    (frameReport T (s.linkW n) l) rfl
  have hdep := hdep.congr (s' := s) (hm.depositsAt T).symm hu.tiles.symm rfl
  have hrd : u.rd (aLink n 8) = s.rd (aLink n 8) := hu.regs _ (not_lineRegs_aLink n (by decide))
  have hbut {q : Nat} (hq : ¬ (q = aLink n 3 ∨ q = aLink n 8 ∨ q = aLink n 0x0A ∨ q = aLink n 0x0B)) :
      q ≠ aLink n 8 ∧ ¬ lineRegs n q :=
    ⟨fun e => hq (.inr (.inl e)), fun e => hq (e.imp id .inr)⟩
  have hrdv (q : Nat) : ((u.deposit n T (frameWordsOf (s.linkW n) l) coin).onLink n
      (fun x => x.report (frameReport T (s.linkW n) l))).rd q = u.rd q := by rw [State.rd, hregs]; rfl
  generalize (u.deposit n T (frameWordsOf (s.linkW n) l) coin).onLink n
    (fun x => x.report (frameReport T (s.linkW n) l)) = v at hhead hrxl hdep hregs hdrams hflash ht hrdv
  cases hg : frameGood (s.linkW n) l with
  | true =>
    rw [hg, if_pos rfl] at ht
    subst ht
    exact ⟨by rw [hrxl, hnet], hhead, hdep, by rw [if_pos rfl, State.rf, hrdv, hrd]; rfl,
      fun q hq => (hrdv q).trans (hu.regs q (hbut hq).2), hdrams.trans hu.drams, hflash.trans hu.flash⟩
  | false =>
    rw [hg, if_neg (by decide), State.bump_eq] at ht
    refine ⟨?_, ?_, hdep.congr rfl rfl ?_, ?_, fun q hq => ?_, ?_, ?_⟩ <;> rw [ht]
    · rw [State.link_of_wr, hrxl, hnet]
    · rw [State.link_of_wr, hhead]
    · exact State.wr_tiles ..
    · rw [if_neg (by decide), ← State.bump_eq, State.rf_bump_one _ _ (by decide), State.rf, hrdv, hrd]; rfl
    · rw [State.rd_wr_of_ne _ _ (hbut hq).1, hrdv, hu.regs q (hbut hq).2]
    · rw [State.wr_drams, hdrams, hu.drams]
    · rw [State.wr_flash, hflash, hu.flash]

/-- With TCHK = 1, one whose TICK does not match is counted (Table 11.4). -/
theorem State.Hears.tickMismatch {s : State} {n : Nat} {line : List Bool} {l : List (Bool × Nat)}
    {rest : List (Option (Bool × Nat))} (h : s.Hears n line l rest) (hn : n < 512) {T : Tick} {ph : Int} (coin : Bool)
    (hph : 0 ≤ ph ∧ 2 * ph ≤ s.window n) (hcome : notEarlier s.tick T = true) (hserv : s.inService n = true)
    (hrep : s.reported n T = false) (h1 : s.linkCfg n 4 4 = 1)
    (hT : ofBitsMsb (((l.map (fun b => b.1)).drop 1).take 4) ≠ T.toNat % 16) {t : State}
    (ht : t = s.ingress n T.toNat ph line coin) :
    (t.link n).rxl.net = rest ∧ (t.link n).rx = (s.link n).rx ∧ t.tiles = s.tiles ∧
      t.rf (aLink n 9) 35 18 = min (2 ^ 18 - 1) (s.rf (aLink n 9) 35 18 + 1) ∧
      RegsBut (fun q => q = aLink n 3 ∨ q = aLink n 9 ∨ q = aLink n 0x0A ∨ q = aLink n 0x0B) s t := by
  have hu := s.frameIn_receives n ph line true l rest (p := lineRegs n) (fun _ h => h) (fun h => absurd h (by decide))
  have hnet := s.frameIn_net n ph line true l rest
  rw [h.ingress T ph coin (decide_eq_true hph).symm] at ht
  obtain ⟨-, -, -, -, -, -, hlen⟩ := h
  generalize s.frameIn n ph line true l rest = u at hu hnet ht
  have hm := hu.mono (q := linkRegs n) (fun _ => linkRegs_of_lineRegs)
  have hwrong := State.frameEnd_wrong (s := u) (T := T) (l := l) coin ((hm.reported T).trans hrep)
    ((hm.inService hn).trans hserv) (by omega) (State.tickWrong_of_wrong _ _ _ ((hm.linkCfg 4 4).trans h1) hT)
  rw [State.tickEnd, hu.tick, if_pos hcome, hwrong, State.bump_eq] at ht
  have hrd : u.rd (aLink n 9) = s.rd (aLink n 9) := hu.regs _ (not_lineRegs_aLink n (by decide))
  refine ⟨?_, ?_, ?_, ?_, fun q hq => ?_⟩ <;> rw [ht]
  · rw [State.link_of_wr, hnet]
  · rw [State.link_of_wr, hu.rx]
  · rw [State.wr_tiles, hu.tiles]
  · rw [← State.bump_eq, State.rf_bump_one _ _ (by decide), State.rf, hrd]; rfl
  · rw [State.rd_wr_of_ne _ _ (fun e => hq (.inr (.inl e))), hu.regs q (fun e => hq (e.imp id .inr))]

/-- Before its milestone a frame waits in the alignment buffer (R86). -/
theorem State.Hears.waits {s : State} {n : Nat} {line : List Bool} {l : List (Bool × Nat)}
    {rest : List (Option (Bool × Nat))} (h : s.Hears n line l rest) {T : Tick} {ph : Int} (coin : Bool)
    (hph : 0 ≤ ph ∧ 2 * ph ≤ s.window n) (hcome : notEarlier s.tick T = false) {t : State}
    (ht : t = s.ingress n T.toNat ph line coin) :
    (t.link n).rxl.net = rest ∧ (t.link n).rx = (s.link n).rx ∧ t.tiles = s.tiles ∧
      (t.link n).align = (s.link n).align ++ [(T, some ⟨T, true, false, 0, l⟩, coin)] ∧
      RegsBut (fun q => q = aLink n 3 ∨ q = aLink n 0x0A ∨ q = aLink n 0x0B) s t := by
  have hu := s.frameIn_receives n ph line true l rest (p := lineRegs n) (fun _ h => h) (fun h => absurd h (by decide))
  have hnet := s.frameIn_net n ph line true l rest
  rw [h.ingress T ph coin (decide_eq_true hph).symm] at ht
  generalize s.frameIn n ph line true l rest = u at hu hnet ht
  rw [State.tickEnd, hu.tick, if_neg (by simp [hcome]), if_neg (by simp)] at ht
  refine ⟨?_, ?_, ?_, ?_, fun q hq => ?_⟩ <;> rw [ht]
  · rw [State.link_onLink_self, ← hnet]
  · rw [State.link_onLink_self, ← hu.rx]
  · rw [State.onLink_tiles, hu.tiles]
  · rw [State.link_onLink_self, ← hu.align]
  · rw [State.rd_of_onLink, hu.regs q hq]

/-- A frame that begins outside the window is counted as misaligned, and reports nothing (R456). -/
theorem State.Hears.misaligned {s : State} {n : Nat} {line : List Bool} {l : List (Bool × Nat)}
    {rest : List (Option (Bool × Nat))} (h : s.Hears n line l rest) {T : Tick} {ph : Int} (coin : Bool)
    (hph : ph < 0 ∨ s.window n < 2 * ph) {t : State} (ht : t = s.ingress n T.toNat ph line coin) :
    (t.link n).rxl.net = rest ∧ (t.link n).rx = (s.link n).rx ∧ t.tiles = s.tiles ∧ (t.link n).align = (s.link n).align ∧
      t.rf (aLink n 9) 17 0 = min (2 ^ 18 - 1) (s.rf (aLink n 9) 17 0 + 1) ∧
      RegsBut (fun q => q = aLink n 3 ∨ q = aLink n 9 ∨ q = aLink n 0x0A ∨ q = aLink n 0x0B) s t := by
  have hu := s.frameIn_receives n ph line false l rest
    (p := fun q => q = aLink n 3 ∨ q = aLink n 9 ∨ q = aLink n 0x0A ∨ q = aLink n 0x0B) (fun _ e => e.imp id .inr)
    (fun _ => .inr (.inl rfl))
  have hnet := s.frameIn_net n ph line false l rest
  have hrd : (s.lineIn n line).rd (aLink n 9) = s.rd (aLink n 9) :=
    (s.lineIn_receives n line).regs _ (not_lineRegs_aLink n (by decide))
  have hcount : (s.frameIn n ph line false l rest).rf (aLink n 9) 17 0 =
      min (2 ^ 18 - 1) (s.rf (aLink n 9) 17 0 + 1) := by
    rw [State.frameIn, State.frameHeard_misaligned, State.rf, hrd]; rfl
  rw [h.ingress T ph coin (decide_eq_false (by omega)).symm] at ht
  have hend : t = s.frameIn n ph line false l rest := by
    rw [ht, State.tickEnd]
    split
    · exact State.frameEnd_misaligned ..
    · exact if_pos rfl
  rw [hend]
  exact ⟨hnet, hu.rx, hu.tiles, hu.align, hcount, hu.regs⟩

/-- In test mode 1 line bits add their bit errors to PRBSERR and show SIGDET (R471). -/
theorem State.ingress_prbs {s : State} {n : Nat} (T : Tick) (ph : Int) (line : List Bool) (coin : Bool)
    (hon : s.lineOn n = true) (hcl : s.clamped = false) (h1 : s.linkCfg n 16 15 = 1) {t : State}
    (ht : t = s.ingress n T.toNat ph line coin) :
    (t.link n).rx = (s.link n).rx ∧ t.tiles = s.tiles ∧ RegsBut (fun q => q = aLink n 3 ∨ q = aLink n 0x0C) s t ∧
      (line ≠ [] → t.rb (aLink n 3) 1 = true) ∧
      t.rf (aLink n 0x0C) 35 0 = min (2 ^ 36 - 1) (s.rf (aLink n 0x0C) 35 0 + ((s.link n).rxl.prbsCheck line).2) := by
  have hne : aLink n 0x0C ≠ aLink n 3 := aLink_ne n (by decide)
  unfold State.ingress at ht
  rw [if_neg (by simp [hon, hcl]), if_pos h1] at ht
  generalize (s.link n).rxl.prbsCheck line = r at ht ⊢
  dsimp only at ht
  have h2 : Receives n (fun q => q = aLink n 3 ∨ q = aLink n 0x0C) s
      ((s.onLink n (fun x => { x with rxl := r.1 })).bump (aLink n 0x0C) 35 0 r.2) :=
    ((Receives.refl n _ s).onLink (fun x => { x with rxl := r.1 }) (fun _ => ⟨rfl, rfl, rfl⟩)).wr _ (.inr rfl)
  have hcount : ((s.onLink n (fun x => { x with rxl := r.1 })).bump (aLink n 0x0C) 35 0 r.2).rf (aLink n 0x0C) 35 0 =
      min (2 ^ 36 - 1) (s.rf (aLink n 0x0C) 35 0 + r.2) := by
    rw [State.rf_bump_self _ _ _ (by decide), satAdd, Nat.min_comm, State.rf, State.rd_of_onLink]; rfl
  generalize (s.onLink n (fun x => { x with rxl := r.1 })).bump (aLink n 0x0C) 35 0 r.2 = u at h2 hcount ht
  split at ht
  next h =>
    subst ht
    exact ⟨h2.rx, h2.tiles, h2.regs, fun h' => absurd h h', hcount⟩
  next =>
    have h3 : Receives n (fun q => q = aLink n 3 ∨ q = aLink n 0x0C) s t := ht ▸ h2.wr _ (.inl rfl)
    refine ⟨h3.rx, h3.tiles, h3.regs, fun _ => ?_, ?_⟩
    · rw [ht, State.rb, State.wf_eq, State.rd_wr_self, bitOf_putFld_in _ _ (by decide) (by decide)]; rfl
    · rw [ht, State.rf, State.rd_wf_of_ne _ hne]; exact hcount

end Sys2Proof.Machine
end

section
/-!
SUPPORT. The close of an arrival window.
-/
namespace Sys2Proof.Machine

/-- A link out of service without a DEPOSIT record reports nothing (R443). -/
theorem State.noFrame_none {s : State} {n : Nat} {T : Tick} (coin : Bool) (hs : s.inService n = false)
    (hd : s.depositsAt n T = []) : s.noFrame n T coin = s := by
  unfold State.noFrame
  exact if_pos (by simp [hs, State.hasDeposit, hd])

/-- The words of a tick without a frame: W copies of LINK_SUBST (R457). -/
def State.substWords (s : State) (n : Nat) : List Word := List.replicate (s.linkW n) (s.rd (aLink n 1))

/-- The report of a tick without a frame. -/
def State.noneReport (s : State) (n : Nat) (T : Tick) : RxTick :=
  ⟨T, if s.inService n then 2 else 3, s.substWords n, false, 0⟩

/-- Otherwise the tick is reported, and while the link is powered its words are deposited and counted (R457, R458). -/
theorem State.noFrame_reported {s : State} {n : Nat} {T : Tick} (coin : Bool)
    (h : s.inService n = true ∨ s.depositsAt n T ≠ []) :
    s.noFrame n T coin = if s.domainOn (n / 64) (9 + groupOf n) then
      ((s.deposit n T (s.substWords n) coin).onLink n (fun x => x.report (s.noneReport n T))).bump (aLink n 8) 35 18 1
    else s.onLink n (fun x => x.report (s.noneReport n T)) := by
  unfold State.noFrame
  dsimp only
  rw [if_neg (by rcases h with h | h <;> simp [State.hasDeposit, h])]
  cases s.domainOn (n / 64) (9 + groupOf n) <;> rfl

/-- What such a tick leaves. -/
theorem State.noFrame_spec {s : State} {n : Nat} {T : Tick} (coin : Bool)
    (h : s.inService n = true ∨ s.depositsAt n T ≠ []) {t : State} (ht : t = s.noFrame n T coin) :
    (t.link n).rx.head? = some (s.noneReport n T) ∧ RegsBut (fun q => q = aLink n 8) s t ∧
      if s.domainOn (n / 64) (9 + groupOf n) = true then
        Deposited n T (s.substWords n) coin s t ∧
        t.rf (aLink n 8) 35 18 = min (2 ^ 18 - 1) (s.rf (aLink n 8) 35 18 + 1)
      else t.tiles = s.tiles ∧ t.regs = s.regs := by
  rw [State.noFrame_reported coin h] at ht
  split at ht
  next hp =>
    obtain ⟨hhead, -, hdep, hregs, -, -⟩ := s.reported_spec n T (s.substWords n) coin (s.noneReport n T) rfl
    generalize (s.deposit n T (s.substWords n) coin).onLink n (fun x => x.report (s.noneReport n T)) = v at hhead hdep hregs ht
    have hrdv (q : Nat) : v.rd q = s.rd q := by rw [State.rd, hregs]; rfl
    rw [if_pos hp, ht, State.bump_eq]
    refine ⟨by rw [State.link_of_wr, hhead], fun q hq => ?_, hdep.congr rfl rfl (State.wr_tiles ..), ?_⟩
    · rw [State.rd_wr_of_ne _ _ hq, hrdv]
    · rw [← State.bump_eq, State.rf_bump_one _ _ (by decide), State.rf, hrdv]; rfl
  next hp =>
    rw [if_neg hp, ht]
    exact ⟨by rw [State.link_onLink_self, LinkSt.report_head], fun _ _ => rfl, rfl, rfl⟩

/-- A window that closes after its tick has been reported changes nothing. -/
theorem State.windowEnd_reported {s : State} {n : Nat} {T : Tick} (coin : Bool) (h : s.reported n T = true) :
    s.windowEnd n T coin = s := by
  unfold State.windowEnd
  exact if_pos h

/-- A frame of the tick that waits in the alignment buffer is left to its milestone, marked as one whose window has closed. -/
theorem State.windowEnd_waiting {s : State} {n : Nat} {T : Tick} (coin : Bool) (hr : s.reported n T = false)
    (ha : ∃ e ∈ (s.link n).align, e.1 = T) : s.windowEnd n T coin = s.onLink n (fun y => { y with align := y.align.map (fun e =>
      if e.1 = T then (e.1, e.2.1.map (fun (f : RxFrame) => { f with closed := true }), e.2.2) else e) }) := by
  have hany : (s.link n).align.any (fun e => e.1 == T) = true := by simpa using ha
  unfold State.windowEnd
  rw [if_neg (by simp [hr]), if_pos hany]

/-- Every one of the tick is marked, and no other is touched. -/
theorem State.windowEnd_waiting_spec {s : State} {n : Nat} {T : Tick} (coin : Bool) (hr : s.reported n T = false)
    (ha : ∃ e ∈ (s.link n).align, e.1 = T) {t : State} (ht : t = s.windowEnd n T coin) :
    t.regs = s.regs ∧ t.tiles = s.tiles ∧ (t.link n).rx = (s.link n).rx ∧
      (t.link n).align.length = (s.link n).align.length ∧
      ∀ e ∈ (t.link n).align, e.1 = T → ∀ f, e.2.1 = some f → f.closed = true := by
  rw [State.windowEnd_waiting coin hr ha] at ht
  rw [ht, State.link_onLink_self]
  refine ⟨rfl, rfl, rfl, List.length_map .., fun e he heT f hf => ?_⟩
  obtain ⟨x, -, rfl⟩ := List.mem_map.1 he
  split at hf
  next =>
    obtain ⟨g, -, rfl⟩ := Option.map_eq_some_iff.1 hf
    rfl
  next h => rw [if_neg h] at heT; exact absurd heT h

/-- With none that waits, the window of a frame being taken in closes over it, or the tick ends without a frame. -/
theorem State.windowEnd_frame {s : State} {n : Nat} {T : Tick} (coin : Bool) (hr : s.reported n T = false)
    (ha : ∀ e ∈ (s.link n).align, e.1 ≠ T) {f : RxFrame} (hf : (s.link n).rxl.frame = some f) (hw : f.inWin = true)
    (hT : f.tick = T) : s.windowEnd n T coin =
      s.onLink n (fun y => { y with rxl := { y.rxl with frame := some { f with closed := true } } }) := by
  have hany : ¬ (s.link n).align.any (fun e => e.1 == T) = true := fun h => by
    obtain ⟨e, he, heT⟩ := List.any_eq_true.1 h
    exact ha e he (by simpa using heT)
  unfold State.windowEnd
  rw [if_neg (by simp [hr]), if_neg hany]
  simp only [hf]
  exact if_pos (by simp [hw, hT])

theorem State.windowEnd_empty {s : State} {n : Nat} {T : Tick} (coin : Bool) (hr : s.reported n T = false)
    (ha : ∀ e ∈ (s.link n).align, e.1 ≠ T)
    (hf : ∀ f : RxFrame, (s.link n).rxl.frame = some f → f.inWin = false ∨ f.tick ≠ T) :
    s.windowEnd n T coin = s.tickEnd n T none coin := by
  have hany : ¬ (s.link n).align.any (fun e => e.1 == T) = true := fun h => by
    obtain ⟨e, he, heT⟩ := List.any_eq_true.1 h
    exact ha e he (by simpa using heT)
  unfold State.windowEnd
  rw [if_neg (by simp [hr]), if_neg hany]
  cases hfr : (s.link n).rxl.frame with
  | none => rfl
  | some f => exact if_neg (by rcases hf f hfr with h | h <;> simp [h])

/-- A frame being taken in is marked as one whose window has closed. -/
theorem State.windowEnd_frame_spec {s : State} {n : Nat} {T : Tick} (coin : Bool) (hr : s.reported n T = false)
    (ha : ∀ e ∈ (s.link n).align, e.1 ≠ T) {f : RxFrame} (hf : (s.link n).rxl.frame = some f) (hw : f.inWin = true)
    (hT : f.tick = T) {t : State} (ht : t = s.windowEnd n T coin) :
    t.regs = s.regs ∧ t.tiles = s.tiles ∧ (t.link n).rx = (s.link n).rx ∧
      (t.link n).rxl.frame = some { f with closed := true } := by
  rw [ht, State.windowEnd_frame coin hr ha hf hw hT, State.link_onLink_self]
  exact ⟨rfl, rfl, rfl, rfl⟩

/-- Before its milestone a tick without a frame waits for its report (R86). -/
theorem State.tickEnd_waits_spec {s : State} {n : Nat} {T : Tick} (coin : Bool) (h : notEarlier s.tick T = false) {t : State}
    (ht : t = s.tickEnd n T none coin) : t.regs = s.regs ∧ t.tiles = s.tiles ∧ (t.link n).rx = (s.link n).rx ∧
      (t.link n).align = (s.link n).align ++ [(T, none, coin)] := by
  rw [State.tickEnd, if_neg (by simp [h]), if_neg (by simp)] at ht
  rw [ht, State.link_onLink_self]
  exact ⟨rfl, rfl, rfl, rfl⟩

/-- From its milestone on it is reported at once. -/
theorem State.tickEnd_none {s : State} {n : Nat} {T : Tick} (coin : Bool) (h : notEarlier s.tick T = true) :
    s.tickEnd n T none coin = s.noFrame n T coin := if_pos h

/-- INGRESS_FRAME and ARRIVAL_WINDOW_CLOSE run their effect, the queue as it was. -/
theorem exec_ingressFrame {s : State} {n : Nat} (hs : s.held = false) (hn : n < 512) (T : Tick) (ph : Int) (line : List Bool)
    (coin : Bool) : exec (.ingressFrame n T.toNat ph line coin) s = .next (s.keepQueue (s.ingress n T.toNat ph line coin)) :=
  live_next (f := (State.ingress · n T.toNat ph line coin)) hs (decide_eq_true hn)

theorem exec_arrivalWindowClose {s : State} {n : Nat} (hs : s.held = false) (hn : n < 512) (T : Tick) (coin : Bool) :
    exec (.arrivalWindowClose n T.toNat coin) s = .next (s.keepQueue (s.windowEnd n T coin)) := by
  refine (live_next (f := fun s => s.windowEnd n (BitVec.ofNat 48 T.toNat) coin) hs (decide_eq_true hn)).trans ?_
  rw [show BitVec.ofNat 48 T.toNat = T from BitVec.eq_of_toNat_eq (by simp)]

/-- Settles O39: how a frame that has come ends, line bits in test mode 1, the close of a window, and the granules of a
deposit. -/
theorem ingressStatus : Obligations.IngressStatus := by
  refine ⟨fun s n T hs hn => ⟨fun ph line coin l rest h => ⟨fun h0 hw => ⟨fun hcome hserv hrep => ⟨fun hT => ?_,
      fun h1 hT => ?_⟩, fun hcome => ?_⟩, fun hph => ?_⟩, fun ph line coin hon hcl h1 => ?_,
      fun coin => ⟨fun hr => ?_, fun hr ha => ?_, fun hr ha => ⟨fun f hf hw hT => ?_,
        fun hf => ⟨fun hcome => ?_, fun hcome hserv hd => ?_, fun hcome h => ?_⟩⟩⟩⟩,
    fun u n off i ws hoff _ hf hi => (Tile.depositAt_exchange n ws u off hoff hf).2 i hi⟩
  · exact ⟨_, exec_ingressFrame hs hn T ph line coin, h.reports hn coin ⟨h0, hw⟩ hcome hserv hrep hT
      (t := s.ingress n T.toNat ph line coin) rfl⟩
  · exact ⟨_, exec_ingressFrame hs hn T ph line coin, h.tickMismatch hn coin ⟨h0, hw⟩ hcome hserv hrep h1 hT
      (t := s.ingress n T.toNat ph line coin) rfl⟩
  · exact ⟨_, exec_ingressFrame hs hn T ph line coin, h.waits coin ⟨h0, hw⟩ hcome
      (t := s.ingress n T.toNat ph line coin) rfl⟩
  · exact ⟨_, exec_ingressFrame hs hn T ph line coin, h.misaligned coin hph
      (t := s.ingress n T.toNat ph line coin) rfl⟩
  · exact ⟨_, exec_ingressFrame hs hn T ph line coin, State.ingress_prbs T ph line coin hon hcl h1
      (t := s.ingress n T.toNat ph line coin) rfl⟩
  · rw [exec_arrivalWindowClose hs hn, State.windowEnd_reported coin hr]; rfl
  · exact ⟨_, exec_arrivalWindowClose hs hn T coin, State.windowEnd_waiting_spec coin hr ha
      (t := s.windowEnd n T coin) rfl⟩
  · exact ⟨_, exec_arrivalWindowClose hs hn T coin, State.windowEnd_frame_spec coin hr ha hf hw hT
      (t := s.windowEnd n T coin) rfl⟩
  · exact ⟨_, exec_arrivalWindowClose hs hn T coin, State.tickEnd_waits_spec coin hcome
      (t := s.windowEnd n T coin) (State.windowEnd_empty coin hr ha hf)⟩
  · rw [exec_arrivalWindowClose hs hn, State.windowEnd_empty coin hr ha hf, State.tickEnd_none coin hcome,
      State.noFrame_none coin hserv hd]
    rfl
  · exact ⟨_, exec_arrivalWindowClose hs hn T coin, State.noFrame_spec coin h (t := s.windowEnd n T coin)
      ((State.windowEnd_empty coin hr ha hf).trans (State.tickEnd_none coin hcome))⟩

end Sys2Proof.Machine
end

section
/-!
SUPPORT. The tick number stands: registers, waymarks, images, keys and flash.
Of all the functions that a milestone runs, State.timeStep alone changes the tick number. The lemmas below and in the next
sections say so of the others, each after those it calls.
-/
namespace Sys2Proof.Machine

/-- A walk over a list keeps the tick number if each of its steps does. -/
theorem foldl_tick {α : Type} {f : State → α → State} (hf : ∀ s x, (f s x).tick = s.tick) (l : List α) (s : State) :
    (l.foldl f s).tick = s.tick := by
  induction l generalizing s with
  | nil => rfl
  | cons x l ih => rw [List.foldl_cons, ih, hf]

/-- A walk that carries a state and a value keeps the tick number if each of its steps does. -/
theorem foldl_fst_tick {α β : Type} {f : State × β → α → State × β} (hf : ∀ p x, (f p x).1.tick = p.1.tick) (l : List α)
    (p : State × β) : (l.foldl f p).1.tick = p.1.tick := by
  induction l generalizing p with
  | nil => rfl
  | cons x l ih => rw [List.foldl_cons, ih, hf]

@[simp] theorem State.oneCycle_tick (s s0 : State) : (s.oneCycle s0).tick = s.tick := by simp [State.oneCycle]

@[simp] theorem State.denied_tick (s : State) (m addr : Nat) (extra : Word) :
    (s.denied m addr extra).tick = s.tick := by simp [State.denied]

@[simp] theorem State.wf_tick (s : State) (k hi lo v : Nat) : (s.wf k hi lo v).tick = s.tick := by simp [State.wf]

@[simp] theorem State.commitGo_tick (s : State) (c : Nat) (w : Word) : (s.commitGo c w).tick = s.tick := by
  unfold State.commitGo
  split <;> simp

@[simp] theorem State.clearErrs_tick (s : State) (w : Word) : (s.clearErrs w).tick = s.tick := by
  unfold State.clearErrs
  (repeat' split) <;> simp

@[simp] theorem State.cmdErr_tick (s : State) (n : Nat) : (s.cmdErr n).tick = s.tick := by simp [State.cmdErr]

@[simp] theorem State.setPcie_tick (s : State) (ep : Nat) (x : PcieSt) : (s.setPcie ep x).tick = s.tick := by
  unfold State.setPcie
  split <;> simp

@[simp] theorem State.land_tick (s : State) (e : Emit) : (s.land e).tick = s.tick := by
  unfold State.land
  split <;> simp

@[simp] theorem State.vector_tick (s : State) (ep v : Nat) : (s.vector ep v).tick = s.tick := by
  unfold State.vector
  dsimp only
  (repeat' split) <;> simp

@[simp] theorem State.msix_tick (s : State) (v : Nat) : (s.msix v).tick = s.tick := by simp [State.msix]

@[simp] theorem State.setImgStat_tick (s : State) (w : Word) : (s.setImgStat w).tick = s.tick := by
  unfold State.setImgStat
  split <;> simp

@[simp] theorem State.setPhase17_tick (s : State) (n : Nat) : (s.setPhase17 n).tick = s.tick := by
  simp [State.setPhase17]

@[simp] theorem State.loadStart_tick (s : State) (src : Word) : (s.loadStart src).tick = s.tick := by
  unfold State.loadStart
  dsimp only
  (repeat' split) <;> simp

@[simp] theorem State.loadOp_tick (s : State) : s.loadOp.tick = s.tick := by
  unfold State.loadOp
  split <;> simp

@[simp] theorem State.refuseSize_tick (s : State) : s.refuseSize.tick = s.tick := by simp [State.refuseSize]

@[simp] theorem State.armTo_tick (s : State) (a : Tick) : (s.armTo a).tick = s.tick := by
  unfold State.armTo
  (repeat' split) <;> simp

@[simp] theorem State.armOp_tick (s : State) : s.armOp.tick = s.tick := by
  unfold State.armOp
  split <;> simp

@[simp] theorem State.addDetour_tick (s : State) (d : Nat) (x : Detour) : (s.addDetour d x).tick = s.tick := by
  simp [State.addDetour]

@[simp] theorem State.movePinned_tick (s : State) (new : Image) (a : Tick) : (s.movePinned new a).tick = s.tick := by
  unfold State.movePinned
  simp [foldl_tick]

@[simp] theorem State.setHops_tick (s : State) (bank d0 rid tid : Nat) (keep : Hop → Bool) (l : List (Hop × Nat)) :
    (s.setHops bank d0 rid tid keep l).tick = s.tick := by
  unfold State.setHops
  exact foldl_tick (fun s x => by split <;> simp) _ _

@[simp] theorem State.deriveRoute_tick (s : State) (im : Image) (bank : Nat) (r : ImgRoute) (tid : Nat) :
    (s.deriveRoute im bank r tid).tick = s.tick := by simp [State.deriveRoute]

@[simp] theorem State.deriveNet_tick (s : State) (im : Image) : (s.deriveNet im).tick = s.tick := by
  unfold State.deriveNet
  exact foldl_tick (fun s x => by simp) _ _

@[simp] theorem State.deriveStandby_tick (s : State) : s.deriveStandby.tick = s.tick := by
  unfold State.deriveStandby
  (repeat' split) <;> simp

@[simp] theorem State.deriveAll_tick (s : State) : s.deriveAll.tick = s.tick := by
  unfold State.deriveAll
  split <;> simp

@[simp] theorem State.swapOp_tick (s : State) : s.swapOp.tick = s.tick := by
  unfold State.swapOp
  dsimp only
  (repeat' split) <;> simp

@[simp] theorem State.discardOp_tick (s : State) : s.discardOp.tick = s.tick := by
  unfold State.discardOp
  split <;> simp

@[simp] theorem State.disarmOp_tick (s : State) : s.disarmOp.tick = s.tick := by
  unfold State.disarmOp
  (repeat' split) <;> simp

@[simp] theorem State.refuse_tick (s : State) (addr : Nat) (v : Word) : (s.refuse addr v).tick = s.tick := by
  simp [State.refuse]

@[simp] theorem State.imgCmd_tick (s : State) (w : Word) : (s.imgCmd w).tick = s.tick := by
  unfold State.imgCmd
  split <;> simp

@[simp] theorem State.program_tick (s : State) (a : Nat) (l : List Byte) : (s.program a l).tick = s.tick := by
  induction l generalizing s a with
  | nil => rfl
  | cons b r ih => rw [State.program, ih]

@[simp] theorem State.erase_tick (s : State) (a n : Nat) : (s.erase a n).tick = s.tick := by simp [State.erase]

@[simp] theorem State.flashWait_tick (s : State) (k : Nat) : (s.flashWait k).tick = s.tick := by
  simp [State.flashWait]

@[simp] theorem State.saveBoot_tick (s : State) : s.saveBoot.tick = s.tick := by
  unfold State.saveBoot
  split <;> simp

@[simp] theorem State.bootcfgWrite_tick (s : State) (w : Word) : (s.bootcfgWrite w).tick = s.tick := by
  unfold State.bootcfgWrite
  split <;> simp

@[simp] theorem State.genWrite_tick (s : State) (r : RegSpec) (k addr : Nat) (w : Word) :
    (s.genWrite r k addr w).tick = s.tick := by
  unfold State.genWrite
  dsimp only
  (repeat' split) <;> simp

@[simp] theorem State.draw_tick (s : State) (n : Nat) : (s.draw n).1.tick = s.tick := by
  induction n generalizing s with
  | zero => rfl
  | succ n ih => simp [State.draw, ih]

@[simp] theorem State.draw32_tick (s : State) : s.draw32.1.tick = s.tick := by simp [State.draw32]

@[simp] theorem State.secStat_tick (s : State) (m res len : Nat) : (s.secStat m res len).tick = s.tick := by
  simp [State.secStat]

@[simp] theorem State.putBytes_tick (s : State) (k n : Nat) (l : List Byte) : (s.putBytes k n l).tick = s.tick := by
  induction n generalizing s k l with
  | zero => rfl
  | succ n ih => simp [State.putBytes, ih]

@[simp] theorem State.secNonce_tick (s : State) (m : Nat) : (s.secNonce m).tick = s.tick := by simp [State.secNonce]

@[simp] theorem State.secBegin_tick (s : State) (m op : Nat) : (s.secBegin m op).tick = s.tick := by
  simp [State.secBegin]

@[simp] theorem State.secCmd_tick (s : State) (m : Nat) (w : Word) : (s.secCmd m w).tick = s.tick := by
  unfold State.secCmd
  dsimp only
  (repeat' split) <;> simp

@[simp] theorem State.leaseStart_tick (s : State) : s.leaseStart.tick = s.tick := by
  obtain ⟨o, h⟩ : ∃ o, s.leaseStart = { s with own := o } := ⟨_, rfl⟩
  rw [h]

@[simp] theorem State.renew_tick (s : State) (w : Word) : (s.renew w).tick = s.tick := by
  unfold State.renew
  dsimp only
  (repeat' split) <;> simp

@[simp] theorem State.onTile_tick (s : State) (d p : Nat) (f : Tile → Tile) : (s.onTile d p f).tick = s.tick := by
  simp [State.onTile]

@[simp] theorem State.eachTile_tick (s : State) (f : Tile → Tile) : (s.eachTile f).tick = s.tick := by
  unfold State.eachTile
  exact foldl_tick (fun s x => by simp) _ _

@[simp] theorem State.dropStaged_tick (s : State) : s.dropStaged.tick = s.tick := by simp [State.dropStaged]

@[simp] theorem State.endSteward_tick (s : State) : s.endSteward.tick = s.tick := by
  unfold State.endSteward
  dsimp only
  (repeat' split) <;> simp

@[simp] theorem State.handOver_tick (s : State) (w : Word) : (s.handOver w).tick = s.tick := by
  unfold State.handOver
  dsimp only
  (repeat' split) <;> simp

@[simp] theorem State.putRecord_tick (s : State) (a : Nat) (l : List Byte) : (s.putRecord a l).tick = s.tick := by
  simp [State.putRecord]

@[simp] theorem State.saveOwners_tick (s : State) : s.saveOwners.tick = s.tick := by
  unfold State.saveOwners
  split <;> simp

@[simp] theorem State.setKey_tick (s : State) (k ht : Nat) (hash : List Byte) :
    (s.setKey k ht hash).tick = s.tick := by simp [State.setKey]

@[simp] theorem State.lcmd_tick (s : State) (w : Word) : (s.lcmd w).tick = s.tick := by
  unfold State.lcmd
  dsimp only
  (repeat' split) <;> simp

@[simp] theorem State.setMbResult_tick (s : State) (m v : Nat) : (s.setMbResult m v).tick = s.tick := by
  simp [State.setMbResult]

@[simp] theorem State.chal_tick (s : State) (m : Nat) (w : Word) : (s.chal m w).tick = s.tick := by
  unfold State.chal
  split <;> simp

@[simp] theorem State.claimGo_tick (s : State) (m : Nat) (w : Word) : (s.claimGo m w).tick = s.tick := by
  unfold State.claimGo
  (repeat' split) <;> simp

@[simp] theorem State.curdWrite_tick (s : State) (m : Nat) (w : Word) : (s.curdWrite m w).tick = s.tick := by
  unfold State.curdWrite
  split <;> simp

end Sys2Proof.Machine
end

section
/-!
SUPPORT. The tick number stands: tiles, links of the Ibrak, stacks, firmware and the writes of registers.
-/
namespace Sys2Proof.Machine

@[simp] theorem State.makeDue_tick (s : State) (d p code : Nat) : (s.makeDue d p code).tick = s.tick := by
  simp [State.makeDue]

@[simp] theorem State.ueSweep_tick (s : State) : s.ueSweep.tick = s.tick := by
  unfold State.ueSweep
  exact foldl_tick (fun s x => by split <;> simp) _ _

@[simp] theorem State.tdatWrite_tick (s : State) (w : Word) : (s.tdatWrite w).tick = s.tick := by
  unfold State.tdatWrite
  split <;> simp

@[simp] theorem State.dirFresh_tick (s : State) (l dir : Nat) : (s.dirFresh l dir).tick = s.tick := by
  simp [State.dirFresh]

theorem State.ibkBoth_tick (s : State) (l : Nat) {f : State → Nat → State} (hf : ∀ s a, (f s a).tick = s.tick) :
    (s.ibkBoth l f).tick = s.tick := by
  rw [State.ibkBoth, hf, hf]

@[simp] theorem State.ibkTrain_tick (s : State) (l : Nat) : (s.ibkTrain l).tick = s.tick := by
  simp [State.ibkTrain, State.ibkBoth_tick]

@[simp] theorem State.ibkRet_tick (s : State) (w : Word) : (s.ibkRet w).tick = s.tick := by
  unfold State.ibkRet
  dsimp only
  refine foldl_tick (fun s x => ?_) _ _
  (repeat' split) <;> simp

@[simp] theorem State.bump_tick (s : State) (k hi lo n : Nat) : (s.bump k hi lo n).tick = s.tick := by
  simp [State.bump]

@[simp] theorem State.dfound_tick (s : State) (d : Nat) (c : Cls3) (finder k syn : Nat) :
    (s.dfound d c finder k syn).tick = s.tick := by
  unfold State.dfound
  split <;> simp

@[simp] theorem State.dput_tick (s : State) (d k : Nat) (g : Gran) : (s.dput d k g).tick = s.tick := by
  unfold State.dput
  dsimp only
  (repeat' split) <;> simp

@[simp] theorem State.dread_tick (s : State) (d finder k : Nat) : (s.dread d finder k).1.tick = s.tick := by
  unfold State.dread
  dsimp only
  (repeat' split) <;> simp

@[simp] theorem State.dsweep_tick (s : State) (d p n : Nat) : (s.dsweep d p n).tick = s.tick := by
  unfold State.dsweep
  exact foldl_tick (fun s x => by simp) _ _

@[simp] theorem State.sourceReads_tick (s : State) (src : Word) (nw : Nat) :
    (s.sourceReads src nw).tick = s.tick := by
  unfold State.sourceReads
  (repeat' split) <;> simp

@[simp] theorem State.fwRefused_tick (s : State) : s.fwRefused.tick = s.tick := by simp [State.fwRefused]

@[simp] theorem State.fwFail_tick (s : State) : s.fwFail.tick = s.tick := by simp [State.fwFail]

@[simp] theorem State.imgchk_tick (s : State) (c : Nat × Nat) (kind : Nat) : (s.imgchk c kind).tick = s.tick := by
  simp [State.imgchk]

@[simp] theorem State.flashWords_tick (s : State) (a : Nat) (l : List Word) : (s.flashWords a l).tick = s.tick := by
  simp [State.flashWords]

@[simp] theorem State.setFlag_tick (s : State) (d p v : Nat) : (s.setFlag d p v).tick = s.tick := by
  simp [State.setFlag]

@[simp] theorem State.setTxep_tick (s : State) (n old new : Nat) (sw : Tick) :
    (s.setTxep n old new sw).tick = s.tick := by simp [State.setTxep]

@[simp] theorem State.switchChannels_tick (s : State) (x : ImgTile) (old new : Nat) (sw : Tick) :
    (s.switchChannels x old new sw).tick = s.tick := by
  unfold State.switchChannels
  exact foldl_tick (fun s x => by split <;> simp) _ _

@[simp] theorem State.singleReceivers_tick (s : State) (im : Image) (lt e : Nat) :
    (s.singleReceivers im lt e).tick = s.tick := by
  unfold State.singleReceivers
  exact foldl_tick (fun s x => by split <;> simp) _ _

@[simp] theorem State.dropDetour_tick (s : State) (d : Nat) (x : Detour) : (s.dropDetour d x).tick = s.tick := by
  unfold State.dropDetour
  (repeat' split) <;> simp

@[simp] theorem State.dropDetours_tick (s : State) (d : Nat) : (s.dropDetours d).tick = s.tick := by
  unfold State.dropDetours
  exact foldl_tick (fun s x => by simp) _ _

@[simp] theorem State.setHealthy_tick (s : State) (l : List Nat) : (s.setHealthy l).tick = s.tick := by
  unfold State.setHealthy
  exact foldl_tick (fun s x => by simp) _ _

@[simp] theorem State.resetMaster_tick (s : State) (m trans beats lastBeats : Nat) :
    (s.resetMaster m trans beats lastBeats).tick = s.tick := by
  unfold State.resetMaster
  dsimp only
  (repeat' split) <;> simp

@[simp] theorem State.fwRestart_tick (s : State) (d : Nat) : (s.fwRestart d).tick = s.tick := by
  simp [State.fwRestart]

@[simp] theorem State.akLost_tick (s : State) : s.akLost.tick = s.tick := by
  unfold State.akLost
  split <;> simp

@[simp] theorem State.leadTo_tick (s : State) (d : Nat) : (s.leadTo d).tick = s.tick := by
  unfold State.leadTo
  dsimp only
  (repeat' split) <;> simp

@[simp] theorem State.fwNext_tick (s : State) : s.fwNext.tick = s.tick := by
  unfold State.fwNext
  dsimp only
  (repeat' split) <;> simp

/-- A firmware start fails or goes on with its next step. Checking the image would have the kernel walk up to 1,864,135 words;
the check is therefore generalised, in a lemma of its own. -/
theorem State.fwStart_cases (s : State) :
    ∃ u : State, u.tick = s.tick ∧ (s.fwStart = u.fwFail ∨ s.fwStart = u.fwNext) := by
  generalize hg : State.fwStart = g
  delta State.fwStart at hg
  subst hg
  beta_reduce
  generalize State.fwCheck = check
  revert check
  as_aux_lemma =>
    intro check
    dsimp only
    split
    · exact ⟨_, by simp, .inl rfl⟩
    · exact ⟨_, by simp, .inr rfl⟩

@[simp] theorem State.fwStart_tick (s : State) : s.fwStart.tick = s.tick := by
  obtain ⟨u, hu, h | h⟩ := s.fwStart_cases <;> rw [h] <;> simp [hu]

@[simp] theorem State.fwCmd_tick (s : State) (w : Word) : (s.fwCmd w).tick = s.tick := by
  unfold State.fwCmd
  dsimp only
  (repeat' split) <;> simp

@[simp] theorem State.netNext_tick (s : State) (d : Nat) : (s.netNext d).tick = s.tick := by
  unfold State.netNext
  dsimp only
  (repeat' split) <;> simp

@[simp] theorem State.netWrite_tick (s : State) (d : Nat) (w : Word) : (s.netWrite d w).tick = s.tick := by
  simp [State.netWrite]

@[simp] theorem State.bistWrite_tick (s : State) (d : Nat) (w : Word) : (s.bistWrite d w).tick = s.tick := by
  unfold State.bistWrite
  dsimp only
  (repeat' split) <;> simp

@[simp] theorem State.stackLost_tick (s : State) (d cause : Nat) : (s.stackLost d cause).tick = s.tick := by
  unfold State.stackLost
  simp [foldl_tick, apply_ite State.tick]

@[simp] theorem State.profNext_tick (s : State) (d : Nat) : (s.profNext d).tick = s.tick := by
  unfold State.profNext
  dsimp only
  (repeat' split) <;> simp

@[simp] theorem State.profWrite_tick (s : State) (d : Nat) (w : Word) : (s.profWrite d w).tick = s.tick := by
  simp [State.profWrite]

@[simp] theorem State.eqStat_tick (s : State) (n : Nat) : (s.eqStat n).1.tick = s.tick := by
  unfold State.eqStat
  split <;> simp

@[simp] theorem State.eqWrite_tick (s : State) (r : RegSpec) (k : Nat) (w : Word) :
    (s.eqWrite r k w).tick = s.tick := by
  unfold State.eqWrite
  (repeat' split) <;> simp

@[simp] theorem State.regPut_tick (s : State) (m addr : Nat) (b : Block) (r : RegSpec) (k : Nat) (w : Word) :
    (s.regPut m addr b r k w).tick = s.tick := by
  unfold State.regPut
  dsimp only
  (repeat' split) <;> simp

@[simp] theorem State.regWrite_tick (s : State) (m addr : Nat) (w : Word) :
    (s.regWrite m addr w).1.tick = s.tick := by
  unfold State.regWrite
  (repeat' split) <;> simp

@[simp] theorem State.tileRegWrite_tick (s : State) (m d p o named : Nat) (w : Word) :
    (s.tileRegWrite m d p o named w).1.tick = s.tick := by
  unfold State.tileRegWrite
  dsimp only
  (repeat' split) <;> simp

@[simp] theorem State.dataAccess_tick (s : State) (m d p a named : Nat) (write : Bool) (w : Word) (coin : Bool) :
    (s.dataAccess m d p a named write w coin).1.tick = s.tick := by
  unfold State.dataAccess
  dsimp only
  (repeat' split) <;> simp

@[simp] theorem State.tileWrite_tick (s : State) (m d p a named : Nat) (w : Word) (coin : Bool) :
    (s.tileWrite m d p a named w coin).1.tick = s.tick := by
  unfold State.tileWrite
  (repeat' split) <;> simp

@[simp] theorem State.tilesWrite_tick (s : State) (m addr : Nat) (w : Word) :
    (s.tilesWrite m addr w).1.tick = s.tick := by
  unfold State.tilesWrite
  split
  · rfl
  · split
    · split
      · simp
      · exact foldl_fst_tick (fun p x => by simp) _ _
    · rfl

end Sys2Proof.Machine
end

section
/-!
SUPPORT. The tick number stands: the crossroads, its words and bursts, and the memory ports.
-/
namespace Sys2Proof.Machine

@[simp] theorem State.dwrite_tick (s : State) (d k : Nat) (x : BitVec 72) : (s.dwrite d k x).tick = s.tick := by
  simp [State.dwrite]

@[simp] theorem State.dmerge_tick (s : State) (d finder k : Nat) (mask x : BitVec 72) :
    (s.dmerge d finder k mask x).tick = s.tick := by
  unfold State.dmerge
  dsimp only
  (repeat' split) <;> simp

@[simp] theorem State.dwords_tick (s : State) (d finder p w : Nat) (l : List Word) :
    (s.dwords d finder p w l).tick = s.tick := by
  fun_induction State.dwords <;> simp_all

@[simp] theorem State.takeSlots_tick (s : State) (d row n : Nat) : (s.takeSlots d row n).tick = s.tick := by
  simp [State.takeSlots]

@[simp] theorem State.winWrite_tick (s : State) (addr : Nat) (l : List Word) :
    (s.winWrite addr l).1.tick = s.tick := by
  unfold State.winWrite
  dsimp only
  (repeat' split) <;> simp

@[simp] theorem State.busDram_tick (s : State) (m addr : Nat) (l : List Word) :
    (s.busDram m addr l).1.tick = s.tick := by
  unfold State.busDram
  dsimp only
  (repeat' split) <;> simp

@[simp] theorem State.busWrite_tick (s : State) (m addr : Nat) (w : Word) :
    (s.busWrite m addr w).1.tick = s.tick := by
  unfold State.busWrite
  dsimp only
  (repeat' split) <;> simp

theorem State.once_tick (s : State) (d k : Nat) {f : State → State} (hf : ∀ s, (f s).tick = s.tick) :
    (s.once d k f).tick = s.tick := by
  unfold State.once
  split
  · rfl
  · rw [hf, State.onDie_tick]

@[simp] theorem State.unitsOn_tick (s : State) (l dir cls n : Nat) : (s.unitsOn l dir cls n).tick = s.tick := by
  simp [State.unitsOn]

@[simp] theorem State.crossOn_tick (s : State) (a b cls n m : Nat) (path : List Nat) :
    (s.crossOn a b cls n m path).tick = s.tick := by
  unfold State.crossOn
  simp [foldl_tick, apply_ite State.tick]

@[simp] theorem State.xrCross_tick (s s0 : State) (m addr out back : Nat) :
    (s.xrCross s0 m addr out back).tick = s.tick := by
  unfold State.xrCross
  (repeat' split) <;> simp

@[simp] theorem State.record_tick (s : State) (m addr code : Nat) : (s.record m addr code).tick = s.tick := by
  unfold State.record
  split <;> simp

@[simp] theorem State.xrWrite_tick (s : State) (m addr : Nat) (w : Word) : (s.xrWrite m addr w).1.tick = s.tick := by
  simp [State.xrWrite]

@[simp] theorem State.readTick0_tick (s : State) (m : Nat) : (s.readTick0 m).1.tick = s.tick := by
  simp [State.readTick0]

@[simp] theorem State.setLatch_tick (s : State) (m : Nat) (x : Option Latch) : (s.setLatch m x).tick = s.tick := by
  simp [State.setLatch]

@[simp] theorem State.win0_tick (s : State) (m : Nat) : (s.win0 m).1.tick = s.tick := by
  unfold State.win0
  dsimp only
  (repeat' split) <;> simp

@[simp] theorem State.wchk_tick (s : State) (m : Nat) : (s.wchk m).1.tick = s.tick := by
  unfold State.wchk
  dsimp only
  (repeat' split) <;> simp

@[simp] theorem State.regView_tick (s : State) (m addr : Nat) (b : Block) (r : RegSpec) (k : Nat) :
    (s.regView m addr b r k).1.tick = s.tick := by
  unfold State.regView
  dsimp only
  (repeat' split) <;> simp

@[simp] theorem State.regRead_tick (s : State) (m addr : Nat) : (s.regRead m addr).1.tick = s.tick := by
  unfold State.regRead
  (repeat' split) <;> simp

@[simp] theorem State.tileRead_tick (s : State) (m d p a named : Nat) (coin : Bool) :
    (s.tileRead m d p a named coin).1.tick = s.tick := by
  unfold State.tileRead
  (repeat' split) <;> simp

@[simp] theorem State.tilesRead_tick (s : State) (m addr : Nat) : (s.tilesRead m addr).1.tick = s.tick := by
  unfold State.tilesRead
  (repeat' split) <;> simp

@[simp] theorem State.dword_tick (s : State) (d finder p w : Nat) : (s.dword d finder p w).1.tick = s.tick := by
  simp [State.dword]

@[simp] theorem State.dreads_tick (s : State) (d finder p w n : Nat) :
    (s.dreads d finder p w n).1.tick = s.tick := by
  fun_induction State.dreads with
  | case1 => rfl
  | case2 => simp +zetaDelta
  | case3 _ _ _ _ _ _ ih => simp +zetaDelta [ih]
  | case4 _ _ _ _ _ _ ih => simp +zetaDelta [ih]

@[simp] theorem State.winRead_tick (s : State) (addr n : Nat) : (s.winRead addr n).1.tick = s.tick := by
  unfold State.winRead
  (repeat' split) <;> simp

@[simp] theorem State.busDramRead_tick (s : State) (m addr n : Nat) : (s.busDramRead m addr n).1.tick = s.tick := by
  unfold State.busDramRead
  dsimp only
  (repeat' split) <;> simp

@[simp] theorem State.busRead_tick (s : State) (m addr : Nat) : (s.busRead m addr).1.tick = s.tick := by
  unfold State.busRead
  dsimp only
  (repeat' split) <;> simp

@[simp] theorem State.xrRead_tick (s : State) (m addr : Nat) : (s.xrRead m addr).1.tick = s.tick := by
  simp [State.xrRead]

@[simp] theorem State.beatsWrite_tick (s : State) (m a : Nat) (l : List Word) :
    (s.beatsWrite m a l).1.tick = s.tick := by
  fun_induction State.beatsWrite with
  | case1 => simp +zetaDelta
  | case2 _ _ _ _ _ _ _ _ ih => simp +zetaDelta [ih]
  | case3 => rfl

@[simp] theorem State.wordsWrite_tick (s : State) (m a : Nat) (l : List Word) :
    (s.wordsWrite m a l).1.tick = s.tick := by
  induction l generalizing s a with
  | nil => rfl
  | cons w l ih =>
    rw [State.wordsWrite]
    dsimp only
    split <;> simp [ih]

@[simp] theorem State.burstWrite_tick (s : State) (m addr : Nat) (l : List Word) :
    (s.burstWrite m addr l).1.tick = s.tick := by
  unfold State.burstWrite
  split <;> simp

@[simp] theorem State.beatsRead_tick (s : State) (m a n : Nat) : (s.beatsRead m a n).1.tick = s.tick := by
  induction n generalizing s a with
  | zero => rfl
  | succ n ih => simp [State.beatsRead, ih]

@[simp] theorem State.wordsRead_tick (s : State) (m a n : Nat) : (s.wordsRead m a n).1.tick = s.tick := by
  induction n generalizing s a with
  | zero => rfl
  | succ n ih => simp [State.wordsRead, ih]

@[simp] theorem State.burstRead_tick (s : State) (m addr beats : Nat) :
    (s.burstRead m addr beats).1.tick = s.tick := by
  unfold State.burstRead
  split <;> simp

@[simp] theorem State.burst_tick (s : State) (m addr beats : Nat) (write : Bool) (data : List Word) :
    (s.burst m addr beats write data).1.tick = s.tick := by
  unfold State.burst
  (repeat' split) <;> simp

@[simp] theorem State.transact_tick (s : State) (m addr beats : Nat) (write : Bool) (data : List Word) :
    (s.transact m addr beats write data).1.tick = s.tick := by
  unfold State.transact
  (repeat' split) <;> simp

@[simp] theorem State.actFor_tick (s : State) (m : Option Nat) : (s.actFor m).tick = s.tick := by simp [State.actFor]

@[simp] theorem State.answer_tick (s : State) (m code : Nat) (l : List Word) : (s.answer m code l).tick = s.tick := by
  unfold State.answer
  split <;> simp

@[simp] theorem State.perform_tick (s : State) (r : XrReq) : (s.perform r).tick = s.tick := by
  unfold State.perform
  dsimp only
  (repeat' split) <;> simp

@[simp] theorem State.turns_tick (s : State) (port n : Nat) : (s.turns port n).tick = s.tick := by
  induction n generalizing s with
  | zero => rfl
  | succ n ih =>
    rw [State.turns]
    split <;> simp [ih]

@[simp] theorem State.memPorts_tick (s : State) : s.memPorts.tick = s.tick := by
  unfold State.memPorts
  exact foldl_tick (fun s x => by simp) _ _

end Sys2Proof.Machine
end

section
/-!
SUPPORT. The tick number stands: the steps that a milestone takes of flash, keys, history, frames and swaps.
-/
namespace Sys2Proof.Machine

@[simp] theorem State.ledgerWrite_tick (s : State) : s.ledgerWrite.tick = s.tick := by
  unfold State.ledgerWrite
  split <;> simp

@[simp] theorem State.flashSteps_tick (s : State) : s.flashSteps.tick = s.tick := by
  unfold State.flashSteps
  dsimp only
  (repeat' split) <;> simp

@[simp] theorem State.attest_tick (s : State) (m : Nat) : (s.attest m).tick = s.tick := by
  unfold State.attest
  dsimp only
  (repeat' split) <;> simp

@[simp] theorem State.oneOwner_tick (s : State) (key : List Byte) (ht : Nat) : (s.oneOwner key ht).tick = s.tick := by
  simp [State.oneOwner]

@[simp] theorem State.leaveService_tick (s : State) : s.leaveService.tick = s.tick := by simp [State.leaveService]

@[simp] theorem State.lcEffects_tick (s : State) (q : LcReq) : (s.lcEffects q).tick = s.tick := by
  unfold State.lcEffects
  (repeat' split) <;> simp

@[simp] theorem State.wipeStart_tick (s : State) (d cause : Nat) : (s.wipeStart d cause).tick = s.tick := by
  simp [State.wipeStart]

@[simp] theorem State.wipeAll_tick (s : State) (cause : Nat) : (s.wipeAll cause).tick = s.tick := by
  unfold State.wipeAll
  exact foldl_tick (fun s x => by simp) _ _

@[simp] theorem State.drawSeeds_tick (s : State) : s.drawSeeds.1.tick = s.tick := by simp [State.drawSeeds]

@[simp] theorem State.showIdentity_tick (s : State) : s.showIdentity.tick = s.tick := by simp [State.showIdentity]

@[simp] theorem State.makeIdentity_tick (s : State) : s.makeIdentity.tick = s.tick := by simp [State.makeIdentity]

@[simp] theorem State.lcFuses_tick (s : State) (q : LcReq) : (s.lcFuses q).tick = s.tick := by
  unfold State.lcFuses
  split
  · simp
  · split
    · simp
    · split
      · rw [State.wf_tick]
      · rfl

@[simp] theorem State.transition_tick (s : State) (q : LcReq) : (s.transition q).tick = s.tick := by
  simp [State.transition]

@[simp] theorem State.lcCmd_tick (s : State) (m op : Nat) (nonce : Option (List Byte)) :
    (s.lcCmd m op nonce).tick = s.tick := by
  unfold State.lcCmd
  dsimp only
  (repeat' split) <;> simp

@[simp] theorem State.secSteps_tick (s : State) : s.secSteps.tick = s.tick := by
  unfold State.secSteps
  dsimp only
  refine foldl_tick (fun s x => ?_) _ _
  (repeat' split) <;> simp

@[simp] theorem State.setHist_tick (s : State) (d g : Nat) (h : HistSt) : (s.setHist d g h).tick = s.tick := by
  simp [State.setHist]

@[simp] theorem State.histBegin_tick (s : State) : s.histBegin.tick = s.tick := by
  unfold State.histBegin
  simp [foldl_tick, apply_ite State.tick]

@[simp] theorem State.depositFrom_tick (s : State) (n : Nat) (tick : Tick) (i : Nat) (words : List Word) (coin : Bool) :
    (s.depositFrom n tick i words coin).tick = s.tick := by
  unfold State.depositFrom
  exact foldl_tick (fun s x => by simp) _ _

@[simp] theorem State.deposit_tick (s : State) (n : Nat) (tick : Tick) (words : List Word) (coin : Bool) :
    (s.deposit n tick words coin).tick = s.tick := by simp [State.deposit]

@[simp] theorem State.noFrame_tick (s : State) (n : Nat) (tick : Tick) (coin : Bool) :
    (s.noFrame n tick coin).tick = s.tick := by
  unfold State.noFrame
  dsimp only
  (repeat' split) <;> simp

@[simp] theorem State.frameEnd_tick (s : State) (n : Nat) (f : RxFrame) (coin : Bool) :
    (s.frameEnd n f coin).tick = s.tick := by
  unfold State.frameEnd
  dsimp only
  (repeat' split) <;> simp

@[simp] theorem State.tickEnd_tick (s : State) (n : Nat) (tick : Tick) (f : Option RxFrame) (coin : Bool) :
    (s.tickEnd n tick f coin).tick = s.tick := by
  unfold State.tickEnd
  (repeat' split) <;> simp

@[simp] theorem State.framePut_tick (s : State) (n : Nat) (f : RxFrame) (coin : Bool) :
    (s.framePut n f coin).1.tick = s.tick := by
  unfold State.framePut
  dsimp only
  (repeat' split) <;> simp

@[simp] theorem State.alignStep_tick (s : State) (n : Nat) : (s.alignStep n).tick = s.tick := by
  unfold State.alignStep
  dsimp only
  (repeat' split) <;> simp [foldl_tick]

@[simp] theorem State.alignSteps_tick (s : State) : s.alignSteps.tick = s.tick := by
  unfold State.alignSteps
  exact foldl_tick (fun s x => by simp) _ _

@[simp] theorem State.bringUps_tick (s : State) : s.bringUps.tick = s.tick := by
  unfold State.bringUps
  exact foldl_tick (fun s x => by simp) _ _

@[simp] theorem State.slotsClear_tick (s : State) (n : Nat) : (s.slotsClear n).tick = s.tick := by
  simp [State.slotsClear]

@[simp] theorem State.setChannel_tick (s : State) (e : ImgEgress) : (s.setChannel e).tick = s.tick := by
  unfold State.setChannel
  simp [foldl_tick]

@[simp] theorem State.swapChannels_tick (s : State) (d : Nat) (old new : Image) (a : Tick) :
    (s.swapChannels d old new a).tick = s.tick := by
  unfold State.swapChannels
  dsimp only
  refine foldl_tick (fun s x => ?_) _ _
  (repeat' split) <;> simp

@[simp] theorem State.swapAtMilestone_tick (s : State) : s.swapAtMilestone.tick = s.tick := by
  unfold State.swapAtMilestone
  (repeat' split) <;> simp [foldl_tick, apply_ite State.tick]

@[simp] theorem State.dualSteps_tick (s : State) : s.dualSteps.tick = s.tick := by
  unfold State.dualSteps
  exact foldl_tick (fun s x => by simp) _ _

@[simp] theorem State.noteDual_tick (s : State) (d p : Nat) (l : List Nat) (sw : Tick) :
    (s.noteDual d p l sw).tick = s.tick := by simp [State.noteDual]

@[simp] theorem State.dualInb_tick (s : State) (d p i old new : Nat) (sw : Tick) :
    (s.dualInb d p i old new sw).tick = s.tick := by simp [State.dualInb]

@[simp] theorem State.switchComing_tick (s : State) (im : Image) (lt old new : Nat) (sw : Tick) :
    (s.switchComing im lt old new sw).tick = s.tick := by
  unfold State.switchComing
  refine foldl_tick (fun s x => ?_) _ _
  split
  · split <;> simp
  · rfl

end Sys2Proof.Machine
end

section
/-!
SUPPORT. The tick number stands: detours, staged fields, domains and links at a milestone.
-/
namespace Sys2Proof.Machine

@[simp] theorem State.countWord_tick (s : State) (d : Nat) (x : FlitAt) : (s.countWord d x).tick = s.tick := by
  simp [State.countWord]

@[simp] theorem State.reach_tick (s : State) (d p : Nat) : (s.reach d p).tick = s.tick := by
  unfold State.reach
  simp only [State.onTile_tick]
  exact foldl_fst_tick (fun q x => by split <;> simp) _ _

@[simp] theorem State.substitutes_tick (s : State) (d : Nat) (x : Detour) : (s.substitutes d x).tick = s.tick := by
  unfold State.substitutes
  (repeat' split) <;> simp [foldl_tick]

@[simp] theorem State.detourMove_tick (s : State) (d : Nat) (x : Detour) : (s.detourMove d x).tick = s.tick := by
  unfold State.detourMove
  (repeat' split) <;> simp

@[simp] theorem State.testSuspect_tick (s : State) (d : Nat) : (s.testSuspect d).tick = s.tick := by
  unfold State.testSuspect
  split <;> simp

@[simp] theorem State.endDetour_tick (s : State) (d : Nat) (x : Detour) : (s.endDetour d x).tick = s.tick := by
  unfold State.endDetour
  split <;> simp

@[simp] theorem State.detourStep_tick (s : State) (d : Nat) (x : Detour) : (s.detourStep d x).tick = s.tick := by
  unfold State.detourStep
  dsimp only
  (repeat' split) <;> simp

@[simp] theorem State.detourSteps_tick (s : State) : s.detourSteps.tick = s.tick := by
  unfold State.detourSteps
  simp [foldl_tick, apply_ite State.tick]

@[simp] theorem State.tilesAt_tick (s : State) : s.tilesAt.tick = s.tick := by
  unfold State.tilesAt
  exact foldl_tick (fun s x => by simp) _ _

@[simp] theorem State.put_tick (s : State) (x : Stage) : (s.put x).tick = s.tick := by simp [State.put]

@[simp] theorem State.wb_tick (s : State) (k i : Nat) (v : Bool) : (s.wb k i v).tick = s.tick := by simp [State.wb]

@[simp] theorem State.activePref_tick (s : State) : s.activePref.tick = s.tick := by
  unfold State.activePref
  split <;> simp

@[simp] theorem State.putTim_tick (s : State) (x : Stage) : (s.putTim x).tick = s.tick := by
  unfold State.putTim
  dsimp only
  (repeat' split) <;> simp

@[simp] theorem State.thermal_tick (s : State) (anew : Bool) : (s.thermal anew).tick = s.tick := by
  simp [State.thermal]

@[simp] theorem State.setCeil_tick (s : State) (c : Nat) : (s.setCeil c).tick = s.tick := by simp [State.setCeil]

@[simp] theorem State.putMode_tick (s : State) (x : Stage) : (s.putMode x).tick = s.tick := by simp [State.putMode]

@[simp] theorem State.setDom_tick (s : State) (d i v : Nat) : (s.setDom d i v).tick = s.tick := by
  unfold State.setDom
  split <;> simp

@[simp] theorem State.dieOff_tick (s : State) (d i : Nat) : (s.dieOff d i).tick = s.tick := by
  unfold State.dieOff
  split <;> simp

@[simp] theorem State.unload_tick (s : State) (d p : Nat) : (s.unload d p).tick = s.tick := by simp [State.unload]

@[simp] theorem State.setPhase_tick (s : State) (n : Nat) (phase : Int) : (s.setPhase n phase).tick = s.tick := by
  simp [State.setPhase]

@[simp] theorem State.frameStart_tick (s : State) (n : Nat) (tick : Tick) (phase : Int) :
    (s.frameStart n tick phase).1.tick = s.tick := by
  unfold State.frameStart
  dsimp only
  (repeat' split) <;> simp

@[simp] theorem State.frameStep_tick (s : State) (n : Nat) (tick : Tick) (phase : Int) (coin : Bool) :
    (s.frameStep n tick phase coin).tick = s.tick := by
  have hstart := s.frameStart_tick n tick phase
  unfold State.frameStep
  split
  case h_1 s1 h => rw [h] at hstart; exact hstart
  case h_2 s1 f h =>
    rw [h] at hstart
    dsimp only at hstart ⊢
    split <;> simp [hstart]

@[simp] theorem State.frameCut_tick (s : State) (n : Nat) : (s.frameCut n).tick = s.tick := by
  unfold State.frameCut
  split <;> simp

@[simp] theorem State.retrainLink_tick (s : State) (n : Nat) (rate : Bool) :
    (s.retrainLink n rate).tick = s.tick := by simp [State.retrainLink]

@[simp] theorem State.linkDown_tick (s : State) (l : Nat) : (s.linkDown l).tick = s.tick := by
  simp [State.linkDown, State.ibkBoth_tick]

@[simp] theorem State.ibkOff_tick (s : State) (l : Nat) : (s.ibkOff l).tick = s.tick := by
  unfold State.ibkOff
  split <;> simp

@[simp] theorem State.leadFails_tick (s : State) : s.leadFails.tick = s.tick := by
  unfold State.leadFails
  (repeat' split) <;> simp

@[simp] theorem State.domainOff_tick (s : State) (d i : Nat) : (s.domainOff d i).tick = s.tick := by
  unfold State.domainOff
  simp [foldl_tick, apply_ite State.tick]

@[simp] theorem State.domainSet_tick (s : State) (d i a bit : Nat) (on : Bool) (v : Word) :
    (s.domainSet d i a bit on v).tick = s.tick := by
  unfold State.domainSet
  dsimp only
  (repeat' split) <;> simp

@[simp] theorem State.domainsCommit_tick (s : State) (st : Stage) : (s.domainsCommit st).tick = s.tick := by
  unfold State.domainsCommit
  simp [foldl_tick, apply_ite State.tick]

@[simp] theorem State.putHcfg_tick (s : State) (x : Stage) : (s.putHcfg x).tick = s.tick := by
  unfold State.putHcfg
  dsimp only
  (repeat' split) <;> simp

@[simp] theorem State.putGroup_tick (s : State) (x : Stage) : (s.putGroup x).tick = s.tick := by
  unfold State.putGroup
  simp [foldl_tick, apply_ite State.tick]

@[simp] theorem State.putLinkCfg_tick (s : State) (n : Nat) (x : Stage) : (s.putLinkCfg n x).tick = s.tick := by
  unfold State.putLinkCfg
  dsimp only
  (repeat' split) <;> simp

@[simp] theorem State.putLink_tick (s : State) (x : Stage) : (s.putLink x).tick = s.tick := by
  unfold State.putLink
  dsimp only
  (repeat' split) <;> simp

@[simp] theorem State.putStage_tick (s : State) (x : Stage) : (s.putStage x).tick = s.tick := by
  unfold State.putStage
  (repeat' split) <;> simp

@[simp] theorem State.pendingDone_tick (s : State) : s.pendingDone.tick = s.tick := by
  unfold State.pendingDone
  exact foldl_tick (fun s x => by split <;> simp) _ _

@[simp] theorem State.flipAt_tick (s : State) (d lo hi : Nat) : (s.flipAt d lo hi).tick = s.tick := by
  unfold State.flipAt
  dsimp only
  (repeat' split) <;> simp

@[simp] theorem State.histClear_tick (s : State) (d g : Nat) : (s.histClear d g).tick = s.tick := by
  simp [State.histClear]

@[simp] theorem State.fieldsApply_tick (s : State) : s.fieldsApply.tick = s.tick := by
  unfold State.fieldsApply
  simp [foldl_tick, apply_ite State.tick]

@[simp] theorem State.reachAll_tick (s : State) : s.reachAll.tick = s.tick := by
  unfold State.reachAll
  exact foldl_tick (fun s x => by simp) _ _

@[simp] theorem State.tickNew_tick (s : State) : s.tickNew.tick = s.tick := by
  unfold State.tickNew
  simp [foldl_tick, apply_ite State.tick]

@[simp] theorem State.skew_tick (s : State) : s.skew.tick = s.tick := by
  unfold State.skew
  split <;> simp

@[simp] theorem State.slew_tick (s : State) : s.slew.tick = s.tick := by
  unfold State.slew
  dsimp only
  (repeat' split) <;> simp

@[simp] theorem State.choose_tick (s : State) : s.choose.tick = s.tick := by
  unfold State.choose
  dsimp only
  (repeat' split) <;> simp




@[simp] theorem State.restore_tick (s : State) (d : Nat) : (s.restore d).tick = s.tick := by
  unfold State.restore
  (repeat' split) <;> simp

@[simp] theorem State.restoreAll_tick (s : State) : s.restoreAll.tick = s.tick := by
  unfold State.restoreAll
  exact foldl_tick (fun s x => by simp) _ _




end Sys2Proof.Machine
end

section
/-!
SUPPORT. The number that a milestone takes (R53, R54).
-/
namespace Sys2Proof.Machine

/-! The stacks that go on with their restoring as a tick ends leave a number loaded by a TICKSET. -/

theorem foldl_tickLoad {α : Type} {f : State → α → State} (hf : ∀ s x, (f s x).tickLoad = s.tickLoad) (l : List α) (s : State) :
    (l.foldl f s).tickLoad = s.tickLoad := by
  induction l generalizing s with
  | nil => rfl
  | cons x l ih => rw [List.foldl_cons, ih, hf]

@[simp] theorem State.wf_tickLoad (s : State) (k hi lo v : Nat) : (s.wf k hi lo v).tickLoad = s.tickLoad := by simp [State.wf]

@[simp] theorem State.wb_tickLoad (s : State) (k i : Nat) (v : Bool) : (s.wb k i v).tickLoad = s.tickLoad := by
  simp [State.wb]

@[simp] theorem State.takeSlots_tickLoad (s : State) (d row n : Nat) : (s.takeSlots d row n).tickLoad = s.tickLoad := by
  simp [State.takeSlots]

@[simp] theorem State.bump_tickLoad (s : State) (k hi lo n : Nat) : (s.bump k hi lo n).tickLoad = s.tickLoad := by
  simp [State.bump]

@[simp] theorem State.dfound_tickLoad (s : State) (d : Nat) (c : Cls3) (finder k syn : Nat) :
    (s.dfound d c finder k syn).tickLoad = s.tickLoad := by
  unfold State.dfound
  split <;> simp

@[simp] theorem State.dput_tickLoad (s : State) (d k : Nat) (g : Gran) : (s.dput d k g).tickLoad = s.tickLoad := by
  unfold State.dput
  dsimp only
  (repeat' split) <;> simp

@[simp] theorem State.dread_tickLoad (s : State) (d finder k : Nat) : (s.dread d finder k).1.tickLoad = s.tickLoad := by
  unfold State.dread
  dsimp only
  (repeat' split) <;> simp

@[simp] theorem State.dsweep_tickLoad (s : State) (d p n : Nat) : (s.dsweep d p n).tickLoad = s.tickLoad := by
  unfold State.dsweep
  exact foldl_tickLoad (fun s x => by simp) _ _

@[simp] theorem State.flipAt_tickLoad (s : State) (d lo hi : Nat) : (s.flipAt d lo hi).tickLoad = s.tickLoad := by
  unfold State.flipAt
  dsimp only
  (repeat' split) <;> simp

@[simp] theorem State.restore_tickLoad (s : State) (d : Nat) : (s.restore d).tickLoad = s.tickLoad := by
  unfold State.restore
  (repeat' split) <;> simp

@[simp] theorem State.restoreAll_tickLoad (s : State) : s.restoreAll.tickLoad = s.tickLoad := by
  unfold State.restoreAll
  exact foldl_tickLoad (fun s x => by simp) _ _

/-- The number loaded, else the number after the tick's. -/
theorem State.nextTick_eq (s : State) : s.nextTick = s.tickLoad.getD (s.tick + 1) := by
  unfold State.nextTick
  cases s.tickLoad <;> rfl

@[simp] theorem State.nextTick_restoreAll (s : State) : s.restoreAll.nextTick = s.nextTick := by
  simp [State.nextTick_eq]

theorem State.timeStep_tick (s : State) : s.timeStep.tick = s.nextTick := by
  unfold State.timeStep
  rfl

/-- The tick number advances once at a milestone, in its timing part. -/
theorem State.atMilestone_tick (s : State) : s.atMilestone.tick = s.nextTick := by
  simp [State.atMilestone, State.timeStep_tick]

/-- A milestone takes the next number (R53). -/
theorem milestone_tick {s : State} (h : s.held = false) : ∃ u, exec .milestone s = .next u ∧ u.tick = s.nextTick := by
  refine ⟨s.keepQueue (s.atMilestone.memPorts.oneCycle s), ?_, by simp [State.atMilestone_tick]⟩
  simp [exec, execMilestone, live, onPart, h]

/-! A TICKSET that the part acts on. -/

/-- The state in which a TICKSET has loaded a number (R54). -/
def State.loadTick (s : State) (n : Tick) : State := ({ s with tickLoad := some n }).wb aTimStat 5 true

theorem State.loadTick_held (s : State) (n : Tick) : (s.loadTick n).held = s.held := rfl
theorem State.loadTick_tick (s : State) (n : Tick) : (s.loadTick n).tick = s.tick := rfl
theorem State.loadTick_nextTick (s : State) (n : Tick) : (s.loadTick n).nextTick = n := rfl

theorem State.loadTick_tickValid (s : State) (n : Tick) : (s.loadTick n).tickValid = true :=
  State.rb_wb_self _ _ _ (by decide)

theorem State.loadTick_rd_of_ne (s : State) (n : Tick) {q : Nat} (h : q ≠ aTimStat) : (s.loadTick n).rd q = s.rd q :=
  State.rd_wb_of_ne _ h

/-- With no image armed and no ARM pending, a TICKSET loads its number and sets TICKVALID (R54). -/
theorem State.message_tickset {s : State} {i : Nat} {l pl : List Byte} (hmsg : parseMsg l true = some (1, pl))
    (hon : s.actsOn i 1 = true) (harmed : s.armed = false) (harming : s.arming = false) :
    s.message i l true = s.loadTick (BitVec.ofNat 48 (beBytes pl)) := by
  simp [State.message, hmsg, hon, State.ticksetMsg, harmed, harming, State.loadTick]

end Sys2Proof.Machine
end

section
namespace Sys2Proof.Machine

/-- Settles O7: the message loads its number, and of all that a milestone does only its timing part moves the tick, to the
number loaded. -/
theorem ticksetLoadsNextTick : Obligations.TicksetLoadsNextTick := by
  intro s i l pl hheld hi hmsg hon harmed harming
  have hm := State.message_tickset hmsg hon harmed harming
  generalize BitVec.ofNat 48 (beBytes pl) = n at hm ⊢
  have hexec : exec (.tickset i l true) s = .next (s.keepQueue (s.loadTick n)) := by
    simp [exec, execTickset, live, onPart, inpOk, hi, hheld, hm]
  have hnext : (s.keepQueue (s.loadTick n)).nextTick = n := s.loadTick_nextTick n
  obtain ⟨u, hu, htick⟩ := milestone_tick (s := s.keepQueue (s.loadTick n)) hheld
  exact ⟨_, hexec, hnext, s.loadTick_tickValid n, s.loadTick_tick n, fun q hq => s.loadTick_rd_of_ne n hq,
    u, hu, htick.trans hnext⟩

end Sys2Proof.Machine
end

section
/-!
SUPPORT. What the commands that a tile performs by itself can reach: its own tile and its pair partner's, and the die's
pair-mismatch word.
-/
namespace Sys2Proof.Machine

/-! ## Issuing -/

/-- One bundle of the instruction stream reaches the tile and its pair partner. -/
theorem State.bundleIssue_pair (s : State) (d p : Nat) (t : Tile) (lvl : Nat) (i : Insn) (ms : List Move) (ext : Nat) :
    s.TilesOnly (s.pairKeys d p) d (s.bundleIssue d p t lvl i ms ext) := by
  unfold State.bundleIssue
  extract_lets keep once shape
  cases t.stepMove ms with
  | some m => exact s.stepIssue_pair d p _ _ _ _ _ _ _
  | none =>
    dsimp only
    generalize s.issueMoves d p _ _ _ _ _ _ = y
    cases y with
    | wait => exact s.stall_pair d p ext
    | trap t1 st c => exact s.setTile_pair d p _
    | ok t1 outs ctl c cost => exact s.leave_pair d p _ _

/-- BUNDLE. -/
theorem State.bundle_pair (s : State) (d p ext : Nat) : s.TilesOnly (s.pairKeys d p) d (s.bundle d p ext) := by
  have same := State.TilesOnly.refl (s.pairKeys d p) d s
  unfold State.bundle
  extract_lets t0 t lvl
  split
  · cases t.exp with
    | some x => exact s.bodyIssue_pair d p _ _ _
    | none =>
      dsimp only
      cases t.insn lvl with
      | error st => exact s.setTile_pair d p _
      | ok i =>
        dsimp only
        cases t.decodeStop lvl (!t.dryLoop) i with
        | some st => exact s.setTile_pair d p _
        | none =>
          dsimp only
          split
          · exact s.setTile_pair d p _
          · split
            · cases i.body with
              | bundle ms => exact s.bundleIssue_pair d p _ _ _ _ _
              | macro_ e o => exact same
              | loopI n nb => exact same
              | loopS src nb a => exact same
            · exact same
  · split
    · exact s.setTile_pair d p _
    · exact same

/-! ## Prefixes and macros -/

/-- The command of an instruction's lead byte reaches no more than what it does where its turn has come. -/
theorem State.atPrefix_pair (s : State) (d p : Nat) {f : Tile → Nat → Insn → State}
    (hf : ∀ t lvl i, s.TilesOnly (s.pairKeys d p) d (f t lvl i)) : s.TilesOnly (s.pairKeys d p) d (s.atPrefix d p f) := by
  unfold State.atPrefix
  extract_lets t0 t
  split
  · cases t.insn t.level with
    | error st => exact s.setTile_pair d p _
    | ok i =>
      dsimp only
      cases t.decodeStop t.level (t.runs i) i with
      | some st => exact s.setTile_pair d p _
      | none => exact hf _ _ _
  · exact State.TilesOnly.refl _ _ _

/-- A repetition begins. -/
theorem State.repBegin_pair (s : State) (d p : Nat) (t : Tile) (lvl n : Nat) (i : Insn) :
    s.TilesOnly (s.pairKeys d p) d (s.repBegin d p t lvl n i) := by
  unfold State.repBegin
  split <;> exact s.setTile_pair d p _

/-- REP.i. -/
theorem State.beginRepI_pair (s : State) (d p : Nat) : s.TilesOnly (s.pairKeys d p) d (s.beginRepI d p) := by
  refine s.atPrefix_pair d p fun t lvl i => ?_
  split
  · split
    · exact s.repBegin_pair d p _ _ _ _
    · exact State.TilesOnly.refl _ _ _
  · exact State.TilesOnly.refl _ _ _

/-- REP.s. -/
theorem State.beginRepS_pair (s : State) (d p : Nat) : s.TilesOnly (s.pairKeys d p) d (s.beginRepS d p) := by
  refine s.atPrefix_pair d p fun t lvl i => ?_
  split
  · split
    · exact s.repBegin_pair d p _ _ _ _
    · exact State.TilesOnly.refl _ _ _
  · exact State.TilesOnly.refl _ _ _

/-- LOOP.i. -/
theorem State.beginLoopI_pair (s : State) (d p : Nat) : s.TilesOnly (s.pairKeys d p) d (s.beginLoopI d p) := by
  refine s.atPrefix_pair d p fun t lvl i => ?_
  split
  · exact s.setTile_pair d p _
  · exact State.TilesOnly.refl _ _ _

/-- LOOP.s. -/
theorem State.beginLoopS_pair (s : State) (d p ext : Nat) : s.TilesOnly (s.pairKeys d p) d (s.beginLoopS d p ext) := by
  refine s.atPrefix_pair d p fun t lvl i => ?_
  split
  · extract_lets u c0 c u1 v u2
    split
    · exact s.stall_pair d p ext
    · split <;> exact s.setTile_pair d p _
  · exact State.TilesOnly.refl _ _ _

/-- SEAL. -/
theorem State.beginSeal_pair (s : State) (d p : Nat) : s.TilesOnly (s.pairKeys d p) d (s.beginSeal d p) := by
  refine s.atPrefix_pair d p fun t lvl i => ?_
  split
  · exact s.setTile_pair d p _
  · exact State.TilesOnly.refl _ _ _

/-- SIGNPOST_MACRO. -/
theorem State.beginMacro_pair (s : State) (d p : Nat) : s.TilesOnly (s.pairKeys d p) d (s.beginMacro d p) := by
  have same := State.TilesOnly.refl (s.pairKeys d p) d s
  unfold State.beginMacro
  extract_lets t0 t
  split
  · cases t.insn t.level with
    | error st => exact same
    | ok i =>
      dsimp only
      cases i.body with
      | bundle ms => exact same
      | loopI n nb => exact same
      | loopS src nb a => exact same
      | macro_ e o =>
        dsimp only
        cases t.decodeStop t.level true i with
        | some st => exact s.setTile_pair d p _
        | none =>
          dsimp only
          split
          · exact s.setTile_pair d p _
          · exact same
  · exact same

/-! ## Traps, events and routines -/

/-- TRAP_ENTRY. -/
theorem State.trapEntry_pair (s : State) (d p : Nat) : s.TilesOnly (s.pairKeys d p) d (s.trapEntry d p) := by
  unfold State.trapEntry
  extract_lets t
  split
  · exact s.setTile_pair d p _
  · exact State.TilesOnly.refl _ _ _

/-- An event is raised. -/
theorem State.raiseAsync_pair (s : State) (d p code : Nat) :
    s.TilesOnly (s.pairKeys d p) d (s.raiseAsync d p code) := by
  unfold State.raiseAsync
  extract_lets t at_
  split
  · exact State.TilesOnly.refl _ _ _
  · exact s.setTile_pair d p _

/-- An effect that takes place only under a condition reaches no more than the effect. -/
theorem State.TilesOnly.ite {l : List Nat} {d : Nat} {s t : State} (c : Prop) [Decidable c] (h : s.TilesOnly l d t) :
    s.TilesOnly l d (if c then t else s) := by
  split
  · exact h
  · exact State.TilesOnly.refl _ _ _

/-- SCRUB_STEP: nothing happens where the condition holds. -/
theorem State.TilesOnly.ite_not {l : List Nat} {d : Nat} {s t : State} (c : Prop) [Decidable c] (h : s.TilesOnly l d t) :
    s.TilesOnly l d (if c then s else t) := by
  split
  · exact State.TilesOnly.refl _ _ _
  · exact h

/-- TOLL_EVENT: the waymark of a toll event reaches no tile. -/
theorem State.tollTake_pair (s : State) (d p : Nat) : s.TilesOnly (s.pairKeys d p) d (s.tollTake d p) := by
  unfold State.tollTake
  extract_lets t
  split
  · exact State.TilesOnly.refl _ _ _
  · next w r _ => exact s.setTile_pair d p ({ t with evq := r }.countEvent w)

/-! ## The commands -/

/-- A command that is one effect on a tile and its pair completes, and isolates every other tile. -/
theorem State.TilesOnly.completes {s : State} {d p : Nat} {i : Instr} {f : State → State} (hd : d < 8) (hp : p < 73)
    (e : ∀ u, exec i u = live (dieOk d && tileOk p) u f) (h : s.TilesOnly (s.pairKeys d p) d (f s)) :
    ∃ t, exec i s = .next t ∧ s.TilesOnly (s.pairKeys d p) d t := by
  have hk : (dieOk d && tileOk p) = true := by simp [dieOk, tileOk, hd, hp]
  cases hh : s.held with
  | true => exact ⟨s, (e s).trans (live_held hh hk), State.TilesOnly.refl _ _ _⟩
  | false => exact ⟨_, (e s).trans (live_next hh hk), h⟩

/-- A tile is none of a tile and its pair partner if its key is neither's. -/
theorem State.not_mem_pairKeys {s : State} {d p k : Nat} (h : k ≠ tkey d p)
    (hr : ∀ r, s.partner d p = some r → k ≠ tkey d r) : k ∉ s.pairKeys d p := by
  intro hm
  rcases List.mem_cons.mp hm with e | hm
  · exact h e
  · obtain ⟨r, hq, e⟩ := List.mem_map.mp hm
    exact hr r (Option.mem_toList.mp hq) e.symm

/-- Each command that a tile performs by itself is one effect on it and its pair. -/
theorem ownCommand_effect (s : State) (d p ext : Nat) (coin : Bool) :
    ∀ i ∈ ([.bundle d p ext, .repI d p, .repS d p, .loopI d p, .loopS d p ext, .seal d p, .signpostMacro d p,
      .trapEntry d p, .latebus d p, .toll d p, .doorbell d p, .migrate d p, .routineBegin d p, .waitmResume d p,
      .overrun d p, .skip d p, .abandon d p, .tollEvent d p, .storeRetire d p, .writeBack d p coin, .scrubStep d p] : List Instr),
      ∃ f : State → State, (∀ u, exec i u = live (dieOk d && tileOk p) u f) ∧ s.TilesOnly (s.pairKeys d p) d (f s) := by
  have put (t : Tile) := s.setTile_pair d p t
  have async (code : Nat) := s.raiseAsync_pair d p code
  simp only [List.forall_mem_cons, List.not_mem_nil, false_imp_iff, implies_true, and_true]
  exact ⟨⟨_, fun _ => rfl, s.bundle_pair d p ext⟩, ⟨_, fun _ => rfl, s.beginRepI_pair d p⟩,
    ⟨_, fun _ => rfl, s.beginRepS_pair d p⟩, ⟨_, fun _ => rfl, s.beginLoopI_pair d p⟩,
    ⟨_, fun _ => rfl, s.beginLoopS_pair d p ext⟩, ⟨_, fun _ => rfl, s.beginSeal_pair d p⟩,
    ⟨_, fun _ => rfl, s.beginMacro_pair d p⟩, ⟨_, fun _ => rfl, s.trapEntry_pair d p⟩,
    ⟨_, fun _ => rfl, .ite _ (async _)⟩, ⟨_, fun _ => rfl, .ite _ (async _)⟩, ⟨_, fun _ => rfl, .ite _ (async _)⟩,
    ⟨_, fun _ => rfl, .ite _ (async _)⟩, ⟨_, fun _ => rfl, .ite _ (put _)⟩, ⟨_, fun _ => rfl, .ite _ (put _)⟩,
    ⟨_, fun _ => rfl, .ite _ (put _)⟩, ⟨_, fun _ => rfl, .ite _ (put _)⟩, ⟨_, fun _ => rfl, .ite _ (put _)⟩,
    ⟨_, fun _ => rfl, s.tollTake_pair d p⟩, ⟨_, fun _ => rfl, put _⟩, ⟨_, fun _ => rfl, put _⟩,
    ⟨_, fun _ => rfl, .ite_not _ (put _)⟩⟩

end Sys2Proof.Machine
end

section
namespace Sys2Proof.Machine

/-- Settles O47: each of the commands is one effect that reaches the tile and its pair partner only. -/
theorem tilesAreIsolated : Obligations.TilesAreIsolated := by
  intro s d p ext hd hp coin i hi
  obtain ⟨f, hexec, hf⟩ := ownCommand_effect s d p ext coin i hi
  obtain ⟨t, ht, hstores, htick, himg, hsec, hown, hout, hregs, htiles⟩ := State.TilesOnly.completes hd hp hexec hf
  exact ⟨t, ht, hstores, htick, himg, hsec, hown, hout, hregs,
    fun e q hne hpair => htiles e q (State.not_mem_pairKeys hne hpair)⟩

end Sys2Proof.Machine
end

section
/-!
SUPPORT. A tile's memories beside the rest of it. The operations on granules, findings, buffered stores and bcopy writes read
and write the memories, the tile registers, what waits for the memories, and the waymarks, and nothing else of a tile: they
act on a tile that has another's memories as on that other.
-/
namespace Sys2Proof.Machine

/-- The tile t with m's memories, registers, banks in force, waiting writes and waymarks. -/
def Tile.withMem (t m : Tile) : Tile :=
  { t with io := m.io, gran := m.gran, ihalf := m.ihalf, sbank := m.sbank, wb := m.wb, sb := m.sb, bcp := m.bcp,
           marks := m.marks }

namespace Tile
variable (t m : Tile)

theorem withMem_self : t.withMem t = t := (rfl)

/-! ## Operations that a tile's memories decide -/

theorem withMem_iow (k : Nat) (v : Word) : (t.withMem m).iow k v = t.withMem (m.iow k v) := (rfl)
theorem withMem_iowf (k hi lo v : Nat) : (t.withMem m).iowf k hi lo v = t.withMem (m.iowf k hi lo v) := (rfl)
theorem withMem_bump (k hi lo n : Nat) : (t.withMem m).bump k hi lo n = t.withMem (m.bump k hi lo n) := (rfl)
theorem withMem_mark (c : Nat) (x y z : Word) : (t.withMem m).mark c x y z = t.withMem (m.mark c x y z) := (rfl)
theorem withMem_gr (mem idx : Nat) : (t.withMem m).gr mem idx = m.gr mem idx := (rfl)

theorem withMem_store (mem idx : Nat) (g : Gran) : (t.withMem m).store mem idx g = t.withMem (m.store mem idx g) := by
  unfold store
  extract_lets k t2 k' m2
  have e : t2.flipDone = t.withMem m2.flipDone := (rfl)
  have hon : (t.withMem m).flipOn mem idx = m.flipOn mem idx := (rfl)
  rw [hon]
  split
  · exact e
  · rfl

theorem withMem_found (c : Cls3) (fn mem idx syn : Nat) :
    (t.withMem m).found c fn mem idx syn = t.withMem (m.found c fn mem idx syn) := by
  cases c <;> simp only [found, withMem_bump, withMem_mark, withMem_iow]

theorem withMem_queueWb (k : Nat) (d : BitVec 72) (a : Option Nat) :
    (t.withMem m).queueWb k d a = t.withMem (m.queueWb k d a) := (rfl)

theorem withMem_read (fn mem idx : Nat) :
    (t.withMem m).read fn mem idx =
      (t.withMem (m.read fn mem idx).1, (m.read fn mem idx).2.1, (m.read fn mem idx).2.2) := by
  unfold read
  have hkey : (t.withMem m).gkey mem idx = m.gkey mem idx := (rfl)
  simp only [withMem_gr, hkey, withMem_found, withMem_store, withMem_queueWb]
  generalize eccClass (memCode mem) (m.gr mem idx) = x
  obtain ⟨c, d⟩ := x
  cases c <;> rfl

theorem withMem_writeWhole (mem idx : Nat) (d : BitVec 72) :
    (t.withMem m).writeWhole mem idx d = t.withMem (m.writeWhole mem idx d) := by
  unfold writeWhole
  rw [withMem_gr]
  split
  · exact withMem_store t (m.bump 0x16 35 18 1) ..
  · exact withMem_store ..

theorem withMem_writePart (fn mem idx : Nat) (mask d : BitVec 72) :
    (t.withMem m).writePart fn mem idx mask d = t.withMem (m.writePart fn mem idx mask d) := by
  unfold writePart
  simp only [withMem_gr, withMem_found, withMem_store, withMem_bump]
  generalize eccClass (memCode mem) (m.gr mem idx) = x
  obtain ⟨c, d⟩ := x
  cases c <;> rfl

theorem withMem_write (fn mem idx : Nat) (mask d : BitVec 72) :
    (t.withMem m).write fn mem idx mask d = t.withMem (m.write fn mem idx mask d) := by
  unfold write
  split
  · exact withMem_writeWhole ..
  · exact withMem_writePart ..

theorem withMem_xcol (off agent : Nat) : (t.withMem m).xcol off agent = t.withMem (m.xcol off agent) := by
  unfold xcol
  extract_lets u1 m1
  have hior : (t.withMem m).ior 0x15 = m.ior 0x15 := (rfl)
  rw [hior]
  split <;> rfl

theorem withMem_lostWords (idx agent : Nat) (lost : BitVec 72) :
    (t.withMem m).lostWords idx agent lost = t.withMem (m.lostWords idx agent lost) := by
  unfold lostWords
  by_cases h : granWord lost 0 ≠ 0
  · simp only [if_pos h, withMem_xcol]
    split <;> rfl
  · simp only [if_neg h, withMem_xcol]
    split <;> rfl

theorem withMem_sbRetire : (t.withMem m).sbRetire = t.withMem m.sbRetire := by
  unfold sbRetire
  have hsb : (t.withMem m).sb = m.sb := (rfl)
  rw [hsb]
  cases m.sb with
  | nil => rfl
  | cons e r => exact withMem_write t { m with sb := r } ..

theorem withMem_sbUntil (c n : Nat) : (t.withMem m).sbUntil c n = t.withMem (m.sbUntil c n) := by
  induction n generalizing m with
  | zero => rfl
  | succ n ih =>
    unfold sbUntil
    have hsb : (t.withMem m).sb = m.sb := (rfl)
    have hblocked (e : SbEntry) : (t.withMem m).sbBlocked e = m.sbBlocked e := (rfl)
    rw [hsb]
    cases m.sb with
    | nil => rfl
    | cons e r =>
      simp only [hblocked]
      split
      · rw [withMem_sbRetire]
        exact ih _
      · rfl

theorem withMem_sbAt (c : Nat) : (t.withMem m).sbAt c = t.withMem (m.sbAt c) := withMem_sbUntil ..

theorem withMem_bcpFlush : (t.withMem m).bcpFlush = t.withMem m.bcpFlush := by
  have fold (j : Nat) (l : List (Nat × BitVec 72 × BitVec 72)) (f : Nat × BitVec 72 × BitVec 72 → BitVec 72) (u : Tile) :
      l.foldl (fun (t : Tile) x => t.lostWords j x.1 (f x)) (t.withMem u) =
        t.withMem (l.foldl (fun (t : Tile) x => t.lostWords j x.1 (f x)) u) := by
    induction l generalizing u with
    | nil => rfl
    | cons x l ih => rw [List.foldl_cons, List.foldl_cons, withMem_lostWords, ih]
  unfold bcpFlush
  have hbcp : (t.withMem m).bcp = m.bcp := (rfl)
  have hnone : ({ t.withMem m with bcp := none } : Tile) = t.withMem { m with bcp := none } := (rfl)
  rw [hbcp]
  cases m.bcp with
  | none => rfl
  | some b =>
    dsimp only
    rw [hnone, withMem_write]
    exact fold _ _ (fun x => nonetBits b.mask.toNat &&& x.2.1 &&& (x.2.2 ^^^ b.data)) _

end Tile
end Sys2Proof.Machine
end

section
/-!
SUPPORT. What accesses of a tile's memories leave as it was: everything beside the memories and what goes with them, the banks
in force, and every tile register outside the findings, the flip mask and the counts of spec/08 (0x11 to 0x1B).
-/
namespace Sys2Proof.Machine

/-- The tile u is t after accesses of its memories. -/
structure MemOnly (t u : Tile) : Prop where
  rest : u = t.withMem u
  half : u.ihalf = t.ihalf
  bank : u.sbank = t.sbank
  regs : ∀ q, q < 0x11 ∨ 0x1B < q → u.ior q = t.ior q

namespace MemOnly
variable {t u v : Tile}

theorem refl (t : Tile) : MemOnly t t := ⟨rfl, rfl, rfl, fun _ _ => rfl⟩

theorem trans (h : MemOnly t u) (k : MemOnly u v) : MemOnly t v :=
  ⟨k.rest.trans (show u.withMem v = (t.withMem u).withMem v by rw [← h.rest]), k.half.trans h.half, k.bank.trans h.bank,
    fun q hq => (k.regs q hq).trans (h.regs q hq)⟩

/-- A field of a register beside those named reads as before. -/
theorem iof (h : MemOnly t u) {q : Nat} (hi lo : Nat) (hq : q < 0x11 ∨ 0x1B < q) : u.iof q hi lo = t.iof q hi lo := by
  rw [Tile.iof, Tile.iof, h.regs q hq]

theorem tcr (h : MemOnly t u) : u.tcr = t.tcr := h.regs 0 (.inl (by decide))
theorem level (h : MemOnly t u) : u.level = t.level := by rw [Tile.level, Tile.level, h.tcr]
theorem sk (h : MemOnly t u) (q : Nat) : u.sk q = t.sk q := by rw [h.rest]; rfl

end MemOnly

namespace Tile

/-- Writing one of the registers of spec/08. -/
theorem memOnly_iow (t : Tile) {q : Nat} (v : Word) (h : 0x11 ≤ q ∧ q ≤ 0x1B) : MemOnly t (t.iow q v) :=
  ⟨rfl, rfl, rfl, fun a ha => by rw [ior_iow, if_neg (by omega)]⟩

theorem memOnly_iowf (t : Tile) {q : Nat} (hi lo v : Nat) (h : 0x11 ≤ q ∧ q ≤ 0x1B) : MemOnly t (t.iowf q hi lo v) :=
  t.memOnly_iow _ h

theorem memOnly_bump (t : Tile) {q : Nat} (hi lo n : Nat) (h : 0x11 ≤ q ∧ q ≤ 0x1B) : MemOnly t (t.bump q hi lo n) :=
  t.memOnly_iow _ h

theorem memOnly_mark (t : Tile) (c : Nat) (x y z : Word) : MemOnly t (t.mark c x y z) := ⟨rfl, rfl, rfl, fun _ _ => rfl⟩

theorem memOnly_found (t : Tile) (c : Cls3) (fn mem idx syn : Nat) : MemOnly t (t.found c fn mem idx syn) := by
  have logged (u : Tile) (x y : Word) : MemOnly u ((u.iow 0x13 x).iow 0x14 y) :=
    (u.memOnly_iow _ (by decide)).trans (memOnly_iow _ _ (by decide))
  unfold found
  cases c with
  | corrected => exact (t.memOnly_bump _ _ _ (by decide)).trans (logged ..)
  | uncorrectable => exact ((t.memOnly_bump _ _ _ (by decide)).trans (memOnly_mark ..)).trans (logged ..)
  | clean => exact logged ..
  | poisoned => exact logged ..

theorem memOnly_store (t : Tile) (mem idx : Nat) (g : Gran) : MemOnly t (t.store mem idx g) := by
  unfold store
  extract_lets k t2
  have h : MemOnly t t2 := ⟨rfl, rfl, rfl, fun _ _ => rfl⟩
  split
  · exact (((h.trans (memOnly_iow _ _ (by decide))).trans (memOnly_iow _ _ (by decide))).trans
      (memOnly_iow _ _ (by decide))).trans (memOnly_iowf _ _ _ _ (by decide))
  · exact h

theorem memOnly_writeWhole (t : Tile) (mem idx : Nat) (d : BitVec 72) : MemOnly t (t.writeWhole mem idx d) := by
  unfold writeWhole
  dsimp only
  split
  · exact (t.memOnly_bump _ _ _ (by decide)).trans (memOnly_store ..)
  · exact t.memOnly_store ..

theorem memOnly_writePart (t : Tile) (fn mem idx : Nat) (mask d : BitVec 72) : MemOnly t (t.writePart fn mem idx mask d) := by
  have found (c : Cls3) := t.memOnly_found c fn mem idx (eccSyn (t.gr mem idx))
  unfold writePart
  dsimp only
  generalize eccClass (memCode mem) (t.gr mem idx) = x
  obtain ⟨c, old⟩ := x
  cases c with
  | clean => exact t.memOnly_store ..
  | corrected => exact (found _).trans (memOnly_store ..)
  | poisoned => exact (found _).trans (memOnly_bump _ _ _ _ (by decide))
  | uncorrectable => exact ((found _).trans (memOnly_store ..)).trans (memOnly_bump _ _ _ _ (by decide))

theorem memOnly_write (t : Tile) (fn mem idx : Nat) (mask d : BitVec 72) : MemOnly t (t.write fn mem idx mask d) := by
  unfold write
  split
  · exact t.memOnly_writeWhole ..
  · exact t.memOnly_writePart ..

theorem memOnly_lostWords (t : Tile) (idx agent : Nat) (lost : BitVec 72) : MemOnly t (t.lostWords idx agent lost) := by
  have col (u : Tile) (c : Prop) [Decidable c] (off : Nat) : MemOnly u (if c then u.xcol off agent else u) := by
    split
    · unfold xcol
      extract_lets u1
      have h : MemOnly u u1 := (u.memOnly_bump _ _ _ (by decide)).trans (memOnly_iowf _ _ _ _ (by decide))
      split
      · exact h
      · exact (h.trans (memOnly_iowf _ _ _ _ (by decide))).trans (memOnly_mark ..)
    · exact MemOnly.refl u
  exact (col t _ _).trans (col _ _ _)

theorem memOnly_bcpFlush (t : Tile) : MemOnly t t.bcpFlush := by
  have fold (j : Nat) (f : Nat × BitVec 72 × BitVec 72 → BitVec 72) (l : List (Nat × BitVec 72 × BitVec 72)) (u : Tile) :
      MemOnly u (l.foldl (fun (t : Tile) x => t.lostWords j x.1 (f x)) u) := by
    induction l generalizing u with
    | nil => exact MemOnly.refl u
    | cons x l ih => exact (u.memOnly_lostWords ..).trans (ih _)
  unfold bcpFlush
  cases t.bcp with
  | none => exact MemOnly.refl t
  | some b =>
    have h : MemOnly t { t with bcp := none } := ⟨rfl, rfl, rfl, fun _ _ => rfl⟩
    exact (h.trans (memOnly_write ..)).trans
      (fold _ (fun x => nonetBits b.mask.toNat &&& x.2.1 &&& (x.2.2 ^^^ b.data)) _ _)

theorem memOnly_sbRetire (t : Tile) : MemOnly t t.sbRetire := by
  unfold sbRetire
  cases t.sb with
  | nil => exact MemOnly.refl t
  | cons e r =>
    have h : MemOnly t { t with sb := r } := ⟨rfl, rfl, rfl, fun _ _ => rfl⟩
    exact h.trans (memOnly_write ..)

theorem memOnly_sbUntil (c n : Nat) (t : Tile) : MemOnly t (sbUntil c n t) := by
  induction n generalizing t with
  | zero => exact MemOnly.refl t
  | succ n ih =>
    unfold sbUntil
    split
    · split
      · exact t.memOnly_sbRetire.trans (ih _)
      · exact MemOnly.refl t
    · exact MemOnly.refl t

theorem memOnly_sbAt (t : Tile) (c : Nat) : MemOnly t (t.sbAt c) := memOnly_sbUntil ..

/-- With nothing buffered nothing retires. -/
theorem sbAt_of_nil {t : Tile} (h : t.sb = []) (c : Nat) : t.sbAt c = t := by rw [sbAt, h]; rfl

/-! ## Code memories stand while data is written -/

/-- A store reaches its own granule only. -/
theorem gran_store_of_ne (t : Tile) {mem idx k : Nat} (g : Gran) (h : k ≠ t.gkey mem idx) :
    SMap.get (fun _ => 0) (t.store mem idx g).gran k = SMap.get (fun _ => 0) t.gran k := by
  unfold store
  dsimp only
  split
  · exact SMap.get_set_of_ne _ _ _ h
  · exact SMap.get_set_of_ne _ _ _ h

/-- A write under a mask reaches its own granule only. -/
theorem gran_write_of_ne (t : Tile) {fn mem idx k : Nat} (mask d : BitVec 72) (h : k ≠ t.gkey mem idx) :
    SMap.get (fun _ => 0) (t.write fn mem idx mask d).gran k = SMap.get (fun _ => 0) t.gran k := by
  have key {u : Tile} (hu : MemOnly t u) : u.gkey mem idx = t.gkey mem idx := by simp only [gkey, hu.half, hu.bank]
  have stored (u : Tile) (hu : MemOnly t u) (hg : u.gran = t.gran) (g : Gran) :
      SMap.get (fun _ => 0) (u.store mem idx g).gran k = SMap.get (fun _ => 0) t.gran k := by
    rw [u.gran_store_of_ne g (by rwa [key hu]), hg]
  have found (c : Cls3) (g : Gran) := stored _ (t.memOnly_found c fn mem idx (eccSyn (t.gr mem idx))) (gran_found ..) g
  unfold write
  split
  · unfold writeWhole
    dsimp only
    split
    · exact stored _ (t.memOnly_bump _ _ _ (by decide)) rfl _
    · exact t.gran_store_of_ne _ h
  · unfold writePart
    dsimp only
    generalize eccClass (memCode mem) (t.gr mem idx) = x
    obtain ⟨c, old⟩ := x
    cases c <;> dsimp only
    case clean => exact t.gran_store_of_ne _ h
    case corrected => exact found _ _
    case poisoned => rw [bump_eq, iow_gran, gran_found]
    case uncorrectable => rw [bump_eq, iow_gran]; exact found _ _

/-- A collision is no write. -/
theorem gran_lostWords (t : Tile) (idx agent : Nat) (lost : BitVec 72) : (t.lostWords idx agent lost).gran = t.gran := by
  have col (u : Tile) (c : Prop) [Decidable c] (off : Nat) : (if c then u.xcol off agent else u).gran = u.gran := by
    split
    · unfold xcol
      dsimp only
      split <;> rfl
    · rfl
  exact (col _ _ _).trans (col t _ _)

/-- Data space lies outside the code memories. -/
theorem gkey_dataGran (t : Tile) (a : Nat) :
    t.gkey (dataGran a).1 (dataGran a).2 < 0x8000 ∨ 0x10000 ≤ t.gkey (dataGran a).1 (dataGran a).2 := by
  unfold dataGran
  split
  · simp only [gkey]
    simp
    omega
  · split
    · simp only [gkey]
      simp
      omega
    · simp only [gkey]
      simp

/-- What a bcopy step has written goes to data space: the code memories stand. -/
theorem code_bcpFlush (t : Tile) {k : Nat} (h : 0x8000 ≤ k ∧ k < 0x10000) :
    SMap.get (fun _ => 0) t.bcpFlush.gran k = SMap.get (fun _ => 0) t.gran k := by
  have fold (j : Nat) (f : Nat × BitVec 72 × BitVec 72 → BitVec 72) (l : List (Nat × BitVec 72 × BitVec 72)) (u : Tile) :
      (l.foldl (fun (t : Tile) x => t.lostWords j x.1 (f x)) u).gran = u.gran := by
    induction l generalizing u with
    | nil => rfl
    | cons x l ih => rw [List.foldl_cons, ih, gran_lostWords]
  unfold bcpFlush
  cases t.bcp with
  | none => rfl
  | some b =>
    dsimp only
    rw [fold _ (fun x => nonetBits b.mask.toNat &&& x.2.1 &&& (x.2.2 ^^^ b.data))]
    have hk := t.gkey_dataGran (2 * b.gran)
    exact gran_write_of_ne _ _ _ (by change k ≠ t.gkey _ _; omega)

/-! ## The store buffer stands while granules are written -/

theorem sb_store (t : Tile) (mem idx : Nat) (g : Gran) : (t.store mem idx g).sb = t.sb := by
  unfold store
  dsimp only
  split <;> rfl

theorem sb_found (t : Tile) (c : Cls3) (fn mem idx syn : Nat) : (t.found c fn mem idx syn).sb = t.sb := by
  cases c <;> simp only [found, bump_eq, iow_sb, mark_sb]

theorem sb_write (t : Tile) (fn mem idx : Nat) (mask d : BitVec 72) : (t.write fn mem idx mask d).sb = t.sb := by
  unfold write
  split
  · unfold writeWhole
    dsimp only
    rw [sb_store]
    split <;> rfl
  · unfold writePart
    dsimp only
    generalize eccClass (memCode mem) (t.gr mem idx) = x
    obtain ⟨c, old⟩ := x
    cases c <;> simp only [sb_store, bump_eq, iow_sb, sb_found]

theorem sb_lostWords (t : Tile) (idx agent : Nat) (lost : BitVec 72) : (t.lostWords idx agent lost).sb = t.sb := by
  have col (u : Tile) (c : Prop) [Decidable c] (off : Nat) : (if c then u.xcol off agent else u).sb = u.sb := by
    split
    · unfold xcol
      dsimp only
      split <;> rfl
    · rfl
  exact (col _ _ _).trans (col t _ _)

theorem sb_bcpFlush (t : Tile) : t.bcpFlush.sb = t.sb := by
  have fold (j : Nat) (f : Nat × BitVec 72 × BitVec 72 → BitVec 72) (l : List (Nat × BitVec 72 × BitVec 72)) (u : Tile) :
      (l.foldl (fun (t : Tile) x => t.lostWords j x.1 (f x)) u).sb = u.sb := by
    induction l generalizing u with
    | nil => rfl
    | cons x l ih => rw [List.foldl_cons, ih, sb_lostWords]
  unfold bcpFlush
  cases t.bcp with
  | none => rfl
  | some b =>
    dsimp only
    rw [fold _ (fun x => nonetBits b.mask.toNat &&& x.2.1 &&& (x.2.2 ^^^ b.data)), sb_write]

end Tile
end Sys2Proof.Machine
end

section
/-!
SUPPORT. A waiting tile goes on: what the beginning of a routine sets (R120, R413).
-/
namespace Sys2Proof.Machine

/-- Putting a tile back changes that tile, and outside it only what it raised. -/
theorem State.setTile_tileOnly (s : State) (d p : Nat) (t : Tile) : TileOnly d p s (s.setTile d p t) :=
  ⟨rfl, fun _ _ h => State.tile_setTile_of_ne s t h, ⟨rfl, rfl, rfl, rfl, rfl, rfl, rfl⟩, rfl, rfl, rfl⟩

namespace Tile

/-- The offsets of the windows are all that is set anew. -/
theorem roffAll_eq (t : Tile) (now : Tick) : t.roffAll now = { t with roff := (t.roffAll now).roff } := by
  have fold (l : List Nat) (u : Tile) (h : u = { t with roff := u.roff }) :
      l.foldl (fun (t : Tile) w => t.roffSet now w) u =
        { t with roff := (l.foldl (fun (t : Tile) w => t.roffSet now w) u).roff } := by
    induction l generalizing u with
    | nil => exact h
    | cons w l ih => exact ih _ (by rw [h]; rfl)
  exact fold _ t rfl

/-- Sockets are not reached by the waymarks that a tile hands over. -/
theorem sk_marks (t : Tile) (l : List Mark) (q : Nat) : ({ t with marks := l } : Tile).sk q = t.sk q := rfl

/-- Setting a socket leaves the memories. -/
theorem setSk_withMem {t m : Tile} (h : t = t.withMem m) (a : Nat) (w : Word) : t.setSk a w = (t.setSk a w).withMem m := by
  unfold setSk
  split
  · exact h
  · rw [h]; rfl

/-- The tile with the tolls of a routine that begins (R413, R417). -/
def tolled (t : Tile) (cyc acc byt behind : Word) : Tile :=
  (((t.setSk 0xD0 cyc).setSk 0xD1 acc).setSk 0xD2 byt).setSk 0xD3 behind

theorem tolled_byt (t : Tile) (cyc acc byt behind : Word) : (t.tolled cyc acc byt behind).sk 0xD2 = byt := by
  have hmask : byt &&& skMask 0xD2 = byt := BitVec.and_allOnes
  simp [tolled, sk_setSk, hmask]

theorem tolled_withMem (t : Tile) (cyc acc byt behind : Word) :
    t.tolled cyc acc byt behind = (t.tolled cyc acc byt behind).withMem t :=
  setSk_withMem (setSk_withMem (setSk_withMem (setSk_withMem t.withMem_self.symm ..) ..) ..) ..

/-- The word that a bcopy held is the only change of the memories. -/
theorem tolled_bcpFlush (t : Tile) (cyc acc byt behind : Word) :
    (t.tolled cyc acc byt behind).bcpFlush = (t.tolled cyc acc byt behind).withMem t.bcpFlush := by
  conv_lhs => rw [tolled_withMem]
  exact withMem_bcpFlush ..

/-- A routine begins at the entry of TILE_RTN for the next assigned tick, with its whole allowance of bytes (R120, R413). -/
theorem begin_runs (t : Tile) (now : Tick) (mode minmode : Nat) :
    ((t.begin now mode minmode).phase = .run ∧ (t.begin now mode minmode).pc = t.iof 0x100 15 0 ∧
      (t.begin now mode minmode).inRtn = true ∧ (t.begin now mode minmode).rtn = t.nextN ∧
      (t.begin now mode minmode).rtnCfg = t.ior 0x100 ∧
      (t.begin now mode minmode).nextN = t.nextN + BitVec.ofNat 48 (2 ^ t.iof 0x100 18 16)) ∧
    (t.begin now mode minmode).sk 0xD2 = wd (t.iof 0x102 29 12) ∧
    (t.begin now mode minmode).io = t.bcpFlush.io ∧ (t.begin now mode minmode).gran = t.bcpFlush.gran := by
  unfold Tile.begin
  extract_lets n late behind a t1 t2
  have hflush : t1.bcpFlush = t1.withMem t.bcpFlush := tolled_bcpFlush ..
  have hio : t1.bcpFlush.io = t.bcpFlush.io := by rw [hflush]; rfl
  have hgran : t1.bcpFlush.gran = t.bcpFlush.gran := by rw [hflush]; rfl
  rw [roffAll_eq]
  refine ⟨⟨rfl, rfl, rfl, rfl, rfl, rfl⟩, ?_, hio, hgran⟩
  calc t1.bcpFlush.sk 0xD2 = t1.sk 0xD2 := t1.memOnly_bcpFlush.sk _
    _ = _ := tolled_byt ..

end Tile

/-- ROUTINE_BEGIN of a tile that may begin. -/
theorem State.routineBegin_of_canBegin {s : State} {d p : Nat} (h : s.canBegin d p (s.tile d p) = true) :
    s.routineBegin d p = s.setTile d p ((s.tile d p).begin s.tick s.mode (s.minMode d p)) := if_pos h

/-- WAITM_RESUME of a tile at P0 whose milestone has come. -/
theorem State.waitResume_of_due {s : State} {d p : Nat} (hphase : (s.tile d p).phase = .wait)
    (hlevel : (s.tile d p).level ≠ 0) (hclock : s.clocked d p = true) (hraised : (s.tile d p).raised = none)
    (hevent : (s.tile d p).eventDue (s.partner d p).isSome = false) (hmile : notEarlier s.tick (s.tile d p).waitAt = true)
    (hdep : s.depositsIn d p ((s.tile d p).waitAt - 1) = true) :
    s.waitResume d p = s.setTile d p { s.tile d p with phase := .run, waited := 0 } :=
  if_pos (by simp only [hphase, hclock, hraised, hevent, hmile, hdep, bne_iff_ne.mpr hlevel]; rfl)

/-- A command of a tile, on a part out of reset, comes to what its effect gives. -/
theorem exec_ownCommand {i : Instr} {f : State → State} {s u : State} {d p : Nat}
    (e : ∀ s, exec i s = live (dieOk d && tileOk p) s f) (hheld : s.held = false) (hd : d < 8) (hp : p < 73)
    (h : f s = u) : exec i s = .next (s.keepQueue u) := by
  rw [e, live_next hheld (by simp [dieOk, tileOk, hd, hp]), h]

end Sys2Proof.Machine
end

section
namespace Sys2Proof.Machine

/-- Settles O23: either command puts back its own tile, as the beginning of the routine or the end of the wait sets it. -/
theorem routineBegins : Obligations.RoutineBegins := by
  intro s d p hheld hd hp
  refine ⟨fun hbegin => ⟨_, exec_ownCommand (fun _ => rfl) hheld hd hp (State.routineBegin_of_canBegin hbegin),
    s.setTile_tileOnly d p _, ?_⟩, fun hphase hlevel hclock hraised hevent hmile hdep =>
    ⟨_, exec_ownCommand (fun _ => rfl) hheld hd hp
      (State.waitResume_of_due hphase hlevel hclock hraised hevent hmile hdep),
    s.setTile_tileOnly d p _, s.tile_setTile_self d p _⟩⟩
  obtain ⟨⟨hphase, hpc, hin, hrtn, hcfg, hnext⟩, hbyt, hio, hgran⟩ :=
    (s.tile d p).begin_runs s.tick s.mode (s.minMode d p)
  rw [State.tile_of_keepQueue, State.tile_setTile_self, Tile.sk_marks]
  exact ⟨hphase, hpc, hin, hrtn, hcfg, hnext, hbyt, hio, hgran⟩

end Sys2Proof.Machine
end

section
/-!
SUPPORT. A plain bundle in the instruction stream: its bytes lie below the byte limit of its level, and what a bcopy wrote
before it leaves it as it was decoded.
-/
namespace Sys2Proof.Machine

/-! ## Decoding takes bytes that are there -/

/-- What a sequence of two decodings gives comes from both. -/
theorem except_bind_ok {ε α β : Type} {x : Except ε α} {f : α → Except ε β} {r : β} (h : (x >>= f) = .ok r) :
    ∃ a, x = .ok a ∧ f a = .ok r := by
  cases x with
  | error e => exact absurd h (by simp [bind, Except.bind])
  | ok a => exact ⟨a, rfl, h⟩

theorem byteOf_ok {f : Nat → Option Nat} {p b : Nat} (h : byteOf f p = .ok b) : f p = some b := by
  unfold byteOf at h
  split at h
  · next x hx => cases h; exact hx
  · cases h

section
variable {f : Nat → Option Nat} {L : Nat} (hf : ∀ a, L ≤ a → f a = none)
include hf

theorem byteOf_lt {p b : Nat} (h : byteOf f p = .ok b) : p < L := by
  by_contra hp
  have hb := byteOf_ok h
  rw [hf p (by omega)] at hb
  cases hb

theorem bytesOf_le {n p v : Nat} (hp : p ≤ L) (h : bytesOf f n p = .ok v) : p + n ≤ L := by
  induction n generalizing p v with
  | zero => exact hp
  | succ n ih =>
    obtain ⟨b, hb, h⟩ := except_bind_ok h
    obtain ⟨r, hr, -⟩ := except_bind_ok h
    have := byteOf_lt hf hb
    have := ih (p := p + 1) (by omega) hr
    omega

theorem immOf_le {lane src sp p : Nat} {x : Word × Nat × Bool} (hp : p ≤ L) (h : immOf f lane src sp p = .ok x) :
    p + x.2.1 ≤ L := by
  have read (n : Nat) (g : Nat → Word × Nat × Bool) (hn : ∀ v, (g v).2.1 = n)
      (h : (bytesOf f n p >>= fun v => pure (g v)) = .ok x) : p + x.2.1 ≤ L := by
    obtain ⟨v, hv, e⟩ := except_bind_ok h
    cases e
    rw [hn]
    exact bytesOf_le hf hp hv
  unfold immOf at h
  split at h
  · cases h; exact hp
  split at h
  · cases h; exact hp
  split at h
  · exact read 1 (fun v => (sxWord 8 v, 1, false)) (fun _ => rfl) h
  split at h
  · exact read 3 (fun v => (sxWord 18 v, 3, decide (v / 2 ^ 18 ≠ 0))) (fun _ => rfl) h
  split at h
  · exact read 5 (fun v => (wd v, 5, decide (v / 2 ^ 36 ≠ 0))) (fun _ => rfl) h
  split at h
  · exact read 2 (fun v => (wd v, 2, false)) (fun _ => rfl) h
  · cases h

theorem movesOf_le {al g : Nat → Nat} {micro nr : Bool} {n lane p : Nat} {x : List Move × Nat × Option Stop} (hp : p ≤ L)
    (h : movesOf f al micro nr g n lane p = .ok x) : x.2.1 ≤ L := by
  induction n generalizing lane p x with
  | zero => cases h; exact hp
  | succ n ih =>
    obtain ⟨d0, hd, h⟩ := except_bind_ok h
    obtain ⟨s0, hs, h⟩ := except_bind_ok h
    obtain ⟨op, hop, h⟩ := except_bind_ok h
    have h2 := byteOf_lt hf hs
    have h3 := bytesOf_le hf (by omega) hop
    generalize (if hasOp (al d0) then 1 else 0) = o at h h3
    split at h
    · cases h
    · next v k bad himm =>
      have h4 := immOf_le hf h3 himm
      split at h
      · cases h
      · next r q u hr =>
        cases h
        exact ih (x := (r, q, u)) h4 hr

theorem bundleOf_le {al : Nat → Nat} {micro nr : Bool} {b p : Nat} {x : List Move × Nat × Option Stop} (hp : p < L)
    (h : bundleOf f al micro nr b p = .ok x) : x.2.1 ≤ L := by
  obtain ⟨gv, hgv, h⟩ := except_bind_ok h
  have h1 := bytesOf_le hf hp hgv
  cases hm : movesOf f al micro nr (fun i => if (b / 8) % 2 = 1 then (gv / 16 ^ i) % 16 else 0) (b % 8 + 1) 0
      (p + 1 + if (b / 8) % 2 = 1 then (b % 8 + 1 + 1) / 2 else 0) with
  | error st => rw [hm] at h; cases h
  | ok y => rw [hm] at h; cases h; exact movesOf_le (x := y) hf h1 hm

end

/-- What follows the prefixes is governed by them. -/
theorem leadOf_prefix {f : Nat → Option Nat} {nops : Nat → Nat} {sl inBody : Bool} {rep : RepPre} {p first : Nat} {i : Insn}
    (h : leadOf f nops sl rep p first inBody = .ok i) : i.sealed = sl ∧ i.rep = rep := by
  obtain ⟨b, hb, h⟩ := except_bind_ok h
  split at h
  · obtain ⟨x, hx, h⟩ := except_bind_ok h
    cases h; exact ⟨rfl, rfl⟩
  split at h
  · obtain ⟨x, hx, h⟩ := except_bind_ok h
    cases h; exact ⟨rfl, rfl⟩
  split at h <;> cases h

/-- A bundle is its header byte and its moves, whatever the operand bytes of the macros. -/
theorem leadOf_bundle {f : Nat → Option Nat} {nops : Nat → Nat} {sl inBody : Bool} {rep : RepPre} {p first : Nat} {i : Insn}
    {ms : List Move} (h : leadOf f nops sl rep p first inBody = .ok i) (hbody : i.body = .bundle ms) :
    (∃ b x, byteOf f p = .ok b ∧ bundleOf f id false (inBody || rep != .none) b p = .ok x ∧ i.next = x.2.1) ∧
      ∀ nops', leadOf f nops' sl rep p first inBody = .ok i := by
  obtain ⟨b, hb, h⟩ := except_bind_ok h
  split at h
  · next hlt =>
    refine ⟨?_, fun nops' => ?_⟩
    · obtain ⟨x, hx, h⟩ := except_bind_ok h
      cases h; exact ⟨b, x, hb, hx, rfl⟩
    · rw [leadOf, hb]
      exact (if_pos hlt).trans h
  split at h
  · obtain ⟨x, hx, h⟩ := except_bind_ok h
    cases h; cases hbody
  split at h <;> cases h

/-- A bundle without prefixes: its header byte, then its moves, whatever the operand bytes of the macros. -/
theorem insnOf_plain {f : Nat → Option Nat} {nops : Nat → Nat} {inBody : Bool} {p : Nat} {i : Insn} {ms : List Move}
    (h : insnOf f nops inBody p = .ok i) (hsealed : i.sealed = false) (hrep : i.rep = .none) (hbody : i.body = .bundle ms) :
    (∃ b x, byteOf f p = .ok b ∧ bundleOf f id false inBody b p = .ok x ∧ i.next = x.2.1) ∧
      ∀ nops', insnOf f nops' inBody p = .ok i := by
  have bad {sl : Bool} {rep : RepPre} {a b : Nat} (h : leadOf f nops sl rep a b inBody = .ok i)
      (e : sl = true ∨ rep ≠ .none) : False := by
    obtain ⟨h1, h2⟩ := leadOf_prefix h
    rcases e with e | e
    · rw [hsealed, e] at h1; cases h1
    · exact e (h2.symm.trans hrep)
  obtain ⟨b, hb, h⟩ := except_bind_ok h
  split at h
  · obtain ⟨c, hc, h⟩ := except_bind_ok h
    split at h
    · obtain ⟨n, hn, h⟩ := except_bind_ok h
      exact (bad h (.inl rfl)).elim
    split at h <;> exact (bad h (.inl rfl)).elim
  split at h
  · obtain ⟨n, hn, h⟩ := except_bind_ok h
    exact (bad h (.inr (by simp))).elim
  split at h
  · exact (bad h (.inr (by simp))).elim
  split at h
  · obtain ⟨c, hc, h⟩ := except_bind_ok h
    obtain ⟨nb, hnb, h⟩ := except_bind_ok h
    cases h; cases hbody
  split at h
  · obtain ⟨s, hs, h⟩ := except_bind_ok h
    obtain ⟨nb, hnb, h⟩ := except_bind_ok h
    cases h; cases hbody
  · next h84 h80 h81 h82 h83 =>
    obtain ⟨hbun, hall⟩ := leadOf_bundle h hbody
    refine ⟨by simpa using hbun, fun nops' => ?_⟩
    rw [insnOf, hb]
    exact (((if_neg h84).trans (if_neg h80)).trans ((if_neg h81).trans (if_neg h82))).trans ((if_neg h83).trans (hall nops'))

/-! ## A tile that is to issue plainly -/

namespace Tile

/-- The tile as it issues a plain bundle (R246, R289): what the last bcopy step wrote is in memory, the bundle is counted. -/
def issuing (t : Tile) : Tile := { t.bcpFlush with bid := t.bid + 1 }

/-- The tile once its bundle has paid the 6-cycle row (R173). -/
def paid (t : Tile) : Tile := { t with patched := false }

/-- The tile as the move of a bundle that issues at cycle c finds it. -/
def meets (t : Tile) (c : Nat) : Tile := (t.atIssue c).paid

theorem sk_paid (t : Tile) (q : Nat) : t.paid.sk q = t.sk q := rfl

/-- Everything of the tile that issues but its memories, the count and the row. -/
theorem issuing_rest (t : Tile) : t.issuing = { t.withMem t.bcpFlush with bid := t.bid + 1 } := by
  unfold issuing
  conv_lhs => rw [t.memOnly_bcpFlush.rest]

theorem ior_issuing (t : Tile) {q : Nat} (h : q < 0x11 ∨ 0x1B < q) : t.issuing.ior q = t.ior q :=
  t.memOnly_bcpFlush.regs q h

theorem level_issuing (t : Tile) : t.issuing.level = t.level := t.memOnly_bcpFlush.level

theorem sk_issuing (t : Tile) (q : Nat) : t.issuing.sk q = t.sk q := t.memOnly_bcpFlush.sk q

/-- The window registers and their offsets decide where the addresses of data space lie (R233). -/
theorem map_congr {t u : Tile} (hroff : u.roff = t.roff) (hior : ∀ q, 0x1B < q → u.ior q = t.ior q) (warden : Bool)
    (e : Nat) : u.map warden e = t.map warden e := by
  have hiof (k hi lo : Nat) : u.iof (0x20 + 2 * k) hi lo = t.iof (0x20 + 2 * k) hi lo := by
    rw [iof, iof, hior _ (by omega)]
  simp only [map, hroff, hiof]

theorem sb_issuing (t : Tile) : t.issuing.sb = t.sb := t.sb_bcpFlush

/-- A granule of the code memories, while data space is written. -/
theorem gr_issuing (t : Tile) {mem k : Nat} (h : 0x8000 ≤ t.gkey mem k ∧ t.gkey mem k < 0x10000) :
    t.issuing.gr mem k = t.gr mem k := by
  have hkey : t.issuing.gkey mem k = t.gkey mem k := by
    simp only [gkey, issuing, t.memOnly_bcpFlush.half, t.memOnly_bcpFlush.bank]
  rw [gr, hkey]
  exact t.code_bcpFlush h

/-- The granules that instructions are fetched from lie in the code memories. -/
theorem gkey_instr (t : Tile) {k : Nat} (h : k < 0x2000) : 0x8000 ≤ t.gkey 2 k ∧ t.gkey 2 k < 0x10000 := by
  unfold gkey
  split
  · omega
  · rw [if_neg (by simp)]; omega

/-- What the tile fetches stays what it was. -/
theorem insByte_issuing (t : Tile) (lvl a : Nat) : t.issuing.insByte lvl a = t.insByte lvl a := by
  have hhold : t.issuing.hold = t.hold := by rw [issuing_rest]; rfl
  have hbuf : t.issuing.inBuffer = t.inBuffer := by rw [issuing_rest]; rfl
  have hlim : fetchLim lvl ≤ 0x10000 := by unfold fetchLim; split <;> decide
  have hpeek (h : a < fetchLim lvl) : t.issuing.peekByte 2 a = t.peekByte 2 a := by
    rw [peekByte, peekByte, gr_issuing _ (t.gkey_instr (by omega))]
  unfold insByte
  rw [hhold, hbuf]
  split
  · next h => rw [hpeek h]
  · rfl

/-- A plain bundle is decoded as before. -/
theorem insn_issuing {t : Tile} {lvl : Nat} {i : Insn} {ms : List Move} (h : t.insn lvl = .ok i)
    (hsealed : i.sealed = false) (hrep : i.rep = .none) (hbody : i.body = .bundle ms) : t.issuing.insn lvl = .ok i := by
  have hloop : t.issuing.loop = t.loop := by rw [issuing_rest]; rfl
  have hpc : t.issuing.pc = t.pc := by rw [issuing_rest]; rfl
  have hbyte : t.issuing.insByte lvl = t.insByte lvl := funext (t.insByte_issuing lvl)
  rw [insn, hloop, hpc, hbyte]
  exact (insnOf_plain h hsealed hrep hbody).2 _

/-- A plain bundle ends within the byte limit (R176). -/
theorem insn_next_le {t : Tile} {lvl : Nat} {i : Insn} {ms : List Move} (h : t.insn lvl = .ok i)
    (hsealed : i.sealed = false) (hrep : i.rep = .none) (hbody : i.body = .bundle ms) : i.next ≤ 0x10000 := by
  have hlim : fetchLim lvl ≤ 0x10000 := by unfold fetchLim; split <;> decide
  have hout (a : Nat) (ha : 0x10000 ≤ a) : t.insByte lvl a = none := if_neg (by omega)
  obtain ⟨⟨b, x, hb, hx, hnext⟩, -⟩ := insnOf_plain h hsealed hrep hbody
  rw [hnext]
  exact bundleOf_le hout (byteOf_lt hout hb) hx

/-- A clean granule is read without a finding. -/
theorem read_of_clean {t : Tile} {mem idx : Nat} (fn : Nat) (h : eccSyn (t.gr mem idx) = 0) :
    t.read fn mem idx = (t, granData (t.gr mem idx), false) := by
  unfold read eccClass
  simp only [h, if_true]

/-- A fetch of clean granules leaves no finding (R344). -/
theorem fetchFx_of_clean {t : Tile} {mem a b : Nat} (h : ∀ k, k ≤ b / 8 → eccSyn (t.gr mem k) = 0) :
    t.fetchFx mem a b = t := by
  have fold (l : List Nat) (hl : ∀ j ∈ l, a / 8 + j ≤ b / 8) :
      l.foldl (fun (t : Tile) j => (t.read 2 mem (a / 8 + j)).1) t = t := by
    induction l with
    | nil => rfl
    | cons j l ih =>
      rw [List.foldl_cons, read_of_clean 2 (h _ (hl j (by simp)))]
      exact ih fun k hk => hl k (by simp [hk])
  exact fold _ fun j hj => by rw [List.mem_range] at hj; omega

/-- The fetch of an instruction below the byte limit, with clean instruction memory. -/
theorem fetchIns_of_clean {t : Tile} {nxt : Nat} (hnext : nxt ≤ 0x10000)
    (h : ∀ k, k < 0x2000 → eccSyn (t.gr 2 k) = 0) : t.fetchIns nxt = t := by
  unfold fetchIns
  split
  · rfl
  · next hc => exact fetchFx_of_clean fun k hk => h k (by omega)

/-- The buffered stores retire whatever the 6-cycle row. -/
theorem sbAt_paid (t : Tile) (c : Nat) : t.issuing.paid.sbAt c = t.meets c := by
  have e : t.issuing.paid = t.issuing.paid.withMem t.issuing := rfl
  rw [e, withMem_sbAt]
  unfold meets atIssue
  conv_rhs => rw [show ({ t.bcpFlush with bid := t.bid + 1 } : Tile) = t.issuing from rfl, (t.issuing.memOnly_sbAt c).rest]
  rfl

/-- Everything that the move finds but the memories, the count and the row is as it was. -/
theorem meets_rest (t : Tile) (c : Nat) :
    t.meets c = { t.withMem (t.atIssue c) with bid := t.bid + 1, patched := false } := by
  have e : t.atIssue c = t.issuing.withMem (t.atIssue c) := (t.issuing.memOnly_sbAt c).rest
  unfold meets
  conv_lhs => rw [e, issuing_rest]
  rfl

theorem ior_meets (t : Tile) (c : Nat) {q : Nat} (h : q < 0x11 ∨ 0x1B < q) : (t.meets c).ior q = t.ior q :=
  ((t.issuing.memOnly_sbAt c).regs q h).trans (t.ior_issuing h)

theorem roff_meets (t : Tile) (c : Nat) : (t.meets c).roff = t.roff := by rw [meets_rest]; rfl

theorem map_meets (t : Tile) (c : Nat) (warden : Bool) (e : Nat) : (t.meets c).map warden e = t.map warden e :=
  map_congr (t.roff_meets c) (fun _ h => t.ior_meets c (.inr h)) warden e

theorem map2_meets (t : Tile) (c : Nat) (warden : Bool) (e : Nat) : (t.meets c).map2 warden e = t.map2 warden e := by
  simp only [map2, map_meets]

end Tile
end Sys2Proof.Machine
end

section
/-!
SUPPORT. Issuing a bundle of one move (R95, R113): the move issues, at some cycle, on the tile as it then finds it.
-/
namespace Sys2Proof.Machine

/-! ## Waits (Table 3.5) -/

namespace Tile

/-- With no wipe under way each ls trigger can say from which cycle it need not wait (R242, R359). -/
theorem lsNeed_of_not_wiping (c : Nat) : ∀ (l : List (Nat × Nat)) (t : Tile), bitOf (t.ior 0x1E) 0 = false →
    ∃ k, lsNeed c l t = some k
  | [], t, _ => ⟨0, rfl⟩
  | x :: r, t, h => by
    have hblocked (e : SbEntry) : t.sbBlocked e = false := by simp [sbBlocked, h]
    have hheld : t.sbHeld = false := by simp [sbHeld, hblocked]
    have hpush : bitOf ((t.sbPush x.2 (x.1 - 0x20) 0 c).ior 0x1E) 0 = false := by
      rw [← h]; congr 1; unfold sbPush; dsimp only; split
      · split <;> rfl
      · rfl
    unfold lsNeed
    rw [if_neg (by simp [h])]
    split
    · dsimp only
      split
      · split
        · next e _ => exact ⟨e.due, by simp [hblocked]⟩
        · exact ⟨0, rfl⟩
      · exact lsNeed_of_not_wiping c r _ hpush
    · dsimp only
      split
      · next e _ =>
        split
        · exact ⟨e.due, by simp [hheld]⟩
        · exact lsNeed_of_not_wiping c r t h
      · exact lsNeed_of_not_wiping c r t h

/-- So some cycle is found in which none of them waits. -/
theorem lsCycle_of_need {t : Tile} {l : List (Nat × Nat)} (h : ∀ c, ∃ k, lsNeed c l (t.sbAt c) = some k) (n c : Nat) :
    ∃ k, t.lsCycle l n c = some k := by
  induction n generalizing c with
  | zero => exact ⟨c, rfl⟩
  | succ n ih =>
    obtain ⟨k, hk⟩ := h c
    simp only [lsCycle, hk]
    split
    · exact ⟨c, rfl⟩
    · exact ih k

end Tile

/-! ## One move -/

/-- The move m, from a register or a literal, carries v, and may issue in the tile t at a level: its guard holds, its level
allows it, its channel has room, no wipe holds it back, and a transfer over the call stack finds no store buffered. -/
structure Tile.Goes (t : Tile) (p lvl : Nat) (m : Move) (v : Word) : Prop where
  guard : t.guardOk m = true
  source : m.src < 0x20 ∨ 0xE0 ≤ m.src
  value : v = if 0xE0 ≤ m.src then m.imm else t.sk m.src
  sound : t.psn = []
  level : privStatic lvl m = false
  io : m.dst = 0x92 → t.ioPriv p lvl (0, m, v, false) = false
  egress : 0xB1 ≤ m.dst ∧ m.dst < 0xB3 → t.egFull = false
  mesh : 0xC0 ≤ m.dst ∧ m.dst < 0xC4 → t.chFull (m.dst - 0xC0) = false
  wipe : m.dst = 0x82 ∨ m.dst = 0x8A → bitOf (t.ior 0x1E) 0 = false
  stack : m.dst = 0x29 ∨ m.dst = 0x2A → t.sb = []

namespace Tile

/-- A move to a trigger or a transfer sets no socket (step 2 of R95). -/
theorem moveIn_of_not_rw (t : Tile) (lvl : Nat) {m : Move} (v : Word) (h : sockKind m.dst ≠ some .rw) :
    t.moveIn lvl m v = t := by
  unfold moveIn
  split
  · next e => exact absurd e h
  · rfl

/-- A move leaves the registers. -/
theorem ior_moveIn (t : Tile) (lvl : Nat) (m : Move) (v : Word) (q : Nat) : (t.moveIn lvl m v).ior q = t.ior q := by
  have set (a : Nat) : (t.setSk a v).ior q = t.ior q := by unfold setSk; split <;> rfl
  unfold moveIn
  split
  · split
    · rfl
    · split
      · exact set 0x32
      · exact set _
  · rfl

/-- A bundle that pops nothing leaves the streams and inbounds. -/
theorem pops_nil (t : Tile) : t.pops [] = t := rfl

/-- A move to one of the sockets that wait or are checked sets no socket. -/
theorem moveIn_sbAt (t : Tile) (lvl : Nat) {m : Move} (v : Word) (c : Nat)
    (h : m.dst = 0x92 ∨ (0xB1 ≤ m.dst ∧ m.dst < 0xB3) ∨ (0xC0 ≤ m.dst ∧ m.dst < 0xC4)) :
    (t.sbAt c).moveIn lvl m v = t.withMem (t.sbAt c) := by
  have hne : sockKind m.dst ≠ some .rw := by
    have : m.dst = 0x92 ∨ m.dst = 0xB1 ∨ m.dst = 0xB2 ∨ m.dst = 0xC0 ∨ m.dst = 0xC1 ∨ m.dst = 0xC2 ∨ m.dst = 0xC3 := by omega
    rcases this with e | e | e | e | e | e | e <;> rw [e] <;> decide
  rw [moveIn_of_not_rw _ _ _ hne]
  exact (t.memOnly_sbAt c).rest

/-- The ls triggers of the bundle: none, unless the move is one. -/
theorem lsPhys_nil (s : State) (d p lvl : Nat) {m : Move} (v : Word) (u : Tile) (h : ¬ (m.dst = 0x82 ∨ m.dst = 0x8A)) :
    s.lsPhys d p lvl [(0, m, v, false)] u = [] := by
  have hls : isLs (0, m, v, false) = false := by simpa [isLs] using h
  unfold State.lsPhys
  rw [hls]
  split
  · contradiction
  · split <;> rfl

end Tile

namespace Tile.Goes
variable {t : Tile} {p lvl : Nat} {m : Move} {v : Word} (g : t.Goes p lvl m v)
include g

/-- Neither a register nor a literal is a pop socket. -/
theorem isPop_src : isPop m.src = false := by
  rcases g.source with h | h
  · simp [isPop, sockKind, show m.src < 0x28 by omega]
  · have hle (n : Nat) (hn : n ≤ 0xE0) : ¬ m.src < n := by omega
    simp [isPop, sockKind, hle]

/-- Neither waits for a word. -/
theorem srcWait_src (u : Tile) : u.srcWait m.src = false := by
  have := g.source
  have h93 : (m.src == 0x93) = false := by rw [beq_eq_false_iff_ne]; omega
  rw [srcWait, h93, popEmpty, if_neg (by omega), if_neg (by omega)]
  simp

/-- The word carried, and no poison with it. -/
theorem moveVal (s : State) (d c pend : Nat) : s.moveVal d p (t.sbAt c) pend m = (v, false) := by
  have hmem := t.memOnly_sbAt c
  have hpsn : (t.sbAt c).psn = [] := by rw [hmem.rest]; exact g.sound
  have hv := g.value
  unfold State.moveVal
  split
  · next h => rw [hv, if_pos h]
  · next h =>
    have hlt : m.src < 0x20 := by have := g.source; omega
    unfold State.srcVal
    repeat rw [if_neg (by omega)]
    rw [hv, if_neg h, hmem.sk, hpsn]
    rfl

/-- What the bundle has done in steps 1 and 2 of R95 when it issues at c. -/
theorem laneVals (s : State) (d c : Nat) :
    s.laneVals d p lvl c t [(0, m)] = (t.sbAt c, [(0, m, v, false)], (t.sbAt c).moveIn lvl m v) := by
  simp only [State.laneVals, List.map_cons, List.map_nil, g.moveVal, List.filterMap_cons, g.isPop_src, List.filterMap_nil,
    if_false, Bool.false_eq_true, pops_nil]
  rfl

/-- No trap stands before the move takes effect (R309). -/
theorem earlyStop (c0 c c1 : Nat) :
    t.earlyStop p lvl c0 c [m] [(0, m)] [(0, m, v, false)] ((t.sbAt c1).moveIn lvl m v) = none := by
  have hpriv : (lanesOf [m]).find? (fun x => privStatic lvl x.2) = none := by simp [lanesOf, g.level]
  have hknown : t.ioUnknown lvl [(0, m)] = false := by simp [ioUnknown, g.srcWait_src]
  have hio : ((t.sbAt c1).moveIn lvl m v).ioPriv p lvl (0, m, v, false) = false := by
    by_cases h : m.dst = 0x92
    · rw [moveIn_sbAt _ _ _ c1 (.inl h)]
      exact g.io h
    · simp [ioPriv, h]
  unfold Tile.earlyStop
  simp [hpriv, hknown, hio, laneTrap]

/-- No channel that the move would send into is full (R75). -/
theorem sendWait (s : State) (d c c1 : Nat) (at_ : At) :
    s.sendWait d p lvl c at_ ((t.sbAt c1).moveIn lvl m v) (0, m, v, false) = false := by
  have heg : (decide (0xB1 ≤ m.dst ∧ m.dst < 0xB3) && ((t.sbAt c1).moveIn lvl m v).egFull) = false := by
    by_cases h : 0xB1 ≤ m.dst ∧ m.dst < 0xB3
    · have hfull : (t.withMem (t.sbAt c1)).egFull = false := g.egress h
      rw [moveIn_sbAt _ _ _ c1 (.inr (.inl h)), hfull, Bool.and_false]
    · simp [h]
  have hch : (decide (0xC0 ≤ m.dst ∧ m.dst < 0xC4) && ((t.sbAt c1).moveIn lvl m v).chFull (m.dst - 0xC0)) = false := by
    by_cases h : 0xC0 ≤ m.dst ∧ m.dst < 0xC4
    · have hfull : (t.withMem (t.sbAt c1)).chFull (m.dst - 0xC0) = false := g.mesh h
      rw [moveIn_sbAt _ _ _ c1 (.inr (.inr h)), hfull, Bool.and_false]
    · simp [h]
  unfold State.sendWait
  dsimp only
  rw [heg, hch]
  rfl

/-- From some cycle on the store buffer lets the move issue. -/
theorem lsCycle (s : State) (d c1 n c : Nat) :
    ∃ k, ((t.sbAt c1).moveIn lvl m v).lsCycle (s.lsPhys d p lvl [(0, m, v, false)] ((t.sbAt c1).moveIn lvl m v)) n c =
      some k := by
  refine lsCycle_of_need (fun c2 => ?_) n c
  by_cases h : m.dst = 0x82 ∨ m.dst = 0x8A
  · refine lsNeed_of_not_wiping _ _ _ ?_
    rw [(memOnly_sbAt _ c2).regs 0x1E (.inr (by decide)), ior_moveIn, (t.memOnly_sbAt c1).regs 0x1E (.inr (by decide))]
    exact g.wipe h
  · rw [lsPhys_nil s d p lvl v _ h]
    exact ⟨0, rfl⟩

/-- The lanes that execute. -/
theorem lanes : (lanesOf [m]).filter (fun x => t.guardOk x.2) = [(0, m)] := by simp [lanesOf, g.guard]

/-- The bundle has an issue cycle (R683). -/
theorem issueCycle (s : State) (d : Nat) (at_ : At) (shape ext : Nat) :
    ∃ k, s.issueCycle d p t lvl at_ [m] shape ext = some k := by
  have hstack : (([(0, m)] : List (Nat × Move)).any (fun x => x.2.dst == 0x29 || x.2.dst == 0x2A) && t.sbHeld) = false := by
    by_cases h : m.dst = 0x29 ∨ m.dst = 0x2A
    · simp [sbHeld, g.stack h]
    · have : (m.dst == 0x29 || m.dst == 0x2A) = false := by simpa using h
      simp [this]
  unfold State.issueCycle
  dsimp only
  rw [g.lanes, g.laneVals]
  dsimp only
  rw [hstack]
  simp only [List.any_cons, List.any_nil, Bool.or_false, g.srcWait_src, g.sendWait, Bool.false_eq_true, if_false]
  exact g.lsCycle s d _ _ _

/-- The move issues at some cycle, on the tile as that cycle finds it. -/
theorem issueMoves (s : State) (d : Nat) (at_ : At) (shape ext : Nat) :
    ∃ c, s.issueMoves d p t lvl at_ [m] shape ext =
      s.act d p lvl c at_ (t.sk 0x32) [(0, m, v, false)] (t.sbAt c) ((t.sbAt c).moveIn lvl m v) := by
  obtain ⟨k, hk⟩ := g.issueCycle s d at_ shape ext
  refine ⟨k, ?_⟩
  unfold State.issueMoves
  dsimp only
  rw [g.lanes, g.laneVals, g.earlyStop, hk]
  dsimp only
  rw [g.laneVals]

end Tile.Goes

/-- A move whose guard is false issues at some cycle, and nothing is done (R99). -/
theorem State.issueMoves_idle (s : State) (d p : Nat) {t : Tile} {lvl : Nat} {m : Move} (at_ : At) (shape ext : Nat)
    (hguard : t.guardOk m = false) (hlevel : privStatic lvl m = false) :
    ∃ c, s.issueMoves d p t lvl at_ [m] shape ext = .ok (t.sbAt c) [] .none c 1 := by
  have hex : (lanesOf [m]).filter (fun x => t.guardOk x.2) = [] := by simp [lanesOf, hguard]
  have hvals (c : Nat) : s.laneVals d p lvl c t [] = (t.sbAt c, [], t.sbAt c) := rfl
  have hearly (c0 c : Nat) (u : Tile) : t.earlyStop p lvl c0 c [m] [] [] u = none := by
    have hpriv : (lanesOf [m]).find? (fun x => privStatic lvl x.2) = none := by simp [lanesOf, hlevel]
    simp [Tile.earlyStop, hpriv, Tile.ioUnknown, laneTrap]
  have hcycle : ∃ k, s.issueCycle d p t lvl at_ [m] shape ext = some k := by
    unfold State.issueCycle
    dsimp only
    rw [hex, hvals]
    exact Tile.lsCycle_of_need (fun c => ⟨0, rfl⟩) _ _
  obtain ⟨k, hk⟩ := hcycle
  refine ⟨k, ?_⟩
  unfold State.issueMoves
  dsimp only
  rw [hex, hvals, hearly, hk]
  rfl

/-! ## What the move then does -/

/-- A move that is no transfer and triggers without a trap (step 3 of R95). -/
theorem State.act_fires {s : State} {d p lvl c : Nat} {at_ : At} {flags : Word} {m : Move} {v : Word} {t0 t2 : Tile} {f : Fx}
    (hctl : isCtlMove m.dst = false) (h : s.fire d p lvl c at_ t2 m v = .ok f) :
    s.act d p lvl c at_ flags [(0, m, v, false)] t0 t2 =
      .ok f.tile f.outs .none c (1 + f.tile.lsHold c [(0, m, v, false)]) := by
  simp [State.act, State.fires, hctl, h, lowest]

/-- A transfer without a trap (R294). -/
theorem State.act_transfers {s : State} {d p lvl c cost : Nat} {at_ : At} {flags : Word} {m : Move} {v : Word}
    {t0 t2 t3 : Tile} {ctl : Ctl} (hpart : s.partner d p = none) (hctl : isCtlMove m.dst = true)
    (h : t2.ctlFx false flags at_.next c m v = .ok (t3, ctl, cost)) :
    s.act d p lvl c at_ flags [(0, m, v, false)] t0 t2 = .ok t3 [] ctl c cost := by
  have hls : isLs (0, m, v, false) = false := by
    have : ¬ (m.dst = 0x82 ∨ m.dst = 0x8A) := by rintro (e | e) <;> rw [e] at hctl <;> exact absurd hctl (by decide)
    simpa [isLs] using this
  simp [State.act, State.fires, hctl, hpart, Tile.lsHold, hls, h, lowest]

end Sys2Proof.Machine
end

section
/-!
SUPPORT. A plain bundle of one move is over: what its tile then is, and that nothing else changed (R95, R99).
-/
namespace Sys2Proof.Machine

/-! ## From the command to its words' leave -/

namespace Tile

theorem begin1_plain (s : State) (d p : Nat) {t : Tile} (hstep : t.stepping = false) (hq : t.tcrQ = []) :
    s.begin1 d p t = t.issuing := by
  have hq' : t.bcpFlush.tcrQ = [] := by rw [t.memOnly_bcpFlush.rest]; exact hq
  have hid (u : Tile) (h : u.tcrQ = []) (b : Bool) : u.tcrStep b = u := by
    unfold tcrStep
    simp only [h, List.filter_nil, List.foldl_nil, List.map_nil]
    rw [← h]
  unfold State.begin1 issuing
  rw [hstep, hid _ hq']
  rw [t.memOnly_bcpFlush.rest]
  rfl

/-- Outside an expansion, nothing that a RETX restored is taken up where nothing was. -/
theorem resumed_of_none {t : Tile} (hexp : t.exp = none) (hrep : t.rsmRep = none) (hmc : t.rsmMc = none) :
    ({ t with exp := none, rsmRep := none, rsmMc := none } : Tile) = t := by
  rw [← hexp, ← hrep, ← hmc]

/-- Outside a loop no body is captured. -/
theorem capture_of_no_loop {t : Tile} (h : t.loop = none) (lvl nxt : Nat) : t.capture lvl nxt = t := by
  unfold capture
  rw [h]

end Tile

/-- A plain bundle of one move that may stand at its level has no decode trap (R132). -/
theorem Tile.decodeStop_one {t : Tile} {lvl : Nat} {r : Bool} {i : Insn} {m : Move} (hundef : i.undef = none)
    (hrep : i.rep = .none) (hbody : i.body = .bundle [m]) (hpriv : privStatic lvl m = false) :
    t.decodeStop lvl r i = none := by
  have hfirst : firstOf i.undef (if r then t.manyStop [m] else none) = none := by
    rw [hundef]
    cases r <;> rfl
  have hlane : (lanesOf [m]).find? (fun x => privStatic lvl x.2) = none := by simp [lanesOf, hpriv]
  unfold decodeStop
  simp only [hbody, hrep, hlane, hfirst, Option.map_none]
  rfl

/-- The cycles of the shape rows of the instruction (R683). -/
def Tile.shapeOf (t : Tile) (i : Insn) : Nat := t.fetchStall i.next + t.patchStall

/-- What the bundle of one move comes to once its move has issued. -/
theorem State.OneMove.bundle {s : State} {d p : Nat} {i : Insn} {m : Move} {v : Word} (h : s.OneMove d p i m v) {ext : Nat}
    (hstep : (resumable m.dst m.op && (s.tile d p).guardOk m) = false) (hpriv : privStatic (s.tile d p).level m = false)
    {f : Tile} {outs : List OutWord} {ctl : Ctl} {c cost : Nat}
    (hi : s.issueMoves d p (s.tile d p).issuing.paid (s.tile d p).level ⟨i.next, i.prefixLen⟩ [m]
      ((s.tile d p).issuing.shapeOf i) ext = .ok f outs ctl c cost) :
    s.bundle d p ext = s.leave d p (s.transfer (f.spend (s.tile d p).clk c cost) ctl i.next).softEnd outs := by
  obtain ⟨-, -, -, hcan, -, ⟨hexp, hrep, hloop, -, hstepping, -, hrsm, hmc, hq, -, -⟩, hinsn, hundef, hsealed, hirep, hbody, -,
    -, hclean⟩ := h
  set t := s.tile d p with ht
  have hexp' : t.issuing.exp = none := by rw [Tile.issuing_rest]; exact hexp
  have hrep' : t.issuing.rep = none := by rw [Tile.issuing_rest]; exact hrep
  have hloop' : t.issuing.loop = none := by rw [Tile.issuing_rest]; exact hloop
  have hres : ({ t.issuing with exp := none, rsmRep := none, rsmMc := none } : Tile) = t.issuing :=
    Tile.resumed_of_none hexp' (by rw [Tile.issuing_rest]; exact hrsm) (by rw [Tile.issuing_rest]; exact hmc)
  have hclk : t.issuing.clk = t.clk := by rw [Tile.issuing_rest]; rfl
  have hmove : t.issuing.stepMove [m] = none := by
    have hguard : t.issuing.guardOk m = t.guardOk m := by simp only [Tile.guardOk, Tile.sk_issuing]
    simp only [Tile.stepMove, hguard, hstep]
    rfl
  have hfetch : t.issuing.fetchIns i.next = t.issuing :=
    Tile.fetchIns_of_clean (Tile.insn_next_le hinsn hsealed hirep hbody)
      fun k hk => by rw [Tile.gr_issuing _ (t.gkey_instr hk)]; exact hclean k
  have hissue : s.bundleIssue d p t.issuing t.level i [m] ext =
      s.leave d p (s.transfer (f.spend t.clk c cost) ctl i.next).softEnd outs := by
    unfold State.bundleIssue
    extract_lets keep once shape src
    have hkeep : keep t.issuing = t.issuing := if_neg (by rw [hrep', hmove]; simp)
    have honce : once t.issuing = t.issuing := by
      change ((keep t.issuing).capture t.level i.next).fetchIns i.next = t.issuing
      rw [hkeep, Tile.capture_of_no_loop hloop', hfetch]
    have hshape : shape = t.issuing.shapeOf i := rfl
    have hsrc : src = t.issuing := honce
    clear_value src
    rw [hmove, hsrc, hshape]
    dsimp only [Tile.paid] at hi ⊢
    rw [hi, hclk]
  have hdry : t.issuing.dryLoop = false := by rw [Tile.dryLoop, hloop']
  have hstages : t.issuing.stagesOk i = true := by simp [Tile.stagesOk, hsealed, hirep]
  have hlevel : t.issuing.issueLevel = t.level := by rw [Tile.issueLevel, hexp', Tile.level_issuing]
  unfold State.bundle
  dsimp only
  rw [← ht, if_pos hcan, Tile.begin1_plain s d p hstepping hq, hexp', hlevel]
  dsimp only
  rw [Tile.insn_issuing hinsn hsealed hirep hbody]
  dsimp only
  rw [Tile.decodeStop_one hundef hirep hbody hpriv]
  dsimp only
  rw [hdry, if_neg (by simp), if_pos hstages, hbody]
  exact (congrArg (fun u => s.bundleIssue d p u t.level i [m] ext) hres).trans hissue

/-! ## Words leave a tile outside any pair -/

/-- One change of a tile after another. -/
theorem TileOnly.trans {d p : Nat} {s t u : State} (h : TileOnly d p s t) (k : TileOnly d p t u) : TileOnly d p s u := by
  obtain ⟨hregs, htiles, ⟨a1, a2, a3, a4, a5, a6, a7⟩, htick, hout, himg⟩ := h
  obtain ⟨kregs, ktiles, ⟨b1, b2, b3, b4, b5, b6, b7⟩, ktick, kout, kimg⟩ := k
  exact ⟨kregs.trans hregs, fun e q hq => (ktiles e q hq).trans (htiles e q hq),
    ⟨b1.trans a1, b2.trans a2, b3.trans a3, b4.trans a4, b5.trans a5, b6.trans a6, b7.trans a7⟩,
    ktick.trans htick, kout.trans hout, kimg.trans himg⟩

/-- A flit as it was before its junction took copies of it or counted it. -/
def FlitAt.untaken (x : FlitAt) : FlitAt := { x with taken := 0 }

/-- What the junction admits from a tile changes nothing of it but what is noted on the flits that it has sent. -/
theorem State.reach_alone (s : State) (d p : Nat) : TileOnly d p s (s.reach d p) ∧
    ∃ oc, (s.reach d p).tile d p = { s.tile d p with outc := oc, marks := [] } ∧
      oc.map FlitAt.untaken = (s.tile d p).outc.map FlitAt.untaken := by
  have fold (xs : List FlitAt) (q : State × List FlitAt) (h : TileOnly d p s q.1 ∧ q.1.tile d p = s.tile d p) :
      let r := xs.foldl (fun (q : State × List FlitAt) x =>
        if q.1.enters d p x.port x && x.taken / 32 % 2 == 0 && q.1.allowsWord d x then
          (q.1.countWord d x, q.2 ++ [{ x with taken := x.taken + 32 }])
        else (q.1, q.2 ++ [x])) q
      (TileOnly d p s r.1 ∧ r.1.tile d p = s.tile d p) ∧
        r.2.map FlitAt.untaken = q.2.map FlitAt.untaken ++ xs.map FlitAt.untaken := by
    induction xs generalizing q with
    | nil => exact ⟨h, by simp⟩
    | cons x xs ih =>
      have hcount : TileOnly d p q.1 (q.1.countWord d x) :=
        ⟨rfl, fun _ _ _ => rfl, ⟨rfl, rfl, rfl, rfl, rfl, rfl, rfl⟩, rfl, rfl, rfl⟩
      rw [List.foldl_cons]
      split
      · obtain ⟨hr, hmap⟩ := ih (q.1.countWord d x, q.2 ++ [{ x with taken := x.taken + 32 }]) ⟨h.1.trans hcount, h.2⟩
        exact ⟨hr, hmap.trans (by simp [FlitAt.untaken])⟩
      · obtain ⟨hr, hmap⟩ := ih (q.1, q.2 ++ [x]) h
        exact ⟨hr, hmap.trans (by simp)⟩
  obtain ⟨⟨honly, htile⟩, hmap⟩ := fold (s.tile d p).outc (s, [])
    ⟨⟨rfl, fun _ _ _ => rfl, ⟨rfl, rfl, rfl, rfl, rfl, rfl, rfl⟩, rfl, rfl, rfl⟩, rfl⟩
  unfold State.reach State.onTile
  refine ⟨honly.trans (State.setTile_tileOnly ..), _, ?_, hmap⟩
  rw [State.tile_setTile_self, htile]

/-- Words leave a tile without a partner at once (R606). -/
theorem State.leave_alone {s : State} {d p : Nat} (hpart : s.partner d p = none) (t : Tile) (outs : List OutWord) :
    TileOnly d p s (s.leave d p t outs) ∧
    ∃ oc, (s.leave d p t outs).tile d p = { outs.foldl (fun (t : Tile) x => t.send x) t with outc := oc, marks := [] } ∧
      oc.map FlitAt.untaken =
        (s.flitsOut d p (outs.foldl (fun (t : Tile) x => t.send x) t)).outc.map FlitAt.untaken := by
  unfold State.leave
  rw [hpart]
  dsimp only
  generalize outs.foldl (fun (t : Tile) x => t.send x) t = w
  obtain ⟨honly, oc, htile, hmap⟩ := (s.setTile d p (s.flitsOut d p w)).reach_alone d p
  rw [State.tile_setTile_self] at htile hmap
  exact ⟨(s.setTile_tileOnly d p _).trans honly, oc, htile, hmap⟩

/-! ## The end of the bundle -/

namespace Tile

/-- Cycles are charged to the routine's count of them, which tol.cyc shows (R414). -/
theorem chargeCyc_rest (t : Tile) (n : Nat) : t.chargeCyc n =
    { t with sock := (t.chargeCyc n).sock, used := (t.chargeCyc n).used, evCyc := (t.chargeCyc n).evCyc,
             evq := (t.chargeCyc n).evq } := by
  have set (w : Word) : t.setSk 0xD0 w = { t with sock := (t.setSk 0xD0 w).sock } := rfl
  unfold chargeCyc
  split
  · dsimp only
    rw [set]
    split <;> rfl
  · rfl

theorem sk_chargeCyc (t : Tile) (n : Nat) {q : Nat} (h : q ≠ 0xD0) : (t.chargeCyc n).sk q = t.sk q := by
  have set (w : Word) : (t.setSk 0xD0 w).sk q = t.sk q := by rw [sk_setSk, if_neg (fun e => h e.1)]
  unfold chargeCyc
  split
  · dsimp only
    split
    · exact set _
    · exact set _
  · rfl

/-- The tile w is f once its bundle, which issued at cycle c, has ended, to go on at address a. -/
structure Ends (f w : Tile) (a c : Nat) : Prop where
  rest : w = { f with sock := w.sock, used := w.used, evCyc := w.evCyc, evq := w.evq, clk := w.clk, waited := w.waited,
                      sealed := w.sealed, sealRun := w.sealRun, hold := w.hold, atVec := w.atVec, fetched := w.fetched,
                      pc := a }
  clk : c < w.clk
  sk : ∀ q, ¬ (0xD0 ≤ q ∧ q < 0xD8) → w.sk q = f.sk q

namespace Ends
variable {f w : Tile} {a c : Nat} (h : Ends f w a c)
include h

theorem pc : w.pc = a := by rw [h.rest]
theorem soft : w.soft = f.soft := by rw [h.rest]
theorem raised : w.raised = f.raised := by rw [h.rest]
theorem phase : w.phase = f.phase := by rw [h.rest]
theorem io : w.io = f.io := by rw [h.rest]
theorem gran : w.gran = f.gran := by rw [h.rest]
theorem sb : w.sb = f.sb := by rw [h.rest]
theorem port : w.port = f.port := by rw [h.rest]
theorem lkReq : w.lkReq = f.lkReq := by rw [h.rest]
theorem eg : w.eg = f.eg := by rw [h.rest]
theorem outc : w.outc = f.outc := by rw [h.rest]
theorem wr : w.wr = f.wr := by rw [h.rest]
theorem cpl : w.cpl = f.cpl := by rw [h.rest]
theorem loop : w.loop = f.loop := by rw [h.rest]
theorem tcrQ : w.tcrQ = f.tcrQ := by rw [h.rest]

end Ends

/-- Without a software trap nothing follows the instruction (R305). -/
theorem softEnd_of_none {t : Tile} (h : t.soft = none) : t.softEnd = t := by
  unfold softEnd
  rw [h]

/-- Paying cycles charges them, and sets the clock. -/
theorem spend_rest (t : Tile) (old c cost : Nat) :
    t.spend old c cost = { t with sock := (t.spend old c cost).sock, used := (t.spend old c cost).used,
                                  evCyc := (t.spend old c cost).evCyc, evq := (t.spend old c cost).evq,
                                  clk := c + cost, waited := 0, fetched := true } := by
  have h := t.chargeCyc_rest (c + cost - old)
  unfold spend
  rw [h]

/-- Outside a repetition and a loop an instruction that ends goes on at an address. -/
theorem insnEnd_of_none {t : Tile} (hrep : t.rep = none) (hloop : t.loop = none) (a : Nat) :
    t.insnEnd a = { t.sealEnd with fetched := false, hold := none, atVec := none, waited := 0, pc := a } := by
  unfold insnEnd insnOver sealEnd loopEnd
  dsimp only
  rw [hrep]
  dsimp only
  rw [hloop]

/-- The clock once an instruction has ended outside a repetition and a loop. -/
theorem clk_insnEnd {f : Tile} (hrep : f.rep = none) (hloop : f.loop = none) (old c cost a : Nat) :
    ((f.spend old c cost).insnEnd a).clk = c + cost := by
  have h := f.spend_rest old c cost
  rw [insnEnd_of_none (by rw [h]; exact hrep) (by rw [h]; exact hloop)]
  rfl

/-- Outside a repetition and a loop the end of an instruction is the end of the bundle. -/
theorem insnEnd_ends {f : Tile} (hrep : f.rep = none) (hloop : f.loop = none) (old c a : Nat) {cost : Nat} (hcost : 0 < cost) :
    Ends f ((f.spend old c cost).insnEnd a) a c := by
  have hsk (q : Nat) (hq : ¬ (0xD0 ≤ q ∧ q < 0xD8)) := f.sk_chargeCyc (c + cost - old) (q := q) (by omega)
  have h := f.spend_rest old c cost
  refine ⟨?_, by rw [clk_insnEnd hrep hloop]; exact Nat.lt_add_of_pos_right hcost, fun q hq => ?_⟩
  · rw [insnEnd_of_none (by rw [h]; exact hrep) (by rw [h]; exact hloop), h]
    rfl
  · rw [insnEnd_of_none (by rw [h]; exact hrep) (by rw [h]; exact hloop)]
    exact hsk q hq

end Tile
end Sys2Proof.Machine
end

section
/-!
SUPPORT. One move of a plain bundle, from the command to the tile that it leaves: a move to a socket or a unit, a transfer, and
a move whose guard is false.
-/
namespace Sys2Proof.Machine

/-- A move from a register or a literal to a socket outside the im unit may stand at a level: at P0, or where it is no transfer
that P1 is refused (R104, R286). -/
theorem privStatic_eq_false {lvl : Nat} {m : Move} (hsrc : m.src < 0x20 ∨ 0xE0 ≤ m.src) (him : ¬ (0x98 ≤ m.dst ∧ m.dst < 0xA0))
    (hctl : lvl ≠ 0 ∨ (m.dst ≠ 0x2E ∧ m.dst ≠ 0x30 ∧ m.dst ≠ 0x31 ∧
      (m.guard = 0 ∨ (m.dst ≠ 0x28 ∧ m.dst ≠ 0x29 ∧ m.dst ≠ 0x2A ∧ m.dst ≠ 0x2C)))) : privStatic lvl m = false := by
  have hdst : isIm m.dst = false := by simpa [isIm] using him
  have hs : isIm m.src = false := by
    have : ¬ (0x98 ≤ m.src ∧ m.src < 0xA0) := by omega
    simpa [isIm] using this
  rcases hctl with h | ⟨h1, h2, h3, h4 | ⟨h4, h5, h6, h7⟩⟩
  · simp [privStatic, hdst, hs, h]
  · simp [privStatic, hdst, hs, h1, h2, h3, h4]
  · simp [privStatic, hdst, hs, h1, h2, h3, h4, h5, h6, h7]

/-- What may issue still may when what a bcopy wrote is in memory and the 6-cycle row is paid. -/
theorem Tile.Goes.issuing {t : Tile} {p lvl : Nat} {m : Move} {v : Word} (g : t.Goes p lvl m v) :
    t.issuing.paid.Goes p lvl m v := by
  have hsb := t.sb_issuing
  have hior : t.issuing.ior 0x1E = t.ior 0x1E := t.ior_issuing (.inr (by decide))
  rw [t.issuing_rest] at hsb hior ⊢
  exact ⟨g.guard, g.source, g.value, g.sound, g.level, g.io, g.egress, g.mesh, fun h => hior ▸ g.wipe h,
    fun h => hsb.trans (g.stack h)⟩

/-- Nothing of an instruction or a trap is in progress, and the tile runs. -/
def Tile.Bare (t : Tile) : Prop := t.rep = none ∧ t.loop = none ∧ t.soft = none ∧ t.raised = none ∧ t.phase = .run

namespace State.OneMove
variable {s : State} {d p : Nat} {i : Insn} {m : Move} {v : Word} (h : s.OneMove d p i m v) (ext : Nat)
include h

theorem held : s.held = false := h.1
theorem alone : s.partner d p = none := by obtain ⟨-, -, -, -, hpart, -⟩ := h; exact hpart
theorem source : m.src < 0x20 ∨ 0xE0 ≤ m.src := by obtain ⟨-, -, -, -, -, -, -, -, -, -, -, hsrc, -, -⟩ := h; exact hsrc

/-- A tile that is to issue runs, and nothing is raised. -/
theorem runs : (s.tile d p).phase = .run ∧ (s.tile d p).raised = none := by
  obtain ⟨-, -, -, hcan, -⟩ := h
  simp only [State.canIssue, Bool.and_eq_true, beq_iff_eq, Option.isNone_iff_eq_none] at hcan
  exact ⟨hcan.1.1.1, hcan.1.2⟩

/-- Nothing but its move is in progress in the tile that the move finds. -/
theorem bare_meets (c : Nat) : ((s.tile d p).meets c).Bare := by
  obtain ⟨hphase, hraised⟩ := h.runs
  obtain ⟨-, -, -, -, -, ⟨-, hrep, hloop, -, -, -, -, -, -, hsoft, -⟩, -⟩ := h
  rw [Tile.meets_rest]
  exact ⟨hrep, hloop, hsoft, hraised, hphase⟩

/-- The command comes to what its effect gives. -/
theorem exec_bundle {u : State} (hu : s.bundle d p ext = u) : exec (.bundle d p ext) s = .next (s.keepQueue u) := by
  obtain ⟨hheld, hd, hp, -⟩ := h
  exact exec_ownCommand (fun _ => rfl) hheld hd hp hu

/-- A move with a true guard may issue where its socket asks for no more. -/
theorem goes (hguard : (s.tile d p).guardOk m = true) (hlevel : privStatic (s.tile d p).level m = false)
    (hio : m.dst = 0x92 → (s.tile d p).ioPriv p (s.tile d p).level (0, m, v, false) = false)
    (hegress : 0xB1 ≤ m.dst ∧ m.dst < 0xB3 → (s.tile d p).egFull = false)
    (hmesh : 0xC0 ≤ m.dst ∧ m.dst < 0xC4 → (s.tile d p).chFull (m.dst - 0xC0) = false)
    (hwipe : m.dst = 0x82 ∨ m.dst = 0x8A → bitOf ((s.tile d p).ior 0x1E) 0 = false)
    (hstack : m.dst = 0x29 ∨ m.dst = 0x2A → (s.tile d p).sb = []) :
    (s.tile d p).Goes p (s.tile d p).level m v := by
  obtain ⟨-, -, -, -, -, ⟨-, -, -, -, -, -, -, -, -, -, hpsn⟩, -, -, -, -, -, hsrc, hv, -⟩ := h
  exact ⟨hguard, hsrc, hv, hpsn, hlevel, hio, hegress, hmesh, hwipe, hstack⟩

/-- What the bundle leaves once its words have left the tile w. -/
theorem leaves {w : Tile} {outs : List OutWord} (hu : s.bundle d p ext = s.leave d p w outs) :
    ∃ t oc, exec (.bundle d p ext) s = .next t ∧ TileOnly d p s t ∧
      t.tile d p = { outs.foldl (fun (t : Tile) x => t.send x) w with outc := oc, marks := [] } ∧
      oc.map FlitAt.untaken = (s.flitsOut d p (outs.foldl (fun (t : Tile) x => t.send x) w)).outc.map FlitAt.untaken := by
  obtain ⟨honly, oc, htile, hmap⟩ := s.leave_alone h.alone w outs
  exact ⟨_, oc, h.exec_bundle ext hu, honly, htile, hmap⟩

/-- A move to a socket or a unit, with what its trigger does at each cycle: f the tile after it, w that tile at the end. -/
theorem moves {F : Nat → Fx} (g : (s.tile d p).Goes p (s.tile d p).level m v) (hres : resumable m.dst m.op = false)
    (hctl : isCtlMove m.dst = false)
    (hF : ∀ c, s.fire d p (s.tile d p).level c ⟨i.next, i.prefixLen⟩ (((s.tile d p).meets c).moveIn (s.tile d p).level m v) m v =
      .ok (F c))
    (hbare : ∀ c, (F c).tile.Bare) :
    ∃ t c w oc, exec (.bundle d p ext) s = .next t ∧ TileOnly d p s t ∧ Tile.Ends (F c).tile w i.next c ∧
      t.tile d p = { (F c).outs.foldl (fun (t : Tile) x => t.send x) w with outc := oc, marks := [] } ∧
      oc.map FlitAt.untaken =
        (s.flitsOut d p ((F c).outs.foldl (fun (t : Tile) x => t.send x) w)).outc.map FlitAt.untaken := by
  obtain ⟨c, hc⟩ := g.issuing.issueMoves s d ⟨i.next, i.prefixLen⟩ ((s.tile d p).issuing.shapeOf i) ext
  rw [Tile.sbAt_paid, State.act_fires hctl (hF c)] at hc
  obtain ⟨hrep, hloop, hsoft, -, -⟩ := hbare c
  have hends := Tile.insnEnd_ends hrep hloop (s.tile d p).clk c i.next
    (cost := 1 + (F c).tile.lsHold c [(0, m, v, false)]) (by omega)
  have hu := h.bundle (by rw [hres]; rfl) g.level hc
  rw [State.transfer, Tile.softEnd_of_none (hends.soft.trans hsoft)] at hu
  obtain ⟨t, oc, hexec, honly, htile, hmap⟩ := h.leaves ext hu
  exact ⟨t, c, _, oc, hexec, honly, hends, htile, hmap⟩

/-- A move whose guard is false: its tile, as it finds it, ends the bundle. -/
theorem idles (hguard : (s.tile d p).guardOk m = false) (hlevel : privStatic (s.tile d p).level m = false) :
    ∃ t c w oc, exec (.bundle d p ext) s = .next t ∧ TileOnly d p s t ∧ Tile.Ends ((s.tile d p).meets c) w i.next c ∧
      t.tile d p = { w with outc := oc, marks := [] } := by
  have hguard' : (s.tile d p).issuing.paid.guardOk m = false := by
    rw [← hguard]
    simp only [Tile.guardOk, Tile.sk_paid, Tile.sk_issuing]
  obtain ⟨c, hc⟩ := s.issueMoves_idle d p ⟨i.next, i.prefixLen⟩ ((s.tile d p).issuing.shapeOf i) ext hguard' hlevel
  rw [Tile.sbAt_paid] at hc
  obtain ⟨hrep, hloop, hsoft, -, -⟩ := h.bare_meets c
  have hends := Tile.insnEnd_ends hrep hloop (s.tile d p).clk c i.next Nat.one_pos
  have hu := h.bundle (by rw [hguard, Bool.and_false]) hlevel hc
  rw [State.transfer, Tile.softEnd_of_none (hends.soft.trans hsoft)] at hu
  obtain ⟨t, oc, hexec, honly, htile, -⟩ := h.leaves ext hu
  exact ⟨t, c, _, oc, hexec, honly, hends, htile⟩

/-- A transfer, with what it does at each cycle: its tile, where it goes, and its cycles. -/
theorem transfers {K : Nat → Tile × Ctl × Nat} (g : (s.tile d p).Goes p (s.tile d p).level m v)
    (hctl : isCtlMove m.dst = true)
    (hK : ∀ c, ((s.tile d p).meets c).ctlFx false ((s.tile d p).sk 0x32) i.next c m v = .ok (K c)) :
    ∃ t c w oc, exec (.bundle d p ext) s = .next t ∧ TileOnly d p s t ∧
      w = (s.transfer ((K c).1.spend (s.tile d p).clk c (K c).2.2) (K c).2.1 i.next).softEnd ∧
      t.tile d p = { w with outc := oc, marks := [] } := by
  have hdst : m.dst = 0x28 ∨ m.dst = 0x29 ∨ m.dst = 0x2A ∨ m.dst = 0x2C ∨ m.dst = 0x2F ∨ m.dst = 0x30 ∨ m.dst = 0x31 := by
    simpa [isCtlMove, or_assoc] using hctl
  have hne : sockKind m.dst ≠ some .rw := by rcases hdst with e | e | e | e | e | e | e <;> rw [e] <;> decide
  have hres : resumable m.dst m.op = false := by
    have h1 : (m.dst == 0x82) = false := by rw [beq_eq_false_iff_ne]; omega
    have h2 : (m.dst == 0x8A) = false := by rw [beq_eq_false_iff_ne]; omega
    have h3 : (m.dst == 0xA2) = false := by rw [beq_eq_false_iff_ne]; omega
    simp [resumable, h1, h2, h3]
  obtain ⟨c, hc⟩ := g.issuing.issueMoves s d ⟨i.next, i.prefixLen⟩ ((s.tile d p).issuing.shapeOf i) ext
  rw [Tile.sbAt_paid, Tile.moveIn_of_not_rw _ _ _ hne, Tile.sk_paid, Tile.sk_issuing,
    State.act_transfers (at_ := ⟨i.next, i.prefixLen⟩) h.alone hctl (hK c)] at hc
  have hu := h.bundle (by rw [hres]; rfl) g.level hc
  generalize hw : (s.transfer ((K c).1.spend (s.tile d p).clk c (K c).2.2) (K c).2.1 i.next).softEnd = w at hu
  obtain ⟨t, oc, hexec, honly, htile, -⟩ := h.leaves ext hu
  exact ⟨t, c, w, oc, hexec, honly, hw.symm, htile⟩

end State.OneMove

/-! ## What is claimed of a bundle that is over -/

/-- The bundle is over: f is the tile after its moves and w at their end, and what it has sent stands in its queues. -/
structure Over (d p a c : Nat) (f : Tile) (s t : State) : Prop where
  only : TileOnly d p s t
  clk : c < (t.tile d p).clk
  pc : (t.tile d p).pc = a
  raised : (t.tile d p).raised = f.raised
  phase : (t.tile d p).phase = f.phase
  gran : (t.tile d p).gran = f.gran
  io : (t.tile d p).io = f.io
  sk : ∀ q, ¬ (0xD0 ≤ q ∧ q < 0xD8) → (t.tile d p).sk q = f.sk q

/-- A bundle that sent nothing, or whose words wait in the tile's queues for their junction, island, unit or port. -/
theorem Tile.Ends.over {d p a c : Nat} {f w w' : Tile} {s t : State} {oc : List FlitAt} (h : Tile.Ends f w a c)
    (honly : TileOnly d p s t) (htile : t.tile d p = { w' with outc := oc, marks := [] })
    (hsent : w' = { w with outc := w'.outc, eg := w'.eg, lkReq := w'.lkReq, port := w'.port }) : Over d p a c f s t := by
  have hall : t.tile d p = { w with outc := oc, eg := w'.eg, lkReq := w'.lkReq, port := w'.port, marks := [] } := by
    rw [htile, hsent]
  exact ⟨honly, by rw [hall]; exact h.clk, by rw [hall]; exact h.pc, by rw [hall]; exact h.raised,
    by rw [hall]; exact h.phase, by rw [hall]; exact h.gran, by rw [hall]; exact h.io,
    fun q hq => by rw [hall]; exact h.sk q hq⟩

namespace Over
variable {d p a c : Nat} {f u : Tile} {P : Nat → Prop} {s t : State} (h : Over d p a c f s t)
include h

/-- The memories and registers are those of u, and no socket changed but those that P names. -/
theorem bundledAs (hgran : f.gran = u.gran) (hio : f.io = u.io)
    (hsk : ∀ q, ¬ P q → ¬ (0xD0 ≤ q ∧ q < 0xD8) → f.sk q = (s.tile d p).sk q) : BundledAs d p c u P s t :=
  ⟨h.only, h.clk, h.gran.trans hgran, h.io.trans hio, fun q hq htol => (h.sk q htol).trans (hsk q hq htol)⟩

theorem runsOn (hbare : f.Bare) : (t.tile d p).RunsOn a := by
  obtain ⟨-, -, -, hraised, hphase⟩ := hbare
  exact ⟨h.pc, h.raised.trans hraised, h.phase.trans hphase⟩

end Over

/-- A move that sends no word, with the tile that it gives at each cycle. -/
theorem State.OneMove.movesQuietly {s : State} {d p : Nat} {i : Insn} {m : Move} {v : Word} (h : s.OneMove d p i m v) (ext : Nat)
    {F : Nat → Tile} (g : (s.tile d p).Goes p (s.tile d p).level m v) (hres : resumable m.dst m.op = false)
    (hctl : isCtlMove m.dst = false)
    (hF : ∀ c, s.fire d p (s.tile d p).level c ⟨i.next, i.prefixLen⟩ (((s.tile d p).meets c).moveIn (s.tile d p).level m v) m v =
      fxOk (F c))
    (hbare : ∀ c, (F c).Bare) :
    ∃ t c, exec (.bundle d p ext) s = .next t ∧ Over d p i.next c (F c) s t ∧ (t.tile d p).sb = (F c).sb := by
  obtain ⟨t, c, w, oc, hexec, honly, hends, htile, -⟩ := h.moves ext (F := fun c => ⟨F c, []⟩) g hres hctl hF hbare
  exact ⟨t, c, hexec, hends.over honly htile rfl, by rw [htile]; exact hends.sb⟩

end Sys2Proof.Machine
end

section
/-!
SUPPORT. The moves of a plain bundle that send nothing: to a socket, to an alu, and to a load and store unit.
-/
namespace Sys2Proof.Machine

/-! ## Effects that set sockets -/

/-- As far as its memories and registers, the sockets outside P and what is in progress show, the tile f is u. -/
structure Tile.SetsOnly (P : Nat → Prop) (u f : Tile) : Prop where
  bare : u.Bare → f.Bare
  gran : f.gran = u.gran
  io : f.io = u.io
  sk : ∀ q, ¬ P q → f.sk q = u.sk q

namespace Tile
variable {P : Nat → Prop}

theorem SetsOnly.trans {u v w : Tile} (h1 : SetsOnly P u v) (h2 : SetsOnly P v w) : SetsOnly P u w :=
  ⟨fun h => h2.bare (h1.bare h), h2.gran.trans h1.gran, h2.io.trans h1.io, fun q hq => (h2.sk q hq).trans (h1.sk q hq)⟩

/-- A tile that differs from u in no field named is u as far as it goes. -/
theorem setsOnly_of_eq {u f : Tile} (hbare : u.Bare → f.Bare) (hgran : f.gran = u.gran) (hio : f.io = u.io)
    (hsock : f.sock = u.sock) : SetsOnly P u f := ⟨hbare, hgran, hio, fun q _ => by unfold sk; rw [hsock]⟩

theorem SetsOnly.refl (u : Tile) : SetsOnly P u u := ⟨id, rfl, rfl, fun _ _ => rfl⟩

/-- A tile with a socket set is that tile with other sockets. -/
theorem setSk_rest (t : Tile) (a : Nat) (w : Word) : t.setSk a w = { t with sock := (t.setSk a w).sock } := by
  unfold setSk; split <;> rfl

theorem setsOnly_setSk (t : Tile) {a : Nat} (w : Word) (h : P a) : SetsOnly P t (t.setSk a w) where
  bare hb := by rw [setSk_rest]; exact hb
  gran := by rw [setSk_rest]
  io := by rw [setSk_rest]
  sk q hq := by rw [sk_setSk, if_neg fun e : q = a ∧ a ≠ 0x20 => hq (e.1 ▸ h)]

theorem setsOnly_setRes (t : Tile) {a : Nat} (w : Word) (bad : Bool) (h : P a) : SetsOnly P t (t.setRes a w bad) :=
  (t.setsOnly_setSk w h).trans (setsOnly_of_eq id rfl rfl rfl)

theorem setsOnly_setReady (t : Tile) (k c : Nat) : SetsOnly P t (t.setReady k c) := setsOnly_of_eq id rfl rfl rfl

theorem setsOnly_setFlags (t : Tile) (lvl : Nat) (r : Word) (c v : Bool) (k : Nat) (h : P 0x32) :
    SetsOnly P t (t.setFlags lvl r c v k) := by
  unfold setFlags
  split
  · exact .refl t
  · exact (t.setsOnly_setSk _ h).trans (setsOnly_of_eq id rfl rfl rfl)

/-- The buffered stores l once bundle bid stores w to the nonets m of word q at cycle c (R240). -/
def pushed (l : List SbEntry) (bid q m : Nat) (w : Word) (c : Nat) : List SbEntry :=
  let mask := nonetSet q m
  match l.getLast? with
  | some e =>
    if e.gran = q / 2 ∧ (e.born = bid ∨ 1 < l.length) then
      l.dropLast ++ [{ e with mask := e.mask ||| mask, data := mergeBits e.data (nonetBits mask.toNat) (wordBits q w) }]
    else l ++ [⟨q / 2, mask, wordBits q w &&& nonetBits mask.toNat, bid, max c e.due + 2⟩]
  | none => [⟨q / 2, mask, wordBits q w &&& nonetBits mask.toNat, bid, c + 2⟩]

/-- A store that enters the buffer changes nothing else. -/
theorem sbPush_eq (t : Tile) (q m : Nat) (w : Word) (c : Nat) :
    t.sbPush q m w c = { t with sb := pushed t.sb t.bid q m w c } := by
  unfold sbPush pushed
  cases t.sb.getLast? with
  | none => rfl
  | some e => dsimp only; split <;> rfl

theorem setsOnly_sbPush (t : Tile) (q m : Nat) (w : Word) (c : Nat) : SetsOnly P t (t.sbPush q m w c) := by
  rw [sbPush_eq]; exact setsOnly_of_eq id rfl rfl rfl

theorem sb_sbPush_paid (t : Tile) (q m : Nat) (w : Word) (c : Nat) : (t.paid.sbPush q m w c).sb = (t.sbPush q m w c).sb := by
  rw [sbPush_eq, sbPush_eq]; rfl

theorem sk_meets (t : Tile) (c q : Nat) : (t.meets c).sk q = t.sk q := by rw [meets_rest]; rfl

/-- A socket that keeps all its bits reads as it was set. -/
theorem sk_setSk_whole (t : Tile) {a : Nat} (w : Word) (ha : ¬ (0x20 ≤ a ∧ a < 0x28)) (hflags : a ≠ 0x32)
    (hpg : a ≠ 0x86 ∧ a ≠ 0x8E ∧ a ≠ 0xA8) : (t.setSk a w).sk a = w := by
  rw [sk_setSk, if_pos ⟨rfl, by omega⟩]
  unfold skMask
  rw [if_neg (by omega), if_neg hflags, if_neg (by omega), if_neg hpg.2.2]
  exact BitVec.and_allOnes

theorem sk_setSk_ne (t : Tile) {a q : Nat} (w : Word) (h : q ≠ a) : (t.setSk a w).sk q = t.sk q := by
  rw [sk_setSk, if_neg fun e : q = a ∧ a ≠ 0x20 => h e.1]

theorem sk_setReady (t : Tile) (k c q : Nat) : (t.setReady k c).sk q = t.sk q := rfl

theorem sk_setRes (t : Tile) (a : Nat) (w : Word) (bad : Bool) (q : Nat) : (t.setRes a w bad).sk q = (t.setSk a w).sk q := rfl

end Tile

/-- A register, operand socket or accumulator half is a destination without an operation. -/
theorem socket_dst {a : Nat} (h : a < 0x20 ∨ (0x38 ≤ a ∧ a < 0x80 ∧ sockKind a = some .rw)) :
    a < 0x80 ∧ ¬ (0x20 ≤ a ∧ a < 0x38) ∧ sockKind a = some .rw := by
  rcases h with h | ⟨h1, h2, h3⟩
  · exact ⟨by omega, by omega, if_pos (by omega)⟩
  · exact ⟨h2, by omega, h3⟩

namespace State.OneMove
variable {s : State} {d p : Nat} {i : Insn} {m : Move} {v : Word} (h : s.OneMove d p i m v) (ext : Nat)
include h

/-- A move that sends no word, sets the sockets that P names and leaves memories and registers. -/
theorem movesBundled {F : Nat → Tile} (P : Nat → Prop) (g : (s.tile d p).Goes p (s.tile d p).level m v)
    (hres : resumable m.dst m.op = false) (hctl : isCtlMove m.dst = false)
    (hF : ∀ c, s.fire d p (s.tile d p).level c ⟨i.next, i.prefixLen⟩ (((s.tile d p).meets c).moveIn (s.tile d p).level m v) m v =
      fxOk (F c))
    (hset : ∀ c, Tile.SetsOnly P ((s.tile d p).meets c) (F c)) :
    ∃ t c, exec (.bundle d p ext) s = .next t ∧ Bundled d p c P s t ∧ (t.tile d p).RunsOn i.next ∧ (t.tile d p).sb = (F c).sb ∧
      ∀ q, ¬ (0xD0 ≤ q ∧ q < 0xD8) → (t.tile d p).sk q = (F c).sk q := by
  have hbare (c : Nat) : (F c).Bare := (hset c).bare (h.bare_meets c)
  obtain ⟨t, c, hexec, hover, hsb⟩ := h.movesQuietly ext g hres hctl hF hbare
  exact ⟨t, c, hexec, hover.bundledAs (hset c).gran (hset c).io fun q hq _ => ((hset c).sk q hq).trans (Tile.sk_meets ..),
    hover.runsOn (hbare c), hsb, hover.sk⟩

/-! ## Sockets (R95, R119) -/

/-- A move to a register, an operand socket or an accumulator half. -/
theorem socket_moves (hdst : m.dst < 0x20 ∨ (0x38 ≤ m.dst ∧ m.dst < 0x80 ∧ sockKind m.dst = some .rw)) :
    ∃ t c, exec (.bundle d p ext) s = .next t ∧ Bundled d p c (fun q => q = m.dst) s t ∧ (t.tile d p).RunsOn i.next ∧
      (t.tile d p).sk m.dst = (if (s.tile d p).guardOk m = true then v else (s.tile d p).sk m.dst) := by
  obtain ⟨hlt, hnot, hkind⟩ := socket_dst hdst
  have hpriv : privStatic (s.tile d p).level m = false := privStatic_eq_false h.source (by omega) (.inr (by omega))
  split
  · next hguard =>
    have g := h.goes hguard hpriv (by omega) (by omega) (by omega) (by omega) (by omega)
    have hF (c : Nat) : s.fire d p (s.tile d p).level c ⟨i.next, i.prefixLen⟩
        (((s.tile d p).meets c).moveIn (s.tile d p).level m v) m v = fxOk (((s.tile d p).meets c).setSk m.dst v) := by
      simp only [State.fire, hasOp, Tile.moveIn, hkind, show m.dst ≠ 0x2E by omega, show m.dst ≠ 0x32 by omega, if_false]
      exact if_pos (by simp)
    obtain ⟨t, c, hexec, hb, hruns, -, hsk⟩ := h.movesBundled ext (fun q => q = m.dst) g
      (by simp [resumable]; omega) (by simp [isCtlMove]; omega) hF fun c => Tile.setsOnly_setSk _ v rfl
    exact ⟨t, c, hexec, hb, hruns, (hsk _ (by omega)).trans (Tile.sk_setSk_whole _ v (by omega) (by omega) (by omega))⟩
  · next hguard =>
    obtain ⟨t, c, w, oc, hexec, honly, hends, htile⟩ := h.idles ext (Bool.eq_false_of_not_eq_true hguard) hpriv
    have hover := hends.over honly htile rfl
    exact ⟨t, c, hexec, hover.bundledAs rfl rfl fun q _ _ => Tile.sk_meets .., hover.runsOn (h.bare_meets c),
      (hover.sk _ (by omega)).trans (Tile.sk_meets ..)⟩

end State.OneMove

/-! ## Alu operations (R196, R199) -/

/-- The four flags fit the bits that the flags socket keeps (R198). -/
theorem flagsOf_and_15 (r : Word) (c v : Bool) : flagsOf r c v &&& 15 = flagsOf r c v := by
  have all : ∀ z n c v : Bool, wd (8 * natB z + 4 * natB n + 2 * natB c + natB v) &&& 15 =
      wd (8 * natB z + 4 * natB n + 2 * natB c + natB v) := by decide
  exact all _ _ c v

namespace Tile

/-- The tile once an alu operation of the unit at b gave x at cycle c (R196, R199). -/
def aluSets (t : Tile) (lvl b c : Nat) (x : AluOut) : Tile :=
  (((t.setSk (b + 3) x.r).setSk (b + 4) (wdB x.c)).setReady (b / 8) (c + 1)).setFlags lvl x.r x.c x.v (c + 1)

theorem aluFx_eq_aluSets (t : Tile) (lvl c : Nat) {b op : Nat} {w : Word} {x : AluOut}
    (hx : aluOp op (t.sk b) (t.sk (b + 1)) w = some x) (htrap : (x.ovf && x.v && bitOf t.tcr 4) = false) :
    t.aluFx lvl b op c w = fxOk (t.aluSets lvl b c x) := by
  unfold aluFx
  rw [hx]
  exact if_neg (by rw [htrap]; exact Bool.false_ne_true)

theorem setsOnly_aluSets (t : Tile) (lvl b c : Nat) (x : AluOut) :
    SetsOnly (fun q => q = b + 3 ∨ q = b + 4 ∨ q = 0x32) t (t.aluSets lvl b c x) :=
  (((t.setsOnly_setSk x.r (.inl rfl)).trans (setsOnly_setSk _ _ (.inr (.inl rfl)))).trans (setsOnly_setReady ..)).trans
    (setsOnly_setFlags _ _ _ _ _ _ (.inr (.inr rfl)))

/-- The flags leave the other sockets. -/
theorem sk_setFlags (t : Tile) (lvl : Nat) (r : Word) (c v : Bool) (k q : Nat) :
    (t.setFlags lvl r c v k).sk q = if lvl ≠ 0 ∧ q = 0x32 then flagsOf r c v else t.sk q := by
  unfold setFlags
  split
  · next hl => rw [if_neg fun e => e.1 hl]
  · next hl =>
    have hset : ({ t.setSk 0x32 (flagsOf r c v) with flagReady := k } : Tile).sk q = (t.setSk 0x32 (flagsOf r c v)).sk q := rfl
    rw [hset, sk_setSk]
    by_cases hq : q = 0x32
    · rw [if_pos ⟨hq, by decide⟩, if_pos ⟨hl, hq⟩]; exact flagsOf_and_15 r c v
    · rw [if_neg fun e => hq e.1, if_neg fun e => hq e.2]

end Tile

/-- The trigger of an alu unit. -/
theorem State.fire_alu (s : State) (d p lvl c : Nat) (at_ : At) (t : Tile) {m : Move} (v : Word) {b : Nat}
    (hb : b = 0x38 ∨ b = 0x40 ∨ b = 0x48 ∨ b = 0x50) (hdst : m.dst = b + 2) :
    s.fire d p lvl c at_ (t.moveIn lvl m v) m v = t.aluFx lvl b m.op c v := by
  have hkind : sockKind m.dst = some .t := by rcases hb with rfl | rfl | rfl | rfl <;> rw [hdst] <;> rfl
  rw [Tile.moveIn_of_not_rw _ _ _ (by rw [hkind]; decide)]
  unfold State.fire
  rw [if_neg (by simp [hasOp, hkind]; omega), if_pos (by omega), show m.dst / 8 * 8 = b by omega]

namespace State.OneMove
variable {s : State} {d p : Nat} {i : Insn} {m : Move} {v : Word} (h : s.OneMove d p i m v) (ext : Nat)
include h

/-- An alu operation that does not trap sets the result, the carry and, at P0, the flags (R196, R199). -/
theorem alu_moves (hguard : (s.tile d p).guardOk m = true) {b : Nat} {x : AluOut}
    (hb : b = 0x38 ∨ b = 0x40 ∨ b = 0x48 ∨ b = 0x50) (hdst : m.dst = b + 2)
    (hx : aluOp m.op ((s.tile d p).sk b) ((s.tile d p).sk (b + 1)) v = some x)
    (htrap : (x.ovf && x.v && bitOf (s.tile d p).tcr 4) = false) :
    ∃ t c, exec (.bundle d p ext) s = .next t ∧ (t.tile d p).RunsOn i.next ∧
      Bundled d p c (fun q => q = b + 3 ∨ q = b + 4 ∨ q = 0x32) s t ∧
      (t.tile d p).sk (b + 3) = x.r ∧ (t.tile d p).sk (b + 4) = wdB x.c ∧
      (t.tile d p).sk 0x32 = (if (s.tile d p).level = 0 then (s.tile d p).sk 0x32 else flagsOf x.r x.c x.v) := by
  have g := h.goes hguard (privStatic_eq_false h.source (by omega) (.inr (by omega)))
    (by omega) (by omega) (by omega) (by omega) (by omega)
  have hF (c : Nat) := (s.fire_alu d p (s.tile d p).level c ⟨i.next, i.prefixLen⟩ ((s.tile d p).meets c) v hb hdst).trans
    (Tile.aluFx_eq_aluSets _ (s.tile d p).level c (x := x) (by rw [Tile.sk_meets, Tile.sk_meets, hx])
      (by rw [Tile.tcr, Tile.ior_meets _ _ (.inl (by decide))]; exact htrap))
  obtain ⟨t, c, hexec, hb', hruns, -, hsk⟩ := h.movesBundled ext _ g (by simp [resumable]; omega) (by simp [isCtlMove]; omega) hF
    fun c => Tile.setsOnly_aluSets ..
  refine ⟨t, c, hexec, hruns, hb', ?_, ?_, ?_⟩
  · rw [hsk _ (by omega), Tile.aluSets, Tile.sk_setFlags, if_neg (by omega), Tile.sk_setReady, Tile.sk_setSk_ne _ _ (by omega),
      Tile.sk_setSk_whole _ _ (by omega) (by omega) (by omega)]
  · rw [hsk _ (by omega), Tile.aluSets, Tile.sk_setFlags, if_neg (by omega), Tile.sk_setReady,
      Tile.sk_setSk_whole _ _ (by omega) (by omega) (by omega)]
  · rw [hsk _ (by omega), Tile.aluSets, Tile.sk_setFlags, Tile.sk_setReady, Tile.sk_setSk_ne _ _ (by omega),
      Tile.sk_setSk_ne _ _ (by omega), Tile.sk_meets]
    by_cases hl : (s.tile d p).level = 0
    · rw [if_neg fun e => e.1 hl, if_pos hl]
    · rw [if_pos ⟨hl, rfl⟩, if_neg hl]

end State.OneMove

/-! ## Loads and stores (R236, R240, R242) -/

/-- The trigger of a load and store unit. -/
theorem State.fire_ls (s : State) (d p lvl c : Nat) (at_ : At) (t : Tile) {m : Move} (v : Word) {b : Nat}
    (hb : b = 0x80 ∨ b = 0x88) (hdst : m.dst = b + 2) :
    s.fire d p lvl c at_ (t.moveIn lvl m v) m v = t.lsOp (p == 72) b m.op c v := by
  have hkind : sockKind m.dst = some .t := by rcases hb with rfl | rfl <;> rw [hdst] <;> rfl
  rw [Tile.moveIn_of_not_rw _ _ _ (by rw [hkind]; decide)]
  unfold State.fire
  rw [if_neg (by simp [hasOp, hkind]; omega), if_neg (by omega), if_neg (by omega), if_neg (by omega), if_neg (by omega),
    if_neg (by omega), if_pos (by omega), show m.dst / 8 * 8 = b by omega]

namespace Tile

/-- A granule of class clean is a codeword, and delivers its data bits (R341). -/
theorem eccClass_eq_clean {code : Bool} {g : Gran} {x : BitVec 72} (h : eccClass code g = (.clean, x)) :
    eccSyn g = 0 ∧ granData g = x := by
  unfold eccClass at h
  dsimp only at h
  split at h
  · next h0 => exact ⟨h0, congrArg Prod.snd h⟩
  · split at h
    · simp at h
    · split at h <;> simp at h

/-- A tile that buffers no store meets its bundle as it issues. -/
theorem meets_of_nil {t : Tile} (h : t.sb = []) (c : Nat) : t.meets c = t.issuing.paid := by
  rw [meets, atIssue, sbAt_of_nil]
  · rfl
  · exact t.sb_issuing.trans h

/-- With no store buffered a load of a clean granule takes its data from memory (R242, R341). -/
theorem loadGran_of_clean {t : Tile} {q : Nat} {g : BitVec 72} (need : BitVec 8) (c : Nat) (hsb : t.sb = [])
    (h : eccClass false (t.bcpFlush.gr (dataGran q).1 (dataGran q).2) = (.clean, g)) :
    (t.meets c).loadGran q need c = (t.meets c, g, false, c) := by
  obtain ⟨hsyn, hdata⟩ := eccClass_eq_clean h
  have hgr : (t.meets c).gr (dataGran q).1 (dataGran q).2 = t.bcpFlush.gr (dataGran q).1 (dataGran q).2 := by
    rw [meets_of_nil hsb]; rfl
  have hmeet : (t.meets c).sbMeet q need = none := by
    rw [sbMeet, meets_of_nil hsb, show t.issuing.paid.sb = [] from t.sb_issuing.trans hsb]; rfl
  unfold loadGran
  simp only [hmeet, read_of_clean 0 (hgr ▸ hsyn), hgr, hdata]

/-- What a load of a word or nonet gives of the granule g that holds word q (Table 6.2). -/
def loaded (op q : Nat) (g : BitVec 72) : Word :=
  if op = 0 then granWord g q else if op < 8 then wd (nonet (granWord g q) (op % 4))
  else sxWord 9 (nonet (granWord g q) (op % 4))

section
variable {t : Tile} {warden : Bool} {b op c q : Nat} {v : Word} {g : BitVec 72}

/-- A store enters the buffer. -/
theorem lsOp_store (hlo : 0x21 ≤ op) (hmap : t.map warden (effAddr (t.sk b) v) = some q) :
    (t.meets c).lsOp warden b op c v = fxOk ((t.meets c).sbPush q (op - 0x20) (t.sk (b + 1)) c) := by
  unfold lsOp
  simp only [sk_meets, map_meets, hmap]
  rw [if_neg (by omega), if_pos hlo]

/-- A load of a word or a nonet. -/
theorem lsOp_load (hop : op = 0 ∨ (4 ≤ op ∧ op < 12)) (hsb : t.sb = [])
    (hmap : t.map warden (effAddr (t.sk b) v) = some q)
    (hg : eccClass false (t.bcpFlush.gr (dataGran q).1 (dataGran q).2) = (.clean, g)) :
    (t.meets c).lsOp warden b op c v =
      fxOk (((t.meets c).setRes (b + 3) (loaded op q g) false).setReady (b / 8) (c + 2)) := by
  unfold lsOp
  simp only [sk_meets, map_meets, hmap, loadGran_of_clean _ _ hsb hg]
  rw [if_neg (by omega), if_neg (by omega)]
  rfl

/-- A load of a granule. -/
theorem lsOp_load2 (hop : op = 2) (hsb : t.sb = []) (hmap : t.map2 warden (effAddr (t.sk b) v) = some q)
    (hg : eccClass false (t.bcpFlush.gr (dataGran q).1 (dataGran q).2) = (.clean, g)) :
    (t.meets c).lsOp warden b op c v =
      fxOk ((((t.meets c).setRes (b + 3) (granWord g 0) false).setRes (b + 4) (granWord g 1) false).setReady (b / 8) (c + 2)) := by
  unfold lsOp
  simp only [sk_meets, map2_meets, hmap, loadGran_of_clean _ _ hsb hg, if_pos hop]

end

end Tile

namespace State.OneMove
variable {s : State} {d p : Nat} {i : Insn} {m : Move} {v : Word} (h : s.OneMove d p i m v) (ext : Nat)
include h

theorem ls_goes (hguard : (s.tile d p).guardOk m = true) {b : Nat} (hb : b = 0x80 ∨ b = 0x88) (hdst : m.dst = b + 2)
    (hwipe : bitOf ((s.tile d p).ior 0x1E) 0 = false) : (s.tile d p).Goes p (s.tile d p).level m v :=
  h.goes hguard (privStatic_eq_false h.source (by omega) (.inr (by omega)))
    (by omega) (by omega) (by omega) (fun _ => hwipe) (by omega)

/-- What an operation of a load and store unit that gives the tile F does. -/
theorem ls_moves {F : Nat → Tile} {b : Nat} (P : Nat → Prop) (hguard : (s.tile d p).guardOk m = true) (hb : b = 0x80 ∨ b = 0x88)
    (hdst : m.dst = b + 2) (hwipe : bitOf ((s.tile d p).ior 0x1E) 0 = false) (hop : m.op ≠ 0x30)
    (hF : ∀ c, ((s.tile d p).meets c).lsOp (p == 72) b m.op c v = fxOk (F c))
    (hset : ∀ c, Tile.SetsOnly P ((s.tile d p).meets c) (F c)) :
    ∃ t c, exec (.bundle d p ext) s = .next t ∧ Bundled d p c P s t ∧ (t.tile d p).RunsOn i.next ∧ (t.tile d p).sb = (F c).sb ∧
      ∀ q, ¬ (0xD0 ≤ q ∧ q < 0xD8) → (t.tile d p).sk q = (F c).sk q :=
  h.movesBundled ext P (h.ls_goes hguard hb hdst hwipe) (by simp [resumable]; omega) (by simp [isCtlMove]; omega)
    (fun c => (s.fire_ls d p _ c _ _ v hb hdst).trans (hF c)) hset

variable (hguard : (s.tile d p).guardOk m = true) {b q : Nat} (hb : b = 0x80 ∨ b = 0x88) (hdst : m.dst = b + 2)
  (hwipe : bitOf ((s.tile d p).ior 0x1E) 0 = false)
include hguard hb hdst hwipe

/-- A store enters the store buffer (R236, R240). -/
theorem store_moves (hmap : (s.tile d p).map (p == 72) (effAddr ((s.tile d p).sk b) v) = some q)
    (hlo : 0x21 ≤ m.op) (hhi : m.op ≤ 0x2F) :
    ∃ t c, exec (.bundle d p ext) s = .next t ∧ Bundled d p c (fun _ => False) s t ∧ (t.tile d p).RunsOn i.next ∧
      (t.tile d p).sb = (((s.tile d p).atIssue c).sbPush q (m.op - 0x20) ((s.tile d p).sk (b + 1)) c).sb := by
  obtain ⟨t, c, hexec, hb', hruns, hsb, -⟩ := h.ls_moves ext (fun _ => False) hguard hb hdst hwipe (by omega)
    (fun c => Tile.lsOp_store hlo hmap) fun c => Tile.setsOnly_sbPush ..
  exact ⟨t, c, hexec, hb', hruns, hsb.trans (Tile.sb_sbPush_paid ..)⟩

variable {g : BitVec 72} (hsb : (s.tile d p).sb = [])
  (hg : eccClass false ((s.tile d p).bcpFlush.gr (dataGran q).1 (dataGran q).2) = (.clean, g))
include hsb hg

/-- A load of a word or a nonet gives it as memory holds it (R236, R242). -/
theorem load_moves (hmap : (s.tile d p).map (p == 72) (effAddr ((s.tile d p).sk b) v) = some q)
    (hop : m.op = 0 ∨ (4 ≤ m.op ∧ m.op < 12)) :
    ∃ t c, exec (.bundle d p ext) s = .next t ∧ Bundled d p c (fun k => k = b + 3) s t ∧ (t.tile d p).RunsOn i.next ∧
      (t.tile d p).sk (b + 3) = Tile.loaded m.op q g := by
  obtain ⟨t, c, hexec, hb', hruns, -, hsk⟩ := h.ls_moves ext (fun k => k = b + 3) hguard hb hdst hwipe (by omega)
    (fun c => Tile.lsOp_load hop hsb hmap hg) fun c => (Tile.setsOnly_setRes (P := fun k => k = b + 3) _ _ _ rfl).trans (Tile.setsOnly_setReady ..)
  exact ⟨t, c, hexec, hb', hruns, (hsk _ (by omega)).trans (Tile.sk_setSk_whole _ _ (by omega) (by omega) (by omega))⟩

/-- A load of a granule gives its words (R236, R242). -/
theorem load2_moves (hmap : (s.tile d p).map2 (p == 72) (effAddr ((s.tile d p).sk b) v) = some q) (hop : m.op = 2) :
    ∃ t c, exec (.bundle d p ext) s = .next t ∧ Bundled d p c (fun k => k = b + 3 ∨ k = b + 4) s t ∧
      (t.tile d p).RunsOn i.next ∧ (t.tile d p).sk (b + 3) = granWord g 0 ∧ (t.tile d p).sk (b + 4) = granWord g 1 := by
  obtain ⟨t, c, hexec, hb', hruns, -, hsk⟩ := h.ls_moves ext (fun k => k = b + 3 ∨ k = b + 4) hguard hb hdst hwipe (by omega)
    (fun c => Tile.lsOp_load2 hop hsb hmap hg) fun c => ((Tile.setsOnly_setRes _ _ _ (.inl rfl)).trans
      (Tile.setsOnly_setRes _ _ _ (.inr rfl))).trans (Tile.setsOnly_setReady ..)
  refine ⟨t, c, hexec, hb', hruns, ?_, ?_⟩
  · rw [hsk _ (by omega), Tile.sk_setReady, Tile.sk_setRes, Tile.sk_setSk_ne _ _ (by omega), Tile.sk_setRes,
      Tile.sk_setSk_whole _ _ (by omega) (by omega) (by omega)]
  · rw [hsk _ (by omega), Tile.sk_setReady, Tile.sk_setRes, Tile.sk_setSk_whole _ _ (by omega) (by omega) (by omega)]

end State.OneMove
end Sys2Proof.Machine
end

section
/-!
SUPPORT. The moves of a plain bundle through the io unit (R256, R257): loads and stores of tile registers, and accesses of the
window.
-/
namespace Sys2Proof.Machine

/-! ## What a register write reaches -/

/-- The tile t with m's memories, registers, staged writes, stream and inbound words, window offsets and routine. -/
def Tile.withRegs (t m : Tile) : Tile :=
  { t.withMem m with staged := m.staged, going := m.going, mile := m.mile, roff := m.roff, lkw := m.lkw, inb := m.inb,
                     inRtn := m.inRtn, rtn := m.rtn }

namespace Tile
variable (t m : Tile)

theorem withRegs_self : t.withRegs t = t := (rfl)

theorem withRegs_poisonGran (mem idx : Nat) : (t.withRegs m).poisonGran mem idx = t.withRegs (m.poisonGran mem idx) := by
  have hstore (g : Gran) : (t.withRegs m).store mem idx g = t.withRegs (m.store mem idx g) := by
    unfold store
    extract_lets k t2 k' m2
    have e : t2.flipDone = t.withRegs m2.flipDone := (rfl)
    have hon : (t.withRegs m).flipOn mem idx = m.flipOn mem idx := (rfl)
    rw [hon]
    split
    · exact e
    · rfl
  exact hstore _

theorem withRegs_poisonWrite (d p : Nat) (w : Word) : (t.withRegs m).poisonWrite d p w = t.withRegs (m.poisonWrite d p w) := by
  unfold poisonWrite
  split
  · dsimp only
    split
    · exact withRegs_poisonGran t (m.iow 0x1C (w &&& 0x1FFFF)) ..
    · rfl
  · rfl

theorem withRegs_flipselWrite (d p : Nat) (w : Word) :
    (t.withRegs m).flipselWrite d p w = t.withRegs (m.flipselWrite d p w) := by
  unfold flipselWrite
  split <;> rfl

theorem withRegs_commitGo (w : Word) : (t.withRegs m).commitGo w = t.withRegs (m.commitGo w) := by
  unfold commitGo
  split <;> rfl

theorem withRegs_genWrite (r : RegSpec) (d p o : Nat) (w : Word) :
    (t.withRegs m).genWrite r d p o w = t.withRegs (m.genWrite r d p o w) := by
  unfold genWrite
  have hior : (t.withRegs m).ior o = m.ior o := (rfl)
  simp only [hior]
  split <;> rfl

theorem withRegs_roffSet (now : Tick) (k : Nat) : (t.withRegs m).roffSet now k = t.withRegs (m.roffSet now k) := (rfl)

/-- A write of a register but TILE_SP_DATA reads and writes what withRegs takes, and nothing else. -/
theorem withRegs_regWrite (now : Tick) (d p fn : Nat) {o : Nat} (w : Word) (ho : o ≠ 0x41) :
    (t.withRegs m).regWrite now d p o fn w = t.withRegs (m.regWrite now d p o fn w) := by
  unfold regWrite
  split
  · rfl
  split
  · exact withRegs_flipselWrite ..
  split
  · exact withRegs_poisonWrite ..
  split
  · rfl
  split
  · exact withRegs_commitGo ..
  split
  · simp only [withRegs_genWrite, withRegs_roffSet]
    split <;> rfl
  · rfl

/-- A register write sets no socket and begins and raises nothing. -/
theorem regWrite_bare (now : Tick) (d p fn : Nat) {o : Nat} (w : Word) (ho : o ≠ 0x41) (h : t.Bare) :
    (t.regWrite now d p o fn w).Bare := by
  have e := withRegs_regWrite t t now d p fn w ho
  rw [withRegs_self] at e
  rw [e]
  exact h

theorem sk_regWrite (now : Tick) (d p fn : Nat) {o : Nat} (w : Word) (ho : o ≠ 0x41) (q : Nat) :
    (t.regWrite now d p o fn w).sk q = t.sk q := by
  have e := withRegs_regWrite t t now d p fn w ho
  rw [withRegs_self] at e
  rw [e]
  rfl

/-- A register write reaches the same memories and registers whatever the 6-cycle row. -/
theorem regWrite_paid (now : Tick) (d p fn : Nat) {o : Nat} (w : Word) (ho : o ≠ 0x41) :
    t.paid.regWrite now d p o fn w = t.paid.withRegs (t.regWrite now d p o fn w) :=
  withRegs_regWrite t.paid t now d p fn w ho

/-! ## The io unit (R256) -/

/-- The tile once the io unit has read its register e at cycle c. -/
def ioLoaded (t : Tile) (e c : Nat) : Tile :=
  (t.dropLoads.setRes 0x93 (if e = 0 then tcrShow false (t.ior e) else t.ior e) false).setReady 0x12 (c + 4)

/-- A load of a tile register gives it, TILE_TCR as it shows. -/
theorem ioLoad_of_reg {t : Tile} {p e c : Nat} {r : RegSpec × Nat} (hr : tileReg p e = some r) (he : e ≠ 0x41) :
    t.ioLoad false p e c = fxOk (t.ioLoaded e c) := by
  have hior : t.dropLoads.ior e = t.ior e := (rfl)
  unfold ioLoad regRead ioLoaded
  simp only [hr, if_neg he, hior]

theorem setsOnly_ioLoaded (t : Tile) (e c : Nat) : SetsOnly (fun q => q = 0x93) t (t.ioLoaded e c) :=
  ((setsOnly_of_eq (u := t) (f := t.dropLoads) id rfl rfl rfl).trans (setsOnly_setRes (P := fun q => q = 0x93) _ _ _ rfl)).trans (setsOnly_setReady ..)

theorem sk_ioLoaded (t : Tile) (e c : Nat) :
    (t.ioLoaded e c).sk 0x93 = if e = 0 then tcrShow false (t.ior e) else t.ior e := by
  rw [ioLoaded, sk_setReady, sk_setRes, sk_setSk_whole _ _ (by omega) (by omega) (by omega)]

end Tile

/-- The trigger of the io unit. -/
theorem State.fire_io (s : State) (d p lvl c : Nat) (at_ : At) (t : Tile) {m : Move} (v : Word) (hdst : m.dst = 0x92) :
    s.fire d p lvl c at_ (t.moveIn lvl m v) m v =
      (let e := effAddr (t.sk 0x90) v
       if 0xFFFF < e then fxRange e
       else if 0x8000 ≤ e then .ok (t.winOp (m.op == 0x10) e (t.sk 0x91) c)
       else if m.op = 0 then t.ioLoad (s.partner d p).isSome p e c
       else if (tileReg p e).isSome then fxOk (t.ioStore s.tick d p lvl e (t.sk 0x91)) else fxRange e) := by
  rw [Tile.moveIn_of_not_rw _ _ _ (by rw [hdst]; decide)]
  unfold State.fire
  rw [if_neg (by rw [hdst]; decide)]
  simp only [hdst]
  rfl

namespace State.OneMove
variable {s : State} {d p : Nat} {i : Insn} {m : Move} {v : Word} (h : s.OneMove d p i m v) (ext : Nat)
include h

theorem io_goes (hguard : (s.tile d p).guardOk m = true) (hdst : m.dst = 0x92)
    (hpriv : (s.tile d p).ioPriv p (s.tile d p).level (0, m, v, false) = false) :
    (s.tile d p).Goes p (s.tile d p).level m v :=
  h.goes hguard (privStatic_eq_false h.source (by omega) (.inr (by omega)))
    (fun _ => hpriv) (by omega) (by omega) (by omega) (by omega)

variable (hguard : (s.tile d p).guardOk m = true) {e : Nat} {r : RegSpec × Nat} (hdst : m.dst = 0x92)
  (he : e = effAddr ((s.tile d p).sk 0x90) v) (hlt : e < 0x8000) (hsp : e ≠ 0x41) (hr : tileReg p e = some r)
include hguard hdst he hlt hsp hr

/-- An io load gives the tile register (R256). -/
theorem ioLoad_moves (hop : m.op = 0) :
    ∃ t c, exec (.bundle d p ext) s = .next t ∧ Bundled d p c (fun q => q = 0x93) s t ∧ (t.tile d p).RunsOn i.next ∧
      (t.tile d p).sk 0x93 = (if e = 0 then tcrShow false ((s.tile d p).ior 0) else ((s.tile d p).atIssue c).ior e) := by
  have hpriv : (s.tile d p).ioPriv p (s.tile d p).level (0, m, v, false) = false := by
    unfold Tile.ioPriv
    simp only [hdst, hop, ← he]
    simp; omega
  have hF (c : Nat) : s.fire d p (s.tile d p).level c ⟨i.next, i.prefixLen⟩
      (((s.tile d p).meets c).moveIn (s.tile d p).level m v) m v = fxOk (((s.tile d p).meets c).ioLoaded e c) := by
    rw [s.fire_io d p (s.tile d p).level c ⟨i.next, i.prefixLen⟩ ((s.tile d p).meets c) v hdst]
    simp only [Tile.sk_meets, ← he]
    rw [if_neg (by omega), if_neg (by omega), if_pos hop, h.alone]
    exact Tile.ioLoad_of_reg hr hsp
  obtain ⟨t, c, hexec, hb, hruns, -, hsk⟩ := h.movesBundled ext (fun q => q = 0x93) (h.io_goes hguard hdst hpriv)
    (by simp [resumable]; omega) (by simp [isCtlMove]; omega) hF
    fun c => Tile.setsOnly_ioLoaded ..
  refine ⟨t, c, hexec, hb, hruns, ?_⟩
  rw [hsk _ (by omega), Tile.sk_ioLoaded]
  split
  · next h0 => rw [h0, Tile.ior_meets _ _ (.inl (by decide))]
  · rfl

/-- An io store of a tile register but TILE_TCR and TILE_SP_DATA writes it (R256, R292). -/
theorem ioStore_moves (hop : m.op = 0x10) (h0 : e ≠ 0) (hrws : (s.tile d p).level ≠ 0 ∨ r.1.hasRws = false) :
    ∃ t c, exec (.bundle d p ext) s = .next t ∧ (t.tile d p).RunsOn i.next ∧
      BundledAs d p c (((s.tile d p).atIssue c).regWrite s.tick d p e 1 ((s.tile d p).sk 0x91)) (fun _ => False) s t := by
  have hpriv : (s.tile d p).ioPriv p (s.tile d p).level (0, m, v, false) = false := by
    unfold Tile.ioPriv
    simp only [hdst, hop, ← he, hr]
    rcases hrws with hl | hl
    · simp [hl]; omega
    · simp [hl]
      omega
  have hF (c : Nat) : s.fire d p (s.tile d p).level c ⟨i.next, i.prefixLen⟩
      (((s.tile d p).meets c).moveIn (s.tile d p).level m v) m v =
      fxOk (((s.tile d p).meets c).regWrite s.tick d p e 1 ((s.tile d p).sk 0x91)) := by
    rw [s.fire_io d p (s.tile d p).level c ⟨i.next, i.prefixLen⟩ ((s.tile d p).meets c) v hdst]
    simp only [Tile.sk_meets, ← he]
    rw [if_neg (by omega), if_neg (by omega), if_neg (by omega), if_pos (by rw [hr]; rfl), Tile.ioStore, if_neg h0]
  have hbare (c : Nat) := Tile.regWrite_bare _ s.tick d p 1 ((s.tile d p).sk 0x91) hsp (h.bare_meets c)
  obtain ⟨t, c, hexec, hover, -⟩ := h.movesQuietly ext (h.io_goes hguard hdst hpriv)
    (by simp [resumable]; omega) (by simp [isCtlMove]; omega) hF hbare
  have hpaid := Tile.regWrite_paid ((s.tile d p).atIssue c) s.tick d p 1 ((s.tile d p).sk 0x91) hsp
  refine ⟨t, c, hexec, hover.runsOn (hbare c), hover.bundledAs ?_ ?_ fun q _ _ => ?_⟩
  · rw [Tile.meets, hpaid]; rfl
  · rw [Tile.meets, hpaid]; rfl
  · rw [Tile.sk_regWrite _ _ _ _ _ _ hsp, Tile.sk_meets]

end State.OneMove

/-! ## Words that leave the tile (R258, R262, R271, R276) -/

namespace Tile

/-- An access that is charged changes tol counts and what the toll events note (R134). -/
theorem chargeAcc_rest (t : Tile) (n : Nat) :
    t.chargeAcc n = { t with sock := (t.chargeAcc n).sock, evAcc := (t.chargeAcc n).evAcc, evByt := (t.chargeAcc n).evByt,
                             evq := (t.chargeAcc n).evq } := by
  unfold chargeAcc
  split
  · extract_lets a b t1 t2
    have h1 : t1 = { t with sock := t1.sock } := by
      simp only [t1]; rw [setSk_rest, t.setSk_rest]
    have h2 : t2 = { t with sock := t2.sock, evAcc := t2.evAcc, evq := t2.evq } := by
      simp only [t2]; split
      · simp only [tollEvent]; rw [h1]
      · rw [h1]
    split
    · simp only [tollEvent]; rw [h2]
    · rw [h2]
  · rfl

theorem sk_chargeAcc (t : Tile) (n : Nat) {q : Nat} (h : ¬ (0xD0 ≤ q ∧ q < 0xD8)) : (t.chargeAcc n).sk q = t.sk q := by
  unfold chargeAcc
  split
  · extract_lets a b t1 t2
    have h1 : t1.sk q = t.sk q := (sk_setSk_ne _ _ (by omega)).trans (sk_setSk_ne _ _ (by omega))
    have h2 : t2.sk q = t.sk q := by
      simp only [t2]; split <;> exact h1
    split <;> exact h2
  · rfl

theorem setsOnly_chargeAcc (t : Tile) (n : Nat) : SetsOnly (fun q => 0xD0 ≤ q ∧ q < 0xD8) t (t.chargeAcc n) where
  bare hb := by rw [chargeAcc_rest]; exact hb
  gran := by rw [chargeAcc_rest]
  io := by rw [chargeAcc_rest]
  sk _ := t.sk_chargeAcc n

/-- What a window access asks of the port (R257). -/
def winReq (t : Tile) (store : Bool) (e : Nat) (w : Word) : PortReq :=
  ⟨store, e, t.iof 0x28 20 0 * 2 ^ 15 + e % 2 ^ 15, w, false, t.winHeld⟩

theorem winReq_meets (t : Tile) (c : Nat) (store : Bool) (e : Nat) (w : Word) :
    (t.meets c).winReq store e w = t.winReq store e w := by
  have hheld : (t.meets c).winHeld = t.winHeld := by rw [meets_rest]; rfl
  simp only [winReq, hheld, iof, ior_meets t c (q := 0x28) (.inr (by decide))]

theorem outs_winOp (t : Tile) (store : Bool) (e : Nat) (w : Word) (c : Nat) :
    (t.winOp store e w c).outs = [.win (t.winReq store e w)] := (rfl)

theorem setsOnly_winOp (t : Tile) (store : Bool) (e : Nat) (w : Word) (c : Nat) :
    SetsOnly (fun q => 0xD0 ≤ q ∧ q < 0xD8) t (t.winOp store e w c).tile := by
  unfold winOp
  cases store
  · exact (t.setsOnly_chargeAcc 0).trans (setsOnly_of_eq id rfl rfl rfl)
  · exact t.setsOnly_chargeAcc 0

/-- A window load lets go of the answers that loads before it wait for; a store leaves the requests (R258). -/
theorem port_winOp (t : Tile) (store : Bool) (e : Nat) (w : Word) (c : Nat) :
    (t.winOp store e w c).tile.port = (if store then t else t.dropLoads).port := by
  unfold winOp
  rw [chargeAcc_rest]
  cases store <;> rfl

/-- A tile with other words in the queues that wait for its junction, its island, its lookup unit and its port. -/
def SendsOnly (w w' : Tile) : Prop := w' = { w with outc := w'.outc, eg := w'.eg, lkReq := w'.lkReq, port := w'.port }

end Tile

namespace State.OneMove
variable {s : State} {d p : Nat} {i : Insn} {m : Move} {v : Word} (h : s.OneMove d p i m v) (ext : Nat)
include h

/-- A move that sends words, sets no socket but tol counts and leaves memories and registers. -/
theorem movesSending {F : Nat → Fx} (g : (s.tile d p).Goes p (s.tile d p).level m v) (hres : resumable m.dst m.op = false)
    (hctl : isCtlMove m.dst = false)
    (hF : ∀ c, s.fire d p (s.tile d p).level c ⟨i.next, i.prefixLen⟩ (((s.tile d p).meets c).moveIn (s.tile d p).level m v) m v =
      .ok (F c))
    (hset : ∀ c, Tile.SetsOnly (fun q => 0xD0 ≤ q ∧ q < 0xD8) ((s.tile d p).meets c) (F c).tile)
    (hsent : ∀ c w, Tile.Ends (F c).tile w i.next c → w.SendsOnly ((F c).outs.foldl (fun (t : Tile) x => t.send x) w)) :
    ∃ t c w oc, exec (.bundle d p ext) s = .next t ∧ Bundled d p c (fun _ => False) s t ∧ (t.tile d p).RunsOn i.next ∧
      Tile.Ends (F c).tile w i.next c ∧
      t.tile d p = { (F c).outs.foldl (fun (t : Tile) x => t.send x) w with outc := oc, marks := [] } ∧
      oc.map FlitAt.untaken =
        (s.flitsOut d p ((F c).outs.foldl (fun (t : Tile) x => t.send x) w)).outc.map FlitAt.untaken := by
  have hbare (c : Nat) : (F c).tile.Bare := (hset c).bare (h.bare_meets c)
  obtain ⟨t, c, w, oc, hexec, honly, hends, htile, hmap⟩ := h.moves ext g hres hctl hF hbare
  have hover := hends.over honly htile (hsent c w hends)
  exact ⟨t, c, w, oc, hexec, hover.bundledAs (hset c).gran (hset c).io
    fun q _ htol => ((hset c).sk q htol).trans (Tile.sk_meets ..), hover.runsOn (hbare c), hends, htile, hmap⟩

/-- An access of the window joins the port's requests (R257). -/
theorem window_moves (hguard : (s.tile d p).guardOk m = true) {e : Nat} (hdst : m.dst = 0x92)
    (he : e = effAddr ((s.tile d p).sk 0x90) v) (hlo : 0x8000 ≤ e) (hhi : e < 0x10000) (hlvl : (s.tile d p).level = 2)
    (hport : (s.tile d p).port.length < 16) :
    ∃ t c, exec (.bundle d p ext) s = .next t ∧ Bundled d p c (fun _ => False) s t ∧ (t.tile d p).RunsOn i.next ∧
      (t.tile d p).port = (if m.op = 0x10 then s.tile d p else (s.tile d p).dropLoads).port ++
        [⟨m.op == 0x10, e, (s.tile d p).iof 0x28 20 0 * 2 ^ 15 + e % 2 ^ 15, (s.tile d p).sk 0x91, false,
          (s.tile d p).winHeld⟩] := by
  have hpriv : (s.tile d p).ioPriv p (s.tile d p).level (0, m, v, false) = false := by
    unfold Tile.ioPriv
    simp only [hdst, hlvl]
    simp
  have hF (c : Nat) : s.fire d p (s.tile d p).level c ⟨i.next, i.prefixLen⟩
      (((s.tile d p).meets c).moveIn (s.tile d p).level m v) m v =
      .ok (((s.tile d p).meets c).winOp (m.op == 0x10) e ((s.tile d p).sk 0x91) c) := by
    rw [s.fire_io d p (s.tile d p).level c ⟨i.next, i.prefixLen⟩ ((s.tile d p).meets c) v hdst]
    simp only [Tile.sk_meets, ← he]
    rw [if_neg (by omega), if_pos hlo]
  have hplain : ((s.tile d p).dropLoads.port).length = (s.tile d p).port.length := List.length_map ..
  have hqueue (c : Nat) : (((s.tile d p).meets c).winOp (m.op == 0x10) e ((s.tile d p).sk 0x91) c).tile.port =
      (if m.op = 0x10 then s.tile d p else (s.tile d p).dropLoads).port := by
    rw [Tile.port_winOp, Tile.meets_rest]
    by_cases hop : m.op = 0x10
    · rw [if_pos hop, if_pos (by rw [hop]; rfl)]; rfl
    · rw [if_neg hop, if_neg (by simpa using hop)]; rfl
  have hroom (c : Nat) : (((s.tile d p).meets c).winOp (m.op == 0x10) e ((s.tile d p).sk 0x91) c).tile.port.length < 16 := by
    rw [hqueue]; split
    · exact hport
    · exact hplain ▸ hport
  have hsend (c : Nat) (w : Tile)
      (hends : Tile.Ends (((s.tile d p).meets c).winOp (m.op == 0x10) e ((s.tile d p).sk 0x91) c).tile w i.next c) (r : PortReq) :
      w.send (.win r) = { w with port := w.port ++ [r] } := if_pos (hends.port ▸ hroom c)
  obtain ⟨t, c, w, oc, hexec, hb, hruns, hends, htile, -⟩ := h.movesSending ext (h.io_goes hguard hdst hpriv)
    (by simp [resumable]; omega) (by simp [isCtlMove]; omega) hF (fun c => Tile.setsOnly_winOp ..)
    (fun c w hends => by rw [Tile.outs_winOp, List.foldl_cons, List.foldl_nil, hsend c w hends]; rfl)
  rw [Tile.outs_winOp, List.foldl_cons, List.foldl_nil, hsend c w hends, Tile.winReq_meets, hends.port, hqueue] at htile
  exact ⟨t, c, hexec, hb, hruns, congrArg Tile.port htile⟩

end State.OneMove
end Sys2Proof.Machine
end

section
/-!
SUPPORT. The moves of a plain bundle that send a word: lookups, egress words and completions, and flits (R262, R269, R276).
-/
namespace Sys2Proof.Machine

/-! ## Lookups (R262) -/

namespace Tile

/-- The index of a look on stream k: the field of key A, with the field of key B above it where the stream joins them. -/
def lookIdx (t : Tile) (k : Nat) : Nat :=
  let ka := (t.sk 0xA0).toNat / 2 ^ t.iof (0x31 + 2 * k) 5 0 % 2 ^ t.iof (0x31 + 2 * k) 10 6
  let kb := (t.sk 0xA1).toNat % 2 ^ t.iof (0x31 + 2 * k) 15 11
  (if bitOf (t.ior (0x30 + 2 * k)) 14 = true then kb * 2 ^ t.iof (0x31 + 2 * k) 10 6 + ka else ka) % 2 ^ 36

/-- The request of a look on stream k, of the table behind its handle if there is one. -/
def lookReq (t : Tile) (k : Nat) (tab : Nat → Option ImgTable) : LkReq :=
  let w := 2 ^ t.iof (0x30 + 2 * k) 13 12
  match tab (t.iof (0x30 + 2 * k) 11 0) with
  | some r => ⟨k, w, w, t.lookIdx k % 2 ^ r.logn * 2 ^ r.lsz, 2 ^ r.lsz, (r.stack, r.base),
      if r.twin then some (r.tstack, r.tbase) else none, t.lookHeld, false, []⟩
  | none => ⟨k, w, w, 0, w, (0, 0), none, t.lookHeld, true, []⟩

/-- A look on a stream that is on and has room. -/
theorem lookOp_of_room {t : Tile} {k : Nat} (tab : Nat → Option ImgTable) (hon : bitOf (t.ior (0x30 + 2 * k)) 15 = true)
    (hroom : t.lkHeld k + 2 ^ t.iof (0x30 + 2 * k) 13 12 ≤ 16) :
    t.lookOp k tab = .ok ⟨t.chargeAcc 36, [.look (t.lookReq k tab)]⟩ := by
  unfold lookOp
  simp only [hon, Nat.shiftRight_eq_div_pow]
  rw [if_neg (by decide), if_neg (by omega)]
  rfl

theorem lookReq_meets (t : Tile) (c k : Nat) (tab : Nat → Option ImgTable) : (t.meets c).lookReq k tab = t.lookReq k tab := by
  have hheld : (t.meets c).lookHeld = t.lookHeld := by rw [meets_rest]; rfl
  have hior (q : Nat) (hq : 0x30 ≤ q) : (t.meets c).ior q = t.ior q := t.ior_meets c (.inr (by omega))
  simp only [lookReq, lookIdx, hheld, iof, sk_meets, hior (0x30 + 2 * k) (by omega), hior (0x31 + 2 * k) (by omega)]

theorem lookReq_stream (t : Tile) (k : Nat) (tab : Nat → Option ImgTable) : (t.lookReq k tab).stream = k ∧
    (t.lookReq k tab).held = t.lookHeld ∧ (t.lookReq k tab).left = 2 ^ t.iof (0x30 + 2 * k) 13 12 := by
  unfold lookReq
  dsimp only
  split <;> exact ⟨rfl, rfl, rfl⟩

theorem lookReq_of_table (t : Tile) (k : Nat) {tab : Nat → Option ImgTable} {x : ImgTable}
    (h : tab (t.iof (0x30 + 2 * k) 11 0) = some x) :
    (t.lookReq k tab).home = (x.stack, x.base) ∧ (t.lookReq k tab).off = t.lookIdx k % 2 ^ x.logn * 2 ^ x.lsz := by
  unfold lookReq
  rw [h]
  exact ⟨rfl, rfl⟩

end Tile

/-- The trigger of the lookup unit. -/
theorem State.fire_look (s : State) (d p lvl c : Nat) (at_ : At) (t : Tile) {m : Move} (v : Word) (hdst : m.dst = 0xA2) :
    s.fire d p lvl c at_ (t.moveIn lvl m v) m v = t.lookOp m.op (s.tableOf d p) := by
  rw [Tile.moveIn_of_not_rw _ _ _ (by rw [hdst]; decide)]
  unfold State.fire
  rw [if_neg (by rw [hdst]; decide)]
  simp only [hdst]
  rfl

/-- A look appends its request (R262). -/
theorem State.OneMove.look_moves {s : State} {d p : Nat} {i : Insn} {m : Move} {v : Word} (h : s.OneMove d p i m v) (ext : Nat)
    (hguard : (s.tile d p).guardOk m = true) (hdst : m.dst = 0xA2) (hop : m.op < 4)
    (hon : bitOf ((s.tile d p).ior (0x30 + 2 * m.op)) 15 = true)
    (hroom : (s.tile d p).lkHeld m.op + 2 ^ (s.tile d p).iof (0x30 + 2 * m.op) 13 12 ≤ 16) :
    ∃ t c, exec (.bundle d p ext) s = .next t ∧ Bundled d p c (fun _ => False) s t ∧ (t.tile d p).RunsOn i.next ∧
      (t.tile d p).lkReq = (s.tile d p).lkReq ++ [(s.tile d p).lookReq m.op (s.tableOf d p)] := by
  have g := h.goes hguard (privStatic_eq_false h.source (by omega) (.inr (by omega)))
    (by omega) (by omega) (by omega) (by omega) (by omega)
  have hior (c q : Nat) (hq : 0x30 ≤ q) : ((s.tile d p).meets c).ior q = (s.tile d p).ior q :=
    (s.tile d p).ior_meets c (.inr (by omega))
  have hheld (c : Nat) : ((s.tile d p).meets c).lkHeld m.op = (s.tile d p).lkHeld m.op := by rw [Tile.meets_rest]; rfl
  have hF (c : Nat) : s.fire d p (s.tile d p).level c ⟨i.next, i.prefixLen⟩
      (((s.tile d p).meets c).moveIn (s.tile d p).level m v) m v =
      .ok ⟨((s.tile d p).meets c).chargeAcc 36, [.look ((s.tile d p).lookReq m.op (s.tableOf d p))]⟩ := by
    rw [s.fire_look d p _ c _ _ v hdst, Tile.lookOp_of_room, Tile.lookReq_meets]
    · rw [hior c _ (by omega)]; exact hon
    · rw [hheld, Tile.iof, hior c _ (by omega)]; exact hroom
  obtain ⟨t, c, w, oc, hexec, hb, hruns, hends, htile, -⟩ := h.movesSending ext g
    (by simp [resumable]; omega) (by simp [isCtlMove]; omega) hF (fun c => Tile.setsOnly_chargeAcc ..) fun _ _ _ => rfl
  have hreq : w.lkReq = (s.tile d p).lkReq := by
    rw [hends.lkReq, Tile.chargeAcc_rest, Tile.meets_rest]; rfl
  refine ⟨t, c, hexec, hb, hruns, ?_⟩
  rw [htile, ← hreq]
  rfl

/-! ## Egress words and completions (R269, R270) -/

namespace Tile

/-- The word, or the completion, that lnk.et or lnk.ec on handle k sends for slot x. -/
def egWord (t : Tile) (dst k : Nat) (w : Word) (x : Nat × Tick) : EgWrite :=
  if dst = 0xB1 then ⟨x.1, k, x.2, (t.sk 0xB0).toNat, w, t.epoch, false⟩ else ⟨x.1, k, x.2, 0, 0, t.epoch, true⟩

/-- The tile that has noted slot x as written by lnk.et, or as completed by lnk.ec. -/
def egNoted (t : Tile) (dst : Nat) (x : Nat × Tick) : Tile :=
  { t with wr := if dst = 0xB1 then slotAdd t.wr x else t.wr, cpl := if dst = 0xB2 then slotAdd t.cpl x else t.cpl }

theorem slotAt_meets (t : Tile) (c k : Nat) (now : Tick) : (t.meets c).slotAt k now = t.slotAt k now := by
  have htick : (t.meets c).ctlTick now = t.ctlTick now := by rw [meets_rest]; rfl
  simp only [slotAt, iof, htick, ior_meets t c (q := 0x58 + k) (.inr (by omega))]

end Tile

/-- The triggers of the egress unit, for a slot that the tile has not completed and a word of it. -/
theorem State.fire_eg (s : State) (d p lvl c : Nat) (at_ : At) {t : Tile} {m : Move} (v : Word) {x : Nat × Tick}
    (hdst : m.dst = 0xB1 ∨ m.dst = 0xB2) (hslot : t.slotAt m.op s.tick = some x) (hcpl : t.cpl.contains x = false)
    (hword : m.dst = 0xB1 → (t.sk 0xB0).toNat < s.linkW x.1) :
    s.fire d p lvl c at_ (t.moveIn lvl m v) m v = .ok ⟨t.egNoted m.dst x, [.eg (t.egWord m.dst m.op v x)]⟩ := by
  rw [Tile.moveIn_of_not_rw _ _ _ (by rcases hdst with e | e <;> rw [e] <;> decide)]
  rcases hdst with e | e
  · have hfire : s.fire d p lvl c at_ t m v = t.etOp m.op v s.tick s.linkW := by
      unfold fire
      rw [if_neg (by rw [e]; decide)]
      simp only [e]
      rfl
    rw [hfire, e]
    unfold Tile.etOp
    simp only [hslot, hcpl]
    rw [if_neg (by have := hword e; omega), if_neg (by decide)]
    rfl
  · have hfire : s.fire d p lvl c at_ t m v = t.ecOp m.op s.tick := by
      unfold fire
      rw [if_neg (by rw [e]; decide)]
      simp only [e]
      rfl
    rw [hfire, e]
    unfold Tile.ecOp
    simp only [hslot, hcpl]
    rfl

/-- lnk.et appends the egress word and notes the slot as written, lnk.ec the completion and the slot as completed. -/
theorem State.OneMove.eg_moves {s : State} {d p : Nat} {i : Insn} {m : Move} {v : Word} (h : s.OneMove d p i m v) (ext : Nat)
    (hguard : (s.tile d p).guardOk m = true) {x : Nat × Tick} (hdst : m.dst = 0xB1 ∨ m.dst = 0xB2)
    (hslot : (s.tile d p).slotAt m.op s.tick = some x) (hcpl : (s.tile d p).cpl.contains x = false)
    (hfull : (s.tile d p).egFull = false) (hword : m.dst = 0xB1 → ((s.tile d p).sk 0xB0).toNat < s.linkW x.1) :
    ∃ t c, exec (.bundle d p ext) s = .next t ∧ Bundled d p c (fun _ => False) s t ∧ (t.tile d p).RunsOn i.next ∧
      (t.tile d p).eg = (s.tile d p).eg ++ [(s.tile d p).egWord m.dst m.op v x] ∧
      (t.tile d p).wr = (if m.dst = 0xB1 then slotAdd (s.tile d p).wr x else (s.tile d p).wr) ∧
      (t.tile d p).cpl = (if m.dst = 0xB2 then slotAdd (s.tile d p).cpl x else (s.tile d p).cpl) := by
  have g := h.goes hguard (privStatic_eq_false h.source (by omega) (.inr (by omega)))
    (by omega) (fun _ => hfull) (by omega) (by omega) (by omega)
  have hwordM (c : Nat) : ((s.tile d p).meets c).egWord m.dst m.op v x = (s.tile d p).egWord m.dst m.op v x := by
    rw [Tile.meets_rest]; rfl
  have hF (c : Nat) : s.fire d p (s.tile d p).level c ⟨i.next, i.prefixLen⟩
      (((s.tile d p).meets c).moveIn (s.tile d p).level m v) m v =
      .ok ⟨((s.tile d p).meets c).egNoted m.dst x, [.eg ((s.tile d p).egWord m.dst m.op v x)]⟩ := by
    rw [s.fire_eg d p _ c _ v hdst (x := x), hwordM]
    · rw [Tile.slotAt_meets, hslot]
    · rw [Tile.meets_rest]; exact hcpl
    · rw [Tile.sk_meets]; exact hword
  obtain ⟨t, c, w, oc, hexec, hb, hruns, hends, htile, -⟩ := h.movesSending ext g
    (by simp [resumable]; omega) (by simp [isCtlMove]; omega) hF
    (fun c => Tile.setsOnly_of_eq id rfl rfl rfl) fun _ _ _ => rfl
  have heg : w.eg = (s.tile d p).eg := by rw [hends.eg, Tile.meets_rest]; rfl
  have hwr := hends.wr
  have hcp := hends.cpl
  rw [Tile.meets_rest] at hwr hcp
  refine ⟨t, c, hexec, hb, hruns, ?_, ?_, ?_⟩
  · rw [htile, ← heg]; rfl
  · rw [htile]; exact hwr
  · rw [htile]; exact hcp

/-! ## Flits (R276, R371) -/

namespace Tile

/-- The flit that msh.s on route handle r makes of word w. -/
def meshFlit (t : Tile) (r : Nat) (w : Word) (now : Tick) : BitVec 72 :=
  flitMake w false t.epoch (t.ctlTick now).toNat (t.iof (0x60 + r) 11 0) t.iepoch

theorem sendOp_of_channel {t : Tile} {k r : Nat} (w : Word) (now : Tick) (hon : bitOf (t.ior (0x60 + r)) 14 = true)
    (hch : t.iof (0x60 + r) 13 12 = k) : t.sendOp k r w now = .ok ⟨t, [.mesh k (t.meshFlit r w now)]⟩ := by
  unfold sendOp
  simp only [hon]
  rw [if_neg (by decide), if_neg (fun hne => hne hch)]
  rfl

theorem meshFlit_meets (t : Tile) (c r : Nat) (w : Word) (now : Tick) : (t.meets c).meshFlit r w now = t.meshFlit r w now := by
  have hiof : (t.meets c).iof (0x60 + r) 11 0 = t.iof (0x60 + r) 11 0 := by
    rw [iof, iof, t.ior_meets c (.inr (by omega))]
  unfold meshFlit
  rw [hiof, meets_rest]
  rfl

end Tile

/-- The triggers of the mesh unit. -/
theorem State.fire_mesh (s : State) (d p lvl c : Nat) (at_ : At) (t : Tile) {m : Move} (v : Word) {k : Nat} (hk : k < 4)
    (hdst : m.dst = 0xC0 + k) : s.fire d p lvl c at_ (t.moveIn lvl m v) m v = t.sendOp k m.op v s.tick := by
  have hkind : sockKind m.dst = some .t := by
    rw [hdst]; interval_cases k <;> rfl
  rw [Tile.moveIn_of_not_rw _ _ _ (by rw [hkind]; decide)]
  unfold fire
  rw [if_neg (by simp [hasOp, hkind]; omega)]
  simp only [hdst]
  interval_cases k <;> rfl

/-- The last flit of a list, but for what its junction noted on it, from that of another. -/
theorem getLast?_of_untaken {l l' : List FlitAt} {x : FlitAt} (h : l.map FlitAt.untaken = (l' ++ [x]).map FlitAt.untaken) :
    l.length = l'.length + 1 ∧ ∃ y, l.getLast? = some y ∧ y.untaken = x.untaken := by
  have hlen := congrArg List.length h
  have hlast := congrArg List.getLast? h
  rw [List.getLast?_map, List.getLast?_map, List.getLast?_concat, Option.map_some, Option.map_eq_some_iff] at hlast
  rw [List.length_map, List.length_map, List.length_append] at hlen
  exact ⟨hlen, hlast⟩

/-- msh.s puts the flit into its channel, with the forwarding entry that it meets (R276, R371). -/
theorem State.OneMove.mesh_moves {s : State} {d p : Nat} {i : Insn} {m : Move} {v : Word} (h : s.OneMove d p i m v) (ext : Nat)
    (hguard : (s.tile d p).guardOk m = true) {k : Nat} (hk : k < 4) (hdst : m.dst = 0xC0 + k)
    (hon : bitOf ((s.tile d p).ior (0x60 + m.op)) 14 = true) (hch : (s.tile d p).iof (0x60 + m.op) 13 12 = k)
    (hfull : (s.tile d p).chFull k = false) :
    ∃ t c x, exec (.bundle d p ext) s = .next t ∧ Bundled d p c (fun _ => False) s t ∧ (t.tile d p).RunsOn i.next ∧
      (t.tile d p).outc.getLast? = some x ∧ (t.tile d p).outc.length = (s.tile d p).outc.length + 1 ∧
      x.untaken = s.flitIn d p k ((s.tile d p).meshFlit m.op v s.tick) := by
  have g := h.goes hguard (privStatic_eq_false h.source (by omega) (.inr (by omega)))
    (by omega) (by omega) (fun _ => by rw [hdst, Nat.add_sub_cancel_left]; exact hfull) (by omega) (by omega)
  have hF (c : Nat) : s.fire d p (s.tile d p).level c ⟨i.next, i.prefixLen⟩
      (((s.tile d p).meets c).moveIn (s.tile d p).level m v) m v =
      .ok ⟨(s.tile d p).meets c, [.mesh k ((s.tile d p).meshFlit m.op v s.tick)]⟩ := by
    have hior : ((s.tile d p).meets c).ior (0x60 + m.op) = (s.tile d p).ior (0x60 + m.op) :=
      (s.tile d p).ior_meets c (.inr (by omega))
    rw [s.fire_mesh d p _ c _ _ v hk hdst, Tile.sendOp_of_channel _ _ (hior.symm ▸ hon)
      (by rw [Tile.iof, hior]; exact hch), Tile.meshFlit_meets]
  obtain ⟨t, c, w, oc, hexec, hb, hruns, hends, htile, hmap⟩ := h.movesSending ext g
    (by simp [resumable]; omega) (by simp [isCtlMove]; omega) hF (fun c => .refl _) fun _ _ _ => rfl
  have houtc : w.outc = (s.tile d p).outc := by rw [hends.outc, Tile.meets_rest]; rfl
  have happ : oc.map FlitAt.untaken = (w.outc.map (fun (x : FlitAt) => if x.ent.isNone then s.flitIn d p x.port x.flit else x) ++
      [s.flitIn d p k ((s.tile d p).meshFlit m.op v s.tick)]).map FlitAt.untaken := by
    rw [hmap]
    exact congrArg _ (List.map_append ..)
  obtain ⟨hlen, x, hlast, hx⟩ := getLast?_of_untaken happ
  rw [List.length_map, houtc] at hlen
  exact ⟨t, c, x, hexec, hb, hruns, by rw [htile]; exact hlast, by rw [htile]; exact hlen, hx⟩

end Sys2Proof.Machine
end

section
/-!
SUPPORT. The transfers of a plain bundle (R294 to R305): jumps, branches, software traps and waits.
-/
namespace Sys2Proof.Machine

namespace Tile

/-- A transfer of control at a level may stand (R286). -/
theorem privStatic_of_transfer {lvl : Nat} {m : Move} (hsrc : m.src < 0x20 ∨ 0xE0 ≤ m.src) (hdst : 0x28 ≤ m.dst ∧ m.dst < 0x2E)
    (h : m.guard = 0 ∨ lvl ≠ 0) : privStatic lvl m = false :=
  privStatic_eq_false hsrc (by omega) (by omega)

/-- A routine that ends changes registers, sockets, and what waits for its end (R122, R420, R434). -/
theorem routineEnd_rest (t : Tile) :
    t.routineEnd = { t with io := t.routineEnd.io, sock := t.routineEnd.sock, migrAt := t.routineEnd.migrAt, inRtn := false } := by
  have hready (u : Tile) (hu : u.inRtn = false) : u.migrReady = { u with io := u.migrReady.io, migrAt := u.migrReady.migrAt } := by
    unfold migrReady
    split
    · split <;> rfl
    · rfl
  unfold routineEnd
  split
  · dsimp only
    rw [hready _ rfl, setSk_rest]
    rfl
  · next hr => rw [← Bool.eq_false_of_not_eq_true hr]

end Tile

namespace State.OneMove
variable {s : State} {d p : Nat} {i : Insn} {m : Move} {v : Word} (h : s.OneMove d p i m v) (ext : Nat)
include h

/-- A transfer from the memories that the bundle finds, of a socket that asks for no more than its level. -/
theorem ctl_goes (hguard : (s.tile d p).guardOk m = true) (hdst : 0x28 ≤ m.dst ∧ m.dst < 0x32)
    (hlevel : privStatic (s.tile d p).level m = false) (hstack : m.dst = 0x29 ∨ m.dst = 0x2A → (s.tile d p).sb = []) :
    (s.tile d p).Goes p (s.tile d p).level m v :=
  h.goes hguard hlevel (by omega) (by omega) (by omega) (by omega) hstack

/-- A transfer that goes on at an address, with the tile that it gives at each cycle. -/
theorem jumps {F : Nat → Tile} {cost : Nat → Nat} {ctl : Ctl} {a : Nat} (g : (s.tile d p).Goes p (s.tile d p).level m v)
    (hctl : isCtlMove m.dst = true)
    (hK : ∀ c, ((s.tile d p).meets c).ctlFx false ((s.tile d p).sk 0x32) i.next c m v = .ok (F c, ctl, cost c))
    (hto : ∀ t, s.transfer t ctl i.next = t.insnEnd a) (hcost : ∀ c, 0 < cost c) (hbare : ∀ c, (F c).Bare) :
    ∃ t c, exec (.bundle d p ext) s = .next t ∧ Over d p a c (F c) s t := by
  obtain ⟨t, c, w, oc, hexec, honly, hw, htile⟩ := h.transfers ext (K := fun c => (F c, ctl, cost c)) g hctl hK
  obtain ⟨hrep, hloop, hsoft, -, -⟩ := hbare c
  have hends := Tile.insnEnd_ends hrep hloop (s.tile d p).clk c a (hcost c)
  rw [hto, Tile.softEnd_of_none (hends.soft.trans hsoft)] at hw
  subst hw
  exact ⟨t, c, hexec, hends.over honly htile rfl⟩

/-- A transfer that leaves the tile as the bundle found it but for where it goes. -/
theorem jumpsOnly {ctl : Ctl} {cost a : Nat} (g : (s.tile d p).Goes p (s.tile d p).level m v) (hctl : isCtlMove m.dst = true)
    (hK : ∀ c, ((s.tile d p).meets c).ctlFx false ((s.tile d p).sk 0x32) i.next c m v =
      .ok ((s.tile d p).meets c, ctl, cost)) (hcost : 0 < cost) (hto : ∀ t, s.transfer t ctl i.next = t.insnEnd a) :
    ∃ t c, exec (.bundle d p ext) s = .next t ∧ Bundled d p c (fun _ => False) s t ∧ (t.tile d p).RunsOn a := by
  obtain ⟨t, c, hexec, hover⟩ := h.jumps ext g hctl hK hto (fun _ => hcost) h.bare_meets
  exact ⟨t, c, hexec, hover.bundledAs rfl rfl fun q _ _ => Tile.sk_meets .., hover.runsOn (h.bare_meets c)⟩

/-- ctl.jump goes on at its target (R294). -/
theorem jump_moves (hguard : (s.tile d p).guardOk m = true) (hlvl : m.guard = 0 ∨ (s.tile d p).level ≠ 0) (hdst : m.dst = 0x28)
    (hv : v.toNat < 0x10000) :
    ∃ t c, exec (.bundle d p ext) s = .next t ∧ Bundled d p c (fun _ => False) s t ∧ (t.tile d p).RunsOn v.toNat := by
  refine h.jumpsOnly ext (ctl := .jump v.toNat) (cost := 2)
    (h.ctl_goes hguard (by omega) (Tile.privStatic_of_transfer h.source (by omega) hlvl) (by omega)) (by rw [hdst]; rfl)
    (fun c => ?_) (by decide) fun _ => rfl
  unfold Tile.ctlFx
  rw [if_pos hdst, if_neg (by omega)]

/-- ctl.bc goes on at its target where its condition holds, and else behind it (R298). -/
theorem bc_moves (hguard : (s.tile d p).guardOk m = true) (hlvl : (s.tile d p).level ≠ 0) (hdst : m.dst = 0x30)
    (hv : v.toNat < 0x10000) :
    ∃ t c, exec (.bundle d p ext) s = .next t ∧ Bundled d p c (fun _ => False) s t ∧
      (t.tile d p).RunsOn (if bcCond m.op ((s.tile d p).sk 0x32) = some true then v.toNat else i.next) := by
  have g := h.ctl_goes hguard (by omega) (privStatic_eq_false h.source (by omega) (.inl hlvl)) (by omega)
  have hctl : isCtlMove m.dst = true := by rw [hdst]; rfl
  by_cases hcond : bcCond m.op ((s.tile d p).sk 0x32) = some true
  · rw [if_pos hcond]
    refine h.jumpsOnly ext (ctl := .jump v.toNat) (cost := 2) g hctl (fun c => ?_) (by decide) fun _ => rfl
    unfold Tile.ctlFx
    rw [if_neg (by omega), if_neg (by omega), if_neg (by omega), if_neg (by omega), if_pos hdst, if_pos hcond, if_neg (by omega)]
  · rw [if_neg hcond]
    refine h.jumpsOnly ext (ctl := .none) (cost := 1) g hctl (fun c => ?_) (by decide) fun _ => rfl
    unfold Tile.ctlFx
    rw [if_neg (by omega), if_neg (by omega), if_neg (by omega), if_neg (by omega), if_pos hdst, if_neg hcond]

/-- A software trap is raised with its code and word, to return behind the bundle (R305). -/
theorem soft_moves (hguard : (s.tile d p).guardOk m = true) (hdst : m.dst = 0x2F) :
    ∃ t c, exec (.bundle d p ext) s = .next t ∧ Bundled d p c (fun _ => False) s t ∧ (t.tile d p).pc = i.next ∧
      (t.tile d p).phase = .run ∧ (t.tile d p).raised = some ⟨m.op, v, i.next, 0, false, true, false, c⟩ := by
  have g := h.ctl_goes hguard (by omega) (privStatic_eq_false h.source (by omega) (.inr (by omega))) (by omega)
  obtain ⟨t, c, w, oc, hexec, honly, hw, htile⟩ := h.transfers ext (K := fun c => ((s.tile d p).meets c, .soft m.op v, 1)) g
    (by rw [hdst]; rfl) fun c => by simp [Tile.ctlFx, hdst]
  obtain ⟨hrep, hloop, -, -, hphase⟩ := h.bare_meets c
  have hends := Tile.insnEnd_ends hrep hloop (s.tile d p).clk c i.next Nat.one_pos
  have hclk := Tile.clk_insnEnd hrep hloop (s.tile d p).clk c 1 i.next
  dsimp only [State.transfer] at hw
  generalize (((s.tile d p).meets c).spend (s.tile d p).clk c 1).insnEnd i.next = u at hends hclk hw
  have hall : t.tile d p = { u with
      soft := none
      raised := some ⟨m.op, v, u.pc, 0, false, true, false, u.clk - 1⟩
      outc := oc
      marks := [] } := by rw [htile, hw]; rfl
  refine ⟨t, c, hexec, ⟨honly, ?_, ?_, ?_, fun q _ htol => ?_⟩, ?_, ?_, ?_⟩ <;> rw [hall]
  · exact hends.clk
  · exact hends.gran
  · exact hends.io
  · exact (hends.sk q htol).trans (Tile.sk_meets ..)
  · exact hends.pc
  · exact hends.phase.trans hphase
  · rw [hends.pc, hclk, Nat.add_sub_cancel]

/-- ctl.waitm waits for the next milestone; at P1 the routine ends (R122, R126). -/
theorem waitm_moves (hguard : (s.tile d p).guardOk m = true) (hlvl : m.guard = 0 ∨ (s.tile d p).level ≠ 0) (hdst : m.dst = 0x2C) :
    ∃ t c, exec (.bundle d p ext) s = .next t ∧ TileOnly d p s t ∧ (t.tile d p).phase = .wait ∧
      (t.tile d p).pc = i.next ∧ (t.tile d p).waitAt = s.tick + 1 ∧ (t.tile d p).raised = none ∧
      (t.tile d p).gran = ((s.tile d p).atIssue c).gran ∧ ((s.tile d p).level = 0 → (t.tile d p).inRtn = false) ∧
      ((s.tile d p).level ≠ 0 → Bundled d p c (fun _ => False) s t) := by
  have g := h.ctl_goes hguard (by omega) (Tile.privStatic_of_transfer h.source (by omega) hlvl) (by omega)
  obtain ⟨t, c, w, oc, hexec, honly, hw, htile⟩ := h.transfers ext (K := fun c => ((s.tile d p).meets c, .waitm, 1)) g
    (by rw [hdst]; rfl) fun c => by simp [Tile.ctlFx, hdst]
  obtain ⟨hrep, hloop, hsoft, hraised, -⟩ := h.bare_meets c
  have hends := Tile.insnEnd_ends hrep hloop (s.tile d p).clk c i.next Nat.one_pos
  dsimp only [State.transfer] at hw
  generalize (((s.tile d p).meets c).spend (s.tile d p).clk c 1).insnEnd i.next = u at hends hw
  have hlevel : tcrLevel u.tcr = (s.tile d p).level := by
    rw [Tile.tcr, Tile.ior, hends.io]
    exact congrArg tcrLevel ((s.tile d p).ior_meets c (.inl (by decide)))
  rw [hlevel] at hw
  by_cases hl : (s.tile d p).level = 0
  · have hrest := u.routineEnd_rest
    rw [if_pos hl] at hw
    generalize u.routineEnd = r at hrest hw
    have hsoftR : r.soft = none := by rw [hrest]; exact hends.soft.trans hsoft
    replace hw : w = { r with phase := .wait, waitAt := s.tick + 1 } := hw.trans (Tile.softEnd_of_none hsoftR)
    have hall : t.tile d p = { r with phase := .wait, waitAt := s.tick + 1, outc := oc, marks := [] } := by rw [htile, hw]
    exact ⟨t, c, hexec, honly, by rw [hall], by rw [hall, hrest]; exact hends.pc, by rw [hall],
      by rw [hall, hrest]; exact hends.raised.trans hraised, by rw [hall, hrest]; exact hends.gran,
      fun _ => by rw [hall, hrest], fun e => absurd hl e⟩
  · rw [if_neg hl] at hw
    replace hw : w = { u with phase := .wait, waitAt := s.tick + 1 } := hw.trans (Tile.softEnd_of_none (hends.soft.trans hsoft))
    have hall : t.tile d p = { u with phase := .wait, waitAt := s.tick + 1, outc := oc, marks := [] } := by rw [htile, hw]
    have hb : Bundled d p c (fun _ => False) s t := ⟨honly, by rw [hall]; exact hends.clk, by rw [hall]; exact hends.gran,
      by rw [hall]; exact hends.io, fun q _ htol => by rw [hall]; exact (hends.sk q htol).trans (Tile.sk_meets ..)⟩
    exact ⟨t, c, hexec, honly, by rw [hall], by rw [hall]; exact hends.pc, by rw [hall],
      by rw [hall]; exact hends.raised.trans hraised, by rw [hall]; exact hends.gran, fun e => absurd e hl, fun _ => hb⟩

end State.OneMove
end Sys2Proof.Machine
end

section
/-!
SUPPORT. A plain bundle's call and return (R299, R301): the frame written and read back.
-/
namespace Sys2Proof.Machine

/-! ## Frames on a tile's memories -/

namespace Tile
variable {t m : Tile}

/-- A call saves what the tile's sockets hold in the memories that it is given. -/
theorem withMem_savePairs (hsock : t.sock = m.sock) (mask : Nat) (l : List Nat) (j : Nat) :
    savePairs mask l j (t.withMem m) = t.withMem (savePairs mask l j m) := by
  induction l generalizing m j with
  | nil => rfl
  | cons i l ih =>
    have hsk (q : Nat) : (t.withMem m).sk q = m.sk q := congrArg (fun f => if q = 0x20 then 1 else SMap.get (fun _ => 0) f q) hsock
    unfold savePairs
    split
    · rw [hsk, hsk, withMem_writeWhole]
      exact ih (hsock.trans (congrArg Tile.sock (m.memOnly_writeWhole ..).rest).symm) _
    · exact ih hsock j

theorem withMem_loadPairs (mask : Nat) (l : List Nat) (j : Nat) :
    loadPairs mask l j (t.withMem m) = (t.withMem (loadPairs mask l j m).1, (loadPairs mask l j m).2) := by
  induction l generalizing m j with
  | nil => rfl
  | cons i l ih =>
    unfold loadPairs
    split
    · simp only [withMem_read, ih]
      split <;> rfl
    · exact ih j

section
variable (hsb : m.sb = [])
include hsb

theorem sbLeft_withMem (c : Nat) : (t.withMem m).sbLeft c = 0 := by
  have hsb' : (t.withMem m).sb = [] := hsb
  rw [sbLeft, hsb']
  rfl

theorem sbDrain_withMem : sbDrain (t.withMem m).sb.length (t.withMem m) = t.withMem m := by
  rw [show (t.withMem m).sb = [] from hsb]
  rfl

/-- With no store buffered a call writes its frame, whatever its cycle, from the sockets into the memories. -/
theorem withMem_callOp (hsock : t.sock = m.sock) (mask r c c' : Nat) (w : Word) :
    (t.withMem m).callOp mask r c' w = (m.callOp mask r c w).map fun x => (t.withMem x.1, x.2) := by
  have hleft : m.sbLeft c = 0 := sbLeft_withMem (t := m) hsb c
  have hdrain : sbDrain m.sb.length m = m := sbDrain_withMem (t := m) hsb
  have hpreds : (t.withMem m).preds = m.preds := by
    unfold preds sk; rw [show (t.withMem m).sock = m.sock from hsock]
  have hframe (k : Nat) (x : BitVec 72) (l : List Nat) (j : Nat) :
      savePairs mask l j ((t.withMem m).writeWhole 0 k x) = t.withMem (savePairs mask l j (m.writeWhole 0 k x)) := by
    rw [withMem_writeWhole]
    exact withMem_savePairs (hsock.trans (congrArg Tile.sock (m.memOnly_writeWhole ..).rest).symm) ..
  have hiof : (t.withMem m).iof 0x06 15 0 = m.iof 0x06 15 0 := (rfl)
  have hlo : (t.withMem m).stackLo = m.stackLo := (rfl)
  have htop : (t.withMem m).stackTop = m.stackTop := (rfl)
  unfold callOp
  simp only [sbLeft_withMem hsb, sbDrain_withMem hsb, hleft, hdrain, hpreds, hframe, hiof, hlo, htop, withMem_iowf]
  split
  · rfl
  split
  · rfl
  split <;> rfl

/-- With no store buffered a return reads its frame, whatever its cycle, from the memories. -/
theorem withMem_retOp (c c' : Nat) : (t.withMem m).retOp c' = (t.withMem (m.retOp c).1, (m.retOp c).2) := by
  have hleft : m.sbLeft c = 0 := sbLeft_withMem (t := m) hsb c
  have hdrain : sbDrain m.sb.length m = m := sbDrain_withMem (t := m) hsb
  have hiof : (t.withMem m).iof 0x06 15 0 = m.iof 0x06 15 0 := (rfl)
  have hlo : (t.withMem m).stackLo = m.stackLo := (rfl)
  have htop : (t.withMem m).stackTop = m.stackTop := (rfl)
  unfold retOp
  simp only [sbLeft_withMem hsb, sbDrain_withMem hsb, hleft, hdrain, hiof, hlo, htop, withMem_read, withMem_loadPairs]
  split
  · rfl
  split
  · rfl
  split <;> rfl

end

/-- A call takes cycles. -/
theorem callOp_cost {mask r c k : Nat} {w : Word} {u : Tile} (h : m.callOp mask r c w = .ok (u, k)) : 0 < k := by
  unfold callOp at h
  dsimp only at h
  split at h
  · cases h
  split at h
  · cases h
  split at h
  · cases h
  · obtain ⟨-, rfl⟩ := h
    omega

/-- The registers that a return restores are those of its frame's pairs, each once and in order. -/
theorem loadPairs_keys {mask : Nat} {is : List Nat} {j : Nat} {u : Tile} {l : List (Nat × Word)}
    (h : loadPairs mask is j m = (u, .ok l)) : (l.map Prod.fst).Sublist (is.flatMap fun i => [16 + 2 * i, 17 + 2 * i]) := by
  induction is generalizing m j u l with
  | nil => obtain ⟨-, rfl⟩ := h; exact List.Sublist.slnil
  | cons i is ih =>
    unfold loadPairs at h
    rw [List.flatMap_cons]
    split at h
    · dsimp only at h
      split at h
      · cases h
      · rw [Prod.mk.injEq] at h
        obtain ⟨-, h⟩ := h
        generalize hr : loadPairs mask is (j + 2) (m.read 0 0 (j / 2)).1 = x at h
        obtain ⟨u', r⟩ := x
        cases r with
        | error e => cases h
        | ok l' =>
          cases h
          exact ((ih hr).cons_cons _).cons_cons _
    · exact (ih h).trans (List.sublist_append_right ..)

/-- The sockets that a return may set: r16 to r31 and p1 to p7. -/
def frameKeys : List Nat := (List.range 8).flatMap (fun i => [16 + 2 * i, 17 + 2 * i]) ++ (List.range 7).map (0x21 + ·)

/-- A return that does not trap sets sockets of its frame, each once, and takes cycles. -/
theorem retOp_ok {c sp a k : Nat} {u : Tile} {l : List (Nat × Word)} (h : m.retOp c = (u, .ok (l, sp, a, k))) :
    0 < k ∧ (l.map Prod.fst).Sublist frameKeys := by
  unfold retOp at h
  dsimp only at h
  split at h
  · cases h
  split at h
  · cases h
  split at h
  · cases h
  · rw [Prod.mk.injEq] at h
    obtain ⟨-, h⟩ := h
    generalize hr : loadPairs _ (List.range 8) _ _ = x at h
    obtain ⟨u', r⟩ := x
    cases r with
    | error e => cases h
    | ok l' =>
      cases h
      refine ⟨by omega, ?_⟩
      rw [List.map_append, List.map_map]
      exact (loadPairs_keys hr).append (List.Sublist.refl _)

theorem frameKeys_nodup : frameKeys.Nodup := by decide

theorem frameKeys_range {q : Nat} (h : q ∈ frameKeys) : q ≠ 0x20 ∧ q < 0x28 := by
  have all : ∀ q ∈ frameKeys, q ≠ 0x20 ∧ q < 0x28 := by decide
  exact all q h

/-- The tile with the sockets of a list set. -/
def setSks (t : Tile) (l : List (Nat × Word)) : Tile := l.foldl (fun t x => t.setSk x.1 x.2) t

theorem setsOnly_setSks (t : Tile) {P : Nat → Prop} {l : List (Nat × Word)} (h : ∀ x ∈ l, P x.1) :
    SetsOnly P t (t.setSks l) := by
  induction l generalizing t with
  | nil => exact .refl t
  | cons x l ih => exact (t.setsOnly_setSk x.2 (h x (by simp))).trans (ih _ fun y hy => h y (by simp [hy]))

/-- Each of the sockets set, if none is set twice, keeps of its word what it holds. -/
theorem sk_setSks (t : Tile) {l : List (Nat × Word)} (hnodup : (l.map Prod.fst).Nodup) (hp0 : ∀ x ∈ l, x.1 ≠ 0x20) :
    ∀ x ∈ l, (t.setSks l).sk x.1 = x.2 &&& skMask x.1 := by
  induction l generalizing t with
  | nil => nofun
  | cons y l ih =>
    rw [List.map_cons, List.nodup_cons] at hnodup
    obtain ⟨hnot, hnodup⟩ := hnodup
    intro x hx
    rcases List.mem_cons.1 hx with rfl | hx
    · have hkeep := ((t.setSk x.1 x.2).setsOnly_setSks (P := fun q => q ∈ l.map Prod.fst)
        fun y hy => List.mem_map_of_mem hy).sk x.1 hnot
      exact hkeep.trans (by rw [sk_setSk, if_pos ⟨rfl, hp0 x (by simp)⟩])
    · exact ih _ hnodup (fun z hz => hp0 z (by simp [hz])) x hx

end Tile

/-- With no store buffered every issue cycle finds the same tile: the memories as the bundle issued, beside the rest. -/
theorem Tile.meets_eq_withMem {t : Tile} (hsb : t.sb = []) (c : Nat) :
    t.meets c = (t.meets 0).withMem (t.atIssue 0) ∧ (t.atIssue 0).sb = [] := by
  have hmeets := t.meets_of_nil hsb
  refine ⟨?_, ?_⟩
  · rw [hmeets, ← hmeets 0]; rfl
  · exact (congrArg Tile.sb (hmeets 0)).trans (t.sb_issuing.trans hsb)

/-! ## The moves -/

namespace State.OneMove
variable {s : State} {d p : Nat} {i : Insn} {m : Move} {v : Word} (h : s.OneMove d p i m v) (ext : Nat)
include h

/-- ctl.call goes on at its target with its frame written (R299). -/
theorem call_moves (hguard : (s.tile d p).guardOk m = true) (hlvl : m.guard = 0 ∨ (s.tile d p).level ≠ 0) {u : Tile} {k : Nat}
    (hdst : m.dst = 0x29) (hsb : (s.tile d p).sb = []) (hcall : ((s.tile d p).atIssue 0).callOp m.op i.next 0 v = .ok (u, k)) :
    ∃ t c, exec (.bundle d p ext) s = .next t ∧ BundledAs d p c u (fun _ => False) s t ∧ (t.tile d p).RunsOn v.toNat := by
  have hM (c : Nat) := Tile.meets_eq_withMem hsb c
  have hbare : (((s.tile d p).meets 0).withMem u).Bare := h.bare_meets 0
  obtain ⟨t, c, hexec, hover⟩ := h.jumps ext (F := fun _ => ((s.tile d p).meets 0).withMem u) (cost := fun _ => k)
    (ctl := .jump v.toNat)
    (h.ctl_goes hguard (by omega) (Tile.privStatic_of_transfer h.source (by omega) hlvl) fun _ => hsb) (by rw [hdst]; rfl)
    (fun c => by
      have hop := Tile.withMem_callOp (t := (s.tile d p).meets 0) (hM 0).2 rfl m.op i.next 0 c v
      rw [hcall, ← (hM c).1] at hop
      unfold Tile.ctlFx
      rw [if_neg (by omega), if_pos hdst, hop]
      rfl)
    (fun _ => rfl) (fun _ => Tile.callOp_cost hcall) fun _ => hbare
  exact ⟨t, c, hexec, hover.bundledAs rfl rfl fun q _ _ => (s.tile d p).sk_meets 0 q, hover.runsOn hbare⟩

/-- ctl.ret goes on at the address of its frame with the sockets that it holds restored (R301). -/
theorem ret_moves (hguard : (s.tile d p).guardOk m = true) (hlvl : m.guard = 0 ∨ (s.tile d p).level ≠ 0) {u : Tile}
    {l : List (Nat × Word)} {sp a k : Nat} (hdst : m.dst = 0x2A) (hsb : (s.tile d p).sb = [])
    (hret : ((s.tile d p).atIssue 0).retOp 0 = (u, .ok (l, sp, a, k))) :
    ∃ t c, exec (.bundle d p ext) s = .next t ∧ BundledAs d p c (u.iowf 0x06 15 0 sp) (fun q => ∃ x ∈ l, x.1 = q) s t ∧
      (t.tile d p).RunsOn a ∧ ∀ x ∈ l, (t.tile d p).sk x.1 = x.2 &&& skMask x.1 := by
  have hM (c : Nat) := Tile.meets_eq_withMem hsb c
  obtain ⟨hcost, hkeys⟩ := Tile.retOp_ok hret
  have hset := (((s.tile d p).meets 0).withMem u).setsOnly_setSks (P := fun q => ∃ x ∈ l, x.1 = q) fun x hx => ⟨x, hx, rfl⟩
  have hbare : ((((s.tile d p).meets 0).withMem u).setSks l).Bare := hset.bare (h.bare_meets 0)
  have hrange (x : Nat × Word) (hx : x ∈ l) := Tile.frameKeys_range (hkeys.subset (List.mem_map_of_mem hx))
  obtain ⟨t, c, hexec, hover⟩ := h.jumps ext (F := fun _ => ((((s.tile d p).meets 0).withMem u).setSks l).iowf 0x06 15 0 sp)
    (cost := fun _ => k) (ctl := .jump a)
    (h.ctl_goes hguard (by omega) (Tile.privStatic_of_transfer h.source (by omega) hlvl) fun _ => hsb) (by rw [hdst]; rfl)
    (fun c => by
      have hop := Tile.withMem_retOp (t := (s.tile d p).meets 0) (hM 0).2 0 c
      rw [hret, ← (hM c).1] at hop
      unfold Tile.ctlFx
      rw [if_neg (by omega), if_neg (by omega), if_pos hdst, hop]
      rfl)
    (fun _ => rfl) (fun _ => hcost) fun _ => hbare
  have hio : ((((s.tile d p).meets 0).withMem u).setSks l).io = u.io := hset.io
  refine ⟨t, c, hexec, hover.bundledAs hset.gran ?_ fun q hq _ => (hset.sk q hq).trans ((s.tile d p).sk_meets 0 q),
    hover.runsOn hbare, fun x hx => ?_⟩
  · simp only [Tile.iowf, Tile.iow, Tile.ior, hio]
  · rw [hover.sk _ (by have := hrange x hx; omega)]
    exact Tile.sk_setSks _ (hkeys.nodup Tile.frameKeys_nodup) (fun y hy => (hrange y hy).1) x hx

end State.OneMove
end Sys2Proof.Machine
end

section
/-!
SUPPORT. A plain bundle's RETX (R316): the tile as it resumes.
-/
namespace Sys2Proof.Machine

/-- A field of four bits fits the flags socket (R198). -/
theorem wd_fld_and_15 (w : Word) : wd (fld w 3 0) &&& 15 = wd (fld w 3 0) := by
  have hlt : fld w 3 0 < 16 := fld_lt w 3 0
  have all : ∀ n < 16, wd n &&& 15 = wd n := by decide
  exact all _ hlt

namespace Tile

/-- The tile t once a RETX puts into force the TCR value new, with pend to come if one is pending. -/
def resumed (t : Tile) (new pend : Word) : Tile :=
  { (t.setTcr false new).setSk 0x32 (wd (t.iof 0x02 3 0)) with
    tcrQ := if bitOf (t.ior 0x02) 15 then [(pend, 2)] else []
    flagReady := 0
    pc := t.iof 0x01 15 0
    fetched := false
    stepping := false
    phase := if bitOf (t.ior 0x02) 14 then .wait else .run }.resume

/-- A RETX whose levels are allowed. -/
theorem retxOp_of_allowed {t : Tile} {ent : Nat}
    (hent : ent = if bitOf (t.ior 2) 16 then 0 else if bitOf (t.ior 2) 17 then 1 else 2)
    (hnew : retxBad t.tcr (retxKeep t.tcr (t.ior 3)) ent = false)
    (hpend : bitOf (t.ior 2) 15 = true → retxBad t.tcr (retxKeep t.tcr (t.ior 4)) ent = false) :
    t.retxOp false = .ok (t.resumed (retxKeep t.tcr (t.ior 3)) (retxKeep t.tcr (t.ior 4))) := by
  unfold retxOp
  simp only [← hent, hnew]
  rw [if_neg (by decide), if_neg]
  · rfl
  · intro hc
    rw [Bool.and_eq_true] at hc
    exact absurd (hpend hc.1) (by rw [hc.2]; decide)

/-- The records that a RETX restores are all that its resumption sets (R164). -/
theorem resume_rest (t : Tile) :
    t.resume = { t with hold := none, loop := t.resume.loop, rsmRep := t.resume.rsmRep, rsmMc := t.resume.rsmMc } := (rfl)

section
variable (t : Tile) (new pend : Word)

theorem resumed_rest : t.resumed new pend = { t with
    sock := (t.resumed new pend).sock
    io := (t.resumed new pend).io
    tcrQ := if bitOf (t.ior 0x02) 15 then [(pend, 2)] else []
    flagReady := 0
    pc := t.iof 0x01 15 0
    fetched := false
    stepping := false
    phase := if bitOf (t.ior 0x02) 14 then .wait else .run
    hold := none
    loop := (t.resumed new pend).loop
    rsmRep := (t.resumed new pend).rsmRep
    rsmMc := (t.resumed new pend).rsmMc } := by
  unfold resumed
  rw [resume_rest, setSk_rest]
  rfl

theorem ior_resumed (q : Nat) : (t.resumed new pend).ior q = if q = 0 then tcrMask false new else t.ior q := by
  have h : (t.resumed new pend).io = (t.iow 0 (tcrMask false new)).io := by
    unfold resumed; rw [resume_rest, setSk_rest]; rfl
  rw [← t.ior_iow 0 q, ior, h]
  rfl

theorem sk_resumed (q : Nat) : (t.resumed new pend).sk q = if q = 0x32 then wd (t.iof 0x02 3 0) &&& 15 else t.sk q := by
  have h : (t.resumed new pend).sk q = ((t.setTcr false new).setSk 0x32 (wd (t.iof 0x02 3 0))).sk q := (rfl)
  rw [h, sk_setSk]
  by_cases hq : q = 0x32
  · rw [if_pos ⟨hq, by decide⟩, if_pos hq]; rfl
  · rw [if_neg fun e : q = 0x32 ∧ _ => hq e.1, if_neg hq]; rfl

/-- The loop that a RETX resumes is the one in progress of TILE_LOOP, if one is. -/
theorem loop_resumed : if bitOf (t.ior 0x49) 32 then ∃ l, (t.resumed new pend).loop = some l ∧ l.start = t.iof 0x49 15 0 ∧
      l.nb = t.iof 0x49 23 16 ∧ l.idx = t.iof 0x49 31 24 ∧ l.lrem = t.iof 0x4A 17 0
    else (t.resumed new pend).loop = none := by
  have hior (q : Nat) (hq : q ≠ 0) : (t.iow 0 (tcrMask false new)).ior q = t.ior q := by rw [ior_iow, if_neg hq]
  have h : (t.resumed new pend).loop = ({ t.iow 0 (tcrMask false new) with pc := t.iof 0x01 15 0 } : Tile).resume.loop := by
    unfold resumed; rw [setSk_rest]; rfl
  have hloop : (t.resumed new pend).loop = if bitOf (t.ior 0x49) 32 then
      some ⟨t.iof 0x49 15 0, t.iof 0x49 23 16, t.iof 0x49 31 24, t.iof 0x4A 17 0, decide (t.iof 0x4A 17 0 = 0),
        Held.isBody t.lbuf (t.iof 0x49 15 0) (t.iof 0x49 23 16)⟩ else none := by
    simp only [iof, ← hior 0x49 (by decide), ← hior 0x4A (by decide)]
    exact h
  split
  · next hon => exact ⟨_, hloop.trans (if_pos hon), rfl, rfl, rfl, rfl⟩
  · next hoff => exact hloop.trans (if_neg hoff)

end

/-- After a RETX the bundle's clock is paid, and nothing else is left of the tile's instruction (R316, R318). -/
theorem transfer_retx_ends {f : Tile} (s : State) (old c a : Nat) {cost : Nat} (hcost : 0 < cost) :
    ∃ k, Ends { f with waitAt := k } (s.transfer (f.spend old c cost) .retx a) f.pc c := by
  have hsk (q : Nat) (hq : ¬ (0xD0 ≤ q ∧ q < 0xD8)) := f.sk_chargeCyc (c + cost - old) (q := q) (by omega)
  have h := f.spend_rest old c cost
  have hclk : c < (f.spend old c cost).clk := Nat.lt_add_of_pos_right hcost
  have hsk' (q : Nat) (hq : ¬ (0xD0 ≤ q ∧ q < 0xD8)) : (f.spend old c cost).sk q = f.sk q := hsk q hq
  generalize f.spend old c cost = u at h hclk hsk'
  unfold State.transfer
  dsimp only
  split
  · exact ⟨s.tick + 1, by rw [h]; rfl, hclk, hsk'⟩
  · exact ⟨f.waitAt, by rw [h]; rfl, hclk, hsk'⟩

end Tile

/-- RETX restores TCR, flags, pc, a pending TCR write, the wait and a loop in progress (R316). -/
theorem State.OneMove.retx_moves {s : State} {d p : Nat} {i : Insn} {m : Move} {v : Word} (h : s.OneMove d p i m v) (ext : Nat)
    (hguard : (s.tile d p).guardOk m = true) {ent : Nat} (hdst : m.dst = 0x31) (hlvl : (s.tile d p).level ≠ 0)
    (hent : ent = if bitOf ((s.tile d p).ior 2) 16 then 0 else if bitOf ((s.tile d p).ior 2) 17 then 1 else 2)
    (hnew : retxBad (s.tile d p).tcr (retxKeep (s.tile d p).tcr ((s.tile d p).ior 3)) ent = false)
    (hpend : bitOf ((s.tile d p).ior 2) 15 = true →
      retxBad (s.tile d p).tcr (retxKeep (s.tile d p).tcr ((s.tile d p).ior 4)) ent = false) :
    ∃ t c, exec (.bundle d p ext) s = .next t ∧ TileOnly d p s t ∧ (t.tile d p).raised = none ∧
      (t.tile d p).gran = ((s.tile d p).atIssue c).gran ∧ (t.tile d p).pc = (s.tile d p).iof 1 15 0 ∧
      (t.tile d p).tcr = tcrMask false (retxKeep (s.tile d p).tcr ((s.tile d p).ior 3)) ∧
      (t.tile d p).sk 0x32 = wd ((s.tile d p).iof 2 3 0) ∧
      (t.tile d p).tcrQ = (if bitOf ((s.tile d p).ior 2) 15 then
        [(retxKeep (s.tile d p).tcr ((s.tile d p).ior 4), 2)] else []) ∧
      (t.tile d p).phase = (if bitOf ((s.tile d p).ior 2) 14 then .wait else .run) ∧
      (∀ q, q ≠ 0 → (t.tile d p).ior q = ((s.tile d p).atIssue c).ior q) ∧
      (if bitOf ((s.tile d p).ior 0x49) 32 then ∃ l, (t.tile d p).loop = some l ∧ l.start = (s.tile d p).iof 0x49 15 0 ∧
          l.nb = (s.tile d p).iof 0x49 23 16 ∧ l.idx = (s.tile d p).iof 0x49 31 24 ∧ l.lrem = (s.tile d p).iof 0x4A 17 0
        else (t.tile d p).loop = none) ∧
      ∀ q, q ≠ 0x32 → ¬ (0xD0 ≤ q ∧ q < 0xD8) → (t.tile d p).sk q = (s.tile d p).sk q := by
  have g := h.ctl_goes hguard (by omega) (privStatic_eq_false h.source (by omega) (.inl hlvl)) (by omega)
  have hior (c q : Nat) (hq : q < 0x11 ∨ 0x1B < q) : ((s.tile d p).meets c).ior q = (s.tile d p).ior q :=
    (s.tile d p).ior_meets c hq
  have hiof (c q hi lo : Nat) (hq : q < 0x11 ∨ 0x1B < q) : ((s.tile d p).meets c).iof q hi lo = (s.tile d p).iof q hi lo := by
    rw [Tile.iof, hior c q hq]; rfl
  generalize hN : retxKeep (s.tile d p).tcr ((s.tile d p).ior 3) = new at hnew ⊢
  generalize hQ : retxKeep (s.tile d p).tcr ((s.tile d p).ior 4) = pend at hpend ⊢
  have hop (c : Nat) : ((s.tile d p).meets c).retxOp false = .ok (((s.tile d p).meets c).resumed new pend) := by
    have htcr : ((s.tile d p).meets c).tcr = (s.tile d p).tcr := hior c 0 (by decide)
    rw [Tile.retxOp_of_allowed (ent := ent)] <;> simp only [htcr, hior c 2 (by decide), hior c 3 (by decide), hior c 4 (by decide), hN, hQ]
    · exact hent
    · exact hnew
    · exact hpend
  obtain ⟨t, c, w, oc, hexec, honly, hw, htile⟩ := h.transfers ext
    (K := fun c => (((s.tile d p).meets c).resumed new pend, .retx, 4)) g (by rw [hdst]; rfl) fun c => by
    simp only [Tile.ctlFx, hdst, hop]
    rfl
  obtain ⟨-, -, hsoft, hraised, -⟩ := h.bare_meets c
  have hrest := ((s.tile d p).meets c).resumed_rest new pend
  have hioR := ((s.tile d p).meets c).ior_resumed new pend
  have hskR := ((s.tile d p).meets c).sk_resumed new pend
  have hloopR := ((s.tile d p).meets c).loop_resumed new pend
  dsimp only at hw
  generalize ((s.tile d p).meets c).resumed new pend = f at hw hrest hioR hskR hloopR
  obtain ⟨k, hends⟩ := Tile.transfer_retx_ends (f := f) s (s.tile d p).clk c i.next (cost := 4) (by decide)
  have hsoftR : f.soft = none := by rw [hrest]; exact hsoft
  rw [Tile.softEnd_of_none (hends.soft.trans hsoftR)] at hw
  rw [← hw] at hends
  have hover := hends.over honly htile rfl
  have hreg (q : Nat) : (t.tile d p).ior q = f.ior q := by rw [Tile.ior, hover.io]; rfl
  refine ⟨t, c, hexec, honly, ?_, ?_, ?_, ?_, ?_, ?_, ?_, fun q hq => ?_, ?_, fun q hq htol => ?_⟩
  · rw [hover.raised, hrest]; exact hraised
  · rw [hover.gran, hrest]; rfl
  · rw [hover.pc, hrest]; exact hiof c 1 15 0 (by decide)
  · rw [Tile.tcr, hreg, hioR, if_pos rfl]
  · rw [hover.sk _ (by decide)]
    exact (hskR 0x32).trans (by rw [if_pos rfl, hiof c 2 3 0 (by decide)]; exact wd_fld_and_15 _)
  · rw [htile]
    exact hends.tcrQ.trans (by rw [hrest, hior c 2 (by decide)])
  · rw [hover.phase, hrest, hior c 2 (by decide)]
  · rw [hreg, hioR, if_neg hq]; rfl
  · rw [hior c 0x49 (by decide), hiof c 0x49 _ _ (by decide), hiof c 0x49 _ _ (by decide), hiof c 0x49 _ _ (by decide),
      hiof c 0x4A _ _ (by decide)] at hloopR
    rw [htile, show ({ w with outc := oc, marks := [] } : Tile).loop = f.loop from hends.loop]
    exact hloopR
  · rw [hover.sk _ htol]
    exact (hskR q).trans (by rw [if_neg hq, Tile.sk_meets])

end Sys2Proof.Machine
end

section
/-!
PROOF OF O18. A plain bundle of one move, a lemma for each kind of destination.
-/
namespace Sys2Proof.Machine

/-- Settles O18: each kind of destination by its own lemma, from the cycle at which the move issues to the tile that it leaves. -/
theorem bundleMovesRegister : Obligations.BundleMovesRegister := by
  unfold Obligations.BundleMovesRegister
  intro s d p ext i m v h
  refine ⟨h.socket_moves ext, fun hguard => ⟨?alu, ?ls, ?io, ?window, ?look, ?egress, ?mesh, ?soft, ?transfers, ?bc, ?retx⟩⟩
  case alu => exact fun b x hb hdst hx htrap => h.alu_moves ext hguard hb hdst hx htrap
  case ls =>
    intro b q hb hdst hwipe hmap
    refine ⟨h.store_moves ext hguard hb hdst hwipe hmap, fun g hsb hg => ⟨?_, fun hop hmap2 => ?_⟩⟩
    · exact h.load_moves ext hguard hb hdst hwipe hsb hg hmap
    · exact h.load2_moves ext hguard hb hdst hwipe hsb hg hmap2 hop
  case io =>
    intro e r hdst he hlt hsp hr
    exact ⟨h.ioLoad_moves ext hguard hdst he hlt hsp hr, h.ioStore_moves ext hguard hdst he hlt hsp hr⟩
  case window => exact fun e hdst he hlo hhi hlvl _ hport => h.window_moves ext hguard hdst he hlo hhi hlvl hport
  case look =>
    intro hdst hop hon hroom
    obtain ⟨t, c, hexec, hb, hruns, hreq⟩ := h.look_moves ext hguard hdst hop hon hroom
    obtain ⟨hstream, hheld, hleft⟩ := (s.tile d p).lookReq_stream m.op (s.tableOf d p)
    refine ⟨t, c, _, hexec, hb, hruns, hreq, hstream, hheld, hleft, fun x ka kb kw hx hkw hka hkb => ?_⟩
    subst hkw hka hkb
    exact (s.tile d p).lookReq_of_table m.op hx
  case egress => exact fun x hdst hslot hcpl hfull hword => h.eg_moves ext hguard hdst hslot hcpl hfull hword
  case mesh =>
    intro k hk hdst hon hch hfull
    obtain ⟨t, c, x, hexec, hb, hruns, hlast, hlen, hx⟩ := h.mesh_moves ext hguard hk hdst hon hch hfull
    have hflit : x.flit = (s.tile d p).meshFlit m.op v s.tick := congrArg FlitAt.flit hx
    exact ⟨t, c, x, hexec, hb, hruns, hlast, hlen, congrArg FlitAt.port hx, hflit, hflit ▸ congrArg FlitAt.ent hx⟩
  case soft => exact h.soft_moves ext hguard
  case transfers =>
    intro hlvl
    exact ⟨h.jump_moves ext hguard hlvl, fun u k hdst hsb hcall => h.call_moves ext hguard hlvl hdst hsb hcall,
      fun u l sp a k hdst hsb hret => h.ret_moves ext hguard hlvl hdst hsb hret, h.waitm_moves ext hguard hlvl⟩
  case bc => exact h.bc_moves ext hguard
  case retx => exact fun ent hdst hlvl hent hnew hpend => h.retx_moves ext hguard hdst hlvl hent hnew hpend

end Sys2Proof.Machine
end

section
/-!
SUPPORT. What reaches a tile's registers alone, and what of a tile decides the memories that a bcopy leaves.
-/
namespace Sys2Proof.Machine

/-- From t to u nothing changed but tile registers that P names. -/
structure IoOnly (P : Nat → Prop) (t u : Tile) : Prop where
  rest : u = { t with io := u.io }
  regs : ∀ q, ¬ P q → u.ior q = t.ior q

namespace IoOnly
variable {P Q : Nat → Prop} {t u v : Tile}

theorem refl (P : Nat → Prop) (t : Tile) : IoOnly P t t := ⟨rfl, fun _ _ => rfl⟩

theorem iow (h : IoOnly P t u) {k : Nat} (w : Word) (hk : P k) : IoOnly P t (u.iow k w) :=
  ⟨congrArg (fun x : Tile => x.iow k w) h.rest, fun q hq => by
    rw [Tile.ior_iow, if_neg (by rintro rfl; exact hq hk), h.regs q hq]⟩

theorem iowf (h : IoOnly P t u) {k : Nat} (hi lo n : Nat) (hk : P k) : IoOnly P t (u.iowf k hi lo n) := h.iow _ hk

theorem trans (h : IoOnly P t u) (k : IoOnly Q u v) : IoOnly (fun q => P q ∨ Q q) t v :=
  ⟨k.rest.trans (show ({ u with io := v.io } : Tile) = { t with io := v.io } by rw [h.rest]),
    fun q hq => (k.regs q (fun e => hq (.inr e))).trans (h.regs q (fun e => hq (.inl e)))⟩

end IoOnly

namespace Tile

/-- Two tiles with the same granules under the same keys and the same armed mask. -/
structure MemAlike (t u : Tile) : Prop where
  gran : u.gran = t.gran
  half : u.ihalf = t.ihalf
  bank : u.sbank = t.sbank
  flip : ∀ q, 0x18 ≤ q → q ≤ 0x1B → u.ior q = t.ior q

namespace MemAlike
variable {t u v : Tile}

theorem trans (h : MemAlike t u) (k : MemAlike u v) : MemAlike t v :=
  ⟨k.gran.trans h.gran, k.half.trans h.half, k.bank.trans h.bank, fun q h1 h2 => (k.flip q h1 h2).trans (h.flip q h1 h2)⟩

theorem symm (h : MemAlike t u) : MemAlike u t :=
  ⟨h.gran.symm, h.half.symm, h.bank.symm, fun q h1 h2 => (h.flip q h1 h2).symm⟩

theorem gkey (h : MemAlike t u) (mem idx : Nat) : u.gkey mem idx = t.gkey mem idx := by
  rw [Tile.gkey, Tile.gkey, h.half, h.bank]

theorem gr (h : MemAlike t u) (mem idx : Nat) : u.gr mem idx = t.gr mem idx := by
  rw [Tile.gr, Tile.gr, h.gran, h.gkey]

theorem flipFor (h : MemAlike t u) (mem idx : Nat) : u.flipFor mem idx = t.flipFor mem idx := by
  unfold Tile.flipFor Tile.iof
  rw [h.flip 0x18 (by decide) (by decide), h.flip 0x19 (by decide) (by decide), h.flip 0x1A (by decide) (by decide),
    h.flip 0x1B (by decide) (by decide)]

/-- The granules after the same store. -/
theorem gran_store (h : MemAlike t u) (mem idx : Nat) (g : Gran) : (u.store mem idx g).gran = (t.store mem idx g).gran := by
  have stored (x : Tile) : (x.store mem idx g).gran =
      SMap.set (fun _ => 0) x.gran (x.gkey mem idx) (g ^^^ x.flipFor mem idx) := by
    unfold store
    dsimp only
    split
    · exact gran_flipDone _
    · rfl
  rw [stored, stored, h.gran, h.gkey, h.flipFor]

end MemAlike

/-- Only the mask's registers, of all, decide what a store leaves. -/
theorem memAlike_iow (t : Tile) {k : Nat} (w : Word) (hk : k < 0x18 ∨ 0x1B < k) : MemAlike t (t.iow k w) :=
  ⟨rfl, rfl, rfl, fun q h1 h2 => by rw [ior_iow, if_neg (by omega)]⟩

theorem memAlike_bump (t : Tile) {k : Nat} (hi lo n : Nat) (hk : k < 0x18 ∨ 0x1B < k) : MemAlike t (t.bump k hi lo n) :=
  t.memAlike_iow _ hk

/-- Counting and logging a finding arms no mask and stores nothing. -/
theorem memAlike_found (t : Tile) (c : Cls3) (fn mem idx syn : Nat) : MemAlike t (t.found c fn mem idx syn) := by
  have logged (u : Tile) (x y : Word) : MemAlike u ((u.iow 0x13 x).iow 0x14 y) :=
    (u.memAlike_iow _ (by decide)).trans (memAlike_iow _ _ (by decide))
  have marked (u : Tile) (x y z : Word) : MemAlike u (u.mark 0x041 x y z) := ⟨rfl, rfl, rfl, fun _ _ _ => rfl⟩
  unfold found
  cases c with
  | corrected => exact (t.memAlike_bump _ _ _ (by decide)).trans (logged ..)
  | uncorrectable => exact ((t.memAlike_bump _ _ _ (by decide)).trans (marked ..)).trans (logged ..)
  | clean => exact logged ..
  | poisoned => exact logged ..

/-- The granules after the same write under a mask. -/
theorem MemAlike.gran_write {t u : Tile} (h : MemAlike t u) (fn mem idx : Nat) (mask d : BitVec 72) :
    (u.write fn mem idx mask d).gran = (t.write fn mem idx mask d).gran := by
  have counted (x : Tile) (hi lo : Nat) : MemAlike x (x.bump 0x16 hi lo 1) := x.memAlike_bump _ _ _ (by decide)
  unfold write
  split
  · unfold writeWhole
    dsimp only
    rw [h.gr]
    split
    · exact (((counted t _ _).symm.trans h).trans (counted u _ _)).gran_store ..
    · exact h.gran_store ..
  · unfold writePart
    dsimp only
    rw [h.gr]
    generalize eccSyn (t.gr mem idx) = syn
    generalize eccClass (memCode mem) (t.gr mem idx) = x
    obtain ⟨c, old⟩ := x
    have hfound : MemAlike (t.found c fn mem idx syn) (u.found c fn mem idx syn) :=
      ((t.memAlike_found ..).symm.trans h).trans (u.memAlike_found ..)
    cases c <;> dsimp only
    case clean => exact h.gran_store ..
    case corrected => exact hfound.gran_store ..
    case poisoned => rw [bump_eq, bump_eq, iow_gran, iow_gran, hfound.gran]
    case uncorrectable => rw [bump_eq, bump_eq, iow_gran, iow_gran, hfound.gran_store]

/-- What the last bcopy step wrote goes to the same granules. -/
theorem MemAlike.gran_bcpFlush {t u : Tile} (h : MemAlike t u) (hb : u.bcp = t.bcp) : u.bcpFlush.gran = t.bcpFlush.gran := by
  have fold (j : Nat) (f : Nat × BitVec 72 × BitVec 72 → BitVec 72) (l : List (Nat × BitVec 72 × BitVec 72)) (x : Tile) :
      (l.foldl (fun (t : Tile) x => t.lostWords j x.1 (f x)) x).gran = x.gran := by
    induction l generalizing x with
    | nil => rfl
    | cons y l ih => rw [List.foldl_cons, ih, gran_lostWords]
  unfold bcpFlush
  rw [hb]
  cases t.bcp with
  | none => exact h.gran
  | some b =>
    have hfree : MemAlike { t with bcp := none } { u with bcp := none } := ⟨h.gran, h.half, h.bank, h.flip⟩
    dsimp only
    rw [fold _ (fun x => nonetBits b.mask.toNat &&& x.2.1 &&& (x.2.2 ^^^ b.data)),
      fold _ (fun x => nonetBits b.mask.toNat &&& x.2.1 &&& (x.2.2 ^^^ b.data))]
    exact hfree.gran_write ..

end Tile
end Sys2Proof.Machine
end

section
/-!
SUPPORT. The entry of a handler (R311): the record of what was in progress, the TCR in force, the registers saved, and the tile
that runs on at the vector.
-/
namespace Sys2Proof.Machine
namespace Tile

/-! ## The record of what was in progress (R162, R163) -/

/-- The count of the repetition recorded, with its VALID bit. -/
def recordRep (t : Tile) : Tile :=
  match t.rep.or t.rsmRep with
  | some n => t.iow 0x48 (wd (n % 2 ^ 18 + 2 ^ 18))
  | none => t.iowf 0x48 18 18 0

/-- The loop recorded in u. -/
def recordLoop (t u : Tile) : Tile :=
  match t.loop with
  | some l => (u.iow 0x49 (wd (l.start + 2 ^ 16 * l.nb + 2 ^ 24 * l.idx + 2 ^ 32))).iow 0x4A (wd l.lrem)
  | none => u.iowf 0x49 32 32 0

/-- The n first operand bytes recorded in u. -/
def recordOps (t : Tile) (n : Nat) (u : Tile) : Tile :=
  (List.range n).foldl (fun (u : Tile) i => u.iow (0x50 + i) (t.sk (0xD8 + i))) u

/-- The expansion recorded in u. -/
def recordExp (t u : Tile) : Tile :=
  match t.exp with
  | some x => t.recordOps 8 (u.iow 0x4B (wd (x.mix + 16 * x.entry + 1024)))
  | none => match t.rsmMc with
    | some (mix, e) => u.iow 0x4B (wd (mix + 16 * e + 1024))
    | none => u.iowf 0x4B 10 10 0

theorem record_eq (t : Tile) : t.record = t.recordExp (t.recordLoop t.recordRep) := by
  unfold record recordRep
  cases t.rep <;> rfl

theorem ioOnly_recordRep (t : Tile) : IoOnly (fun q => q = 0x48) t t.recordRep := by
  unfold recordRep
  split
  · exact (IoOnly.refl _ t).iow _ rfl
  · exact (IoOnly.refl _ t).iowf _ _ _ rfl

theorem ioOnly_recordLoop (t u : Tile) : IoOnly (fun q => q = 0x49 ∨ q = 0x4A) u (t.recordLoop u) := by
  unfold recordLoop
  split
  · exact ((IoOnly.refl _ u).iow _ (.inl rfl)).iow _ (.inr rfl)
  · exact (IoOnly.refl _ u).iowf _ _ _ (.inl rfl)

/-- Each operand byte is recorded in its own register. -/
theorem recordOps_spec (t u : Tile) (n : Nat) : IoOnly (fun q => 0x50 ≤ q) u (t.recordOps n u) ∧
    ∀ i, i < n → (t.recordOps n u).ior (0x50 + i) = t.sk (0xD8 + i) := by
  induction n with
  | zero => exact ⟨IoOnly.refl _ u, fun i hi => absurd hi (by omega)⟩
  | succ n ih =>
    have hstep : t.recordOps (n + 1) u = (t.recordOps n u).iow (0x50 + n) (t.sk (0xD8 + n)) := by
      simp [recordOps, List.range_succ]
    rw [hstep]
    refine ⟨ih.1.iow _ (by omega), fun i hi => ?_⟩
    rw [ior_iow]
    by_cases e : i = n
    · rw [e, if_pos rfl]
    · rw [if_neg (by omega), ih.2 i (by omega)]

theorem ioOnly_recordExp (t u : Tile) : IoOnly (fun q => 0x4B ≤ q) u (t.recordExp u) := by
  unfold recordExp
  split
  · obtain ⟨hrest, hregs⟩ := (((IoOnly.refl _ u).iow _ (Nat.le_refl 0x4B)).trans (t.recordOps_spec _ 8).1)
    exact ⟨hrest, fun q hq => hregs q (by omega)⟩
  · split
    · exact (IoOnly.refl _ u).iow _ (Nat.le_refl _)
    · exact (IoOnly.refl _ u).iowf _ _ _ (Nat.le_refl _)

theorem ioOnly_record (t : Tile) : IoOnly (fun q => 0x48 ≤ q) t t.record := by
  obtain ⟨hrest, hregs⟩ :=
    (t.ioOnly_recordRep.trans (t.ioOnly_recordLoop t.recordRep)).trans (t.ioOnly_recordExp (t.recordLoop t.recordRep))
  rw [record_eq]
  exact ⟨hrest, fun q hq => hregs q (by omega)⟩

theorem ior_record_rep (t : Tile) : t.record.ior 0x48 = t.recordRep.ior 0x48 := by
  rw [record_eq, (t.ioOnly_recordExp _).regs _ (by decide), (t.ioOnly_recordLoop _).regs _ (by decide)]

theorem ior_record_loop (t : Tile) {q : Nat} (h : q < 0x4B) : t.record.ior q = (t.recordLoop t.recordRep).ior q := by
  rw [record_eq, (t.ioOnly_recordExp _).regs _ (by omega)]

/-! ## The TCR in force -/

/-- The tile with the TCR writes completed that complete before the entry: all that were due for the instruction at SPC have
been, an event is entered after those that complete with it (R289, R311). -/
def tcrDue (t : Tile) (partner : Bool) (tr : Trap) : Tile := if tr.tcrDone then t else t.tcrStep partner

/-- A step of the TCR writes on their way reaches TCR and those writes. -/
theorem tcrStep_frame (t : Tile) (partner : Bool) :
    t.tcrStep partner = { t with io := (t.tcrStep partner).io, tcrQ := (t.tcrStep partner).tcrQ } ∧
      ∀ q, q ≠ 0 → (t.tcrStep partner).ior q = t.ior q := by
  have fold (l : List (Word × Nat)) : IoOnly (fun q => q = 0) t
      (l.foldl (fun (t : Tile) (e : Word × Nat) => t.setTcr partner e.1) t) := by
    induction l using List.reverseRecOn with
    | nil => exact IoOnly.refl _ t
    | append_singleton l e ih =>
      rw [List.foldl_append]
      exact ih.iow _ rfl
  obtain ⟨hrest, hregs⟩ := fold (t.tcrQ.filter (fun e => e.2 ≤ 1))
  refine ⟨?_, hregs⟩
  unfold tcrStep
  dsimp only
  rw [hrest]

theorem tcrDue_frame (t : Tile) (partner : Bool) (tr : Trap) :
    t.tcrDue partner tr = { t with io := (t.tcrDue partner tr).io, tcrQ := (t.tcrDue partner tr).tcrQ } ∧
      ∀ q, q ≠ 0 → (t.tcrDue partner tr).ior q = t.ior q := by
  unfold tcrDue
  split
  · exact ⟨rfl, fun _ _ => rfl⟩
  · exact t.tcrStep_frame partner

/-! ## The registers that an entry writes -/

theorem ioOnly_clearPend (t : Tile) (tr : Trap) : IoOnly (fun q => q = 7) t (t.clearPend tr) := by
  have h := IoOnly.refl (fun q => q = 7) t
  unfold clearPend
  repeat' split
  · exact h
  · exact (h.iowf _ _ _ rfl).iowf _ _ _ rfl
  · exact h.iowf _ _ _ rfl
  · exact h.iowf _ _ _ rfl
  · exact h.iowf _ _ _ rfl
  · exact h

/-- The pending bit of an event goes (R311). -/
theorem clearPend_bit (t : Tile) {tr : Trap} (hsoft : tr.soft = false) :
    ∀ x ∈ [(0x0A, 2), (0x09, 3), (0x10, 0), (0x11, 1)], tr.code = x.1 → bitOf ((t.clearPend tr).ior 0x07) x.2 = false := by
  have cleared (u : Tile) (i : Nat) (hi : i < 36) : bitOf ((u.iowf 7 i i 0).ior 7) i = false := by
    rw [ior_iowf, if_pos rfl]
    exact bitOf_putFld_natB _ false hi
  intro x hx hcode
  unfold clearPend
  rw [hsoft, if_neg Bool.false_ne_true, hcode]
  simp only [List.mem_cons, List.not_mem_nil, or_false] at hx
  rcases hx with rfl | rfl | rfl | rfl
  · simp only [if_true]
    rw [ior_iowf, if_pos rfl, bitOf_putFld_apart _ _ (.inl (by decide))]
    exact cleared t 2 (by decide)
  · exact cleared t 3 (by decide)
  · exact cleared t 0 (by decide)
  · exact cleared t 1 (by decide)

/-- The registers as an entry leaves them: what was in progress recorded, SPC, SST, STCR, SINFO and SPTCR saved, TCR new, the
pending bit gone, NTRAP counted (R311). -/
def entryRegs (u : Tile) (tr : Trap) (sst stcr info new : Word) : Tile :=
  let t1 := (((u.record.iow 0x01 (wd (tr.spc % 65536))).iow 0x02 sst).iow 0x03 stcr).iow 0x05 info
  let t2 := match u.tcrQ.getLast? with
    | some e => t1.iow 0x04 e.1
    | none => t1
  ((t2.iow 0 new).clearPend tr).bump 0x09 35 18 1

section
variable (u : Tile) (tr : Trap) (sst stcr info new : Word)

/-- Before TCR is written anew and the event's bit goes. -/
theorem ior_entryRegs {q : Nat} (h0 : q ≠ 0) (h7 : q ≠ 7) (h9 : q ≠ 9) :
    (u.entryRegs tr sst stcr info new).ior q =
      if q = 4 ∧ u.tcrQ.getLast?.isSome then (u.tcrQ.getLast?.map Prod.fst).getD 0
      else if q = 5 then info else if q = 3 then stcr else if q = 2 then sst
      else if q = 1 then wd (tr.spc % 65536) else u.record.ior q := by
  unfold entryRegs
  extract_lets t1 t2
  rw [ior_bump, if_neg h9, (ioOnly_clearPend _ tr).regs _ h7, ior_iow, if_neg h0]
  have h1 : t1.ior q = if q = 5 then info else if q = 3 then stcr else if q = 2 then sst
      else if q = 1 then wd (tr.spc % 65536) else u.record.ior q := by
    simp only [t1, ior_iow]
  rw [← h1]
  unfold t2
  cases u.tcrQ.getLast? with
  | none => simp
  | some e => simp [ior_iow]

theorem ior_entryRegs_record {q : Nat} (h : 0x48 ≤ q) : (u.entryRegs tr sst stcr info new).ior q = u.record.ior q := by
  rw [ior_entryRegs _ _ _ _ _ _ (by omega) (by omega) (by omega), if_neg (by omega), if_neg (by omega), if_neg (by omega),
    if_neg (by omega), if_neg (by omega)]

theorem ior_entryRegs_tcr : (u.entryRegs tr sst stcr info new).ior 0 = new := by
  unfold entryRegs
  extract_lets t1 t2
  rw [ior_bump, if_neg (by decide), (ioOnly_clearPend _ tr).regs _ (by decide), ior_iow_self]

theorem entryRegs_bit (hsoft : tr.soft = false) :
    ∀ x ∈ [(0x0A, 2), (0x09, 3), (0x10, 0), (0x11, 1)], tr.code = x.1 →
      bitOf ((u.entryRegs tr sst stcr info new).ior 0x07) x.2 = false := by
  unfold entryRegs
  extract_lets t1 t2
  rw [ior_bump, if_neg (by decide)]
  exact clearPend_bit _ hsoft

theorem ioOnly_entryRegs : IoOnly (fun q => q < 10 ∨ 0x48 ≤ q) u (u.entryRegs tr sst stcr info new) := by
  have h : IoOnly (fun q => q < 10 ∨ 0x48 ≤ q) u u.record :=
    ⟨u.ioOnly_record.rest, fun q hq => u.ioOnly_record.regs q (by omega)⟩
  unfold entryRegs
  extract_lets t1 t2
  have h1 : IoOnly (fun q => q < 10 ∨ 0x48 ≤ q) u t1 :=
    (((h.iow _ (by decide)).iow _ (by decide)).iow _ (by decide)).iow _ (by decide)
  have h2 : IoOnly (fun q => q < 10 ∨ 0x48 ≤ q) u t2 := by
    unfold t2
    split
    · exact h1.iow _ (by decide)
    · exact h1
  obtain ⟨hrest, hregs⟩ := (h2.iow (k := 0) new (by decide)).trans (ioOnly_clearPend _ tr)
  exact IoOnly.iow ⟨hrest, fun q hq => hregs q (by omega)⟩ _ (by decide)

/-- NTRAP counts, saturating. -/
theorem iof_entryRegs_ntrap : (u.entryRegs tr sst stcr info new).iof 0x09 35 18 = min (2 ^ 18 - 1) (u.iof 0x09 35 18 + 1) := by
  have hkept : ((u.record).ior 9) = u.ior 9 := u.ioOnly_record.regs 9 (by decide)
  unfold entryRegs
  extract_lets t1 t2
  have h2 : t2.ior 9 = u.ior 9 := by
    rw [← hkept]
    unfold t2
    cases u.tcrQ.getLast? <;> simp [t1, ior_iow]
  have h3 : ((t2.iow 0 new).clearPend tr).iof 9 35 18 = u.iof 9 35 18 := by
    rw [iof, (ioOnly_clearPend _ tr).regs _ (by decide), ior_iow, if_neg (by decide), h2, iof]
  rw [iof, ior_bump, if_pos rfl, fld_putFld_self _ _ (by decide), h3, Nat.mod_eq_of_lt (satAdd_lt _ _ _), satAdd, Nat.min_comm]

end

/-! ## The tile that runs on at the vector -/

/-- TCR as an entry leaves it: service, or delegated pilot, with IE cleared (R311). -/
def entryTcr (stcr : Word) (dlg : Bool) : Word := putFld (putFld (putFld stcr 0 0 0) 1 1 (natB dlg)) 3 3 0

theorem bitOf_entryTcr (stcr : Word) (dlg : Bool) : bitOf (entryTcr stcr dlg) 0 = false ∧
    bitOf (entryTcr stcr dlg) 1 = dlg ∧ bitOf (entryTcr stcr dlg) 3 = false := by
  unfold entryTcr
  refine ⟨?_, ?_, bitOf_putFld_natB _ false (by decide)⟩
  · rw [bitOf_putFld_apart _ _ (.inl (by decide)), bitOf_putFld_apart _ _ (.inl (by decide))]
    exact bitOf_putFld_natB _ false (by decide)
  · rw [bitOf_putFld_apart _ _ (.inl (by decide)), bitOf_putFld_natB _ _ (by decide)]

/-- A bit of TCR beside RIG shows as it is. -/
theorem bitOf_tcrShow (partner : Bool) (w : Word) {i : Nat} (h : i ≠ 7) : bitOf (tcrShow partner w) i = bitOf w i := by
  unfold tcrShow
  split
  · rfl
  · exact bitOf_putFld_apart _ _ (by omega)

theorem vectorOf_tcrShow (partner : Bool) (w : Word) (dlg : Bool) (code : Nat) :
    vectorOf (tcrShow partner w) dlg code = vectorOf w dlg code := by
  have hbase : fld (tcrShow partner w) 13 8 = fld w 13 8 := by
    unfold tcrShow
    split
    · rfl
    · exact fld_putFld_apart _ _ (.inr (by decide))
  rw [vectorOf, vectorOf, hbase]

/-- Does the entry of a code go to delegated pilot (R311)? -/
def toPilot (u : Tile) (code : Nat) : Bool := bitOf u.tcr 0 && bitOf u.tcr 2 && delegable code

/-- TILE_SST as an entry saves it (Table 7.2). -/
def entrySst (u : Tile) (tr : Trap) : Word :=
  wd ((u.sk 0x32).toNat + 16 * (tr.code % 32) + 512 * (tr.lane % 8) + 4096 * natB tr.lv +
    8192 * natB tr.soft + 16384 * natB (u.phase == .wait) + 32768 * natB (u.tcrQ.getLast?).isSome +
    65536 * natB (bitOf u.tcr 0) + 131072 * natB (bitOf u.tcr 1 && !(bitOf u.tcr 0)))

/-- The registers of the tile u, its due TCR writes completed, once it has entered the handler of tr. -/
def entered (u : Tile) (partner : Bool) (tr : Trap) (info : Word) : Tile :=
  u.entryRegs tr (u.entrySst tr) (tcrShow partner u.tcr) info (entryTcr (tcrShow partner u.tcr) (u.toPilot tr.code))

/-- The entry of a handler: registers, then cycles, then nothing in progress and the tile at the vector. -/
theorem enter_eq (t : Tile) (partner : Bool) (tr : Trap) : ∃ cost, t.enter partner tr =
    { (((t.tcrDue partner tr).entered partner tr (t.sinfo tr)).chargeCyc cost).quiet with
        clk := t.clk + cost, pc := vectorOf (t.tcrDue partner tr).tcr ((t.tcrDue partner tr).toPilot tr.code) tr.code,
        tcrQ := [], soft := none, raised := none, phase := .run, atVec := some tr.code } := by
  have hphase : (t.tcrDue partner tr).phase = t.phase := by rw [(t.tcrDue_frame partner tr).1]
  unfold entered toPilot entrySst
  rw [hphase, ← vectorOf_tcrShow partner, ← bitOf_tcrShow partner _ (show 0 ≠ 7 by decide),
    ← bitOf_tcrShow partner _ (show 1 ≠ 7 by decide), ← bitOf_tcrShow partner _ (show 2 ≠ 7 by decide)]
  exact ⟨_, rfl⟩


/-- The registers beside those of the memories are as the entry wrote them. -/
theorem ior_enter (t : Tile) (partner : Bool) (tr : Trap) {q : Nat} (h : q < 0x11 ∨ 0x1B < q) :
    (t.enter partner tr).ior q = ((t.tcrDue partner tr).entered partner tr (t.sinfo tr)).ior q := by
  obtain ⟨cost, e⟩ := t.enter_eq partner tr
  rw [e]
  generalize (t.tcrDue partner tr).entered partner tr (t.sinfo tr) = u
  have hcharge : (u.chargeCyc cost).ior q = u.ior q := by rw [chargeCyc_rest]; rfl
  exact ((u.chargeCyc cost).memOnly_bcpFlush.regs q h).trans hcharge

/-- No granule changes but for a word that a bcopy still held. -/
theorem gran_enter (t : Tile) (partner : Bool) (tr : Trap) : (t.enter partner tr).gran = t.bcpFlush.gran := by
  obtain ⟨cost, e⟩ := t.enter_eq partner tr
  obtain ⟨hrest, hregs⟩ := t.tcrDue_frame partner tr
  have hio : IoOnly (fun q => q < 10 ∨ 0x48 ≤ q) (t.tcrDue partner tr)
      ((t.tcrDue partner tr).entered partner tr (t.sinfo tr)) := ioOnly_entryRegs ..
  rw [e]
  generalize (t.tcrDue partner tr).entered partner tr (t.sinfo tr) = v at hio
  generalize t.tcrDue partner tr = u at hrest hregs hio
  have hv : v = { t with io := v.io, tcrQ := v.tcrQ } := by rw [hio.rest, hrest]
  have hcharge : v.chargeCyc cost = { v with
      sock := (v.chargeCyc cost).sock, used := (v.chargeCyc cost).used, evCyc := (v.chargeCyc cost).evCyc,
      evq := (v.chargeCyc cost).evq } := chargeCyc_rest v cost
  have alike : MemAlike t (v.chargeCyc cost) := by
    rw [hcharge, hv]
    refine ⟨rfl, rfl, rfl, fun q h1 h2 => ?_⟩
    exact (hio.regs q (by omega)).trans (hregs q (by omega))
  exact alike.gran_bcpFlush (by rw [hcharge, hv])

/-- The tile runs at the vector, with nothing in progress and nothing raised. -/
theorem enter_runs (t : Tile) (partner : Bool) (tr : Trap) :
    (t.enter partner tr).raised = none ∧ (t.enter partner tr).tcrQ = [] ∧ (t.enter partner tr).loop = none ∧
      (t.enter partner tr).rep = none ∧ (t.enter partner tr).exp = none ∧
      (t.enter partner tr).pc =
        vectorOf (t.tcrDue partner tr).tcr ((t.tcrDue partner tr).toPilot tr.code) tr.code ∧
      (t.enter partner tr).phase = .run := by
  obtain ⟨cost, e⟩ := t.enter_eq partner tr
  rw [e]
  exact ⟨rfl, rfl, rfl, rfl, rfl, rfl, rfl⟩

/-- The TCR of the handler. -/
theorem tcr_enter (t : Tile) (partner : Bool) (tr : Trap) : (t.enter partner tr).p1 = false ∧
    bitOf (t.enter partner tr).tcr 3 = false ∧
    bitOf (t.enter partner tr).tcr 1 = (t.tcrDue partner tr).toPilot tr.code := by
  have h : (t.enter partner tr).tcr =
      entryTcr (tcrShow partner (t.tcrDue partner tr).tcr) ((t.tcrDue partner tr).toPilot tr.code) :=
    (t.ior_enter partner tr (.inl (by decide))).trans (ior_entryRegs_tcr ..)
  obtain ⟨h0, h1, h3⟩ := bitOf_entryTcr (tcrShow partner (t.tcrDue partner tr).tcr) ((t.tcrDue partner tr).toPilot tr.code)
  rw [p1, h]
  exact ⟨h0, h3, h1⟩

/-- The repetition recorded (R162). -/
theorem record_rep (u : Tile) : (∀ n, u.rep = some n → u.record.ior 0x48 = wd (n % 2 ^ 18 + 2 ^ 18)) ∧
    (u.rep = none → u.rsmRep = none → bitOf (u.record.ior 0x48) 18 = false) := by
  refine ⟨fun n hn => ?_, fun hrep hrsm => ?_⟩
  · rw [ior_record_rep, recordRep, hn]
    exact ior_iow_self ..
  · rw [ior_record_rep, recordRep, hrep, hrsm]
    exact (congrArg (bitOf · 18) ((ior_iowf ..).trans (if_pos rfl))).trans (bitOf_putFld_natB _ false (by decide))

/-- The loop recorded (R163). -/
theorem record_loop (u : Tile) :
    (∀ l, u.loop = some l → u.record.ior 0x4A = wd l.lrem ∧
      u.record.ior 0x49 = wd (l.start + 2 ^ 16 * l.nb + 2 ^ 24 * l.idx + 2 ^ 32)) ∧
    (u.loop = none → bitOf (u.record.ior 0x49) 32 = false) := by
  refine ⟨fun l hl => ?_, fun hl => ?_⟩
  · rw [ior_record_loop u (by decide), ior_record_loop u (by decide), recordLoop, hl]
    exact ⟨ior_iow_self .., ((ior_iow ..).trans (if_neg (by decide))).trans (ior_iow_self ..)⟩
  · rw [ior_record_loop u (by decide), recordLoop, hl]
    exact (congrArg (bitOf · 32) ((ior_iowf ..).trans (if_pos rfl))).trans (bitOf_putFld_natB _ false (by decide))

/-- The expansion recorded (R163). -/
theorem record_exp (u : Tile) :
    (∀ x, u.exp = some x → u.record.ior 0x4B = wd (x.mix + 16 * x.entry + 1024) ∧
      ∀ i, i < 8 → u.record.ior (0x50 + i) = u.sk (0xD8 + i)) ∧
    (u.exp = none → u.rsmMc = none → bitOf (u.record.ior 0x4B) 10 = false) := by
  rw [record_eq]
  generalize u.recordLoop u.recordRep = v
  refine ⟨fun x hx => ?_, fun hexp hmc => ?_⟩
  · rw [recordExp, hx]
    obtain ⟨hregs, hops⟩ := u.recordOps_spec (v.iow 0x4B (wd (x.mix + 16 * x.entry + 1024))) 8
    exact ⟨(hregs.regs 0x4B (by decide)).trans (ior_iow_self ..), hops⟩
  · rw [recordExp, hexp, hmc]
    exact (congrArg (bitOf · 10) ((ior_iowf ..).trans (if_pos rfl))).trans (bitOf_putFld_natB _ false (by decide))

/-- What the entry saves in the registers of the trap, NTRAP counted and the event's pending bit gone (R311). -/
theorem enter_saves (t : Tile) (partner : Bool) (tr : Trap) {u : Tile} (hu : u = t.tcrDue partner tr) :
    (t.enter partner tr).ior 0x01 = wd (tr.spc % 65536) ∧ (t.enter partner tr).ior 0x02 = u.entrySst tr ∧
      (t.enter partner tr).ior 0x03 = tcrShow partner u.tcr ∧
      (∀ e, u.tcrQ.getLast? = some e → (t.enter partner tr).ior 0x04 = e.1) ∧
      (t.enter partner tr).ior 0x05 = t.sinfo tr ∧
      (t.enter partner tr).iof 0x09 35 18 = min (2 ^ 18 - 1) (t.iof 0x09 35 18 + 1) ∧
      ∀ x ∈ [(0x0A, 2), (0x09, 3), (0x10, 0), (0x11, 1)], tr.soft = false → tr.code = x.1 →
        bitOf ((t.enter partner tr).ior 0x07) x.2 = false := by
  have hior {q : Nat} (h : q < 0x11) : (t.enter partner tr).ior q = (u.entered partner tr (t.sinfo tr)).ior q := by
    rw [hu]
    exact t.ior_enter partner tr (.inl h)
  have saved {q : Nat} (h : 0 < q ∧ q < 6) :=
    (hior (q := q) (by omega)).trans (ior_entryRegs u tr _ _ _ _ (by omega) (by omega) (by omega))
  refine ⟨saved (q := 1) (by decide), saved (q := 2) (by decide), saved (q := 3) (by decide), fun e he => ?_,
    saved (q := 5) (by decide), ?_, fun x hx hsoft hcode => ?_⟩
  · have h := saved (q := 4) (by decide)
    rw [he] at h
    exact h
  · have hcount : u.iof 9 35 18 = t.iof 9 35 18 := by
      rw [hu, iof, (t.tcrDue_frame partner tr).2 9 (by decide), iof]
    rw [iof, hior (by decide), ← hcount]
    exact iof_entryRegs_ntrap ..
  · rw [hior (by decide)]
    exact entryRegs_bit u tr _ _ _ _ hsoft x hx hcode

/-- What the entry records of the repetition, loop and expansion in progress (R162, R163). -/
theorem enter_records (t : Tile) (partner : Bool) (tr : Trap) :
    ((∀ n, t.rep = some n → (t.enter partner tr).ior 0x48 = wd (n % 2 ^ 18 + 2 ^ 18)) ∧
      (t.rep = none → t.rsmRep = none → bitOf ((t.enter partner tr).ior 0x48) 18 = false)) ∧
    ((∀ l, t.loop = some l → (t.enter partner tr).ior 0x4A = wd l.lrem ∧
        (t.enter partner tr).ior 0x49 = wd (l.start + 2 ^ 16 * l.nb + 2 ^ 24 * l.idx + 2 ^ 32)) ∧
      (t.loop = none → bitOf ((t.enter partner tr).ior 0x49) 32 = false)) ∧
    (∀ x, t.exp = some x → (t.enter partner tr).ior 0x4B = wd (x.mix + 16 * x.entry + 1024) ∧
      ∀ i, i < 8 → (t.enter partner tr).ior (0x50 + i) = t.sk (0xD8 + i)) ∧
    (t.exp = none → t.rsmMc = none → bitOf ((t.enter partner tr).ior 0x4B) 10 = false) := by
  have hior {q : Nat} (h : 0x48 ≤ q) : (t.enter partner tr).ior q = (t.tcrDue partner tr).record.ior q :=
    (t.ior_enter partner tr (.inr (by omega))).trans (ior_entryRegs_record _ _ _ _ _ _ h)
  have hrest := (t.tcrDue_frame partner tr).1
  have hrep := (t.tcrDue partner tr).record_rep
  have hloop := (t.tcrDue partner tr).record_loop
  have hexp := (t.tcrDue partner tr).record_exp
  generalize t.tcrDue partner tr = u at *
  have hsk (q : Nat) : u.sk q = t.sk q := by rw [hrest]; rfl
  have e1 : u.rep = t.rep := by rw [hrest]
  have e2 : u.rsmRep = t.rsmRep := by rw [hrest]
  have e3 : u.loop = t.loop := by rw [hrest]
  have e4 : u.exp = t.exp := by rw [hrest]
  have e5 : u.rsmMc = t.rsmMc := by rw [hrest]
  rw [e1, e2] at hrep
  rw [e3] at hloop
  simp only [e4, e5, hsk] at hexp
  have hops (i : Nat) := hior (q := 0x50 + i) (by omega)
  simp only [hior (Nat.le_refl _), hior (show 0x48 ≤ 0x49 by decide), hior (show 0x48 ≤ 0x4A by decide),
    hior (show 0x48 ≤ 0x4B by decide), hops]
  exact ⟨hrep, hloop, hexp⟩

end Tile

/-- TRAP_ENTRY of a tile that is not retired, with a trap raised. -/
theorem State.trapEntry_of_raised {s : State} {d p : Nat} {r : Trap} (hclock : s.clocked d p = true)
    (hr : (s.tile d p).raised = some r) :
    s.trapEntry d p = s.setTile d p ((s.tile d p).enter (s.partner d p).isSome r) := by
  unfold State.trapEntry
  simp only [hr, hclock]
  rfl

end Sys2Proof.Machine
end

section
namespace Sys2Proof.Machine

/-- Settles O21: the command puts back its own tile, as the entry leaves its registers, its record and its memories. -/
theorem trapEntrySaves : Obligations.TrapEntrySaves := by
  intro s d p r u hheld hd hp hclock hr hu
  have hdue : u = (s.tile d p).tcrDue (s.partner d p).isSome r := hu
  obtain ⟨hspc, hsst, hstcr, hsptcr, hinfo, hcount, hpend⟩ := (s.tile d p).enter_saves (s.partner d p).isSome r hdue
  obtain ⟨⟨hrep, hnoRep⟩, ⟨hloop, hnoLoop⟩, hexp, hnoExp⟩ := (s.tile d p).enter_records (s.partner d p).isSome r
  obtain ⟨hp1, hie, hdlg⟩ := (s.tile d p).tcr_enter (s.partner d p).isSome r
  obtain ⟨hraised, hq, hloop0, hrep0, hexp0, hpc, hphase⟩ := (s.tile d p).enter_runs (s.partner d p).isSome r
  rw [← hdue] at hdlg hpc
  refine ⟨_, exec_ownCommand (fun _ => rfl) hheld hd hp (State.trapEntry_of_raised hclock hr), s.setTile_tileOnly d p _, ?_⟩
  rw [State.tile_of_keepQueue, State.tile_setTile_self]
  exact ⟨hraised, hspc, hsst, hstcr, hsptcr, hinfo, hcount, hpend, hrep, hnoRep, hloop, hnoLoop, hexp, hnoExp, hp1, hie, hdlg,
    hq, hloop0, hrep0, hexp0, hpc, hphase, (s.tile d p).gran_enter (s.partner d p).isSome r⟩

end Sys2Proof.Machine
end

section
/-!
SUPPORT. Bytes of an instruction that decodes are there, and the fetch of granules that can be read stores nothing (R321, R344).
-/
namespace Sys2Proof.Machine

/-! ## The bytes that decoding reads -/

/-- Every byte from p up to q can be fetched. -/
def Fetches (f : Nat → Option Nat) (p q : Nat) : Prop := ∀ a, p ≤ a → a < q → (f a).isSome = true

namespace Fetches
variable {f : Nat → Option Nat} {p q r : Nat}

theorem nil (f : Nat → Option Nat) (p : Nat) : Fetches f p p := fun a h1 h2 => absurd h1 (by omega)

theorem append (h : Fetches f p q) (k : Fetches f q r) : Fetches f p r := fun a h1 h2 => by
  by_cases ha : a < q
  · exact h a h1 ha
  · exact k a (by omega) h2

end Fetches

theorem byteOf_fetches {f : Nat → Option Nat} {p b : Nat} (h : byteOf f p = .ok b) : Fetches f p (p + 1) := fun a h1 h2 => by
  rw [show a = p by omega, byteOf_ok h]
  rfl

theorem bytesOf_fetches {f : Nat → Option Nat} {n p v : Nat} (h : bytesOf f n p = .ok v) : Fetches f p (p + n) := by
  induction n generalizing p v with
  | zero => exact Fetches.nil f p
  | succ n ih =>
    obtain ⟨b, hb, h⟩ := except_bind_ok h
    obtain ⟨r, hr, -⟩ := except_bind_ok h
    have := (byteOf_fetches hb).append (ih hr)
    rwa [Nat.add_assoc, Nat.add_comm 1 n] at this

/-- The lead byte is of a bundle or of the macros, whose opcode and operand bytes are there. -/
theorem leadOf_fetches {f : Nat → Option Nat} {nops : Nat → Nat} {sl inBody : Bool} {rep : RepPre} {p first : Nat} {i : Insn}
    (h : leadOf f nops sl rep p first inBody = .ok i) (hbody : ∀ ms, i.body ≠ .bundle ms) :
    Fetches f p i.next := by
  obtain ⟨b, hb, h⟩ := except_bind_ok h
  split at h
  · obtain ⟨x, hx, h⟩ := except_bind_ok h
    cases h
    exact absurd rfl (hbody _)
  split at h
  · obtain ⟨x, hx, h⟩ := except_bind_ok h
    cases h
    exact (byteOf_fetches hb).append (bytesOf_fetches hx)
  split at h <;> cases h

/-- Every byte of an instruction that decodes is there, where it is no bundle: of the macros, or of LOOP. -/
theorem insnOf_fetches {f : Nat → Option Nat} {nops : Nat → Nat} {inBody : Bool} {p : Nat} {i : Insn}
    (h : insnOf f nops inBody p = .ok i) (hbody : ∀ ms, i.body ≠ .bundle ms) : Fetches f p i.next := by
  obtain ⟨b, hb, h⟩ := except_bind_ok h
  have hfirst := byteOf_fetches hb
  have lead {sl : Bool} {rep : RepPre} {a c : Nat} (h : leadOf f nops sl rep a c inBody = .ok i) : Fetches f a i.next :=
    leadOf_fetches h hbody
  split at h
  · obtain ⟨c, hc, h⟩ := except_bind_ok h
    have hsecond := hfirst.append (byteOf_fetches hc)
    split at h
    · obtain ⟨n, hn, h⟩ := except_bind_ok h
      exact (hsecond.append (byteOf_fetches hn)).append (lead h)
    split at h
    · exact hsecond.append (lead h)
    · exact hfirst.append (lead h)
  split at h
  · obtain ⟨n, hn, h⟩ := except_bind_ok h
    exact (hfirst.append (byteOf_fetches hn)).append (lead h)
  split at h
  · exact hfirst.append (lead h)
  split at h
  · obtain ⟨c, hc, h⟩ := except_bind_ok h
    obtain ⟨nb, hnb, h⟩ := except_bind_ok h
    cases h
    exact (hfirst.append (bytesOf_fetches hc)).append (byteOf_fetches hnb)
  split at h
  · obtain ⟨s, hs, h⟩ := except_bind_ok h
    obtain ⟨nb, hnb, h⟩ := except_bind_ok h
    cases h
    exact (hfirst.append (byteOf_fetches hs)).append (byteOf_fetches hnb)
  · exact lead h

/-! ## Reading granules -/

namespace Tile

theorem memOnly_queueWb (t : Tile) (k : Nat) (d : BitVec 72) (a : Option Nat) : MemOnly t (t.queueWb k d a) :=
  ⟨rfl, rfl, rfl, fun _ _ => rfl⟩

theorem memOnly_read (t : Tile) (fn mem idx : Nat) : MemOnly t (t.read fn mem idx).1 := by
  have found (c : Cls3) := t.memOnly_found c fn mem idx (eccSyn (t.gr mem idx))
  unfold read
  dsimp only
  generalize eccClass (memCode mem) (t.gr mem idx) = x
  obtain ⟨c, d⟩ := x
  cases c <;> dsimp only
  case clean => exact MemOnly.refl t
  case corrected => exact (found _).trans (memOnly_queueWb ..)
  case poisoned => exact found _
  case uncorrectable => exact (found _).trans (memOnly_store ..)

/-- Granule idx of a memory can be read: it is clean, or its error is corrected (R341). -/
def Readable (t : Tile) (mem idx : Nat) : Prop :=
  (eccClass (memCode mem) (t.gr mem idx)).1 = .clean ∨ (eccClass (memCode mem) (t.gr mem idx)).1 = .corrected

/-- A read of a granule that can be read stores nothing (R344, R345). -/
theorem gran_read {t : Tile} {mem idx : Nat} (fn : Nat) (h : t.Readable mem idx) : (t.read fn mem idx).1.gran = t.gran := by
  unfold Readable at h
  unfold read
  dsimp only
  generalize eccClass (memCode mem) (t.gr mem idx) = x at h
  obtain ⟨c, d⟩ := x
  rcases h with h | h <;> cases h <;> dsimp only
  · exact (gran_queueWb ..).trans (gran_found ..)

/-- The memories and the banks in force decide what a granule holds. -/
theorem gr_congr {t u : Tile} (hgran : u.gran = t.gran) (hmem : MemOnly t u) (mem idx : Nat) : u.gr mem idx = t.gr mem idx := by
  rw [gr, gr, gkey, gkey, hgran, hmem.half, hmem.bank]

/-- A fetch reaches the memories' findings only, and stores nothing where every granule can be read. -/
theorem fetchFx_spec (t : Tile) (mem a b : Nat) : MemOnly t (t.fetchFx mem a b) ∧
    ((∀ k, a / 8 ≤ k → k ≤ b / 8 → t.Readable mem k) → (t.fetchFx mem a b).gran = t.gran) := by
  have fold (l : List Nat) (u : Tile) :
      MemOnly u (l.foldl (fun (t : Tile) j => (t.read 2 mem (a / 8 + j)).1) u) ∧
        ((∀ j ∈ l, u.Readable mem (a / 8 + j)) →
          (l.foldl (fun (t : Tile) j => (t.read 2 mem (a / 8 + j)).1) u).gran = u.gran) := by
    induction l generalizing u with
    | nil => exact ⟨MemOnly.refl u, fun _ => rfl⟩
    | cons j l ih =>
      obtain ⟨hmem, hgran⟩ := ih (u.read 2 mem (a / 8 + j)).1
      have hread := u.memOnly_read 2 mem (a / 8 + j)
      refine ⟨hread.trans hmem, fun hl => ?_⟩
      have hsame := gran_read 2 (hl j (by simp))
      refine (hgran fun k hk => ?_).trans hsame
      have := hl k (by simp [hk])
      unfold Readable at this ⊢
      rwa [gr_congr hsame hread]
  obtain ⟨hmem, hgran⟩ := fold (List.range (b / 8 + 1 - a / 8)) t
  exact ⟨hmem, fun h => hgran fun j hj => by rw [List.mem_range] at hj; exact h _ (by omega) (by omega)⟩

/-- A byte that can be fetched lies in a granule that can be read. -/
theorem readable_of_peekByte {t : Tile} {mem a : Nat} (hmem : memCode mem = true) (h : (t.peekByte mem a).isSome = true) :
    t.Readable mem (a / 8) := by
  unfold peekByte at h
  unfold Readable
  rw [hmem]
  generalize eccClass true (t.gr mem (a / 8)) = x at h ⊢
  obtain ⟨c, d⟩ := x
  cases c with
  | clean => exact .inl rfl
  | corrected => exact .inr rfl
  | poisoned => cases h
  | uncorrectable => cases h

/-- With no bytes held and no loop, an instruction comes from instruction memory. -/
theorem insByte_memory {t : Tile} (hhold : t.hold = none) (hloop : t.loop = none) {lvl a : Nat}
    (h : (t.insByte lvl a).isSome = true) : (t.peekByte 2 a).isSome = true := by
  unfold insByte inBuffer at h
  rw [hhold, hloop] at h
  split at h
  · exact h
  · cases h

/-- Outside a loop all of an instruction issues from memory. -/
theorem fromMem_of_no_loop {t : Tile} (hloop : t.loop = none) (nxt : Nat) : t.fromMem nxt = t.pc := by
  unfold fromMem inBuffer
  rw [hloop]

theorem memOnly_fetchIns (t : Tile) (nxt : Nat) : MemOnly t (t.fetchIns nxt) := by
  unfold fetchIns
  split
  · exact MemOnly.refl t
  · exact (t.fetchFx_spec ..).1

/-- The fetch of an instruction whose bytes are there stores nothing. -/
theorem gran_fetchIns {t : Tile} (hloop : t.loop = none) {nxt : Nat} (h : Fetches (t.peekByte 2) t.pc nxt) :
    (t.fetchIns nxt).gran = t.gran := by
  unfold fetchIns
  rw [fromMem_of_no_loop hloop]
  split
  · rfl
  · next hc =>
    refine (t.fetchFx_spec 2 t.pc (nxt - 1)).2 fun k h1 h2 => ?_
    have hbyte := readable_of_peekByte (t := t) rfl (h (max t.pc (8 * k)) (by omega) (by omega))
    rwa [show max t.pc (8 * k) / 8 = k by omega] at hbyte

/-- The bytes of an instruction other than a bundle that decodes outside a loop are in instruction memory. -/
theorem insn_fetches {t : Tile} {lvl : Nat} {i : Insn} (hhold : t.hold = none) (hloop : t.loop = none)
    (h : t.insn lvl = .ok i) (hbody : ∀ ms, i.body ≠ .bundle ms) : Fetches (t.peekByte 2) t.pc i.next :=
  fun a h1 h2 => insByte_memory hhold hloop (insnOf_fetches h hbody a h1 h2)

/-! ## Code memories stand while buffered stores retire -/

theorem code_sbRetire (t : Tile) {k : Nat} (h : 0x8000 ≤ k ∧ k < 0x10000) :
    SMap.get (fun _ => 0) t.sbRetire.gran k = SMap.get (fun _ => 0) t.gran k := by
  unfold sbRetire
  cases t.sb with
  | nil => rfl
  | cons e r =>
    have hk := t.gkey_dataGran (2 * e.gran)
    exact gran_write_of_ne _ _ _ (by change k ≠ t.gkey _ _; omega)

theorem code_sbUntil (t : Tile) (c n : Nat) {k : Nat} (h : 0x8000 ≤ k ∧ k < 0x10000) :
    SMap.get (fun _ => 0) (sbUntil c n t).gran k = SMap.get (fun _ => 0) t.gran k := by
  induction n generalizing t with
  | zero => rfl
  | succ n ih =>
    unfold sbUntil
    split
    · split
      · exact (ih _).trans (t.code_sbRetire h)
      · rfl
    · rfl

/-- A byte of instruction memory, as a bundle that issues at cycle c finds it. -/
theorem peekByte_atIssue (t : Tile) (c : Nat) {a : Nat} (h : a < 0x10000) : (t.atIssue c).peekByte 2 a = t.peekByte 2 a := by
  have hmem := t.issuing.memOnly_sbAt c
  have hkey := t.issuing.gkey_instr (k := a / 8) (by omega)
  have hgr : (t.atIssue c).gr 2 (a / 8) = t.gr 2 (a / 8) := by
    have hsame : (t.issuing.sbAt c).gkey 2 (a / 8) = t.issuing.gkey 2 (a / 8) := by rw [gkey, gkey, hmem.half, hmem.bank]
    calc (t.issuing.sbAt c).gr 2 (a / 8) = t.issuing.gr 2 (a / 8) := by rw [gr, hsame]; exact t.issuing.code_sbUntil c _ hkey
      _ = t.gr 2 (a / 8) := t.gr_issuing (t.gkey_instr (by omega))
  rw [peekByte, peekByte, hgr]

end Tile
end Sys2Proof.Machine
end

section
/-!
SUPPORT. REP, LOOP, SEAL and the macros begin, on a tile that issues plainly (R143 to R155, R184).
-/
namespace Sys2Proof.Machine

namespace Tile

/-- With no TCR write on its way none completes. -/
theorem tcrStep_of_nil {t : Tile} (h : t.tcrQ = []) (partner : Bool) : t.tcrStep partner = t := by
  unfold tcrStep
  simp only [h, List.filter_nil, List.foldl_nil, List.map_nil]
  rw [← h]

/-- LOOP begun: the tile at the body's first address, in its loop, with no byte kept of the instruction before it. -/
theorem loopBegin_spec (t : Tile) (start nb count : Nat) :
    t.loopBegin start nb count = { t with
      pc := start, fetched := false, sealRun := 0, rsmRep := none, rsmMc := none, atVec := none, hold := none, waited := 0,
      lcap := (t.loopBegin start nb count).lcap, loop := (t.loopBegin start nb count).loop } ∧
    ∃ l, (t.loopBegin start nb count).loop = some l ∧ l.start = start ∧ l.nb = nb ∧ l.idx = 0 ∧ l.lrem = count ∧
      l.dry = decide (count = 0) := ⟨rfl, _, rfl, rfl, rfl, rfl, rfl, rfl⟩

/-! ## REP.s with a count of 0 (R150) -/

/-- The tile that has skipped an instruction whose repetition count is 0. -/
def skipped (t : Tile) (nxt : Nat) : Tile :=
  { (t.fetchIns nxt).pass (1 + t.patchStall) with patched := false, rsmRep := none, rsmMc := none }.insnEnd nxt

theorem skipped_spec {t : Tile} (hrep : t.rep = none) (hloop : t.loop = none) (nxt : Nat) :
    (t.skipped nxt).pc = nxt ∧ (t.skipped nxt).rep = none ∧
      ∀ q, ¬ (0xD0 ≤ q ∧ q < 0xD8) → (t.skipped nxt).sk q = t.sk q := by
  have hfetch := t.memOnly_fetchIns nxt
  have hcharge := (t.fetchIns nxt).chargeCyc_rest (1 + t.patchStall)
  have hrep' : ((t.fetchIns nxt).chargeCyc (1 + t.patchStall)).rep = none := by rw [hcharge, hfetch.rest]; exact hrep
  have hloop' : ((t.fetchIns nxt).chargeCyc (1 + t.patchStall)).loop = none := by rw [hcharge, hfetch.rest]; exact hloop
  unfold skipped pass
  rw [insnEnd_of_none (by exact hrep') (by exact hloop')]
  exact ⟨rfl, hrep', fun q hq => ((t.fetchIns nxt).sk_chargeCyc _ (by omega)).trans (hfetch.sk q)⟩

/-! ## LOOP.i (R152, R154) -/

/-- The loop of a LOOP.i whose bytes are in memory. -/
theorem loopI_spec {t : Tile} (hloop : t.loop = none) {nxt : Nat} (h : Fetches (t.peekByte 2) t.pc nxt) (nb count : Nat) :
    ((t.fetchIns nxt).loopBegin nxt nb count).pc = nxt ∧ ((t.fetchIns nxt).loopBegin nxt nb count).clk = t.clk ∧
      ((t.fetchIns nxt).loopBegin nxt nb count).sock = t.sock ∧ ((t.fetchIns nxt).loopBegin nxt nb count).gran = t.gran := by
  rw [((t.fetchIns nxt).loopBegin_spec nxt nb count).1]
  have hrest := (t.memOnly_fetchIns nxt).rest
  refine ⟨rfl, ?_, ?_, gran_fetchIns hloop h⟩
  · change (t.fetchIns nxt).clk = t.clk
    rw [hrest]; rfl
  · change (t.fetchIns nxt).sock = t.sock
    rw [hrest]; rfl

/-! ## LOOP.s (R155) -/

/-- The tile that LOOP.s leaves as it issues at cycle c, its count n. -/
def loopS (t : Tile) (c nxt nb n : Nat) : Tile :=
  ((({ (t.atIssue c).fetchIns nxt with patched := false } : Tile).spend t.clk c 1).loopBegin nxt nb n)

theorem loopS_spec {t : Tile} (hloop : t.loop = none) {nxt : Nat} (h : Fetches (t.peekByte 2) t.pc nxt)
    (hlim : ∀ a, t.pc ≤ a → a < nxt → a < 0x10000)
    (c nb n : Nat) :
    ((t.loopS c nxt nb n).pc = nxt ∧ (t.loopS c nxt nb n).gran = (t.atIssue ((t.loopS c nxt nb n).clk - 1)).gran ∧
      ∀ q, ¬ (0xD0 ≤ q ∧ q < 0xD8) → (t.loopS c nxt nb n).sk q = t.sk q) ∧
    ∃ l, (t.loopS c nxt nb n).loop = some l ∧ l.start = nxt ∧ l.nb = nb ∧ l.idx = 0 ∧ l.lrem = n ∧
      l.dry = decide (n = 0) := by
  have hissue : t.atIssue c = t.issuing.withMem (t.atIssue c) := (t.issuing.memOnly_sbAt c).rest
  have hloop' : (t.atIssue c).loop = none := by rw [hissue, issuing_rest]; exact hloop
  have hpc' : (t.atIssue c).pc = t.pc := by rw [hissue, issuing_rest]; rfl
  have hbytes : Fetches ((t.atIssue c).peekByte 2) (t.atIssue c).pc nxt := fun a h1 h2 => by
    rw [t.peekByte_atIssue c (hlim a (by omega) h2)]
    exact h a (by omega) h2
  have hfetch := (t.atIssue c).memOnly_fetchIns nxt
  have hgran := gran_fetchIns hloop' hbytes
  have hsk (q : Nat) : ((t.atIssue c).fetchIns nxt).sk q = t.sk q :=
    (hfetch.sk q).trans (((t.issuing.memOnly_sbAt c).sk q).trans (t.sk_issuing q))
  unfold loopS
  generalize (t.atIssue c).fetchIns nxt = u at hgran hsk
  have hspend : ∃ w, ({ u with patched := false } : Tile).spend t.clk c 1 = w ∧ w.clk = c + 1 ∧ w.gran = u.gran ∧
      ∀ q, ¬ (0xD0 ≤ q ∧ q < 0xD8) → w.sk q = u.sk q :=
    ⟨_, rfl, rfl, by rw [spend_rest], fun q hq => ({ u with patched := false } : Tile).sk_chargeCyc _ (by omega)⟩
  obtain ⟨w, hw, hclk, hgran', hsk'⟩ := hspend
  obtain ⟨hrest, hloops⟩ := w.loopBegin_spec nxt nb n
  rw [hw]
  refine ⟨?_, hloops⟩
  rw [hrest]
  refine ⟨rfl, ?_, fun q hq => (hsk' q hq).trans (hsk q)⟩
  change w.gran = (t.atIssue (w.clk - 1)).gran
  rw [hclk, hgran', hgran, Nat.add_sub_cancel]

/-! ## Macros (R181 to R184) -/

/-- Where the check of macros finds no trap, the directory entry can be read and passes the checks of R182. -/
theorem macroCheck_none {v : Option Nat} {lvl entry o : Nat} {ops : List Byte} (h : macroCheck v lvl entry o ops = none) :
    ∃ w, v = some w ∧ (dirEntry w).bad = false := by
  unfold macroCheck at h
  split at h
  · cases h
  · next w =>
    refine ⟨w, rfl, ?_⟩
    by_contra hbad
    rw [Bool.not_eq_false] at hbad
    simp [hbad] at h

/-- That check finds none in one that decodes without a trap. -/
theorem macroCheck_of_decodeStop {t : Tile} {lvl entry o : Nat} {r : Bool} {i : Insn} (hbody : i.body = .macro_ entry o)
    (h : t.decodeStop lvl r i = none) :
    macroCheck (t.dirVal entry) lvl entry o (t.opBytes lvl o (t.nops entry)) = none := by
  by_contra hne
  obtain ⟨st, hst⟩ := Option.ne_none_iff_exists'.mp hne
  unfold decodeStop at h
  simp only [hbody, hst] at h
  split at h
  · cases h
  · split_ifs at h

/-- The granule of a directory entry that is read can be read. -/
theorem readable_of_dirVal {t : Tile} {e v : Nat} (h : t.dirVal e = some v) : t.Readable 3 e := by
  unfold dirVal at h
  unfold Readable
  rw [show memCode 3 = true from rfl]
  generalize eccClass true (t.gr 3 e) = x at h ⊢
  obtain ⟨c, d⟩ := x
  cases c with
  | clean => exact .inl rfl
  | corrected => exact .inr rfl
  | poisoned => cases h
  | uncorrectable => cases h

/-- In an entry that R182 lets pass the first operand is not the HI of one before it. -/
theorem kind_zero_of_not_bad {e : DirEntry} (h : e.bad = false) (hn : 0 < e.nops) : e.kind 0 ≠ 3 := by
  intro hk
  unfold DirEntry.bad at h
  simp only [Bool.or_eq_false_iff, List.any_eq_false, List.mem_range] at h
  obtain ⟨⟨-, hany⟩, -⟩ := h
  exact hany 0 hn (by simp [hk])

/-- From t to u nothing changed but sockets that P names. -/
structure SockOnly (P : Nat → Prop) (t u : Tile) : Prop where
  rest : u = { t with sock := u.sock }
  sk : ∀ q, ¬ P q → u.sk q = t.sk q

theorem SockOnly.setSk {P : Nat → Prop} {t u : Tile} (h : SockOnly P t u) {a : Nat} (w : Word) (ha : P a) :
    SockOnly P t (u.setSk a w) where
  rest := (u.setSk_rest a w).trans (congrArg (fun x : Tile => { x with sock := (u.setSk a w).sock }) h.rest)
  sk q hq := (u.sk_setSk_ne w (by rintro rfl; exact hq ha)).trans (h.sk q hq)

/-- The operands set the operand sockets and nothing else (R181). -/
theorem macroOps_sockOnly (t : Tile) {e : DirEntry} (ops : List Byte) (hbad : e.bad = false) (hn : e.nops ≤ 8) :
    SockOnly (fun q => 0xD8 ≤ q ∧ q < 0xE0) t (t.macroOps e ops) := by
  unfold macroOps
  have hlt : ∀ k ∈ List.range e.nops, k < e.nops := fun k hk => List.mem_range.1 hk
  generalize List.range e.nops = l at hlt
  induction l using List.reverseRecOn with
  | nil => exact ⟨rfl, fun _ _ => rfl⟩
  | append_singleton l k ih =>
    have hk := hlt k (by simp)
    have hu := ih fun j hj => hlt j (by simp [hj])
    rw [List.foldl_append]
    dsimp only [List.foldl_cons, List.foldl_nil]
    split
    · exact hu.setSk _ (by omega)
    · exact hu.setSk _ (by omega)
    · next hkind =>
      have : k ≠ 0 := by rintro rfl; exact kind_zero_of_not_bad hbad (by omega) hkind
      exact hu.setSk _ (by omega)
    · exact hu

/-- Outside a loop, with nothing restored, an expansion begins with its findings and its operands. -/
theorem macroBegin_fresh {t : Tile} {lvl entry o v nxt : Nat} (hloop : t.loop = none) (hmc : t.rsmMc = none)
    (hv : t.dirVal entry = some v) : t.macroBegin lvl entry o nxt =
      { ({ (t.fetchIns nxt).fetchFx 3 (8 * entry) (8 * entry) with rsmMc := none, rsmRep := none } : Tile).macroOps
          (dirEntry v) (t.opBytes lvl o (t.nops entry)) with
        exp := some ⟨entry, 0, (dirEntry v).body, t.opBytes lvl o (t.nops entry), true, lvl, o, nxt, v⟩ } := by
  unfold macroBegin
  rw [hmc, hv, capture_of_no_loop hloop]
  rfl

/-- The beginning of an expansion outside a loop, with nothing restored: the expansion at its first body bundle, the
operand sockets set, and nothing stored. -/
theorem macroBegin_spec {t : Tile} {lvl entry o v nxt : Nat} (hloop : t.loop = none) (hmc : t.rsmMc = none)
    (h : Fetches (t.peekByte 2) t.pc nxt) (hv : t.dirVal entry = some v) (hbad : (dirEntry v).bad = false) :
    (t.macroBegin lvl entry o nxt).pc = t.pc ∧ (t.macroBegin lvl entry o nxt).rep = t.rep ∧
      (t.macroBegin lvl entry o nxt).gran = t.gran ∧
      (∀ q, ¬ (0xD8 ≤ q ∧ q < 0xE0) → (t.macroBegin lvl entry o nxt).sk q = t.sk q) ∧
      (t.macroBegin lvl entry o nxt).exp =
        some ⟨entry, 0, (dirEntry v).body, t.opBytes lvl o (t.nops entry), true, lvl, o, nxt, v⟩ := by
  have hfetch := t.memOnly_fetchIns nxt
  have hgran := gran_fetchIns hloop h
  obtain ⟨hdir, hdirGran⟩ := (t.fetchIns nxt).fetchFx_spec 3 (8 * entry) (8 * entry)
  have hread : ∀ k, 8 * entry / 8 ≤ k → k ≤ 8 * entry / 8 → (t.fetchIns nxt).Readable 3 k := fun k h1 h2 => by
    have := readable_of_dirVal hv
    unfold Readable at this ⊢
    rwa [show k = entry by omega, gr_congr hgran hfetch]
  have hmem := hfetch.trans hdir
  have hsame := (hdirGran hread).trans hgran
  have hops := ({ (t.fetchIns nxt).fetchFx 3 (8 * entry) (8 * entry) with rsmMc := none, rsmRep := none } :
    Tile).macroOps_sockOnly (t.opBytes lvl o (t.nops entry)) hbad (by simp only [dirEntry]; omega)
  rw [macroBegin_fresh hloop hmc hv]
  generalize (t.fetchIns nxt).fetchFx 3 (8 * entry) (8 * entry) = f at hmem hsame hops
  generalize Tile.macroOps _ (dirEntry v) (t.opBytes lvl o (t.nops entry)) = u at hops
  have hrest : u = { (t.withMem f) with rsmMc := none, rsmRep := none, sock := u.sock } := by
    rw [← hmem.rest]
    exact hops.rest
  refine ⟨?_, ?_, ?_, fun q hq => (hops.sk q hq).trans (hmem.sk q), rfl⟩
  · change u.pc = t.pc
    rw [hrest]; rfl
  · change u.rep = t.rep
    rw [hrest]; rfl
  · change u.gran = t.gran
    rw [hrest]; exact hsame

end Tile

/-! ## The commands -/

/-- Tile p of die d is to issue the instruction i plainly, has not begun it, and finds no decode trap in it. -/
structure State.BeginsPlain (s : State) (d p : Nat) (i : Insn) : Prop where
  can : s.canIssue d p (s.tile d p) = true
  plain : (s.tile d p).PlainIssue
  fetched : (s.tile d p).fetched = false
  insn : (s.tile d p).insn (s.tile d p).level = .ok i
  stop : (s.tile d p).decodeStop (s.tile d p).level ((s.tile d p).runs i) i = none

/-- The command of the instruction's lead byte. -/
theorem State.BeginsPlain.atPrefix {s : State} {d p : Nat} {i : Insn} (h : s.BeginsPlain d p i)
    (f : Tile → Nat → Insn → State) :
    s.atPrefix d p f = f (s.tile d p) (s.tile d p).level i := by
  obtain ⟨hexp, -, hloop, -, -, -, -, -, hq, -, -⟩ := h.plain
  have hdry : (s.tile d p).dryLoop = false := by rw [Tile.dryLoop, hloop]
  unfold State.atPrefix
  dsimp only
  rw [if_pos (by simp [h.can, hexp, h.fetched, hdry]), Tile.tcrStep_of_nil hq, h.insn]
  dsimp only
  rw [h.stop]

/-- A repetition with a count that is not 0 begins (R147, R148). -/
theorem State.repBegin_pos (s : State) (d p : Nat) {t : Tile} (lvl : Nat) {n : Nat} (i : Insn) (hn : n ≠ 0)
    (hrsm : t.rsmRep = none) :
    s.repBegin d p t lvl n i = s.setTile d p { t.keepBytes lvl i.next with rep := some n } := by
  unfold State.repBegin
  rw [if_neg hn, ← hrsm]
  rfl

/-- With a count of 0 the instruction is skipped (R150). -/
theorem State.repBegin_zero (s : State) (d p : Nat) {t : Tile} (lvl : Nat) (i : Insn) (hloop : t.loop = none)
    (hq : t.tcrQ = []) :
    s.repBegin d p t lvl 0 i = s.setTile d p (t.skipped i.next) := by
  unfold State.repBegin Tile.skipped
  rw [if_pos rfl, Tile.tcrStep_of_nil hq, Tile.capture_of_no_loop hloop]

/-- A general register gives its word, and whether it is poisoned. -/
theorem State.srcVal_register (s : State) (d p : Nat) (t : Tile) (pend : Nat) {a : Nat} (h : a < 0x20) :
    s.srcVal d p t pend a = (t.sk a, t.psn.contains a) := by
  unfold State.srcVal
  repeat rw [if_neg (by omega)]

/-- It is no pop socket, and nothing waits for its word. -/
theorem Tile.register_ready (t : Tile) {a : Nat} (h : a < 0x20) :
    isPop a = false ∧ (a == 0x93) = false ∧ t.srcWait a = false := by
  have h93 : (a == 0x93) = false := by rw [beq_eq_false_iff_ne]; omega
  refine ⟨by simp [isPop, sockKind, show a < 0x28 by omega], h93, ?_⟩
  rw [Tile.srcWait, h93, Tile.popEmpty, if_neg (by omega), if_neg (by omega)]
  simp

/-- The bytes of an instruction other than a bundle that a tile is to issue plainly are there, below the byte limit. -/
theorem Tile.PlainIssue.bytes {t : Tile} (h : t.PlainIssue) {i : Insn} (hinsn : t.insn t.level = .ok i)
    (hbody : ∀ ms, i.body ≠ .bundle ms) :
    Fetches (t.peekByte 2) t.pc i.next ∧ ∀ a, t.pc ≤ a → a < i.next → a < 0x10000 := by
  obtain ⟨-, -, hloop, -, -, hhold, -⟩ := h
  have hbytes := insnOf_fetches hinsn hbody
  refine ⟨Tile.insn_fetches hhold hloop hinsn hbody, fun a h1 h2 => ?_⟩
  have hlim : fetchLim t.level ≤ 0x10000 := by unfold fetchLim; split <;> decide
  by_contra hge
  have hnone : t.insByte t.level a = none := if_neg (by omega)
  have := hbytes a h1 h2
  rw [hnone] at this
  cases this

namespace State.BeginsPlain
variable {s : State} {d p : Nat} {i : Insn} (h : s.BeginsPlain d p i)
include h

/-- REP.i with a count that is not 0 (R143, R147). -/
theorem beginRepI {n : Nat} (hi : i.rep = .repI n) (hn : n ≠ 0) (hsl : i.sealed = false) : s.beginRepI d p =
    s.setTile d p { (s.tile d p).keepBytes (s.tile d p).level i.next with rep := some n } := by
  obtain ⟨-, hrep, -, -, -, -, hrsm, -⟩ := h.plain
  unfold State.beginRepI
  rw [h.atPrefix, hi]
  dsimp only
  rw [if_pos (by simp [hrep, hsl]), hrsm]
  exact s.repBegin_pos d p _ i hn hrsm

/-- REP.s (R149, R150). -/
theorem beginRepS (hi : i.rep = .repS) (hsl : i.sealed = false) : s.beginRepS d p =
    s.setTile d p (if fld ((s.tile d p).sk 0x2B) 17 0 = 0 then (s.tile d p).skipped i.next
      else { (s.tile d p).keepBytes (s.tile d p).level i.next with rep := some (fld ((s.tile d p).sk 0x2B) 17 0) }) := by
  obtain ⟨-, hrep, hloop, -, -, -, hrsm, -, hq, -, -⟩ := h.plain
  unfold State.beginRepS
  rw [h.atPrefix, hi]
  dsimp only
  rw [if_pos (by simp [hrep, hsl]), hrsm, Option.getD_none]
  split
  · next hn => rw [hn]; exact s.repBegin_zero d p _ i hloop hq
  · next hn => exact s.repBegin_pos d p _ i hn hrsm

/-- SEAL (R160). -/
theorem beginSeal (hsl : i.sealed = true) : s.beginSeal d p = s.setTile d p { s.tile d p with sealed := true } := by
  obtain ⟨-, -, -, hseal, -⟩ := h.plain
  unfold State.beginSeal
  rw [h.atPrefix, if_pos (by simp [hsl, hseal])]

/-- LOOP.i (R154). -/
theorem beginLoopI {count nb : Nat} (hbody : i.body = .loopI count nb) :
    s.beginLoopI d p = s.setTile d p (((s.tile d p).fetchIns i.next).loopBegin i.next nb count) := by
  unfold State.beginLoopI
  rw [h.atPrefix, hbody]

/-- LOOP.s with a register for its count issues at some cycle (R155). -/
theorem beginLoopS (ext : Nat) {src nb a : Nat} (hbody : i.body = .loopS src nb a) (hsrc : src < 0x20) :
    ∃ c, s.beginLoopS d p ext =
      s.setTile d p ((s.tile d p).loopS c i.next nb (fld ((s.tile d p).sk src) 17 0)) := by
  unfold State.beginLoopS
  rw [h.atPrefix]
  obtain ⟨-, -, -, -, hstep, -, -, -, hq, -, hpsn⟩ := h.plain
  generalize s.tile d p = t at hstep hq hpsn ⊢
  rw [hbody]
  dsimp only
  rw [Tile.begin1_plain s d p hstep hq]
  obtain ⟨hpop, h93, hwait⟩ := t.issuing.register_ready hsrc
  have hclk : t.issuing.clk = t.clk := by rw [Tile.issuing_rest]; rfl
  have hval (c k : Nat) : s.srcVal d p ((t.issuing.sbAt c).fetchIns i.next) k src = (t.sk src, false) := by
    have hmem := (t.issuing.memOnly_sbAt c).trans (Tile.memOnly_fetchIns _ i.next)
    have hclean : ((t.issuing.sbAt c).fetchIns i.next).psn = [] := by rw [hmem.rest, Tile.issuing_rest]; exact hpsn
    rw [s.srcVal_register d p _ k hsrc, hmem.sk, t.sk_issuing, hclean]
    rfl
  rw [hwait, if_neg Bool.false_ne_true]
  simp only [hval, hpop, hclk]
  exact ⟨_, rfl⟩

end State.BeginsPlain

/-- SIGNPOST_MACRO on a tile that issues plainly. -/
theorem State.beginMacro_plain {s : State} {d p entry o : Nat} {i : Insn} (hcan : s.canIssue d p (s.tile d p) = true)
    (hplain : (s.tile d p).PlainIssue) (hinsn : (s.tile d p).insn (s.tile d p).level = .ok i) (hsealed : i.sealed = false)
    (hrep : i.rep = .none) (hbody : i.body = .macro_ entry o)
    (hstop : (s.tile d p).decodeStop (s.tile d p).level true i = none)
    (hnone : ((s.tile d p).macroBegin (s.tile d p).level entry o i.next).rep = none) :
    s.beginMacro d p = s.setTile d p ((s.tile d p).macroBegin (s.tile d p).level entry o i.next) := by
  obtain ⟨hexp, -, hloop, -, -, -, -, -, hq, -, -⟩ := hplain
  have hdry : (s.tile d p).dryLoop = false := by rw [Tile.dryLoop, hloop]
  have hstages : (s.tile d p).stagesOk i = true := by simp [Tile.stagesOk, hsealed, hrep]
  unfold State.beginMacro
  dsimp only
  rw [if_pos (by simp [hcan, hexp, hdry]), Tile.tcrStep_of_nil hq, hinsn]
  dsimp only
  rw [hbody]
  dsimp only
  rw [hstop]
  dsimp only
  rw [if_pos hstages, hnone]
  rfl

end Sys2Proof.Machine
end

section
namespace Sys2Proof.Machine

/-- A command whose effect is to put back its own tile. -/
theorem ownCommand_puts (i : Instr) {s : State} {d p : Nat} (f : State → State) {u : Tile}
    (e : ∀ s, exec i s = live (dieOk d && tileOk p) s f) (hheld : s.held = false) (hd : d < 8) (hp : p < 73)
    (h : f s = s.setTile d p u) :
    ∃ t, exec i s = .next t ∧ TileOnly d p s t ∧ t.tile d p = { u with marks := [] } :=
  ⟨_, exec_ownCommand e hheld hd hp h, s.setTile_tileOnly d p _, s.tile_setTile_self d p _⟩

/-- Settles O20: each command puts back its own tile, as what it begins sets it. -/
theorem prefixesAndMacrosBegin : Obligations.PrefixesAndMacrosBegin := by
  refine ⟨fun s d p ext i hheld hd hp hcan hplain hfetched hinsn hstop => ?_,
    fun s d p entry o i hheld hd hp hcan hplain hinsn hsealed hrep hbody hstop => ?_⟩
  · have h : s.BeginsPlain d p i := ⟨hcan, hplain, hfetched, hinsn, hstop⟩
    obtain ⟨-, hrep, hloop, -⟩ := id hplain
    refine ⟨fun n hi hn hsl => ?repI, fun hi hsl => ?repS, fun hsl => ?sealing, fun count nb hbody => ?loopI,
      fun src nb a hbody hsrc => ?loopS⟩
    case repI => exact ownCommand_puts (.repI d p) (·.beginRepI d p) (fun _ => rfl) hheld hd hp (h.beginRepI hi hn hsl)
    case sealing => exact ownCommand_puts (.seal d p) (·.beginSeal d p) (fun _ => rfl) hheld hd hp (h.beginSeal hsl)
    case repS =>
      obtain ⟨t, he, hon, ht⟩ := ownCommand_puts (.repS d p) (·.beginRepS d p) (fun _ => rfl) hheld hd hp
        (h.beginRepS hi hsl)
      refine ⟨t, he, hon, ?_⟩
      by_cases hn : fld ((s.tile d p).sk 0x2B) 17 0 = 0
      · rw [if_neg (not_not_intro hn), ht, if_pos hn]
        exact Tile.skipped_spec hrep hloop i.next
      · rw [if_pos hn, ht, if_neg hn]
    case loopI =>
      obtain ⟨hbytes, -⟩ := hplain.bytes hinsn (by rw [hbody]; nofun)
      obtain ⟨t, he, hon, ht⟩ := ownCommand_puts (.loopI d p) (·.beginLoopI d p) (fun _ => rfl) hheld hd hp
        (h.beginLoopI hbody)
      obtain ⟨hpc, hclk, hsock, hgran⟩ := Tile.loopI_spec hloop hbytes nb count
      obtain ⟨-, l, hl, hstart, hnb, hidx, hleft, hdry⟩ := ((s.tile d p).fetchIns i.next).loopBegin_spec i.next nb count
      refine ⟨t, he, hon, ?_⟩
      rw [ht]
      exact ⟨hpc, hclk, hsock, hgran, l, hl, hstart, hnb, hleft, hidx, hdry⟩
    case loopS =>
      obtain ⟨hbytes, hlim⟩ := hplain.bytes hinsn (by rw [hbody]; nofun)
      obtain ⟨c, hc⟩ := h.beginLoopS ext hbody hsrc
      obtain ⟨t, he, hon, ht⟩ := ownCommand_puts (.loopS d p ext) (·.beginLoopS d p ext) (fun _ => rfl) hheld hd hp hc
      obtain ⟨⟨hpc, hgran, hsk⟩, l, hl, hstart, hnb, hidx, hleft, hdry⟩ :=
        Tile.loopS_spec hloop hbytes hlim c nb (fld ((s.tile d p).sk src) 17 0)
      refine ⟨t, he, hon, ?_⟩
      rw [ht]
      exact ⟨hpc, hgran, hsk, l, hl, hstart, hnb, hidx, hleft, hdry⟩
  · obtain ⟨hbytes, -⟩ := hplain.bytes hinsn (by rw [hbody]; nofun)
    obtain ⟨-, hnoRep, hloop, -, -, -, -, hmc, -⟩ := id hplain
    obtain ⟨v, hv, hbad⟩ := Tile.macroCheck_none (Tile.macroCheck_of_decodeStop hbody hstop)
    obtain ⟨hpc, hkept, hgran, hsk, hexp⟩ :=
      Tile.macroBegin_spec (lvl := (s.tile d p).level) (o := o) hloop hmc hbytes hv hbad
    obtain ⟨t, he, hon, ht⟩ := ownCommand_puts (.signpostMacro d p) (·.beginMacro d p) (fun _ => rfl) hheld hd hp
      (State.beginMacro_plain hcan hplain hinsn hsealed hrep hbody hstop (hkept.trans hnoRep))
    refine ⟨t, he, hon, ?_⟩
    rw [ht, hv]
    exact ⟨hpc, hgran, hsk, _, hexp, rfl, rfl, rfl, rfl, rfl, rfl, rfl⟩

end Sys2Proof.Machine
end

section
/-!
SUPPORT. Codewords of the memories' code, and an access of signpost memory that meets one (R192, R338 to R341).
-/
namespace Sys2Proof.Machine

/-! ## Codewords -/

/-- A CRC keeps within its width. -/
theorem crcBits_lt {width poly : Nat} (hpoly : poly < 2 ^ width) (l : List Bool) {init : Nat} (h : init < 2 ^ width) :
    crcBits width poly init l < 2 ^ width := by
  unfold crcBits
  induction l generalizing init with
  | nil => exact h
  | cons b l ih =>
    rw [List.foldl_cons]
    refine ih ?_
    have hshift : init * 2 % 2 ^ width < 2 ^ width := Nat.mod_lt _ (Nat.two_pow_pos _)
    dsimp only
    split
    · exact Nat.xor_lt_two_pow hshift hpoly
    · exact hshift

/-- There are 16 check bits (R339). -/
theorem eccCheck_lt (x : BitVec 72) : eccCheck x < 2 ^ 16 := crcBits_lt (by decide) _ (by decide)

/-- A codeword's data bits and check bits. -/
theorem eccEncode_toNat (x : BitVec 72) : (eccEncode x).toNat = x.toNat + 2 ^ 72 * eccCheck x := by
  have := eccCheck_lt x
  have := x.isLt
  rw [eccEncode, BitVec.toNat_ofNat, Nat.mod_eq_of_lt (by omega)]

theorem granData_eccEncode (x : BitVec 72) : granData (eccEncode x) = x := by
  rw [granData, eccEncode_toNat]
  apply BitVec.eq_of_toNat_eq
  rw [BitVec.toNat_ofNat, Nat.add_mul_mod_self_left, Nat.mod_eq_of_lt x.isLt]

/-- A codeword has syndrome 0 (R340). -/
theorem eccSyn_eccEncode (x : BitVec 72) : eccSyn (eccEncode x) = 0 := by
  have hcheck : fld (eccEncode x) 87 72 = eccCheck x := by
    have := eccCheck_lt x
    have := x.isLt
    rw [fld, eccEncode_toNat, Nat.shiftRight_eq_div_pow]
    omega
  rw [eccSyn, granData_eccEncode, hcheck, Nat.xor_self]

/-- It is clean and delivers its data (R341). -/
theorem eccClass_eccEncode (code : Bool) (x : BitVec 72) : eccClass code (eccEncode x) = (.clean, x) := by
  unfold eccClass
  dsimp only
  rw [if_pos (eccSyn_eccEncode x), granData_eccEncode]

/-! ## Four bytes of a granule -/

/-- The little-endian bytes of a number give it back, modulo what they hold. -/
theorem leBytes_toLe (n v : Nat) : leBytes (toLe n v) = v % 256 ^ n := by
  induction n generalizing v with
  | zero => rw [Nat.pow_zero, Nat.mod_one]; rfl
  | succ n ih =>
    rw [toLe, leBytes, ih, BitVec.toNat_ofNat, show 256 ^ (n + 1) = 256 * 256 ^ n from Nat.pow_succ', Nat.mod_mul]

/-- The word in the lower half of a code granule, or in the upper half, read at its byte address. -/
theorem fourBytes_eq_fld (x : BitVec 72) (k : Nat) :
    x.toNat / 256 ^ k % 2 ^ 32 = fld x (8 * k + 31) (8 * k) := by
  rw [fld, Nat.shiftRight_eq_div_pow, show 8 * k + 31 + 1 - 8 * k = 32 by omega,
    show 256 ^ k = 2 ^ (8 * k) from (Nat.pow_mul 2 8 k).symm]

/-- Four bytes written over a granule's data are a field put into it. -/
theorem mergeBits_fourBytes (x : BitVec 72) (k : Nat) {v : Nat} (hv : v < 2 ^ 32) :
    mergeBits x (BitVec.ofNat 72 ((256 ^ 4 - 1) * 256 ^ k)) (BitVec.ofNat 72 (leBytes (toLe 4 v) * 256 ^ k)) =
      putFld x (8 * k + 31) (8 * k) v := by
  rw [leBytes_toLe, Nat.mod_eq_of_lt (by omega), show 256 ^ 4 - 1 = 2 ^ 32 - 1 from rfl, mergeBits, putFld,
    Nat.shiftLeft_eq, Nat.shiftLeft_eq, show 8 * k + 31 + 1 - 8 * k = 32 by omega,
    show 256 ^ k = 2 ^ (8 * k) from (Nat.pow_mul 2 8 k).symm]

namespace Tile

/-- With no mask armed over it a granule holds what is stored (R354). -/
theorem gr_store_self {t : Tile} {mem idx : Nat} (g : Gran) (h : t.flipOn mem idx = false) :
    (t.store mem idx g).gr mem idx = g := by
  have hmask : t.flipFor mem idx = 0 := if_neg (of_decide_eq_false h)
  unfold store
  rw [h, if_neg Bool.false_ne_true, hmask]
  exact (SMap.get_set_self ..).trans BitVec.xor_zero

/-- A narrow write of a codeword with no mask armed leaves the codeword of the data merged (R326, R346). -/
theorem gr_writePart_codeword {t : Tile} {mem idx : Nat} {x : BitVec 72} (fn : Nat) (mask d : BitVec 72)
    (hx : t.gr mem idx = eccEncode x) (h : t.flipOn mem idx = false) :
    (t.writePart fn mem idx mask d).gr mem idx = eccEncode (mergeBits x mask d) := by
  unfold writePart
  dsimp only
  rw [hx, eccClass_eccEncode]
  exact gr_store_self _ h

/-! ## TILE_SP_DATA (R192) -/

/-- TILE_SP_ADDR names a word of four bytes: one half of a granule. -/
theorem spOff_mod (t : Tile) : t.spOff % 8 = 0 ∨ t.spOff % 8 = 4 := by
  unfold spOff
  omega

/-- The index advances and wraps within the bank, and stores nothing. -/
theorem iof_spNext (t : Tile) : t.spNext.iof 0x40 11 2 = (t.iof 0x40 11 2 + 1) % 1024 := by
  rw [spNext, iof, ior_iowf, if_pos rfl, fld_putFld_self _ _ (by decide)]
  exact Nat.mod_mod _ _

theorem gran_spNext (t : Tile) : t.spNext.gran = t.gran := iow_gran ..

theorem gr_spNext (t : Tile) (mem idx : Nat) : t.spNext.gr mem idx = t.gr mem idx := (rfl)

/-- A read of a codeword: its four bytes, unmarked, and the index advanced. -/
theorem spRead_codeword {t : Tile} {x : BitVec 72} (fn : Nat) (hx : t.gr 3 (t.spOff / 8) = eccEncode x) :
    t.spRead fn = (t.spNext, wd (fld x (8 * (t.spOff % 8) + 31) (8 * (t.spOff % 8))), false) := by
  have hread : t.read fn 3 (t.spOff / 8) = (t, x, false) := by
    rw [read_of_clean fn (by rw [hx, eccSyn_eccEncode]), hx, granData_eccEncode]
  rw [spRead, hread, ← fourBytes_eq_fld]

/-- The write of four bytes at the index is one narrow write. -/
theorem writeBytes_spOff (t : Tile) (fn v : Nat) : t.writeBytes fn 3 t.spOff (toLe 4 v) =
    t.writePart fn 3 (t.spOff / 8) (BitVec.ofNat 72 ((256 ^ 4 - 1) * 256 ^ (t.spOff % 8)))
      (BitVec.ofNat 72 (leBytes (toLe 4 v) * 256 ^ (t.spOff % 8))) := by
  have hfits : (toLe 4 v).length ≤ 8 - t.spOff % 8 := by
    rw [toLe_length]
    obtain h | h := t.spOff_mod <;> omega
  have hnarrow : BitVec.ofNat 72 ((256 ^ 4 - 1) * 256 ^ (t.spOff % 8)) ≠ fullMask 3 := by
    obtain h | h := t.spOff_mod <;> rw [h] <;> decide
  unfold writeBytes
  dsimp only
  rw [if_pos hfits, List.take_of_length_le hfits, byteBits, toLe_length, write, if_neg hnarrow]

/-- A write of TILE_SP_DATA advances the index. -/
theorem iof_spWrite (t : Tile) (fn : Nat) (w : Word) : (t.spWrite fn w).iof 0x40 11 2 = (t.iof 0x40 11 2 + 1) % 1024 := by
  have hmem : MemOnly t (t.writeBytes fn 3 t.spOff (toLe 4 (fld w 31 0))) := by
    rw [writeBytes_spOff]
    exact t.memOnly_writePart ..
  have hnext := iof_spNext (t.writeBytes fn 3 t.spOff (toLe 4 (fld w 31 0)))
  rw [iof, iof, hmem.regs _ (by decide)] at hnext
  unfold spWrite
  dsimp only
  split
  · exact hnext
  · exact hnext

/-- A write over a codeword with no mask armed puts the four bytes into its data. -/
theorem gr_spWrite_codeword {t : Tile} {x : BitVec 72} (fn : Nat) (w : Word) (hx : t.gr 3 (t.spOff / 8) = eccEncode x)
    (h : t.flipOn 3 (t.spOff / 8) = false) :
    (t.spWrite fn w).gr 3 (t.spOff / 8) =
      eccEncode (putFld x (8 * (t.spOff % 8) + 31) (8 * (t.spOff % 8)) (fld w 31 0)) := by
  have hstored : (t.writeBytes fn 3 t.spOff (toLe 4 (fld w 31 0))).spNext.gr 3 (t.spOff / 8) =
      eccEncode (putFld x (8 * (t.spOff % 8) + 31) (8 * (t.spOff % 8)) (fld w 31 0)) := by
    rw [gr_spNext, writeBytes_spOff, gr_writePart_codeword fn _ _ hx h, mergeBits_fourBytes x _ (fld_lt w 31 0)]
  unfold spWrite
  dsimp only
  split
  · exact hstored
  · exact hstored

end Tile

/-! ## An access of one tile in its turn -/

/-- A tile register's port is free where the tile serves. -/
theorem TileServed.alone {s : State} {m d p o : Nat} (hd : d < 8) (hp : p < 73) (ho : o < 0x8_0000) (hs : TileServed m d p s) :
    Alone (aTile d p o) s := by
  obtain ⟨-, -, -, -, -, hal⟩ := hs
  intro r hr
  rw [s.portOf_aTile hd hp ho, ← s.portOf_aTile hd hp (by decide : 0 < 0x8_0000)]
  exact hal r hr

/-- A served write into one tile: u is what the tile's own write leaves, c its code. -/
theorem State.doWrite_oneTile {s u : State} {m d p o c : Nat} {w : Word} (hm : masterOk m = true) (hd : d < 8) (hp : p < 73)
    (ho : o < 0x8_0000) (hs : TileServed m d p s)
    (hw : (s.setOut m (aTile d p o)).tileWrite m d p o (aTile d p o) w false = (u, c)) :
    s.doWrite m (aTile d p o) w =
      ((u.record m (aTile d p o) c).xrCross (s.turnTaken m (aTile d p o)) m (aTile d p o) 1 0).answer m c [] := by
  have hal := hs.alone hd hp ho
  obtain ⟨-, him, hearly, hreach, -⟩ := hs
  obtain ⟨hreg, hmod⟩ := aTile_region hd hp ho
  refine State.doWrite_alone him hal (by omega) ?_
  have htiles : (s.setOut m (aTile d p o)).tilesWrite m (aTile d p o) w = (u, c) := by
    unfold State.tilesWrite
    rw [State.tileAt_aTile _ hd hp ho]
    dsimp only
    rw [s.reaches_setOut _ hm hd, hreach, if_pos rfl]
    by_cases h3 : c = 3
    · simp [hw, h3]
    · simp [hw, h3]
  unfold State.busWrite
  simp [hreg, hmod, hearly, htiles]

/-- A served read from one tile that ends OK. -/
theorem State.doRead_oneTile {s u : State} {m d p o : Nat} {v : Word} (hm : masterOk m = true) (hd : d < 8) (hp : p < 73)
    (ho : o < 0x8_0000) (hs : TileServed m d p s)
    (hr : (s.setOut m (aTile d p o)).tileRead m d p o (aTile d p o) false = (u, 0, v)) :
    s.doRead m (aTile d p o) = (u.xrCross (s.turnTaken m (aTile d p o)) m (aTile d p o) 0 1).answer m 0 [v] := by
  have hal := hs.alone hd hp ho
  obtain ⟨-, him, hearly, hreach, -⟩ := hs
  obtain ⟨hreg, hmod⟩ := aTile_region hd hp ho
  refine State.doRead_alone him hal (by omega) ?_
  have htiles : (s.setOut m (aTile d p o)).tilesRead m (aTile d p o) = (u, 0, v) := by
    unfold State.tilesRead
    rw [State.tileAt_aTile _ hd hp ho]
    dsimp only
    rw [s.reaches_setOut _ hm hd, hreach, if_pos rfl]
    exact hr
  unfold State.busRead
  simp [hreg, hmod, hearly, htiles]

/-- An access of one tile that reaches that tile and no register outside it, answered OK. -/
theorem AnsweredAs.tileAnswered {s t : State} {m d p a : Nat} {l : List Word} {x : Tile}
    (k : AnsweredAs m 0 l ((s.setOut m a).setTile d p x) t) :
    TileAnswered m d p l s t ∧ t.tile d p = { x with marks := [] } := by
  have h := ((s.setOut_effect m a).trans (State.setTile_effect _ d p x)).mono (fun _ h => h.resolve_right id)
  refine ⟨⟨h.regsBut k, fun e q hne => ?_, h.accessKept k, k.tick.trans h.tick, by rw [k.out, h.out]⟩, ?_⟩
  · rw [State.tile, k.tiles]
    exact (State.tile_setTile_of_ne _ _ hne).trans (s.tile_setOut m a e q)
  · rw [State.tile, k.tiles]
    exact State.tile_setTile_self _ d p _

/-! ## TILE_SP_DATA of a tile -/

/-- Every tile has TILE_SP_DATA. -/
theorem tileReg_spData (p : Nat) : (tileReg p 0x41).isNone = false := by
  rw [tileReg, if_neg (by simp)]
  rfl

/-- A read of TILE_SP_DATA that meets a codeword. -/
theorem State.tileRead_spData {s : State} {m d p named : Nat} {x : BitVec 72} (hrow : s.rowOn d p = true)
    (hx : (s.tile d p).gr 3 ((s.tile d p).spOff / 8) = eccEncode x) :
    s.tileRead m d p 0x41 named false = (s.setTile d p (s.tile d p).spNext, 0,
      wd (fld x (8 * ((s.tile d p).spOff % 8) + 31) (8 * ((s.tile d p).spOff % 8)))) := by
  have hreg : (s.tile d p).regRead 0x41 4 = (s.tile d p).spRead 4 := rfl
  unfold State.tileRead
  rw [if_neg (by simp [hrow]), if_pos (by decide), if_neg (by simp [tileReg_spData]), hreg, Tile.spRead_codeword 4 hx]
  rfl

/-- A permitted write of TILE_SP_DATA reaches the rules of R175 and R192. -/
theorem State.tileWrite_spData {s : State} {m d p named : Nat} (w : Word) (hrow : s.rowOn d p = true)
    (hmay : s.mayWrite m named = true) : s.tileWrite m d p 0x41 named w false =
      if (s.tile d p).sealedCode 3 (s.tile d p).spOff = true then
        ((s.setTile d p (s.tile d p).spNext).denied m (aTile d p 0x41) (wd (aTileSp d p 3 (s.tile d p).spOff)), 3)
      else (s.setTile d p ((s.tile d p).spWrite 4 w), 0) := by
  have hreg : (s.tile d p).regWrite s.tick d p 0x41 4 w = (s.tile d p).spWrite 4 w := rfl
  unfold State.tileWrite
  rw [if_neg (by simp [hrow]), if_pos (by decide), if_neg (by simp [tileReg_spData])]
  simp [State.tileRegWrite, hmay, hreg]

section
variable {s : State} {m d p : Nat} (hm : masterOk m = true) (hd : d < 8) (hp : p < 73) (hs : TileServed m d p s)
include hm hd hp hs

/-- A served read of TILE_SP_DATA. -/
theorem spData_read (w : Word) {x : BitVec 72} (hx : (s.tile d p).gr 3 ((s.tile d p).spOff / 8) = eccEncode x) :
    ∃ t, exec (.tileSpData m d p false w) s = .next t ∧
      TileAnswered m d p [wd (fld x (8 * ((s.tile d p).spOff % 8) + 31) (8 * ((s.tile d p).spOff % 8)))] s t ∧
      t.tile d p = { (s.tile d p).spNext with marks := [] } := by
  have hok : (masterOk m && dieOk d && tileOk p) = true := by simp [hm, dieOk, tileOk, hd, hp]
  have hrow : s.rowOn d p = true := by obtain ⟨-, -, -, -, h, -⟩ := hs; exact h
  have hread := State.tileRead_spData (s := s.setOut m (aTile d p 0x41)) (m := m) (named := aTile d p 0x41)
    ((s.rowOn_setOut m _ p hd).trans hrow) (by rw [s.tile_setOut]; exact hx)
  rw [s.tile_setOut] at hread
  refine ⟨_, live_next (f := (State.doRead · m (aTile d p 0x41))) hs.1 hok, ?_⟩
  rw [State.doRead_oneTile hm hd hp (by decide) hs hread]
  exact AnsweredAs.tileAnswered (State.answeredAs ..)

/-- A served and permitted write of TILE_SP_DATA outside the active bank or at P0. -/
theorem spData_write (w : Word) (hmay : s.mayWrite m (aTile d p 0x41) = true)
    (hopen : (s.tile d p).sealedCode 3 (s.tile d p).spOff = false) :
    ∃ t, exec (.tileSpData m d p true w) s = .next t ∧ TileAnswered m d p [] s t ∧
      t.tile d p = { (s.tile d p).spWrite 4 w with marks := [] } := by
  have hok : (masterOk m && dieOk d && tileOk p) = true := by simp [hm, dieOk, tileOk, hd, hp]
  have hrow : s.rowOn d p = true := by obtain ⟨-, -, -, -, h, -⟩ := hs; exact h
  have hwrite := State.tileWrite_spData (s := s.setOut m (aTile d p 0x41)) (m := m) (named := aTile d p 0x41) w
    ((s.rowOn_setOut m _ p hd).trans hrow) ((s.mayWrite_setOut ..).trans hmay)
  rw [s.tile_setOut, hopen, if_neg Bool.false_ne_true] at hwrite
  refine ⟨_, live_next (f := (State.doWrite · m (aTile d p 0x41) w)) hs.1 hok, ?_⟩
  rw [State.doWrite_oneTile hm hd hp (by decide) hs hwrite]
  exact AnsweredAs.tileAnswered (State.answeredAs ..)

/-- One into the active bank at P1: discarded, denied and recorded; the index advances (log entry 30). -/
theorem spData_write_denied (w : Word) (hmay : s.mayWrite m (aTile d p 0x41) = true)
    (hclosed : (s.tile d p).sealedCode 3 (s.tile d p).spOff = true) :
    ∃ t, exec (.tileSpData m d p true w) s = .next t ∧ t.out = s.out ++ [.resp m 3 []] ∧ TilesBut (tkey d p) s t ∧
      AccessKept s t ∧ t.tile d p = { (s.tile d p).spNext with marks := [] } := by
  have hok : (masterOk m && dieOk d && tileOk p) = true := by simp [hm, dieOk, tileOk, hd, hp]
  have hrow : s.rowOn d p = true := by obtain ⟨-, -, -, -, h, -⟩ := hs; exact h
  have hwrite := State.tileWrite_spData (s := s.setOut m (aTile d p 0x41)) (m := m) (named := aTile d p 0x41) w
    ((s.rowOn_setOut m _ p hd).trans hrow) ((s.mayWrite_setOut ..).trans hmay)
  rw [s.tile_setOut, hclosed, if_pos rfl] at hwrite
  obtain ⟨u, hu, hraised, htiles⟩ : ∃ u, ((s.setOut m (aTile d p 0x41)).setTile d p (s.tile d p).spNext).denied m
      (aTile d p 0x41) (wd (aTileSp d p 3 (s.tile d p).spOff)) = u ∧
      RegEffect (fun _ => False) ((s.setOut m (aTile d p 0x41)).setTile d p (s.tile d p).spNext) u ∧
      u.tiles = ((s.setOut m (aTile d p 0x41)).setTile d p (s.tile d p).spNext).tiles := ⟨_, rfl, State.mark_effect .., rfl⟩
  rw [hu] at hwrite
  refine ⟨_, live_next (f := (State.doWrite · m (aTile d p 0x41) w)) hs.1 hok, ?_⟩
  rw [State.doWrite_oneTile hm hd hp (by decide) hs hwrite]
  have k := State.answeredAs s (u.record m (aTile d p 0x41) 3) (s.turnTaken m (aTile d p 0x41)) m (aTile d p 0x41) 1 0 3 []
  have h := (((s.setOut_effect m _).trans (State.setTile_effect ..)).trans hraised).trans (u.record_effect m (aTile d p 0x41) 3)
  obtain ⟨regs, hrecord⟩ := u.record_eq m (aTile d p 0x41) 3
  have htiles := k.tiles.trans ((congrArg State.tiles hrecord).trans htiles)
  refine ⟨by rw [k.out, h.out], fun e q hne => ?_, h.accessKept k, ?_⟩
  · rw [State.tile, htiles]
    exact (State.tile_setTile_of_ne _ _ hne).trans (s.tile_setOut m _ e q)
  · rw [State.tile, htiles]
    exact State.tile_setTile_self _ d p _

end

end Sys2Proof.Machine
end

section
/-!
SUPPORT. An access of DIE_NET_DATA or DRAM_RPD: the word that the index register names, and the index advanced (R401, R519).
-/
namespace Sys2Proof.Machine

/-! ## Accesses through an index register -/

/-- From s to u no register changed but the index register k, and no tile. -/
structure IndexMoved (k : Nat) (s u : State) : Prop where
  effect : RegEffect (fun q => q = k) s u
  tiles : u.tiles = s.tiles

/-- What a served access that moves its index and is answered OK leaves. -/
theorem IndexMoved.regsOnly {s u t : State} {m a k : Nat} {l : List Word} (hu : IndexMoved k (s.setOut m a) u)
    (h : AnsweredAs m 0 l u t) : RegsOnly m (fun q => q = k) l s t :=
  RegEffect.regsOnly (((s.setOut_effect m a).trans hu.effect).mono (fun _ h => h.symm)) (hu.tiles.trans (s.setOut_tiles m a)) h

/-- A command that is a served read of a register of region 0 or 1: u is what the read leaves, v the word. -/
theorem indexed_read {i : Instr} {s u : State} {m a k n : Nat} {v : Word} {b : Block} {r : RegSpec} {ok : Bool}
    (e : exec i s = live ok s (fun s => s.doRead m a)) (hok : ok = true) (hm : masterOk m = true) (ha : a < 0x2_0000_0000)
    (hs : Served m a s) (hr : regAt m a = some (b, r, n)) (hv : (s.setOut m a).regView m a b r n = (u, v))
    (hu : IndexMoved k (s.setOut m a) u) :
    ∃ t, exec i s = .next t ∧ RegsOnly m (fun q => q = k) [v] s t ∧ ∀ q, t.rd q = u.rd q := by
  have hheld : s.held = false := by obtain ⟨⟨h, -⟩, -⟩ := hs; exact h
  refine ⟨_, e.trans (live_next hheld hok), ?_⟩
  rw [State.doRead_reg hm ha hs hr hv]
  have h := State.answeredAs s u (s.turnTaken m a) m a 0 1 0 [v]
  exact ⟨hu.regsOnly h, h.rd⟩

/-- A command that is a permitted write of one that is not one per master: u is what the write leaves. -/
theorem indexed_write {i : Instr} {s u : State} {m a k : Nat} {w : Word} {b : Block} {r : RegSpec} {ok : Bool}
    (e : exec i s = live ok s (fun s => s.doWrite m a w)) (hok : ok = true) (hm : masterOk m = true)
    (ha : a < 0x2_0000_0000) (hp : Permitted m a s) (hr : regAt m a = some (b, r, a)) (hpm : r.perMaster = false)
    (hw : (s.setOut m a).regPut m a b r a w = u) (hu : IndexMoved k (s.setOut m a) u) :
    ∃ t, exec i s = .next t ∧ RegsOnly m (fun q => q = k) [] s t ∧ t.staged = u.staged ∧ ∀ q, t.rd q = u.rd q := by
  refine ⟨_, e.trans (live_next hp.outOfReset hok), ?_⟩
  rw [State.doWrite_reg w hm ha hp hr hpm (s1 := s.turnTaken m a) rfl, ← State.setOut, hw]
  have h := State.answeredAs s u (s.turnTaken m a) m a 1 0 0 []
  exact ⟨hu.regsOnly h, h.staged, h.rd⟩

/-- Toll registers are in region 1. -/
theorem aToll_lt {m : Nat} (hm : masterOk m = true) : aToll m < 0x2_0000_0000 :=
  aDie_lt (masterDie_lt hm) (by have := xrClass_lt m; omega)

/-- A field of the index register is put. -/
theorem State.wf_indexMoved (s : State) (k hi lo v : Nat) : IndexMoved k s (s.wf k hi lo v) := ⟨s.wr_effect k _, rfl⟩

theorem IndexMoved.refl (k : Nat) (s : State) : IndexMoved k s s :=
  ⟨⟨fun _ _ => rfl, ⟨rfl, rfl, rfl, rfl, rfl, rfl, rfl⟩, rfl, rfl⟩, rfl⟩

theorem IndexMoved.trans {k : Nat} {s t u : State} (h : IndexMoved k s t) (g : IndexMoved k t u) : IndexMoved k s u :=
  ⟨(h.effect.trans g.effect).mono (fun _ h => h.elim id id), g.tiles.trans h.tiles⟩

/-- Staging moves nothing. -/
theorem State.staged_indexMoved (s : State) (k : Nat) (l : List Stage) : IndexMoved k s { s with staged := l } :=
  ⟨⟨fun _ _ => rfl, ⟨rfl, rfl, rfl, rfl, rfl, rfl, rfl⟩, rfl, rfl⟩, rfl⟩

/-! ## DIE_NET_IDX (R401) -/

/-- ENTRY advances where INC is 1. -/
theorem State.netNext_spec (s : State) (d : Nat) : IndexMoved (aDie d 0x100) s (s.netNext d) ∧
    (s.netNext d).staged = s.staged ∧
    (s.netNext d).rf (aDie d 0x100) 11 0 = (s.rf (aDie d 0x100) 11 0 + natB (s.rb (aDie d 0x100) 20)) % 4096 := by
  have hlt : s.rf (aDie d 0x100) 11 0 < 4096 := fld_lt ..
  unfold State.netNext
  dsimp only
  cases s.rb (aDie d 0x100) 20
  · exact ⟨IndexMoved.refl .., rfl, (Nat.mod_eq_of_lt hlt).symm⟩
  · exact ⟨s.wf_indexMoved .., rfl, State.rf_wf_self _ _ _ (by decide)⟩

/-- Neither what is staged nor another register decides which word DIE_NET_IDX names. -/
theorem State.netPlace_congr {s u : State} {d : Nat} (h : u.rd (aDie d 0x100) = s.rd (aDie d 0x100)) :
    u.netPlace d = s.netPlace d := by
  unfold State.netPlace
  rw [h]

/-! ## DRAM_RPX (R519) -/

/-- WORD advances, and PROF as WORD wraps, where INC is 1. -/
theorem State.profNext_spec (s : State) (d : Nat) : IndexMoved (aDram d 0x20) s (s.profNext d) ∧
    (s.profNext d).staged = s.staged ∧
    4 * (s.profNext d).rf (aDram d 0x20) 5 0 + (s.profNext d).rf (aDram d 0x20) 7 6 =
      (4 * s.rf (aDram d 0x20) 5 0 + s.rf (aDram d 0x20) 7 6 + natB (s.rb (aDram d 0x20) 8)) % 256 := by
  have hprof : s.rf (aDram d 0x20) 5 0 < 64 := fld_lt ..
  have hword : s.rf (aDram d 0x20) 7 6 < 4 := fld_lt ..
  have hapart (u : State) (v : Nat) : (u.wf (aDram d 0x20) 7 6 v).rf (aDram d 0x20) 5 0 = u.rf (aDram d 0x20) 5 0 := by
    rw [State.rf, State.rd_wf, if_pos rfl, fld_putFld_apart _ _ (by omega)]
    rfl
  have hapart' (u : State) (v : Nat) : (u.wf (aDram d 0x20) 5 0 v).rf (aDram d 0x20) 7 6 = u.rf (aDram d 0x20) 7 6 := by
    rw [State.rf, State.rd_wf, if_pos rfl, fld_putFld_apart _ _ (by omega)]
    rfl
  unfold State.profNext
  dsimp only
  cases s.rb (aDram d 0x20) 8
  · rw [if_neg Bool.false_ne_true]
    refine ⟨IndexMoved.refl .., rfl, ?_⟩
    change _ = (_ + 0) % 256
    omega
  · rw [if_pos rfl]
    change _ ∧ _ ∧ _ = (_ + 1) % 256
    split
    · next h3 =>
      refine ⟨(s.wf_indexMoved ..).trans (State.wf_indexMoved ..), by simp only [State.wf_eq, State.wr_staged], ?_⟩
      rw [hapart', State.rf_wf_self _ _ _ (by decide), State.rf_wf_self _ _ _ (by decide), h3]
      omega
    · next h3 =>
      refine ⟨s.wf_indexMoved .., by rw [State.wf_eq, State.wr_staged], ?_⟩
      rw [hapart, State.rf_wf_self _ _ _ (by decide)]
      omega

theorem State.profPlace_congr {s u : State} {d : Nat} (h : u.rd (aDram d 0x20) = s.rd (aDram d 0x20)) :
    u.profPlace d = s.profPlace d := by
  unfold State.profPlace
  rw [h]

/-! ## The two data registers -/

/-- DIE_NET_DATA and DRAM_RPD are each one register of the part, not one per master. -/
theorem regAt_netData (m : Nat) {d : Nat} (hd : d < 8) :
    ∃ r, regAt m (aDie d 0x101) = some (.die, r, aDie d 0x101) ∧ r.perMaster = false :=
  ⟨_, regAt_of (blockOf_aDie hd (by decide)) rfl rfl, rfl⟩

theorem regAt_profData (m : Nat) {d : Nat} (hd : d < 8) :
    ∃ r, regAt m (aDram d 0x21) = some (.dram, r, aDram d 0x21) ∧ r.perMaster = false :=
  ⟨_, regAt_of (blockOf_aDram hd (by decide)) rfl rfl, rfl⟩

section
variable (s : State) (m : Nat) {d : Nat} (r : RegSpec) (k : Nat) (hd : d < 8)
include hd

theorem State.regView_netData : s.regView m (aDie d 0x101) .die r k = (s.netNext d, s.rd (s.netPlace d).1) := by
  have hdie : aDie d 0x101 % 0x1_0000_0000 / 0x2000_0000 = d := by unfold aDie; omega
  unfold State.regView
  simp [blockOf_aDie hd, hdie]

theorem State.regPut_netData (w : Word) : s.regPut m (aDie d 0x101) .die r k w = s.netWrite d w := by
  have hdie : aDie d 0x101 % 0x1_0000_0000 / 0x2000_0000 = d := by unfold aDie; omega
  unfold State.regPut
  simp [blockOf_aDie hd, hdie]

theorem State.regView_profData : s.regView m (aDram d 0x21) .dram r k = (s.profNext d, s.rd (s.profPlace d).1) := by
  have hdie : aDram d 0x21 % 0x1_0000_0000 / 0x2000_0000 = d := by unfold aDram aDie; omega
  unfold State.regView
  simp [blockOf_aDram hd, hdie]

theorem State.regPut_profData (w : Word) : s.regPut m (aDram d 0x21) .dram r k w = s.profWrite d w := by
  have hdie : aDram d 0x21 % 0x1_0000_0000 / 0x2000_0000 = d := by unfold aDram aDie; omega
  unfold State.regPut
  simp [blockOf_aDram hd, hdie]

end

/-- A write of DIE_NET_DATA stages the word that the index names, and moves the index. -/
theorem State.netWrite_spec (s : State) (d : Nat) (w : Word) : IndexMoved (aDie d 0x100) s (s.netWrite d w) ∧
    (s.netWrite d w).staged = stageAdd s.staged (s.netPlace d).1 (s.netPlace d).2 w ∧
    (s.netWrite d w).rf (aDie d 0x100) 11 0 = (s.rf (aDie d 0x100) 11 0 + natB (s.rb (aDie d 0x100) 20)) % 4096 := by
  obtain ⟨hmoved, hstaged, hindex⟩ :=
    State.netNext_spec { s with staged := stageAdd s.staged (s.netPlace d).1 (s.netPlace d).2 w } d
  exact ⟨(s.staged_indexMoved ..).trans hmoved, hstaged, hindex⟩

/-- A write of DRAM_RPD. -/
theorem State.profWrite_spec (s : State) (d : Nat) (w : Word) : IndexMoved (aDram d 0x20) s (s.profWrite d w) ∧
    (s.profWrite d w).staged = stageAdd s.staged (s.profPlace d).1 (s.profPlace d).2 w ∧
    4 * (s.profWrite d w).rf (aDram d 0x20) 5 0 + (s.profWrite d w).rf (aDram d 0x20) 7 6 =
      (4 * s.rf (aDram d 0x20) 5 0 + s.rf (aDram d 0x20) 7 6 + natB (s.rb (aDram d 0x20) 8)) % 256 := by
  obtain ⟨hmoved, hstaged, hindex⟩ :=
    State.profNext_spec { s with staged := stageAdd s.staged (s.profPlace d).1 (s.profPlace d).2 w } d
  exact ⟨(s.staged_indexMoved ..).trans hmoved, hstaged, hindex⟩

section
variable {s : State} {m d : Nat} (w : Word) (hm : masterOk m = true) (hd : d < 8)
include hm hd

/-- A served read of DIE_NET_DATA. -/
theorem netData_read (hs : Served m (aDie d 0x101) s) :
    ∃ t, exec (.netDataAccess m d false w) s = .next t ∧
      RegsOnly m (fun q => q = aDie d 0x100) [s.rd (s.netPlace d).1] s t ∧
      t.rf (aDie d 0x100) 11 0 = (s.rf (aDie d 0x100) 11 0 + natB (s.rb (aDie d 0x100) 20)) % 4096 := by
  obtain ⟨r, hr, -⟩ := regAt_netData m hd
  have hidx : (s.setOut m (aDie d 0x101)).rd (aDie d 0x100) = s.rd (aDie d 0x100) :=
    (s.setOut_effect m _).regs _ (ne_aToll_off (by decide) (by decide))
  have hword : (s.setOut m (aDie d 0x101)).rd (s.netPlace d).1 = s.rd (s.netPlace d).1 :=
    (s.setOut_effect m _).regs _ (by have := aToll_lt hm; unfold State.netPlace aNet; dsimp only; omega)
  obtain ⟨hmoved, -, hindex⟩ := (s.setOut m (aDie d 0x101)).netNext_spec d
  obtain ⟨t, he, ho, hrd⟩ := indexed_read (i := .netDataAccess m d false w) rfl (by simp [hm, dieOk, hd]) hm
    (aDie_lt hd (by decide)) hs hr (State.regView_netData _ m r _ hd) hmoved
  rw [State.netPlace_congr hidx, hword] at ho
  refine ⟨t, he, ho, ?_⟩
  rw [State.rf, hrd]
  exact hindex.trans (by rw [State.rf, State.rb, hidx]; rfl)

/-- A permitted write of DIE_NET_DATA. -/
theorem netData_write (hp : Permitted m (aDie d 0x101) s) :
    ∃ t, exec (.netDataAccess m d true w) s = .next t ∧ RegsOnly m (fun q => q = aDie d 0x100) [] s t ∧
      t.staged = stageAdd s.staged (s.netPlace d).1 (s.netPlace d).2 w ∧
      t.rf (aDie d 0x100) 11 0 = (s.rf (aDie d 0x100) 11 0 + natB (s.rb (aDie d 0x100) 20)) % 4096 := by
  obtain ⟨r, hr, hpm⟩ := regAt_netData m hd
  have hidx : (s.setOut m (aDie d 0x101)).rd (aDie d 0x100) = s.rd (aDie d 0x100) :=
    (s.setOut_effect m _).regs _ (ne_aToll_off (by decide) (by decide))
  obtain ⟨hmoved, hstaged, hindex⟩ := (s.setOut m (aDie d 0x101)).netWrite_spec d w
  obtain ⟨t, he, ho, hst, hrd⟩ := indexed_write (i := .netDataAccess m d true w) rfl (by simp [hm, dieOk, hd]) hm
    (aDie_lt hd (by decide)) hp hr hpm (State.regPut_netData _ m r _ hd w) hmoved
  rw [State.netPlace_congr hidx, State.setOut_staged] at hstaged
  refine ⟨t, he, ho, hst.trans hstaged, ?_⟩
  rw [State.rf, hrd]
  exact hindex.trans (by rw [State.rf, State.rb, hidx]; rfl)

/-- A served read of DRAM_RPD. -/
theorem profData_read (hs : Served m (aDram d 0x21) s) :
    ∃ t, exec (.rpdAccess m d false w) s = .next t ∧
      RegsOnly m (fun q => q = aDram d 0x20) [s.rd (s.profPlace d).1] s t ∧
      4 * t.rf (aDram d 0x20) 5 0 + t.rf (aDram d 0x20) 7 6 =
        (4 * s.rf (aDram d 0x20) 5 0 + s.rf (aDram d 0x20) 7 6 + natB (s.rb (aDram d 0x20) 8)) % 256 := by
  obtain ⟨r, hr, -⟩ := regAt_profData m hd
  have hidx : (s.setOut m (aDram d 0x21)).rd (aDram d 0x20) = s.rd (aDram d 0x20) :=
    (s.setOut_effect m _).regs _ (ne_aToll_off (by decide) (by decide))
  have hword : (s.setOut m (aDram d 0x21)).rd (s.profPlace d).1 = s.rd (s.profPlace d).1 :=
    (s.setOut_effect m _).regs _ (by have := aToll_lt hm; unfold State.profPlace aProf; dsimp only; omega)
  obtain ⟨hmoved, -, hindex⟩ := (s.setOut m (aDram d 0x21)).profNext_spec d
  obtain ⟨t, he, ho, hrd⟩ := indexed_read (i := .rpdAccess m d false w) rfl (by simp [hm, dieOk, hd]) hm
    (aDram_lt hd (by decide)) hs hr (State.regView_profData _ m r _ hd) hmoved
  rw [State.profPlace_congr hidx, hword] at ho
  refine ⟨t, he, ho, ?_⟩
  simp only [State.rf, State.rb, hrd] at hindex ⊢
  rw [hindex, hidx]

/-- A permitted write of DRAM_RPD. -/
theorem profData_write (hp : Permitted m (aDram d 0x21) s) :
    ∃ t, exec (.rpdAccess m d true w) s = .next t ∧ RegsOnly m (fun q => q = aDram d 0x20) [] s t ∧
      t.staged = stageAdd s.staged (s.profPlace d).1 (s.profPlace d).2 w ∧
      4 * t.rf (aDram d 0x20) 5 0 + t.rf (aDram d 0x20) 7 6 =
        (4 * s.rf (aDram d 0x20) 5 0 + s.rf (aDram d 0x20) 7 6 + natB (s.rb (aDram d 0x20) 8)) % 256 := by
  obtain ⟨r, hr, hpm⟩ := regAt_profData m hd
  have hidx : (s.setOut m (aDram d 0x21)).rd (aDram d 0x20) = s.rd (aDram d 0x20) :=
    (s.setOut_effect m _).regs _ (ne_aToll_off (by decide) (by decide))
  obtain ⟨hmoved, hstaged, hindex⟩ := (s.setOut m (aDram d 0x21)).profWrite_spec d w
  obtain ⟨t, he, ho, hst, hrd⟩ := indexed_write (i := .rpdAccess m d true w) rfl (by simp [hm, dieOk, hd]) hm
    (aDram_lt hd (by decide)) hp hr hpm (State.regPut_profData _ m r _ hd w) hmoved
  rw [State.profPlace_congr hidx, State.setOut_staged] at hstaged
  refine ⟨t, he, ho, hst.trans hstaged, ?_⟩
  simp only [State.rf, State.rb, hrd] at hindex ⊢
  rw [hindex, hidx]

end

/-- Settles O17: TILE_SP_DATA over a codeword and into the active bank, and the two registers read and written through an
index. -/
theorem indexedDataAccess : Obligations.IndexedDataAccess := by
  refine ⟨fun s m d p w hm hd hp hs => ⟨fun x hx => ?read, fun hmay hopen hflip x hx => ?write,
      fun hmay hclosed => ?denied⟩,
    fun s m d w hm hd => ⟨netData_read w hm hd, netData_write w hm hd, profData_read w hm hd, profData_write w hm hd⟩⟩
  case read =>
    obtain ⟨t, he, ha, ht⟩ := spData_read hm hd hp hs w hx
    exact ⟨t, he, ha, by rw [ht]; exact (s.tile d p).iof_spNext, by rw [ht]; exact (s.tile d p).gran_spNext⟩
  case write =>
    obtain ⟨t, he, ha, ht⟩ := spData_write hm hd hp hs w hmay hopen
    exact ⟨t, he, ha, by rw [ht]; exact (s.tile d p).iof_spWrite 4 w,
      by rw [ht]; exact Tile.gr_spWrite_codeword 4 w hx (hflip _)⟩
  case denied =>
    obtain ⟨t, he, hout, hbut, hkept, ht⟩ := spData_write_denied hm hd hp hs w hmay hclosed
    exact ⟨t, he, hout, hbut, hkept, by rw [ht]; exact (s.tile d p).gran_spNext, by rw [ht]; exact (s.tile d p).iof_spNext⟩

end Sys2Proof.Machine
end

section
/-!
SUPPORT. Words as the numbers they stand for (R204, R205), and the alu's sums, differences and saturating operations
(R196, R207, R208, R211).
-/
namespace Sys2Proof.Machine

/-! ## Words and numbers -/

/-- The signed values of a word (R205). -/
theorem word_toInt_range (a : Word) : -(2 ^ 35) ≤ a.toInt ∧ a.toInt < 2 ^ 35 := ⟨a.le_toInt, BitVec.toInt_lt⟩

theorem wd_toNat_add (a t : Word) : wd (a.toNat + t.toNat) = a + t := by
  rw [wd, BitVec.ofNat_add, BitVec.ofNat_toNat, BitVec.ofNat_toNat, BitVec.setWidth_eq, BitVec.setWidth_eq]

theorem wdI_toNat_sub (a t : Word) : wdI ((a.toNat : Int) - t.toNat) = a - t := by
  rw [wdI, Int.sub_eq_add_neg, BitVec.ofInt_add, BitVec.ofInt_neg, BitVec.ofInt_natCast, BitVec.ofInt_natCast,
    BitVec.ofNat_toNat, BitVec.ofNat_toNat, BitVec.setWidth_eq, BitVec.setWidth_eq, BitVec.sub_eq_add_neg]

/-- A word made from an integer in its signed range has that value. -/
theorem toInt_wdI {y : Int} (hlo : -(2 ^ 35) ≤ y) (hhi : y < 2 ^ 35) : (wdI y).toInt = y :=
  BitVec.toInt_ofInt_eq_self (by decide) hlo hhi

theorem toNat_wd {n : Nat} (h : n < 2 ^ 36) : (wd n).toNat = n := by
  rw [wd, BitVec.toNat_ofNat, Nat.mod_eq_of_lt h]

theorem bitOf_wd {n i : Nat} (hi : i < 36) : bitOf (wd n) i = n.testBit i := by
  rw [bitOf, wd, BitVec.getLsbD_ofNat, decide_eq_true hi, Bool.true_and]

/-- The sign bit tells a negative word. -/
theorem bitOf_sign (a : Word) : bitOf a 35 = decide (a.toInt < 0) := by
  rw [← BitVec.msb_eq_toInt, BitVec.msb_eq_getLsbD_last]; rfl

/-! ## Sums and differences -/

section
variable {op : Nat} {ovf : Bool} (a b t : Word)

/-- add and addv differ in the trap alone (R208). -/
theorem aluOp_sum (h : (op, ovf) ∈ [(0x01, false), (0x05, true)]) :
    aluOp op a b t = some (addOut (a.toNat + t.toNat) (a.toInt + t.toInt) ovf) := by
  simp only [List.mem_cons, Prod.mk.injEq, List.not_mem_nil, or_false] at h
  obtain ⟨rfl, rfl⟩ | ⟨rfl, rfl⟩ := h <;> rfl

/-- sub and subv differ in the trap alone (R208). -/
theorem aluOp_difference (h : (op, ovf) ∈ [(0x02, false), (0x06, true)]) :
    aluOp op a b t = some (subOut ((a.toNat : Int) - t.toNat) (a.toInt - t.toInt) ovf) := by
  simp only [List.mem_cons, Prod.mk.injEq, List.not_mem_nil, or_false] at h
  obtain ⟨rfl, rfl⟩ | ⟨rfl, rfl⟩ := h <;> rfl

/-- A borrow is an unsigned difference below 0. -/
theorem borrow_iff : ((a.toNat : Int) - t.toNat < 0) ↔ a.toNat < t.toNat := by omega

end

/-! ## Saturation (R211) -/

/-- adds and subs clamp the exact value to a word's signed range, and set v when that changes it. -/
theorem satS_spec (y : Int) : (satS y).r.toInt = max (-(2 ^ 35)) (min (2 ^ 35 - 1) y) ∧
    (satS y).v = decide ((satS y).r.toInt ≠ y) := by
  have hmax : wMax.toInt = 2 ^ 35 - 1 := by decide
  have hmin : wMin.toInt = -(2 ^ 35) := by decide
  unfold satS
  split
  case isTrue habove => exact ⟨by dsimp only; omega, (decide_eq_true (by dsimp only; omega)).symm⟩
  case isFalse hhi =>
    split
    case isTrue hbelow => exact ⟨by dsimp only; omega, (decide_eq_true (by dsimp only; omega)).symm⟩
    case isFalse hlo =>
      have hin : (wdI y).toInt = y := toInt_wdI (by omega) (by omega)
      exact ⟨by dsimp only; omega, (decide_eq_false (not_not_intro hin)).symm⟩

/-- addus clamps the unsigned sum to ONES. -/
theorem aluOp_addus (a b t : Word) : ∃ x, aluOp 0x3A a b t = some x ∧
    x.r.toNat = min (2 ^ 36 - 1) (a.toNat + t.toNat) ∧ x.c = decide (2 ^ 36 ≤ a.toNat + t.toNat) := by
  refine ⟨_, rfl, ?_⟩
  have hones : wOnes.toNat = 2 ^ 36 - 1 := rfl
  split
  case isTrue hover => exact ⟨by dsimp only; omega, (decide_eq_true (by omega)).symm⟩
  case isFalse hfits =>
    have hsum : (a + t).toNat = a.toNat + t.toNat := BitVec.toNat_add_of_lt (by omega)
    exact ⟨by dsimp only [aluPlain]; omega, (decide_eq_false (by omega)).symm⟩

/-- subus clamps the unsigned difference to 0. -/
theorem aluOp_subus (a b t : Word) : ∃ x, aluOp 0x3B a b t = some x ∧
    x.r.toNat = a.toNat - t.toNat ∧ x.c = decide (a.toNat < t.toNat) := by
  refine ⟨_, rfl, ?_⟩
  split
  case isTrue hless => exact ⟨(Nat.sub_eq_zero_of_le hless.le).symm, (decide_eq_true hless).symm⟩
  case isFalse hmore => exact ⟨BitVec.toNat_sub_of_le (Nat.le_of_not_lt hmore), (decide_eq_false hmore).symm⟩

/-! ## Overflow traps -/

/-- With TCR.OVE = 1 an operation with the OVF trap that overflows traps (R208). -/
theorem Tile.aluFx_traps {u : Tile} {b op : Nat} {w : Word} {x : AluOut} (lvl c : Nat)
    (hx : aluOp op (u.sk b) (u.sk (b + 1)) w = some x) (hovf : x.ovf = true) (hv : x.v = true)
    (hove : bitOf u.tcr 4 = true) : u.aluFx lvl b op c w = .error (7, op * 256 + b + 2) := by
  unfold Tile.aluFx
  rw [hx]
  exact if_pos (by rw [hovf, hv, hove]; rfl)

end Sys2Proof.Machine
end

section
/-!
SUPPORT. Quotients and remainders of the div unit (R215).
-/
namespace Sys2Proof.Machine

/-! ## Integer division toward zero -/

/-- A quotient toward zero of two words' values is one too, apart from −2^35 divided by −1. -/
theorem tdiv_range {a t : Int} (hlo : -(2 ^ 35) ≤ a) (hhi : a < 2 ^ 35) (ht : t ≠ 0)
    (hcorner : ¬ (a = -(2 ^ 35) ∧ t = -1)) : -(2 ^ 35) ≤ a.tdiv t ∧ a.tdiv t < 2 ^ 35 := by
  by_cases hone : t = -1
  · rw [hone, Int.tdiv_neg, Int.tdiv_one]
    omega
  · have hle : (a.tdiv t).natAbs ≤ a.natAbs := Int.natAbs_tdiv_le_natAbs a t
    by_cases hmin : a.tdiv t = 2 ^ 35
    · have hprod : t * 2 ^ 35 + a.tmod t = a := hmin ▸ Int.mul_tdiv_add_tmod a t
      have hrem : (a.tmod t).natAbs < t.natAbs := by
        rw [Int.natAbs_tmod]; exact Nat.mod_lt _ (Int.natAbs_pos.mpr ht)
      omega
    · omega

/-- A remainder of a division toward zero is 0 or has the dividend's sign. -/
theorem tmod_sign (a t : Int) : a.tmod t = 0 ∨ (a.tmod t < 0 ↔ a < 0) := by
  rcases Int.le_total 0 a with ha | ha
  · have := Int.tmod_nonneg t ha
    omega
  · have hneg := Int.tmod_nonneg t (Int.neg_nonneg_of_nonpos ha)
    rw [Int.neg_tmod] at hneg
    by_cases h0 : a = 0
    · exact .inl (by rw [h0, Int.zero_tmod])
    · omega

/-! ## divs and divu -/

/-- divs by 0 gives MAX or MIN by the dividend's sign, keeps the dividend as remainder and names DIVZ. -/
theorem divOp_divs_zero (a : Word) :
    divOp 0 a 0 = some ⟨if a.toInt < 0 then 0x800000000 else 0x7FFFFFFFF, a, true, false, 6⟩ := by
  have hq : (if bitOf a 35 then wMin else wMax) = if a.toInt < 0 then 0x800000000 else 0x7FFFFFFFF := by
    simp only [bitOf_sign, decide_eq_true_eq, wMin, wMax]
  rw [← hq]
  rfl

/-- MIN divided by −1 gives MIN, remainder 0, and names OVF. -/
theorem divOp_divs_corner {a t : Word} (ha : a.toInt = -(2 ^ 35)) (ht : t.toInt = -1) :
    divOp 0 a t = some ⟨a, 0, false, true, 7⟩ := by
  obtain rfl : a = wMin := BitVec.eq_of_toInt_eq (ha.trans (by decide))
  obtain rfl : t = wOnes := BitVec.eq_of_toInt_eq (ht.trans (by decide))
  rfl

/-- Apart from the two corners divs gives the quotient toward zero and its remainder, and names no trap. -/
theorem divOp_divs {a t : Word} (ht : t ≠ 0) (hcorner : ¬ (a.toInt = -(2 ^ 35) ∧ t.toInt = -1)) :
    divOp 0 a t = some ⟨wdI (a.toInt.tdiv t.toInt), wdI (a.toInt.tmod t.toInt), false, false, 0⟩ := by
  have hwords : ¬ (a = wMin ∧ t = wOnes) := by
    rintro ⟨rfl, rfl⟩
    exact hcorner ⟨by decide, by decide⟩
  rw [Int.tmod_def, Int.mul_comm]
  exact (if_neg ht).trans (if_neg hwords)

/-- The quotient and remainder of divs as numbers. -/
theorem divs_spec {a t : Word} (ht : t ≠ 0) (hcorner : ¬ (a.toInt = -(2 ^ 35) ∧ t.toInt = -1)) :
    ∃ x, divOp 0 a t = some x ∧
      a.toInt = x.q.toInt * t.toInt + x.rm.toInt ∧ x.rm.toInt.natAbs < t.toInt.natAbs ∧
      (x.rm = 0 ∨ (x.rm.toInt < 0 ↔ a.toInt < 0)) ∧ x.c = false ∧ x.v = false ∧ x.trap = 0 := by
  obtain ⟨halo, hahi⟩ := word_toInt_range a
  obtain ⟨htlo, hthi⟩ := word_toInt_range t
  have hti : t.toInt ≠ 0 := fun h => ht (BitVec.eq_of_toInt_eq h)
  obtain ⟨hqlo, hqhi⟩ := tdiv_range halo hahi hti hcorner
  have hrem : (a.toInt.tmod t.toInt).natAbs < t.toInt.natAbs := by
    rw [Int.natAbs_tmod]; exact Nat.mod_lt _ (Int.natAbs_pos.mpr hti)
  have hq : (wdI (a.toInt.tdiv t.toInt)).toInt = a.toInt.tdiv t.toInt := toInt_wdI hqlo hqhi
  have hr : (wdI (a.toInt.tmod t.toInt)).toInt = a.toInt.tmod t.toInt := toInt_wdI (by omega) (by omega)
  refine ⟨_, divOp_divs ht hcorner, ?_, ?_, ?_, rfl, rfl, rfl⟩
  · dsimp only
    rw [hq, hr, Int.mul_comm, Int.mul_tdiv_add_tmod]
  · dsimp only
    rw [hr]
    exact hrem
  · dsimp only
    rw [hr]
    exact (tmod_sign a.toInt t.toInt).imp_left fun h0 => by rw [h0]; rfl

/-- The quotient and remainder of divu as numbers. -/
theorem divu_spec {a t : Word} (ht : t ≠ 0) :
    ∃ x, divOp 1 a t = some x ∧ a.toNat = x.q.toNat * t.toNat + x.rm.toNat ∧ x.rm.toNat < t.toNat ∧
      x.c = false ∧ x.trap = 0 := by
  have hpos : 0 < t.toNat := Nat.pos_of_ne_zero fun h => ht (BitVec.eq_of_toNat_eq h)
  have hmod : a.toNat % t.toNat < t.toNat := Nat.mod_lt _ hpos
  have hq : (wd (a.toNat / t.toNat)).toNat = a.toNat / t.toNat :=
    toNat_wd (Nat.lt_of_le_of_lt (Nat.div_le_self ..) a.isLt)
  have hr : (wd (a.toNat % t.toNat)).toNat = a.toNat % t.toNat := toNat_wd (hmod.trans t.isLt)
  refine ⟨_, if_neg ht, ?_, ?_, rfl, rfl⟩
  · dsimp only
    rw [hq, hr, Nat.mul_comm, Nat.div_add_mod]
  · dsimp only
    rw [hr]
    exact hmod

/-! ## Traps -/

section
variable {u : Tile} {op : Nat} {w : Word} {x : DivOut} (lvl c : Nat) (hx : divOp op (u.sk 0x78) w = some x)
include hx

/-- With TCR.DZE = 1 a division that names DIVZ traps. -/
theorem Tile.divFx_traps_divz (htrap : x.trap = 6) (hdze : bitOf u.tcr 5 = true) :
    u.divFx lvl op c w = .error (6, op * 256 + 0x79) := by
  unfold Tile.divFx
  rw [hx]
  exact if_pos ⟨htrap, hdze⟩

/-- With TCR.OVE = 1 a division that names OVF traps. -/
theorem Tile.divFx_traps_ovf (htrap : x.trap = 7) (hove : bitOf u.tcr 4 = true) :
    u.divFx lvl op c w = .error (7, op * 256 + 0x79) := by
  unfold Tile.divFx
  rw [hx]
  exact (if_neg fun h => absurd (htrap.symm.trans h.1) (by decide)).trans (if_pos ⟨htrap, hove⟩)

end

end Sys2Proof.Machine
end

section
/-!
SUPPORT. Products and accumulation of the mac units (R217, R218).
-/
namespace Sys2Proof.Machine

/-- A 72-bit vector made from an integer is that integer modulo 2^72. -/
theorem toNat_ofInt_72 (p : Int) : ((BitVec.ofInt 72 p).toNat : Int) = p % 2 ^ 72 := by
  rw [BitVec.toNat_ofInt]
  omega

/-- Accumulation of an integer is modulo 2^72. -/
theorem toNat_add_ofInt_72 (acc : BitVec 72) (p : Int) :
    ((acc + BitVec.ofInt 72 p).toNat : Int) = (acc.toNat + p) % 2 ^ 72 := by
  rw [← toNat_ofInt_72, BitVec.ofInt_add, BitVec.ofInt_natCast, BitVec.ofNat_toNat, BitVec.setWidth_eq]

/-- An unsigned product as the integer that it is. -/
theorem ofNat_mul_72 (m n : Nat) : BitVec.ofNat 72 (m * n) = BitVec.ofInt 72 ((m : Int) * n) := by
  rw [← Int.natCast_mul, BitVec.ofInt_natCast]

section
variable {a t : Word} {op : Nat} {p : Int} (acc : BitVec 72)

/-- mul, mulu and mulsu give the product p and leave the accumulator. -/
theorem macOp_product
    (h : (op, p) ∈ [(0x00, a.toInt * t.toInt), (0x01, (a.toNat : Int) * t.toNat), (0x02, a.toInt * t.toNat)]) :
    macOp op a t acc = some ⟨acc, BitVec.ofInt 72 p⟩ := by
  simp only [List.mem_cons, Prod.mk.injEq, List.not_mem_nil, or_false] at h
  obtain ⟨rfl, rfl⟩ | ⟨rfl, rfl⟩ | ⟨rfl, rfl⟩ := h
  case inr.inl => rw [← ofNat_mul_72]; rfl
  all_goals rfl

/-- mac, macu, msub, msubu and dot4u add p to the accumulator, where a subtraction's p is the product's negative. -/
theorem macOp_accumulates
    (h : (op, p) ∈ [(0x04, a.toInt * t.toInt), (0x05, (a.toNat : Int) * t.toNat),
      (0x06, -(a.toInt * t.toInt)), (0x07, -((a.toNat : Int) * t.toNat)),
      (0x0C, (nonet a 0 : Int) * nonet t 0 + nonet a 1 * nonet t 1 + nonet a 2 * nonet t 2 + nonet a 3 * nonet t 3)]) :
    macOp op a t acc = some ⟨acc + BitVec.ofInt 72 p, acc + BitVec.ofInt 72 p⟩ := by
  simp only [List.mem_cons, Prod.mk.injEq, List.not_mem_nil, or_false] at h
  obtain ⟨rfl, rfl⟩ | ⟨rfl, rfl⟩ | ⟨rfl, rfl⟩ | ⟨rfl, rfl⟩ | ⟨rfl, rfl⟩ := h
  · rfl
  · rw [← ofNat_mul_72]; rfl
  · rw [BitVec.ofInt_neg, ← BitVec.sub_eq_add_neg]; rfl
  · rw [BitVec.ofInt_neg, ← ofNat_mul_72, ← BitVec.sub_eq_add_neg]; rfl
  · rfl

end

end Sys2Proof.Machine
end

section
/-!
SUPPORT. Fields, counts and permutations of the bfu and prm units (R224, R225, R227).
-/
namespace Sys2Proof.Machine

/-! ## Fields (R225) -/

/-- The ones of the w bits from pos on, as far as a word reaches. -/
def fieldMask (pos w : Nat) : Word := wd ((2 ^ w - 1) <<< pos)

theorem bitOf_fieldMask (pos w : Nat) {i : Nat} (hi : i < 36) :
    bitOf (fieldMask pos w) i = decide (pos ≤ i ∧ i < pos + w) := by
  have hw : pos ≤ i → (i - pos < w ↔ i < pos + w) := by omega
  rw [fieldMask, bitOf_wd hi, Nat.testBit_shiftLeft, Nat.testBit_two_pow_sub_one, Bool.decide_and]
  by_cases hpos : pos ≤ i <;> simp [hpos, hw]

section
variable (a b t : Word)

/-- The low w bits of a number are 0 for w = 0, which the model states apart. -/
theorem lowBits_eq_ite (w x : Nat) : (if w = 0 then 0 else x % 2 ^ w) = x % 2 ^ w :=
  ite_eq_right_iff.mpr fun h => by rw [h, Nat.pow_zero, Nat.mod_one]

/-- So is the mask of a field of no bits. -/
theorem fieldMask_eq_ite (pos w : Nat) : (if w = 0 then 0 else wd ((2 ^ w - 1) <<< pos)) = fieldMask pos w := by
  split
  · next h => rw [h, fieldMask]; simp [wd]
  · rfl

theorem bfuOp_ext : bfuOp 0x00 a b t = some (wd ((a.toNat >>> (fieldCtl t).1) % 2 ^ (fieldCtl t).2)) :=
  congrArg some ((apply_ite wd ..).symm.trans (congrArg wd (lowBits_eq_ite ..)))

theorem bfuOp_msk : bfuOp 0x03 a b t = some (fieldMask (fieldCtl t).1 (fieldCtl t).2) :=
  congrArg some (fieldMask_eq_ite ..)

theorem bfuOp_ins : bfuOp 0x02 a b t = some ((b &&& ~~~fieldMask (fieldCtl t).1 (fieldCtl t).2) |||
    (wd ((a.toNat % 2 ^ (fieldCtl t).2) <<< (fieldCtl t).1) &&& fieldMask (fieldCtl t).1 (fieldCtl t).2)) := by
  rw [← fieldMask_eq_ite, ← lowBits_eq_ite]
  rfl

end

/-- The bits that ext takes: those of the field, moved down. -/
theorem bitOf_ext (a : Word) (pos w : Nat) {i : Nat} (hi : i < 36) :
    bitOf (wd ((a.toNat >>> pos) % 2 ^ w)) i = (decide (i < w) && decide (pos + i < 36) && bitOf a (pos + i)) := by
  rw [bitOf_wd hi, Nat.testBit_mod_two_pow, Nat.testBit_shiftRight, BitVec.testBit_toNat, Bool.and_assoc]
  by_cases h : pos + i < 36
  · rw [decide_eq_true h, Bool.true_and, bitOf]
  · rw [decide_eq_false h, Bool.false_and, BitVec.getLsbD_of_ge _ _ (Nat.le_of_not_lt h)]

/-- The bits of ins: b's outside the field, the low bits of a in it. -/
theorem bitOf_ins (a b : Word) (pos w : Nat) {i : Nat} (hi : i < 36) :
    bitOf ((b &&& ~~~fieldMask pos w) ||| (wd ((a.toNat % 2 ^ w) <<< pos) &&& fieldMask pos w)) i =
      if pos ≤ i ∧ i < pos + w then bitOf a (i - pos) else bitOf b i := by
  have hmask : (fieldMask pos w).getLsbD i = decide (pos ≤ i ∧ i < pos + w) := bitOf_fieldMask pos w hi
  have hmoved : (wd ((a.toNat % 2 ^ w) <<< pos)).getLsbD i = ((a.toNat % 2 ^ w) <<< pos).testBit i := bitOf_wd hi
  rw [bitOf, BitVec.getLsbD_or, BitVec.getLsbD_and, BitVec.getLsbD_and, BitVec.getLsbD_not, hmask, hmoved, decide_eq_true hi]
  split
  · next hin =>
    have hlow : i - pos < w := by omega
    simp [hin, hlow, bitOf, Nat.testBit_shiftLeft, Nat.testBit_mod_two_pow, BitVec.testBit_toNat]
  · next hout => simp [decide_eq_false hout, bitOf]

/-- ext, ins and msk bit for bit. -/
theorem fields_spec (a b t : Word) (pos w : Nat) (hpos : pos = fld t 5 0) (hw : w = min (fld t 11 6) 36) :
    ∃ e n k, bfuOp 0x00 a b t = some e ∧ bfuOp 0x02 a b t = some n ∧ bfuOp 0x03 a b t = some k ∧
      ∀ i, i < 36 → bitOf e i = (decide (i < w) && decide (pos + i < 36) && bitOf a (pos + i)) ∧
        bitOf n i = (if pos ≤ i ∧ i < pos + w then bitOf a (i - pos) else bitOf b i) ∧
        bitOf k i = decide (pos ≤ i ∧ i < pos + w) := by
  subst hpos hw
  exact ⟨_, _, _, bfuOp_ext a b t, bfuOp_ins a b t, bfuOp_msk a b t,
    fun i hi => ⟨bitOf_ext a _ _ hi, bitOf_ins a b _ _ hi, bitOf_fieldMask _ _ hi⟩⟩

/-! ## Counts (R224) -/

/-- A population count is the number of bits set. -/
theorem popCount_eq_length (n x : Nat) : popCount n x = ((List.range n).filter x.testBit).length := by
  induction n with
  | zero => rfl
  | succ n ih =>
    have hbit : (x >>> n) % 2 = (x.testBit n).toNat := by rw [Nat.toNat_testBit, Nat.shiftRight_eq_div_pow]
    have hlast : ([n].filter x.testBit).length = (x.testBit n).toNat := by
      cases h : x.testBit n <;> simp [h]
    rw [popCount] at ih ⊢
    rw [List.range_succ, List.foldl_append, ih, List.filter_append, List.length_append, hlast, ← hbit]
    rfl

theorem popcount_spec (a b t : Word) :
    ∃ n, bfuOp 0x06 a b t = some n ∧ n.toNat = ((List.range 36).filter (fun i => bitOf t i)).length := by
  have hle : popCount 36 t.toNat ≤ 36 := by
    rw [popCount_eq_length]
    exact (List.length_filter_le ..).trans_eq List.length_range
  refine ⟨_, rfl, ?_⟩
  rw [toNat_wd (by omega), popCount_eq_length]
  rfl

/-! ## Permutations (R227) -/

theorem nonet_lt (w : Word) (k : Nat) : nonet w k < 512 :=
  (fld_lt ..).trans_eq (congrArg (2 ^ ·) (by omega : 9 * k + 8 + 1 - 9 * k = 9))

/-- A word reads back the nonets that it is put together from. -/
theorem nonet_ofNonets {f : Nat → Nat} (hf : ∀ j, f j < 512) {i : Nat} (hi : i < 4) :
    nonet (ofNonets (f 0) (f 1) (f 2) (f 3)) i = f i := by
  have h0 := hf 0
  have h1 := hf 1
  have h2 := hf 2
  have h3 := hf 3
  rw [nonet, fld, ofNonets, toNat_wd (by omega), Nat.shiftRight_eq_div_pow]
  obtain rfl | rfl | rfl | rfl : i = 0 ∨ i = 1 ∨ i = 2 ∨ i = 3 := by omega
  all_goals omega

/-- Nonet i of a zip of the nonets from k on (zipl for k = 0, zipr for k = 2). -/
def zipNonet (a t : Word) (k i : Nat) : Nat := if i % 2 = 0 then nonet a (k + i / 2) else nonet t (k + i / 2)

theorem zipNonet_lt (a t : Word) (k i : Nat) : zipNonet a t k i < 512 := by
  unfold zipNonet
  split <;> exact nonet_lt ..

/-- Nonet i of an unzip of the even (k = 0) or odd (k = 1) nonets. -/
def unzipNonet (a t : Word) (k i : Nat) : Nat := if i < 2 then nonet a (2 * i + k) else nonet t (2 * i + k - 4)

theorem unzipNonet_lt (a t : Word) (k i : Nat) : unzipNonet a t k i < 512 := by
  unfold unzipNonet
  split <;> exact nonet_lt ..

theorem natB_le_one (b : Bool) : natB b ≤ 1 := by cases b <;> decide

theorem permNonet_lt (bp : Bool) (a b t : Word) (i : Nat) : permNonet bp a b t i < 512 := by
  have ha := nonet_lt a (fld t (3 * i + 2) (3 * i))
  have hb := nonet_lt b (fld t (3 * i + 2) (3 * i) - 4)
  have hn := natB_le_one (bitOf t (16 + i))
  unfold permNonet
  dsimp only
  split_ifs <;> omega

/-- bperm takes nperm's nonet for its low bits. -/
theorem permNonet_true (a b t : Word) (i : Nat) : permNonet true a b t i =
    if bitOf t (12 + i) then 0 else permNonet false a b t i % 256 + 256 * natB (bitOf t (16 + i)) := by
  simp only [permNonet, if_true, Bool.false_eq_true, if_false]
  split <;> rfl

/-- nperm, bperm, the zips and the unzips nonet for nonet. -/
theorem permutations_spec (a b t : Word) (i : Nat) (hi : i < 4) :
    ∃ x y z h e o, prmOp 0 a b t = some x ∧ prmOp 1 a b t = some y ∧ prmOp 0x08 a b t = some z ∧
      prmOp 0x09 a b t = some h ∧ prmOp 0x0A a b t = some e ∧ prmOp 0x0B a b t = some o ∧
      nonet x i = (if bitOf t (12 + i) then 0 else
        if fld t (3 * i + 2) (3 * i) < 4 then nonet a (fld t (3 * i + 2) (3 * i))
        else nonet b (fld t (3 * i + 2) (3 * i) - 4)) ∧
      nonet y i = (if bitOf t (12 + i) then 0 else nonet x i % 256 + 256 * natB (bitOf t (16 + i))) ∧
      nonet z i = (if i % 2 = 0 then nonet a (i / 2) else nonet t (i / 2)) ∧
      nonet h i = (if i % 2 = 0 then nonet a (2 + i / 2) else nonet t (2 + i / 2)) ∧
      nonet e i = (if i < 2 then nonet a (2 * i) else nonet t (2 * i - 4)) ∧
      nonet o i = (if i < 2 then nonet a (2 * i + 1) else nonet t (2 * i - 3)) := by
  have hperm (bp : Bool) := nonet_ofNonets (permNonet_lt bp a b t) hi
  have hzip (k : Nat) := nonet_ofNonets (zipNonet_lt a t k) hi
  have hunzip (k : Nat) := nonet_ofNonets (unzipNonet_lt a t k) hi
  refine ⟨_, _, _, _, _, _, rfl, rfl, rfl, rfl, rfl, rfl, hperm false, ?_, ?_, hzip 2, hunzip 0, hunzip 1⟩
  · rw [hperm true, hperm false, permNonet_true]
  · exact (hzip 0).trans (by rw [zipNonet, Nat.zero_add])

end Sys2Proof.Machine
end

section
/-!
SETTLES O19. The arithmetic, bit-field and permute units over all operands (spec/05).
-/
namespace Sys2Proof.Machine

/-- Settles O19: the sums, the saturating operations and their traps, quotients, products, fields and permutations, each by
the lemma that says what its operation gives. -/
theorem aluArithmetic : Obligations.AluArithmetic := by
  refine ⟨fun a b t op ovf h => ?sum, fun a b t op ovf h => ?difference, fun a b t => ?plain,
    fun u lvl b op c w x hx hovf hv hove => Tile.aluFx_traps lvl c hx hovf hv hove,
    fun a t => ?quotients,
    fun u lvl op c w x hx => ⟨Tile.divFx_traps_divz lvl c hx, Tile.divFx_traps_ovf lvl c hx⟩,
    fun a t acc p => ?products, fields_spec, popcount_spec, permutations_spec⟩
  case sum => exact ⟨_, aluOp_sum a b t h, wd_toNat_add a t, rfl, rfl, rfl⟩
  case difference => exact ⟨_, aluOp_difference a b t h, wdI_toNat_sub a t, decide_eq_decide.mpr (borrow_iff a t), rfl, rfl⟩
  case plain =>
    exact ⟨⟨_, rfl, rfl, rfl⟩, ⟨_, rfl, rfl, rfl⟩, ⟨_, rfl, rfl, rfl⟩, ⟨_, rfl, rfl, rfl⟩, ⟨_, rfl, satS_spec _⟩,
      ⟨_, rfl, satS_spec _⟩, aluOp_addus a b t, aluOp_subus a b t⟩
  case quotients =>
    refine ⟨?_, fun ha ht => ⟨_, divOp_divs_corner ha ht, rfl, rfl, rfl, rfl, rfl⟩, divs_spec, ?_, divu_spec⟩
    · rintro rfl
      exact ⟨_, divOp_divs_zero a, rfl, rfl, rfl, rfl, rfl⟩
    · rintro rfl
      exact ⟨_, rfl, rfl, rfl, rfl, rfl⟩
  case products =>
    exact ⟨fun op h => ⟨_, macOp_product acc h, rfl, toNat_ofInt_72 p⟩,
      fun op h => ⟨_, macOp_accumulates acc h, rfl, toNat_add_ofInt_72 acc p⟩⟩

end Sys2Proof.Machine
end

section
/-!
SETTLES O14. TILE_POP: head words discarded from lookup streams and inbounds (R264, R281).
-/
namespace Sys2Proof.Machine

/-! ## The bits of a word under a mask -/

/-- Under the mask of a field a word has the bits of the field, and no others. -/
theorem bitOf_and_maskOf (w : Word) {hi lo : Nat} (i : Nat) (h : hi < 36) :
    bitOf (w &&& maskOf hi lo) i = (bitOf w i && decide (lo ≤ i ∧ i ≤ hi)) := by
  simp only [bitOf, maskOf, BitVec.getLsbD_and, BitVec.getLsbD_ofNat, Nat.testBit_shiftLeft, Nat.testBit_two_pow_sub_one]
  congr 1
  by_cases hlo : lo ≤ i
  · by_cases hhi : i ≤ hi
    · have h1 : i < 36 := by omega
      have h2 : i - lo < hi + 1 - lo := by omega
      simp [hlo, hhi, h1, h2]
    · have h2 : ¬ i - lo < hi + 1 - lo := by omega
      simp [hhi, h2]
  · simp [hlo]

/-! ## Heads of ports discarded -/

/-- The words of a port, in order, as the statements count them. -/
theorem filter_popPort (l : List WordAt) (j i : Nat) :
    (popPort l j).filter (fun (x : WordAt) => x.port == i) =
      if i = j then (l.filter (fun (x : WordAt) => x.port == i)).tail else l.filter (fun (x : WordAt) => x.port == i) := by
  induction l with
  | nil => simp [popPort]
  | cons x r ih =>
    unfold popPort
    by_cases hx : x.port = j
    · by_cases hi : i = j
      · simp [hx, hi]
      · have : j ≠ i := fun e => hi e.symm
        simp [hx, hi, this]
    · rw [if_neg hx, List.filter_cons, List.filter_cons, ih]
      by_cases hi : i = j
      · simp [hi, hx]
      · simp [hi]

/-- Heads discarded of the ports of a list that b names: each such port loses its first word, any other none. -/
theorem filter_popPorts (b : Nat → Bool) (i : Nat) : ∀ (js : List Nat), js.Nodup → ∀ (l : List WordAt),
    (js.foldl (fun l j => if b j then popPort l j else l) l).filter (fun (x : WordAt) => x.port == i) =
      if i ∈ js ∧ b i = true then (l.filter (fun (x : WordAt) => x.port == i)).tail
      else l.filter (fun (x : WordAt) => x.port == i)
  | [], _, l => by simp
  | j :: js, hjs, l => by
    obtain ⟨hj, hjs⟩ := List.nodup_cons.mp hjs
    have hone : (if b j then popPort l j else l).filter (fun (x : WordAt) => x.port == i) =
        if i = j ∧ b i = true then (l.filter (fun (x : WordAt) => x.port == i)).tail
        else l.filter (fun (x : WordAt) => x.port == i) := by
      by_cases hi : i = j
      · subst hi; by_cases hb : b i <;> simp [hb, filter_popPort]
      · by_cases hb : b j <;> simp [hb, hi, filter_popPort]
    rw [List.foldl_cons, filter_popPorts b i js hjs, hone]
    by_cases hi : i = j
    · subst hi; simp [hj]
    · simp [hi]

/-- Where b names none of them nothing is discarded. -/
theorem popPorts_none {b : Nat → Bool} {js : List Nat} (h : ∀ j ∈ js, b j = false) (l : List WordAt) :
    js.foldl (fun l j => if b j then popPort l j else l) l = l := by
  induction js with
  | nil => rfl
  | cons j js ih =>
    rw [List.foldl_cons, h j (by simp), if_neg Bool.false_ne_true]
    exact ih (fun k hk => h k (by simp [hk]))

namespace Tile

/-- DROPLK (R264). -/
theorem filter_dropLk (t : Tile) (w : Word) {i : Nat} (hi : i < 4) :
    (t.dropLk w).lkw.filter (fun (x : WordAt) => x.port == i) =
      if bitOf w i then (t.lkw.filter (fun (x : WordAt) => x.port == i)).tail
      else t.lkw.filter (fun (x : WordAt) => x.port == i) := by
  rw [dropLk, filter_popPorts (bitOf w) i _ List.nodup_range]
  simp [hi]

/-- DROPIN (R281). -/
theorem filter_dropIn (t : Tile) (w : Word) {i : Nat} (hi : i < 8) :
    (t.dropIn w).inb.filter (fun (x : WordAt) => x.port == i) =
      if bitOf w (4 + i) then (t.inb.filter (fun (x : WordAt) => x.port == i)).tail
      else t.inb.filter (fun (x : WordAt) => x.port == i) := by
  rw [dropIn, filter_popPorts (fun j => bitOf w (4 + j)) i _ List.nodup_range]
  simp [hi]

/-- With no bit of DROPLK a write of TILE_POP leaves the streams. -/
theorem dropLk_none (t : Tile) {w : Word} (h : ∀ i, i < 4 → bitOf w i = false) : (t.dropLk w).lkw = t.lkw :=
  popPorts_none (fun j hj => h j (List.mem_range.mp hj)) t.lkw

/-- With no bit of DROPIN it leaves the inbounds. -/
theorem dropIn_none (t : Tile) {w : Word} (h : ∀ i, i < 8 → bitOf w (4 + i) = false) : (t.dropIn w).inb = t.inb :=
  popPorts_none (b := fun j => bitOf w (4 + j)) (fun j hj => h j (List.mem_range.mp hj)) t.inb

end Tile

/-- Settles O14: both commands are permitted writes of TILE_POP, one with the bits of DROPLK alone, one with those of DROPIN. -/
theorem popDiscardsHeads : Obligations.PopDiscardsHeads := by
  intro s m d p w hm hd hp hs hw
  have hok : (masterOk m && dieOk d && tileOk p) = true := by simp [hm, dieOk, tileOk, hd, hp]
  have hreg : (tileReg p 0x2C).isSome = true := by rw [tileReg, if_neg (by simp)]; rfl
  have hpop (v : Word) : (s.tile d p).regWrite s.tick d p 0x2C 4 v = ((s.tile d p).dropLk v).dropIn v := rfl
  constructor
  · obtain ⟨t, he, ha, ht⟩ := tile_write (i := .droplk m d p w) rfl hok hm hd hp (by decide) (by decide) (by decide) hreg hs hw
    have hbit (i : Nat) : bitOf (w &&& maskOf 3 0) i = (bitOf w i && decide (0 ≤ i ∧ i ≤ 3)) :=
      bitOf_and_maskOf w i (by decide)
    rw [hpop] at ht
    refine ⟨t, he, ha, by rw [ht]; rfl, ?_, fun i hi => ?_⟩ <;> rw [ht]
    · exact Tile.dropIn_none _ (fun i _ => by rw [hbit, decide_eq_false (by omega), Bool.and_false])
    · have := (s.tile d p).filter_dropLk (w &&& maskOf 3 0) hi
      rwa [hbit, decide_eq_true (by omega), Bool.and_true] at this
  · obtain ⟨t, he, ha, ht⟩ := tile_write (i := .dropin m d p w) rfl hok hm hd hp (by decide) (by decide) (by decide) hreg hs hw
    have hbit (i : Nat) : bitOf (w &&& maskOf 11 4) i = (bitOf w i && decide (4 ≤ i ∧ i ≤ 11)) :=
      bitOf_and_maskOf w i (by decide)
    rw [hpop] at ht
    refine ⟨t, he, ha, by rw [ht]; rfl, ?_, fun i hi => ?_⟩ <;> rw [ht]
    · exact Tile.dropLk_none _ (fun i _ => by rw [hbit, decide_eq_false (by omega), Bool.and_false])
    · have := ((s.tile d p).dropLk (w &&& maskOf 11 4)).filter_dropIn (w &&& maskOf 11 4) hi
      rwa [hbit, decide_eq_true (by omega), Bool.and_true] at this

end Sys2Proof.Machine
end

section
/-!
SETTLES O32. A flit reaches an inbound of a tile, or of both tiles of a pair (R278 to R280, R432, R605).
-/
namespace Sys2Proof.Machine

/-! ## One change of several tiles of a die -/

/-- Each of the tiles listed is changed by f, in turn. -/
def State.onTiles (s : State) (d : Nat) (f : Tile → Tile) (l : List Nat) : State :=
  l.foldl (fun (s : State) q => s.onTile d q f) s

/-- Registers and junctions stay. -/
theorem State.onTiles_regs (d : Nat) (f : Tile → Tile) (l : List Nat) (s : State) :
    (s.onTiles d f l).regs = s.regs ∧ (s.onTiles d f l).juncs = s.juncs := by
  induction l generalizing s with
  | nil => exact ⟨rfl, rfl⟩
  | cons q l ih => exact ih (s.onTile d q f)

/-- So does every tile beside those listed. -/
theorem State.tile_onTiles_of_ne (d : Nat) (f : Tile → Tile) {l : List Nat} {e q : Nat} (s : State)
    (h : ∀ r ∈ l, tkey e q ≠ tkey d r) : (s.onTiles d f l).tile e q = s.tile e q := by
  induction l generalizing s with
  | nil => rfl
  | cons r l ih =>
    have hrest := ih (s.onTile d r f) (fun k hk => h k (by simp [hk]))
    exact hrest.trans (State.tile_setTile_of_ne _ _ (h r (by simp)))

/-- Each tile listed once is changed once. -/
theorem State.tile_onTiles (d : Nat) (f : Tile → Tile) {l : List Nat} (hl : l.Nodup) {q : Nat} (hq : q ∈ l) (s : State) :
    (s.onTiles d f l).tile d q = { f (s.tile d q) with marks := [] } := by
  have hkey {a b : Nat} (h : a ≠ b) : tkey d a ≠ tkey d b := by unfold tkey; omega
  induction l generalizing s with
  | nil => exact absurd hq List.not_mem_nil
  | cons r l ih =>
    obtain ⟨hr, hl⟩ := List.nodup_cons.mp hl
    obtain rfl | hq := List.mem_cons.mp hq
    · have hrest := State.tile_onTiles_of_ne d f (l := l) (e := d) (q := q) (s.onTile d q f)
        (fun k hk => hkey (fun e => hr (e ▸ hk)))
      exact hrest.trans (State.tile_setTile_self ..)
    · have hother : (s.onTile d r f).tile d q = s.tile d q :=
        State.tile_setTile_of_ne _ _ (hkey (fun e => hr (e ▸ hq)))
      have := ih hl hq (s.onTile d r f)
      rwa [hother] at this

/-! ## An inbound takes a flit -/

namespace Tile

/-- A flit that an inbound takes, or discards and counts, leaves the tile's memories (R280). -/
theorem gran_inbTake (t : Tile) (i : Nat) (f : BitVec 72) : (t.inbTake i f).gran = t.gran := by
  unfold inbTake
  split
  · rfl
  · exact iow_gran ..

/-- One that the inbound accepts waits last there; another is counted in EPOCHX (R280, R432). -/
theorem inbTake_spec (t : Tile) (i : Nat) (f : BitVec 72) :
    if t.inbAccepts i (fld f 45 38) (fld f 57 46) = true then
      (t.inbTake i f).inb = t.inb ++ [⟨i, wd (fld f 35 0), bitOf f 36⟩] ∧ (t.inbTake i f).io = t.io
    else (t.inbTake i f).inb = t.inb ∧ (t.inbTake i f).iof 0x2B 17 0 = min (2 ^ 18 - 1) (t.iof 0x2B 17 0 + 1) := by
  unfold inbTake
  split
  · exact ⟨rfl, rfl⟩
  · exact ⟨iow_inb .., t.iof_bump_one 0x2B (by decide)⟩

end Tile

/-- A copy taken by output L for an inbound with room at every tile that receives it leaves the junction and reaches each of
them (R279, R605). -/
theorem inbArrive_of_room {s : State} {d p i : Nat} {x : FlitAt}
    (hx : (s.junc d p).inq.find? (fun (y : FlitAt) => y.port = 8 + i) = some x)
    (hroom : ∀ e ∈ p :: (s.partner d p).toList, waiting (s.tile d e).inb i < 16) :
    s.inbArrive d p i = (s.onJunc d p (fun y => { y with inq := onHead y.inq (8 + i) none })).onTiles d
      (·.inbTake i x.flit) (p :: (s.partner d p).toList) := by
  have hp : ¬16 ≤ waiting (s.tile d p).inb i := Nat.not_le.mpr (hroom p (by simp))
  unfold State.inbArrive
  rw [hx]
  cases hq : s.partner d p with
  | none => simp [hp, State.onTiles]
  | some q =>
    have hfull : ¬16 ≤ waiting (s.tile d q).inb i := Nat.not_le.mpr (hroom q (by simp [hq]))
    simp [hp, hfull, State.onTiles]

/-- Settles O32: the copy leaves the junction, and each tile that receives it takes or discards it. -/
theorem inboundArrives : Obligations.InboundArrives := by
  intro s d p i x hheld hd hp hi hx hself hroom
  have hok : (dieOk d && tileOk p && inbOk i) = true := by simp [dieOk, tileOk, inbOk, hd, hp, hi]
  have hnodup : (p :: (s.partner d p).toList).Nodup := by
    cases hq : s.partner d p with
    | none => simp
    | some q => simpa using fun e : p = q => hself (hq.trans (congrArg some e.symm))
  refine ⟨_, live_next (f := (State.inbArrive · d p i)) hheld hok, ?_⟩
  rw [inbArrive_of_room hx hroom]
  generalize hu : s.onJunc d p (fun y => { y with inq := onHead y.inq (8 + i) none }) = u
  obtain ⟨hregs, hjuncs⟩ := u.onTiles_regs d (·.inbTake i x.flit) (p :: (s.partner d p).toList)
  have htile (e q : Nat) : u.tile e q = s.tile e q := by rw [← hu]; rfl
  refine ⟨?_, hregs.trans (by rw [← hu]; rfl), fun e q hne => ?_, fun e he => ?_⟩
  · have hj := State.junc_onJunc_self s d p (fun y => { y with inq := onHead y.inq (8 + i) none })
    rw [hu, State.junc, ← hjuncs] at hj
    exact congrArg Junction.inq hj
  · exact (u.tile_onTiles_of_ne d _ hne).trans (htile e q)
  · have h : ((s.keepQueue (u.onTiles d (·.inbTake i x.flit) (p :: (s.partner d p).toList))).tile d e) =
        { (s.tile d e).inbTake i x.flit with marks := [] } := by
      rw [← htile]
      exact u.tile_onTiles d _ hnodup he
    rw [h]
    exact ⟨(s.tile d e).gran_inbTake i x.flit, (s.tile d e).inbTake_spec i x.flit⟩

end Sys2Proof.Machine
end

section
/-!
SETTLES O27. Buffered stores and write-backs reach a tile's memory (R239, R241, R334, R336, R345 to R347, R359).
-/
namespace Sys2Proof.Machine

/-! ## Writes over a codeword -/

/-- A mask of every bit leaves nothing of what stood before. -/
theorem mergeBits_allOnes (x d : BitVec 72) : mergeBits x (BitVec.allOnes 72) d = d := by
  rw [mergeBits, BitVec.not_allOnes, BitVec.and_zero, BitVec.zero_or, BitVec.and_allOnes]

/-- No data word lies in a code memory (R323). -/
theorem memCode_dataGran (a : Nat) : memCode (dataGran a).1 = false := by
  unfold dataGran
  split
  · rfl
  · split <;> rfl

namespace Tile

/-- A write under a mask over a codeword of a data memory, with no flip mask armed over it (R331, R346, R347). -/
theorem gr_write_codeword {t : Tile} {mem idx : Nat} {x : BitVec 72} (fn : Nat) (mask d : BitVec 72)
    (hmem : memCode mem = false) (hx : t.gr mem idx = eccEncode x) (hflip : t.flipOn mem idx = false) :
    (t.write fn mem idx mask d).gr mem idx = eccEncode (mergeBits x mask d) := by
  have hfull : fullMask mem = BitVec.allOnes 72 := by rw [fullMask, hmem]; rfl
  unfold write
  split
  next hm =>
    have hsyn : eccSyn (t.gr mem idx) ≠ 7 := by rw [hx, eccSyn_eccEncode]; decide
    rw [hm, hfull, mergeBits_allOnes, writeWhole, if_neg hsyn]
    exact gr_store_self _ hflip
  next => exact gr_writePart_codeword fn mask d hx hflip

/-- A stored granule drops the write-backs that wait for it (R345). -/
theorem wb_store (t : Tile) (mem idx : Nat) (g : Gran) :
    (t.store mem idx g).wb = t.wb.filter (fun (e : WbEntry) => e.key ≠ t.gkey mem idx) := by
  unfold store
  dsimp only
  split <;> rfl

/-- What a bcopy step holds is not touched by a store of a granule. -/
theorem bcp_store (t : Tile) (mem idx : Nat) (g : Gran) : (t.store mem idx g).bcp = t.bcp := by
  unfold store
  dsimp only
  split <;> rfl

/-- Nor by a collision. -/
theorem bcp_lostWords (t : Tile) (idx agent : Nat) (lost : BitVec 72) : (t.lostWords idx agent lost).bcp = t.bcp := by
  have col (u : Tile) (c : Prop) [Decidable c] (off : Nat) : (if c then u.xcol off agent else u).bcp = u.bcp := by
    split
    · unfold xcol
      dsimp only
      split <;> rfl
    · rfl
  exact (col _ _ _).trans (col t _ _)

/-! ## The head of the store buffer -/

/-- An entry that is due, or of a tile that issues nothing, and is not held back retires (R123, R241, R359). -/
theorem sbStep_retires {t : Tile} {e : SbEntry} {r : List SbEntry} (hsb : t.sb = e :: r)
    (hdue : e.due ≤ t.clk ∨ t.phase ≠ .run) (hfree : t.sbBlocked e = false) :
    t.sbStep = { t with sb := r }.write 1 (dataGran (2 * e.gran)).1 (dataGran (2 * e.gran)).2 (nonetBits e.mask.toNat)
      e.data := by
  unfold sbStep
  rw [hsb]
  dsimp only
  rw [if_pos ⟨hdue, hfree⟩, sbRetire, hsb]

/-- One that is not yet due, or is held back, stays. -/
theorem sbStep_stays {t : Tile} {e : SbEntry} {r : List SbEntry} (hsb : t.sb = e :: r)
    (h : t.clk < e.due ∧ t.phase = .run ∨ t.sbBlocked e = true) : t.sbStep = t := by
  unfold sbStep
  rw [hsb]
  dsimp only
  refine if_neg ?_
  rintro ⟨hdue, hfree⟩
  obtain ⟨hclk, hrun⟩ | hheld := h
  · exact hdue.elim (Nat.not_le.mpr hclk) (· hrun)
  · exact Bool.noConfusion (hfree.symm.trans hheld)

/-! ## The next write-back -/

/-- The tile's own write of a granule is that of the head of its buffer, which leaves the buffer; the write-backs that wait do
not decide it. -/
theorem ownWrite_withWb {t u : Tile} {mem idx : Nat} {em ed : BitVec 72} (l : List WbEntry)
    (h : t.ownWrite mem idx = some (em, ed, u)) :
    ({ t with wb := l } : Tile).ownWrite mem idx = some (em, ed, { u with wb := l }) ∧ ∃ r, u = { t with sb := r } := by
  unfold ownWrite at h ⊢
  dsimp only
  cases hsb : t.sb with
  | nil => rw [hsb] at h; exact absurd h (by simp)
  | cons e r =>
    rw [hsb] at h
    dsimp only at h ⊢
    split at h
    · obtain ⟨rfl, rfl, rfl⟩ := by simpa using h
      rename_i hg
      exact ⟨by rw [if_pos hg], r, rfl⟩
    · exact absurd h (by simp)

section
variable {t : Tile} {e : WbEntry} {r : List WbEntry} {coin : Bool} (hwb : t.wb = e :: r)
include hwb

/-- A write-back that does not fall in the cycle of the tile's own write of an exchange granule: what a bcopy holds of the
granule goes to memory in its place, else the corrected data is stored (R345, log entry 34). -/
theorem wbStep_alone (hcoin : coin = false ∨ e.key / 0x4000 ≠ 1 ∨ e.agent = none) :
    t.wbStep coin = if t.bcpAt (e.key / 0x4000) (t.ungkey e.key) then t.bcpFlush
      else { t with wb := r }.store (e.key / 0x4000) (t.ungkey e.key) (eccEncode e.data) := by
  have hagent : (if coin && e.key / 0x4000 == 1 then e.agent else none) = none := by
    obtain rfl | hmem | hnone := hcoin
    · rfl
    · rw [beq_eq_false_iff_ne.mpr hmem, Bool.and_false, if_neg Bool.false_ne_true]
    · rw [hnone, ite_self]
  unfold wbStep
  rw [hwb]
  dsimp only
  rw [hagent]

/-- In the cycle of the tile's own write of the granule one of a data-side agent holds the nonets of both, the tile's
prevailing (R334, R336). -/
theorem wbStep_meets {a : Nat} {em ed : BitVec 72} {u : Tile} (hmem : e.key / 0x4000 = 1) (hagent : e.agent = some a)
    (hbcp : t.bcpAt 1 (t.ungkey e.key) = false) (hown : t.ownWrite 1 (t.ungkey e.key) = some (em, ed, u)) :
    t.wbStep true = (({ u with wb := r } : Tile).store 1 (t.ungkey e.key) (eccEncode (mergeBits e.data em ed))).lostWords
      (t.ungkey e.key) a (em &&& (e.data ^^^ ed)) := by
  have hmeets : (if true && e.key / 0x4000 == 1 then e.agent else none) = some a := by rw [hmem, hagent]; rfl
  unfold wbStep
  rw [hwb]
  dsimp only
  rw [hmeets, hmem]
  dsimp only
  rw [hbcp, if_neg Bool.false_ne_true, (ownWrite_withWb r hown).1]

end
end Tile

/-! ## The two commands -/

/-- STORE_RETIRE puts back its tile. -/
theorem storeRetire_puts {s : State} {d p : Nat} (hheld : s.held = false) (hd : d < 8) (hp : p < 73) :
    ∃ t, exec (.storeRetire d p) s = .next t ∧ TileOnly d p s t ∧ t.tile d p = { (s.tile d p).sbStep with marks := [] } :=
  ownCommand_puts (.storeRetire d p) (·.onTile d p (·.sbStep)) (fun _ => rfl) hheld hd hp rfl

/-- So does WRITE_BACK. -/
theorem writeBack_puts {s : State} {d p : Nat} (coin : Bool) (hheld : s.held = false) (hd : d < 8) (hp : p < 73) :
    ∃ t, exec (.writeBack d p coin) s = .next t ∧ TileOnly d p s t ∧
      t.tile d p = { (s.tile d p).wbStep coin with marks := [] } :=
  ownCommand_puts (.writeBack d p coin) (·.onTile d p (·.wbStep coin)) (fun _ => rfl) hheld hd hp rfl

/-- Settles O27: each command puts back its tile, as the retirement or the write-back leaves its memory. -/
theorem storesReachMemory : Obligations.StoresReachMemory := by
  intro s d p hheld hd hp
  refine ⟨fun e r hsb => ⟨fun x hx hflip hdue hfree => ?retires, fun hstay => ?stays⟩,
    fun e r coin hwb hflip => ⟨fun hcoin hbcp => ?stored, fun hcoin hbcp => ?yields,
      fun em ed u a hmem hagent hbcp hown => ?meets⟩⟩
  case retires =>
    obtain ⟨t, he, hon, ht⟩ := storeRetire_puts hheld hd hp
    rw [Tile.sbStep_retires hsb hdue hfree] at ht
    refine ⟨t, he, hon, ?_, ?_, fun k hk => ?_⟩ <;> rw [ht]
    · exact Tile.sb_write ..
    · exact Tile.gr_write_codeword 1 _ _ (memCode_dataGran _) hx hflip
    · exact Tile.gran_write_of_ne _ _ _ hk
  case stays =>
    obtain ⟨t, he, hon, ht⟩ := storeRetire_puts hheld hd hp
    rw [Tile.sbStep_stays hsb hstay] at ht
    exact ⟨t, he, hon, ht⟩
  case stored =>
    obtain ⟨t, he, hon, ht⟩ := writeBack_puts coin hheld hd hp
    rw [Tile.wbStep_alone hwb hcoin, hbcp, if_neg Bool.false_ne_true] at ht
    refine ⟨t, he, hon, ?_, ?_, fun q hq => ?_⟩ <;> rw [ht]
    · exact Tile.gr_store_self _ hflip
    · exact Tile.wb_store ..
    · exact Tile.gran_store_of_ne _ _ hq
  case yields =>
    obtain ⟨t, he, hon, ht⟩ := writeBack_puts coin hheld hd hp
    rw [Tile.wbStep_alone hwb hcoin, if_pos hbcp] at ht
    exact ⟨t, he, hon, ht⟩
  case meets =>
    obtain ⟨t, he, hon, ht⟩ := writeBack_puts true hheld hd hp
    rw [Tile.wbStep_meets hwb hmem hagent hbcp hown] at ht
    obtain ⟨-, r', rfl⟩ := Tile.ownWrite_withWb r hown
    rw [hmem] at hflip
    refine ⟨t, he, hon, ?_, ?_, ?_, fun q hq => ?_⟩ <;> rw [ht]
    · exact (Tile.gr_exchange_congr (Tile.gran_lostWords ..) _).trans (Tile.gr_store_self _ hflip)
    · exact (Tile.sb_lostWords ..).trans (Tile.sb_store ..)
    · exact (Tile.bcp_lostWords ..).trans (Tile.bcp_store ..)
    · exact (congrArg (SMap.get (fun _ => 0) · q) (Tile.gran_lostWords ..)).trans (Tile.gran_store_of_ne _ _ hq)

end Sys2Proof.Machine
end

section
/-!
SUPPORT. Window requests of tiles (R258, R259, R684): a transaction in its turn at a port where no other waits, and the tile that
its answer reaches.
-/
namespace Sys2Proof.Machine

/-! ## The turn of a transaction at a port where no other waits (R397) -/

/-- The port of an address is decided by the lead warden and the armed image. -/
theorem State.portOf_congr {s t : State} (hboot : t.boot = s.boot) (himg : t.img = s.img) (a : Nat) :
    t.portOf a = s.portOf a := by
  have htile : (t.tileAt (a % 0x10_0000_0000)).map (fun x => x.1) = (s.tileAt (a % 0x10_0000_0000)).map (fun x => x.1) := by
    unfold State.tileAt
    rw [himg]
    dsimp only
    split
    · rfl
    · split <;> rfl
  have hdie : t.targetDie a = s.targetDie a := by
    unfold State.targetDie
    dsimp only
    rw [htile]
    simp only [State.servedBy, State.lead, hboot]
  unfold State.portOf
  rw [hdie]

section
variable {s : State} {r : XrReq} (ha : Alone r.addr s)
include ha

/-- It is the one that the port serves next. -/
theorem nextTurn_of_alone (h8 : r.addr / 0x1_0000_0000 % 16 < 8) :
    ({ s with xrq := s.xrq ++ [r] } : State).nextTurn (s.portOf r.addr) = some r := by
  have hport (l : List XrReq) (a : Nat) : ({ s with xrq := l } : State).portOf a = s.portOf a := rfl
  have hsole : (s.xrq ++ [r]).filter (fun (q : XrReq) => s.portOf q.addr = s.portOf r.addr ∧
      ({ s with xrq := s.xrq ++ [r] } : State).slotsShort q.addr = false) = [r] := by
    rw [List.filter_append, List.filter_eq_nil_iff.mpr (fun q hq => by simp [ha q hq])]
    simp [State.slotsShort_low _ h8]
  unfold State.nextTurn
  simp only [hport, hsole]
  split <;> simp_all [soonest]

/-- One turn of the port is its own. -/
theorem atPort_of_alone : ({ s with xrq := s.xrq ++ [r] } : State).atPort (s.portOf r.addr) = 1 := by
  have hport (l : List XrReq) (a : Nat) : ({ s with xrq := l } : State).portOf a = s.portOf a := rfl
  simp only [State.atPort, hport, List.filter_append]
  rw [List.filter_eq_nil_iff.mpr (fun q hq => by simp [ha q hq])]
  simp

/-- Its turn comes at once, and leaves the queue as it was. -/
theorem turnOf_of_alone (h8 : r.addr / 0x1_0000_0000 % 16 < 8) :
    ({ s with xrq := s.xrq ++ [r] } : State).turnOf (s.portOf r.addr) r 1 = s.turnTaken r.master r.addr := by
  have herase : (s.xrq ++ [r]).erase r = s.xrq := by
    rw [List.erase_append_right _ (fun h => ha r h rfl)]
    simp
  have hlast : s.xrq.all (fun x => x.master != r.master || s.portOf x.addr != s.portOf r.addr) = true := by
    rw [List.all_eq_true]
    intro x hx
    simp [ha x hx]
  rw [State.turnOf, nextTurn_of_alone ha h8]
  dsimp only
  rw [herase]
  exact if_pos ⟨rfl, hlast⟩

end

/-- A transaction that takes its turn at once is performed, and the port then serves no other: x is what is performed. -/
theorem inTurn_of_alone {α : Type} {s : State} {r : XrReq} {f : State → State × α} (ha : Alone r.addr s)
    (h8 : r.addr / 0x1_0000_0000 % 16 < 8) {x : State × α} (hx : f (s.turnTaken r.master r.addr) = x) (hq : x.1.xrq = s.xrq)
    (hboot : x.1.boot = s.boot) (himg : x.1.img = s.img) : s.inTurn r f = x := by
  have hnone : x.1.atPort (s.portOf r.addr) = 0 := by
    simp only [State.atPort, hq, State.portOf_congr hboot himg, List.length_eq_zero_iff]
    exact List.filter_eq_nil_iff.mpr (fun q hq => by simp [ha q hq])
  have hcount := atPort_of_alone (r := { r with auth := r.master == s.steward }) ha
  have hturn := turnOf_of_alone (r := { r with auth := r.master == s.steward }) ha h8
  dsimp only at hcount hturn
  unfold State.inTurn
  dsimp only
  rw [hcount, hturn, hx, hnone]
  rfl

/-! ## A word read or written in its turn -/

/-- What a transaction left of the queue, of start-up and of images: nothing that decides the turns of a port. -/
structure TurnsKept (s u : State) : Prop where
  xrq : u.xrq = s.xrq
  boot : u.boot = s.boot
  img : u.img = s.img

/-- Setting out keeps them. -/
theorem State.setOut_turns (s : State) (m addr : Nat) : TurnsKept s (s.setOut m addr) :=
  ⟨State.xrBeats_xrq .., State.xrBeats_boot .., State.xrBeats_img ..⟩

/-- So do the units on the links crossed. -/
theorem TurnsKept.xrCross {s u : State} (h : TurnsKept s u) (s0 : State) (m addr out back : Nat) :
    TurnsKept s (u.xrCross s0 m addr out back) := by
  obtain ⟨⟨ibk, free, e⟩, -⟩ := u.xrCross_queued s0 m addr out back
  rw [e]
  exact ⟨h.xrq, h.boot, h.img⟩

section
variable {s u : State} {m addr : Nat} (ha : Alone addr s) (h8 : addr / 0x1_0000_0000 % 16 < 8) (hkept : TurnsKept s u)
include ha h8 hkept

/-- A read that ends OK; u is what the read leaves. -/
theorem turnRead_of_alone {w : Word} (hr : (s.setOut m addr).busRead m addr = (u, 0, w)) :
    s.turnRead m addr = (u.xrCross (s.turnTaken m addr) m addr 0 1, 0, w) := by
  have hx : (s.turnTaken m addr).xrRead m addr = (u.xrCross (s.turnTaken m addr) m addr 0 1, 0, w) := by
    rw [State.xrRead, ← State.setOut, hr]
    rfl
  obtain ⟨hq, hboot, himg⟩ := hkept.xrCross (s.turnTaken m addr) m addr 0 1
  exact inTurn_of_alone (r := ⟨m, addr, 0, false, [], false⟩) ha h8 hx hq hboot himg

/-- A write that ends OK. -/
theorem turnWrite_of_alone {w : Word} (hw : (s.setOut m addr).busWrite m addr w = (u, 0)) :
    s.turnWrite m addr w = (u.xrCross (s.turnTaken m addr) m addr 1 0, 0) := by
  have hx : (s.turnTaken m addr).xrWrite m addr w = (u.xrCross (s.turnTaken m addr) m addr 1 0, 0) := by
    rw [State.xrWrite, ← State.setOut, hw]
    rfl
  obtain ⟨hq, hboot, himg⟩ := hkept.xrCross (s.turnTaken m addr) m addr 1 0
  exact inTurn_of_alone (r := ⟨m, addr, 0, true, [w], false⟩) ha h8 hx hq hboot himg

end

/-- A served read of PKG_ID (Table 19.2). -/
theorem turnRead_pkgId {s : State} {m : Nat} (hm : masterOk m = true) (hs : Served m 0 s) :
    s.turnRead m 0 = ((s.setOut m 0).xrCross (s.turnTaken m 0) m 0 0 1, 0, s.rd 0) := by
  obtain ⟨-, hal⟩ := id hs
  obtain ⟨r, hr⟩ : ∃ r, regAt m 0 = some (.pkg, r, 0) := ⟨_, rfl⟩
  have hshown (w : Word) : r.shown w = w := by cases hr; rfl
  have hid : (s.setOut m 0).rd 0 = s.rd 0 := (s.setOut_effect m 0).regs 0 (ne_aToll_low (by decide))
  have hview : (s.setOut m 0).regView m 0 .pkg r 0 = (s.setOut m 0, s.rd 0) := by
    rw [← hid, ← hshown ((s.setOut m 0).rd 0)]
    rfl
  have hread : (s.setOut m 0).busRead m 0 = (s.setOut m 0, 0, s.rd 0) := by
    rw [State.busRead, if_pos (by decide), Nat.mod_eq_of_lt (by decide), State.regRead, State.regReach_setOut hm hs, hr]
    simp [hview]
  exact turnRead_of_alone hal (by decide) (s.setOut_turns m 0) hread

/-- A served and permitted write of PKG_TIM_CNTCLR (R72). -/
theorem turnWrite_cntclr {s : State} {m : Nat} (w : Word) (hm : masterOk m = true) (hs : Served m 0x47 s)
    (hmay : s.mayWrite m 0x47 = true) :
    s.turnWrite m 0x47 w =
      (((s.setOut m 0x47).clearErrs w).xrCross (s.turnTaken m 0x47) m 0x47 1 0, 0) := by
  obtain ⟨-, hal⟩ := id hs
  obtain ⟨r, hr⟩ : ∃ r, regAt m 0x47 = some (.pkg, r, 0x47) := ⟨_, rfl⟩
  have hput : (s.setOut m 0x47).regPut m 0x47 .pkg r 0x47 w = (s.setOut m 0x47).clearErrs w := rfl
  have hwrite : (s.setOut m 0x47).busWrite m 0x47 w = ((s.setOut m 0x47).clearErrs w, 0) := by
    rw [State.busWrite, if_pos (by decide), Nat.mod_eq_of_lt (by decide), State.regWrite, State.regReach_setOut hm hs, hr]
    simp [hput, hmay]
  have hclear (u : State) : TurnsKept u (u.clearErrs w) := by
    unfold State.clearErrs
    dsimp only
    split <;> split <;> exact ⟨rfl, rfl, rfl⟩
  obtain ⟨hq, hboot, himg⟩ := s.setOut_turns m 0x47
  obtain ⟨kq, kboot, kimg⟩ := hclear (s.setOut m 0x47)
  exact turnWrite_of_alone hal (by decide) ⟨kq.trans hq, kboot.trans hboot, kimg.trans himg⟩ hwrite

/-! ## The answer reaches the tile -/

/-- An effect on registers, the units of its exchange, and a tile changed by f. -/
structure AnsweredTile (P : Nat → Prop) (d p : Nat) (f : Tile → Tile) (s u t : State) : Prop where
  regs : RegsBut P s t
  rd : ∀ q, t.rd q = u.rd q
  others : TilesBut (tkey d p) s t
  own : t.tile d p = { f (s.tile d p) with marks := [] }
  kept : AccessKept s t
  out : t.out = s.out

/-- The answer to a window request reaches its tile. -/
theorem RegEffect.answeredTile {P : Nat → Prop} {s u v : State} (h : RegEffect P s u) (htiles : u.tiles = s.tiles)
    (k : UnitsQueued u v) (d p : Nat) (f : Tile → Tile) : AnsweredTile P d p f s u (s.keepQueue (v.onTile d p f)) := by
  obtain ⟨⟨ibk, free, rfl⟩, hdirs⟩ := k
  obtain ⟨hregs, ⟨a1, a2, a3, a4, a5, a6, a7⟩, -, hout⟩ := h
  have hdir (l e : Nat) : u.dir l e = s.dir l e := by rw [State.dir, a5]; rfl
  have htile (e q : Nat) : ({ u with ibk := ibk, free := free } : State).tile e q = s.tile e q := by
    unfold State.tile
    exact congrArg (SMap.get _ · _) htiles
  refine ⟨hregs, fun _ => rfl, fun e q hne => ?_, ?_, ⟨a1, a2, a3, a4, fun l e => ?_, a6, a7⟩, hout⟩
  · exact (State.tile_setTile_of_ne _ _ hne).trans (htile e q)
  · rw [← htile]
    exact State.tile_setTile_self _ d p _
  · rw [← hdir]
    exact hdirs l e

namespace Tile

/-- A result leaves the port and the memories. -/
theorem setRes_beside (t : Tile) (a : Nat) (w : Word) (bad : Bool) :
    (t.setRes a w bad).port = t.port ∧ (t.setRes a w bad).gran = t.gran := by
  unfold setRes setSk
  dsimp only
  split <;> exact ⟨rfl, rfl⟩

/-- The word of a load that is answered OK stands in io.r, not poisoned (R258). -/
theorem winAnswer_load (t : Tile) {r : PortReq} (w : Word) (hstore : r.store = false) (hdrop : r.drop = false) :
    (t.winAnswer r 0 w).port = t.port.tail ∧ (t.winAnswer r 0 w).sk 0x93 = w ∧ 0x93 ∉ (t.winAnswer r 0 w).psn ∧
      (t.winAnswer r 0 w).gran = t.gran := by
  have hmask : w &&& skMask 0x93 = w := BitVec.and_allOnes
  have h : t.winAnswer r 0 w = { t with port := t.port.tail }.setRes 0x93 w false := by
    unfold winAnswer
    rw [hstore, hdrop]
    rfl
  obtain ⟨hport, hgran⟩ := ({ t with port := t.port.tail } : Tile).setRes_beside 0x93 w false
  rw [h]
  refine ⟨hport, ?_, by simp [setRes], hgran⟩
  exact (sk_setSk ..).trans ((if_pos ⟨rfl, by decide⟩).trans hmask)

/-- Of a load that is not answered in time io.r is zero and poisoned (R259, R307). -/
theorem winAnswer_timeout (t : Tile) {r : PortReq} (hstore : r.store = false) (hdrop : r.drop = false) :
    (t.winAnswer r 4 0).port = t.port.tail ∧ (t.winAnswer r 4 0).sk 0x93 = 0 ∧ 0x93 ∈ (t.winAnswer r 4 0).psn ∧
      (t.winAnswer r 4 0).gran = t.gran := by
  have h : ∃ v, t.winAnswer r 4 0 = ({ t with port := t.port.tail }.iow 0x29 v).setRes 0x93 0 true := by
    unfold winAnswer winFail
    rw [hstore, hdrop]
    exact ⟨_, rfl⟩
  obtain ⟨v, h⟩ := h
  obtain ⟨hport, hgran⟩ := ({ t with port := t.port.tail }.iow 0x29 v).setRes_beside 0x93 0 true
  rw [h]
  refine ⟨hport, ?_, by simp [setRes], hgran⟩
  exact (sk_setSk ..).trans ((if_pos ⟨rfl, by decide⟩).trans BitVec.zero_and)

/-- A store that is answered OK leaves the port. -/
theorem winAnswer_store (t : Tile) {r : PortReq} (w : Word) (hstore : r.store = true) :
    t.winAnswer r 0 w = { t with port := t.port.tail } := by
  unfold winAnswer
  rw [hstore]
  rfl

end Tile

/-! ## The oldest window request of an unpaired tile -/

/-- The master that a tile or a warden is: on its die, under a number that names it (R391). -/
theorem tileMaster_spec {d p m : Nat} (hd : d < 8) (hp : p < 73) (hm : m = if p = 72 then 8 + d else 0x80 + 72 * d + p) :
    masterOk m = true ∧ masterDie m = d ∧ (p = 72 → m = 8 + d) ∧ (p ≠ 72 → 0x80 ≤ m ∧ (m - 0x80) % 72 = p) := by
  by_cases h : p = 72
  · rw [if_pos h] at hm
    subst hm
    refine ⟨by simp only [masterOk, decide_eq_true_eq]; omega, ?_, fun _ => rfl, fun e => absurd h e⟩
    unfold masterDie
    rw [if_neg (by omega), if_neg (by omega), if_pos (by omega)]
    omega
  · rw [if_neg h] at hm
    subst hm
    refine ⟨by simp only [masterOk, decide_eq_true_eq]; omega, ?_, fun e => absurd e h, fun _ => ⟨by omega, by omega⟩⟩
    unfold masterDie
    rw [if_neg (by omega), if_neg (by omega), if_neg (by omega), if_neg (by omega)]
    omega

/-- Tiles and wardens write outside SEC_ and OWN_ without stewardship (R537). -/
theorem State.mayWrite_tile (s : State) {d p m a : Nat} (hd : d < 8)
    (hm : m = if p = 72 then 8 + d else 0x80 + 72 * d + p) (ha : a < 0x1_0000) : s.mayWrite m a = true := by
  unfold State.mayWrite
  rw [decide_eq_true_eq]
  split at hm <;> omega

/-- What becomes of a request before its answer reaches the tile: the state, the response and the word. One that is not answered
in time counts its beat and is recorded (R395); another takes its turn at its target port. -/
def State.windowExchange (s : State) (m : Nat) (r : PortReq) (timeout : Bool) : State × Nat × Word :=
  if timeout then ((s.xrBeats m 1).record m r.addr 4, 4, 0)
  else if r.store then ((s.turnWrite m r.addr r.w).1, (s.turnWrite m r.addr r.w).2, 0)
  else s.turnRead m r.addr

/-- The oldest request, not held, of a master that is not draining is exchanged, and the answer reaches its tile. -/
theorem State.windowAnswer_unpaired {s : State} {d p m : Nat} {r : PortReq} {q : List PortReq}
    (hm : m = if p = 72 then 8 + d else 0x80 + 72 * d + p) (hport : (s.tile d p).port = r :: q) (hfree : r.held = false)
    (hpart : s.partner d p = none) (hdrain : s.draining m = false) (timeout : Bool) :
    s.windowAnswer d p timeout = (s.windowExchange m r timeout).1.onTile d p
      (·.winAnswer r (s.windowExchange m r timeout).2.1 (s.windowExchange m r timeout).2.2) := by
  subst hm
  have hto : s.answerTo d p = [p] := by rw [State.answerTo, hpart]
  have hgo : ¬(r.held || s.draining (if p = 72 then 8 + d else 0x80 + 72 * d + p)) = true := by
    rw [hfree, hdrain]
    exact Bool.false_ne_true
  unfold State.windowAnswer
  rw [hport]
  dsimp only
  rw [hto]
  exact if_neg hgo

/-- The time-out of a tile's or a warden's oldest load. -/
theorem exec_tileTimeout {s : State} {d p m : Nat} {r : PortReq} {q : List PortReq} (hheld : s.held = false) (hd : d < 8)
    (hp : p < 73) (hm : m = if p = 72 then 8 + d else 0x80 + 72 * d + p) (hport : (s.tile d p).port = r :: q)
    (hstore : r.store = false) :
    exec (.crossroadsTimeout m r.addr false) s = .next (s.keepQueue (s.windowAnswer d p true)) := by
  obtain ⟨hok, hdie, hwarden, htile⟩ := tileMaster_spec hd hp hm
  have hexec : exec (.crossroadsTimeout m r.addr false) s = execCrossroadsTimeout m r.addr false s := rfl
  rw [hexec, execCrossroadsTimeout, live_next hheld hok]
  refine congrArg (fun u => Host.Outcome.next (s.keepQueue u)) ?_
  by_cases h : p = 72
  · obtain rfl := hwarden h
    subst h
    rw [if_neg (by omega), Nat.add_sub_cancel_left, if_pos]
    simp [hport, hstore]
    omega
  · obtain ⟨hlow, hp⟩ := htile h
    rw [if_pos hlow, hdie, hp]

end Sys2Proof.Machine
end

section
/-!
SUPPORT. The clauses of WindowAndLookupAnswers about window requests (R258, R259, R684).
-/
namespace Sys2Proof.Machine

/-- A master that is served is not being drained (R400). -/
theorem Served.notDraining {s : State} {m a : Nat} (hs : Served m a s) : s.draining m = false := by
  obtain ⟨⟨-, hmaster, -⟩, -⟩ := hs
  simp only [State.isMaster, Bool.and_eq_true, Bool.not_eq_true'] at hmaster
  exact hmaster.1

section
variable {s : State} {d p m : Nat} {r : PortReq} {q : List PortReq} (hd : d < 8) (hp : p < 73)
  (hm : m = if p = 72 then 8 + d else 0x80 + 72 * d + p) (hport : (s.tile d p).port = r :: q) (hfree : r.held = false)
  (hpart : s.partner d p = none)
include hd hp hm hport hfree hpart

/-- A served load of PKG_ID. -/
theorem window_loadPkgId (hstore : r.store = false) (hdrop : r.drop = false) (haddr : r.addr = 0) (hs : Served m 0 s) :
    ∃ t, exec (.ioWindowAnswer d p) s = .next t ∧ (t.tile d p).port = q ∧ (t.tile d p).sk 0x93 = s.rd 0 ∧
      0x93 ∉ (t.tile d p).psn ∧ (t.tile d p).gran = (s.tile d p).gran ∧ TilesBut (tkey d p) s t ∧ AccessKept s t ∧
      RegsBut (fun a => a = aToll m) s t ∧ t.out = s.out := by
  obtain ⟨hok, -⟩ := tileMaster_spec hd hp hm
  obtain ⟨⟨hheld, -⟩, -⟩ := id hs
  have hx : s.windowExchange m r false = ((s.setOut m 0).xrCross (s.turnTaken m 0) m 0 0 1, 0, s.rd 0) := by
    rw [State.windowExchange, if_neg Bool.false_ne_true, hstore, if_neg Bool.false_ne_true, haddr]
    exact turnRead_pkgId hok hs
  refine ⟨_, live_next (f := (State.windowAnswer · d p false)) hheld (by simp [dieOk, tileOk, hd, hp]), ?_⟩
  rw [State.windowAnswer_unpaired hm hport hfree hpart hs.notDraining, hx]
  have h := (s.setOut_effect m 0).answeredTile (s.setOut_tiles m 0) ((s.setOut m 0).xrCross_queued (s.turnTaken m 0) m 0 0 1)
    d p (·.winAnswer r 0 (s.rd 0))
  obtain ⟨hq, hword, hclean, hgran⟩ := (s.tile d p).winAnswer_load (s.rd 0) hstore hdrop
  rw [h.own]
  exact ⟨hq.trans (congrArg List.tail hport), hword, hclean, hgran, h.others, h.kept, h.regs, h.out⟩

/-- A served store of PKG_TIM_CNTCLR. -/
theorem window_storeCntclr (hstore : r.store = true) (haddr : r.addr = 0x47) (hs : Served m 0x47 s) :
    ∃ t, exec (.ioWindowAnswer d p) s = .next t ∧ (t.tile d p).port = q ∧
      (∀ i, i < 2 → t.rd (aTimErr i) = if bitOf r.w i then 0 else s.rd (aTimErr i)) ∧
      (t.tile d p).gran = (s.tile d p).gran ∧ TilesBut (tkey d p) s t ∧ AccessKept s t ∧
      RegsBut (fun a => a = aToll m ∨ a = aTimErr 0 ∨ a = aTimErr 1) s t ∧ t.out = s.out := by
  obtain ⟨hok, -⟩ := tileMaster_spec hd hp hm
  obtain ⟨⟨hheld, -⟩, -⟩ := id hs
  have hx : s.windowExchange m r false =
      (((s.setOut m 0x47).clearErrs r.w).xrCross (s.turnTaken m 0x47) m 0x47 1 0, 0, 0) := by
    rw [State.windowExchange, if_neg Bool.false_ne_true, hstore, if_pos rfl, haddr,
      turnWrite_cntclr r.w hok hs (s.mayWrite_tile hd hm (by decide))]
  refine ⟨_, live_next (f := (State.windowAnswer · d p false)) hheld (by simp [dieOk, tileOk, hd, hp]), ?_⟩
  rw [State.windowAnswer_unpaired hm hport hfree hpart hs.notDraining, hx]
  have h := ((s.setOut_effect m 0x47).trans (State.clearErrs_effect _ r.w)).answeredTile
    ((State.clearErrs_tiles ..).trans (s.setOut_tiles m 0x47))
    (State.xrCross_queued _ (s.turnTaken m 0x47) m 0x47 1 0) d p (·.winAnswer r 0 0)
  have hown := h.own
  rw [Tile.winAnswer_store _ _ hstore] at hown
  rw [hown]
  refine ⟨congrArg List.tail hport, fun i hi => ?_, rfl, h.others, h.kept, h.regs, h.out⟩
  have hne : aTimErr i ≠ aToll m := ne_aToll_low (by unfold aTimErr; omega)
  rw [h.rd, State.clearErrs_rd _ r.w hi, (s.setOut_effect m 0x47).regs _ hne]

/-- A load that is not answered in time. -/
theorem window_loadTimeout (hheld : s.held = false) (hdrain : s.draining m = false) (hstore : r.store = false)
    (hdrop : r.drop = false) :
    ∃ t, exec (.crossroadsTimeout m r.addr false) s = .next t ∧ (t.tile d p).port = q ∧ (t.tile d p).sk 0x93 = 0 ∧
      0x93 ∈ (t.tile d p).psn ∧ (t.tile d p).gran = (s.tile d p).gran ∧ TilesBut (tkey d p) s t ∧ StoresKept s t ∧
      t.rd (aDie d 0x124) = wd r.addr ∧ t.rf (aDie d 0x125) 2 0 = 4 ∧
      RegsBut (fun a => a = aToll m ∨ a = aDie d 0x124 ∨ a = aDie d 0x125) s t ∧ t.out = s.out := by
  obtain ⟨-, hdie, -⟩ := tileMaster_spec hd hp hm
  refine ⟨_, exec_tileTimeout hheld hd hp hm hport hstore, ?_⟩
  rw [State.windowAnswer_unpaired hm hport hfree hpart hdrain, State.windowExchange, if_pos rfl]
  obtain ⟨haddr, hcode, -⟩ := (s.xrBeats m 1).record_holds (m := m) (c := 4) r.addr (by decide) (by decide)
  have heffect := (s.xrBeats_effect m 1).trans ((s.xrBeats m 1).record_effect m r.addr 4)
  have hrecord : ((s.xrBeats m 1).record m r.addr 4).tiles = s.tiles := by
    obtain ⟨regs, e⟩ := (s.xrBeats m 1).record_eq m r.addr 4
    exact (congrArg State.tiles e).trans (s.xrBeats_tiles m 1)
  generalize (s.xrBeats m 1).record m r.addr 4 = u at haddr hcode heffect hrecord ⊢
  have h := heffect.answeredTile hrecord (UnitsQueued.refl u) d p (·.winAnswer r 4 0)
  obtain ⟨hq, hword, hbad, hgran⟩ := (s.tile d p).winAnswer_timeout hstore hdrop
  subst hdie
  rw [h.own]
  exact ⟨hq.trans (congrArg List.tail hport), hword, hbad, hgran, h.others, heffect.stores, (h.rd _).trans haddr,
    (congrArg (fld · 2 0) (h.rd _)).trans hcode, h.regs, h.out⟩

end
end Sys2Proof.Machine
end

section
/-!
SUPPORT. Lookup answers (R262, R263, R502, R505, R507, R511): what reading a parcel leaves as it was, and the words of a look.
-/
namespace Sys2Proof.Machine

/-! ## What reading a parcel leaves -/

/-- From s to t nothing changed but registers, stacks and waymarks. -/
def StackShape (s t : State) : Prop := ∃ regs drams marks, t = { s with regs := regs, drams := drams, marks := marks }

namespace StackShape
variable {s t u : State}

theorem refl (s : State) : StackShape s s := ⟨s.regs, s.drams, s.marks, rfl⟩

theorem trans (h : StackShape s t) (k : StackShape t u) : StackShape s u := by
  obtain ⟨r, d, m, rfl⟩ := h
  obtain ⟨r', d', m', rfl⟩ := k
  exact ⟨r', d', m', rfl⟩

theorem wr (h : StackShape s t) (q : Nat) (v : Word) : StackShape s (t.wr q v) :=
  h.trans ⟨_, t.drams, t.marks, rfl⟩

theorem onStack (h : StackShape s t) (e : Nat) (f : Stack → Stack) : StackShape s (t.onStack e f) :=
  h.trans ⟨t.regs, _, t.marks, rfl⟩

theorem mark (h : StackShape s t) (e kd ix c : Nat) (x y z : Word) : StackShape s (t.mark e kd ix c x y z) :=
  h.trans ⟨t.regs, t.drams, _, rfl⟩

end StackShape

theorem State.dput_shape (s : State) (d k : Nat) (g : Gran) : StackShape s (s.dput d k g) := by
  unfold State.dput
  extract_lets sel hit mask g1 s1
  have h1 : StackShape s s1 := (StackShape.refl s).onStack d _
  clear_value s1
  split
  · exact (((h1.wr ..).wr ..).wr ..).wr ..
  · exact h1

theorem State.dfound_shape (s : State) (d : Nat) (c : Cls3) (fn k syn : Nat) : StackShape s (s.dfound d c fn k syn) := by
  unfold State.dfound
  extract_lets cls s1 row
  have h1 : StackShape s s1 := ((StackShape.refl s).wr ..).wr ..
  clear_value s1
  cases c
  case corrected => exact (h1.wr ..).onStack d _
  case uncorrectable => exact ((h1.wr ..).onStack d _).mark ..
  case clean => exact h1
  case poisoned => exact h1

theorem State.dread_shape (s : State) (d fn k : Nat) : StackShape s (s.dread d fn k).1 := by
  unfold State.dread
  dsimp only
  generalize eccClass false ((s.stack d).gr k) = x
  obtain ⟨c, x⟩ := x
  have h1 := s.dfound_shape d c fn k (eccSyn ((s.stack d).gr k))
  cases c <;> dsimp only at h1 ⊢
  · exact StackShape.refl s
  · exact h1.onStack d _
  · exact h1
  · exact h1.trans (State.dput_shape ..)

/-- A parcel is four granules read one after another. -/
theorem State.dparcel_reads (P : State → Prop) (d fn p : Nat) (hread : ∀ u k, P u → P (u.dread d fn k).1) {s : State}
    (h : P s) : P (s.dparcel d fn p).1 := by
  have fold (l : List Nat) (a : State × List (Word × Bool)) (ha : P a.1) :
      P (l.foldl (fun (a : State × List (Word × Bool)) i =>
        let r := a.1.dread d fn (4 * p + i)
        (r.1, a.2 ++ [(granWord r.2.1 0, r.2.2), (granWord r.2.1 1, r.2.2)])) a).1 := by
    induction l generalizing a with
    | nil => exact ha
    | cons i l ih => exact ih _ (hread _ _ ha)
  exact fold [0, 1, 2, 3] (s, []) h

/-- What a look's read of a parcel with its units on the links, leaves as it was. -/
structure LookRead (s u : State) : Prop where
  tiles : u.tiles = s.tiles
  img : u.img = s.img
  flash : u.flash = s.flash
  links : u.links = s.links
  juncs : u.juncs = s.juncs
  places : ∀ d sl, d < 8 → sl < 64 → u.rd (aPlace d sl) = s.rd (aPlace d sl)

theorem LookRead.refl (s : State) : LookRead s s := ⟨rfl, rfl, rfl, rfl, rfl, fun _ _ _ _ => rfl⟩

/-- Slots taken and a parcel read. -/
theorem State.dparcel_lookRead (s : State) (e row n fn p : Nat) : LookRead s ((s.takeSlots e row n).dparcel e fn p).1 := by
  have htook : StackShape s (s.takeSlots e row n) := (StackShape.refl s).onStack e _
  obtain ⟨r, m, k, hshape⟩ := State.dparcel_reads (StackShape s ·) e fn p (fun u k h => h.trans (u.dread_shape e fn k)) htook
  have honly := State.dparcel_reads (StackOnly e s ·) e fn p
    (fun u k h => h.trans (u.dread_only e fn k)) (s.takeSlots_only e e row n)
  refine ⟨honly.tiles, ?_, ?_, honly.links, ?_, fun d sl hd hsl => honly.regs _ ?_⟩
  · rw [hshape]
  · rw [hshape]
  · rw [hshape]
  · unfold stackWord aPlace aDram aDie
    omega

/-- The units on the links between. -/
theorem LookRead.crossOn {s u : State} (h : LookRead s u) (a b cls n m : Nat) (path : List Nat) :
    LookRead s (u.crossOn a b cls n m path) := by
  obtain ⟨⟨ibk, free, e⟩, -⟩ := u.crossOn_queued a b cls n m path
  rw [e]
  exact ⟨h.tiles, h.img, h.flash, h.links, h.juncs, h.places⟩

/-- A value of the part's free choices is used up. -/
theorem LookRead.fresh {s u : State} (h : LookRead s u) : LookRead s u.fresh :=
  ⟨h.tiles, h.img, h.flash, h.links, h.juncs, h.places⟩

/-! ## The words of a look -/

/-- The first word of a look with one or more words is the first of its entry in the parcel (R262, R502). -/
theorem lookTaken_head {free : Nat} {r : LkReq} (l : List (Word × Bool)) (hw : 1 ≤ r.w) (hew : 1 ≤ r.ew) (x : Word × Bool) :
    (lookTaken free r l).headD x = (l[r.off % 8]?).getD (0, false) := by
  obtain ⟨n, hn⟩ : ∃ n, r.w = n + 1 := ⟨r.w - 1, by omega⟩
  unfold lookTaken
  rw [hn, List.range_succ_eq_map]
  simp [Nat.lt_of_lt_of_le Nat.zero_lt_one hew]

section
variable {s u : State} {d : Nat} {r : LkReq} {l : List (Word × Bool)} (h : s.lookWords d r = some (u, l))
include h

/-- A look that has words read and not delivered gives those (R263). -/
theorem lookWords_got (hgot : r.got ≠ []) : l = r.got ∧ u = s := by
  rw [State.lookWords, if_pos hgot] at h
  obtain ⟨rfl, rfl⟩ := by simpa using h
  exact ⟨rfl, rfl⟩

/-- Where no copy serves its words are marked (R505, R507, log entry 41). -/
theorem lookWords_noCopy (hgot : r.got = []) (hcopy : s.lookCopy d r = none) : l = List.replicate r.w (0, true) ∧ u = s := by
  rw [State.lookWords, if_neg (not_not_intro hgot), hcopy] at h
  obtain ⟨rfl, rfl⟩ := by simpa using h
  exact ⟨rfl, rfl⟩

/-- Else they are of the parcel that the serving copy's one read delivers (R502, R511). -/
theorem lookWords_copy {c : Nat × Nat} {far : Bool} (hgot : r.got = []) (hcopy : s.lookCopy d r = some (c, far)) :
    l = lookTaken s.free r ((s.takeSlots c.1 (if far then 7 else 6) 1).dparcel c.1 0 (c.2 + r.off / 8)).2 ∧ LookRead s u := by
  rw [State.lookWords, if_neg (not_not_intro hgot), hcopy] at h
  dsimp only at h
  generalize (if far then 7 else 6) = row at h ⊢
  split at h
  · obtain ⟨rfl, rfl⟩ := Prod.mk.inj (Option.some.inj h)
    have hread := s.dparcel_lookRead c.1 row 1 0 (c.2 + r.off / 8)
    refine ⟨rfl, LookRead.crossOn ?_ ..⟩
    split
    · exact hread.fresh
    · exact hread
  · exact absurd h (by simp)

/-- Nothing else changes. -/
theorem lookWords_read : LookRead s u := by
  by_cases hgot : r.got = []
  · cases hcopy : s.lookCopy d r with
    | none => rw [(lookWords_noCopy h hgot hcopy).2]; exact LookRead.refl s
    | some c => exact (lookWords_copy h hgot hcopy).2
  · rw [(lookWords_got h hgot).2]
    exact LookRead.refl s

end

/-! ## The answer reaches the tile -/

/-- A tile outside any pair stays so while the images, the places of the die and its own notice to stop do. -/
theorem partner_none_congr {s t : State} {d p : Nat} (himg : t.img = s.img)
    (hstop : (t.tile d p).stopAt = (s.tile d p).stopAt) (hplaces : ∀ sl, sl < 64 → t.rd (aPlace d sl) = s.rd (aPlace d sl))
    (h : s.partner d p = none) : t.partner d p = none := by
  have hslot : t.slotOf d p = s.slotOf d p := by
    have hfind : (List.range 64).find? (fun sl => t.phys d sl = p) = (List.range 64).find? (fun sl => s.phys d sl = p) := by
      refine List.find?_congr (fun sl hsl => ?_)
      have hplace : t.phys d sl = s.phys d sl := congrArg (fld · 6 0) (hplaces sl (List.mem_range.mp hsl))
      exact decide_eq_decide.mpr (by rw [hplace])
    unfold State.slotOf State.detoursOn
    rw [himg, hfind]
  have himage : t.tileImage d p = s.tileImage d p := by
    unfold State.tileImage
    rw [himg, hstop]
  unfold State.partner at h ⊢
  rw [himage, hslot]
  revert h
  cases s.tileImage d p with
  | none => exact fun _ => rfl
  | some im =>
    dsimp only
    split
    · cases s.slotOf d p with
      | none => exact fun _ => rfl
      | some sl => exact fun h => absurd h (by simp)
    · exact fun _ => rfl

/-- A look that is held, or for which the stack has no slot left in the tick, changes nothing (R414, R511). -/
theorem State.lookAnswer_waits {s : State} {d p st : Nat} {r : LkReq}
    (hr : (s.tile d p).lkReq.find? (fun (y : LkReq) => y.stream = st) = some r)
    (h : r.held = true ∨ s.lookWords d r = none) : s.lookAnswer d p st = s := by
  unfold State.lookAnswer
  rw [hr]
  dsimp only
  obtain hheld | hnone := h
  · exact if_pos hheld
  · rw [hnone]
    exact ite_self s

/-- The next word of an unpaired tile's look reaches the tile. -/
theorem State.lookAnswer_unpaired {s u : State} {d p st : Nat} {r : LkReq} {l : List (Word × Bool)} (hd : d < 8)
    (hr : (s.tile d p).lkReq.find? (fun (y : LkReq) => y.stream = st) = some r) (hpart : s.partner d p = none)
    (hfree : r.held = false) (hl : s.lookWords d r = some (u, l)) :
    s.lookAnswer d p st = u.onTile d p (fun t => t.lookTake st l) := by
  have hread := lookWords_read hl
  have htile : u.tile d p = s.tile d p := congrArg (SMap.get _ · _) hread.tiles
  have hpart : (u.onTile d p (fun t => t.lookTake st l)).partner d p = none := by
    refine partner_none_congr hread.img ?_ (fun sl hsl => hread.places d sl hd hsl) hpart
    rw [State.onTile, State.tile_setTile_self, htile]
    rfl
  unfold State.lookAnswer
  rw [hr]
  dsimp only
  rw [hfree, if_neg Bool.false_ne_true, hl]
  dsimp only
  rw [hpart]

/-- The word of a look of an unpaired tile. -/
theorem lookAnswer_word {s u : State} {d p st : Nat} {r : LkReq} {l : List (Word × Bool)} (hheld : s.held = false)
    (hd : d < 8) (hp : p < 73) (hst : st < 4)
    (hr : (s.tile d p).lkReq.find? (fun (y : LkReq) => y.stream = st) = some r) (hpart : s.partner d p = none)
    (hfree : r.held = false) (hl : s.lookWords d r = some (u, l)) :
    ∃ t, exec (.lookupAnswer d p st) s = .next t ∧ t.tile d p = { (s.tile d p).lookTake st l with marks := [] } ∧
      TilesBut (tkey d p) s t ∧ t.flash = s.flash ∧ t.links = s.links ∧ t.juncs = s.juncs := by
  have hread := lookWords_read hl
  have htile (e q : Nat) : u.tile e q = s.tile e q := congrArg (SMap.get _ · _) hread.tiles
  refine ⟨_, live_next (f := (State.lookAnswer · d p st)) hheld (by simp [dieOk, tileOk, strOk, hd, hp, hst]), ?_⟩
  rw [State.lookAnswer_unpaired hd hr hpart hfree hl]
  refine ⟨?_, fun e q hne => ?_, hread.flash, hread.links, hread.juncs⟩
  · rw [← htile]
    exact State.tile_setTile_self u d p _
  · exact (State.tile_setTile_of_ne u _ hne).trans (htile e q)

/-- The word that a look gives up: the next that it has read and not delivered, else the first of its entry, or a marked one where
no copy serves. -/
theorem lookWords_head {s u : State} {d : Nat} {r : LkReq} {l : List (Word × Bool)} (h : s.lookWords d r = some (u, l)) :
    (∀ y q, r.got = y :: q → l.headD (0, true) = y) ∧
    (r.got = [] → s.lookCopy d r = none → (l.headD (0, true)).2 = true) ∧
    ∀ c far, r.got = [] → s.lookCopy d r = some (c, far) → 1 ≤ r.w → 1 ≤ r.ew →
      l.headD (0, true) = ((((s.takeSlots c.1 (if far then 7 else 6) 1).dparcel c.1 0 (c.2 + r.off / 8)).2[r.off % 8]?).getD
        (0, false)) := by
  refine ⟨fun y q hgot => ?_, fun hgot hcopy => ?_, fun c far hgot hcopy hw hew => ?_⟩
  · rw [(lookWords_got h (by rw [hgot]; nofun)).1, hgot]
    rfl
  · rw [(lookWords_noCopy h hgot hcopy).1]
    cases r.w with
    | zero => rfl
    | succ n => rfl
  · rw [(lookWords_copy h hgot hcopy).1]
    exact lookTaken_head _ hw hew _

end Sys2Proof.Machine
end

section
/-!
SETTLES O36. Window requests and looks receive their answers (R258, R259, R684, R262, R263, R414, R502, R505, R507, R511).
-/
namespace Sys2Proof.Machine

/-- Settles O36: the three outcomes of a window request, and the look that waits or gives up a word. -/
theorem windowAndLookupAnswers : Obligations.WindowAndLookupAnswers := by
  refine ⟨fun s d p m r q hd hp hm hport hfree hpart => ⟨fun hstore hdrop haddr hs => ?load, fun hstore haddr hs => ?store,
    fun hheld hdrain hstore hdrop => ?timeout⟩,
    fun s d p st r hheld hd hp hst hr hpart => ⟨fun hwait => ?waits, fun u l hfree hl => ?word⟩⟩
  case load => exact window_loadPkgId hd hp hm hport hfree hpart hstore hdrop haddr hs
  case store => exact window_storeCntclr hd hp hm hport hfree hpart hstore haddr hs
  case timeout => exact window_loadTimeout hd hp hm hport hfree hpart hheld hdrain hstore hdrop
  case waits =>
    have hok : (dieOk d && tileOk p && strOk st) = true := by simp [dieOk, tileOk, strOk, hd, hp, hst]
    refine (live_next (f := (State.lookAnswer · d p st)) hheld hok).trans ?_
    rw [State.lookAnswer_waits hr hwait]
    rfl
  case word =>
    obtain ⟨t, he, htile, hothers, hflash, hlinks, hjuncs⟩ := lookAnswer_word hheld hd hp hst hr hpart hfree hl
    obtain ⟨hgot, hnone, hcopy⟩ := lookWords_head hl
    refine ⟨t, ⟨st, (l.headD (0, true)).1, (l.headD (0, true)).2⟩, he, ?_, rfl, rfl, hgot, hnone, hcopy, ?_, ?_, ?_,
      hothers, hflash, hlinks, hjuncs⟩ <;> rw [htile] <;> rfl

end Sys2Proof.Machine
end

section
/-!
SUPPORT. The events taken at open points (R306 to R310): what raising one leaves in the tile, and the command of each kind where
no event before it in the order of R309 is due.
-/
namespace Sys2Proof.Machine

/-- The cycle from which the entry of an event runs: the one in which the next bundle would have issued, or, while the tile waits
or steps, now (R312). -/
def State.eventAt (s : State) (d p : Nat) : Nat :=
  if (s.tile d p).phase = .run ∧ (s.tile d p).stepping = false then s.wouldIssue d p 4 (s.begin1 d p (s.tile d p))
  else (s.tile d p).clk

/-- The tile with an event raised (R310). -/
def State.eventRaised (s : State) (d p code : Nat) : Tile :=
  { (s.tile d p).bcpFlush with
    waited := 0, patched := (s.tile d p).patched && (s.tile d p).phase != .run,
    raised := some ⟨code, 0, (s.tile d p).pc, 0, false, false, (s.tile d p).stepping, s.eventAt d p⟩ }

/-- Raising an event in a tile that is not retired puts back that tile. -/
theorem State.raiseAsync_clocked {s : State} {d p : Nat} (code : Nat) (hclock : s.clocked d p = true) :
    s.raiseAsync d p code = s.setTile d p (s.eventRaised d p code) := by
  have hat : (if (s.tile d p).phase == .run && !(s.tile d p).stepping then s.wouldIssue d p 4 (s.begin1 d p (s.tile d p))
      else (s.tile d p).clk) = s.eventAt d p := by
    simp only [State.eventAt, Bool.and_eq_true, beq_iff_eq, Bool.not_eq_true']
  unfold State.raiseAsync
  dsimp only
  rw [hat, hclock]
  rfl

section
variable {s : State} {d p : Nat}

/-- LATEBUS is before every other event. -/
theorem State.takeLate_due (hlate : (s.tile d p).lateDue = true) : s.takeLate d p = s.raiseAsync d p 0x0A := if_pos hlate

/-- TOLL is taken where no LATEBUS is due. -/
theorem State.takeToll_due (hlate : (s.tile d p).lateDue = false)
    (htoll : (s.tile d p).tollDue (s.partner d p).isSome = true) : s.takeToll d p = s.raiseAsync d p 9 :=
  if_pos (by rw [hlate, htoll]; rfl)

/-- MIGRATE is taken where neither of them is. -/
theorem State.takeMigr_due (hlate : (s.tile d p).lateDue = false)
    (htoll : (s.tile d p).tollDue (s.partner d p).isSome = false)
    (hmigr : (s.tile d p).migrDue (s.partner d p).isSome = true) : s.takeMigr d p = s.raiseAsync d p 0x11 :=
  if_pos (by rw [hlate, htoll, hmigr]; rfl)

/-- DOORBELL is taken where no other event is. -/
theorem State.takeBell_due (hlate : (s.tile d p).lateDue = false)
    (htoll : (s.tile d p).tollDue (s.partner d p).isSome = false)
    (hmigr : (s.tile d p).migrDue (s.partner d p).isSome = false)
    (hbell : (s.tile d p).bellDue (s.partner d p).isSome = true) : s.takeBell d p = s.raiseAsync d p 0x10 :=
  if_pos (by rw [hlate, htoll, hmigr, hbell]; rfl)

end

/-- A command that comes to raising an event. -/
theorem eventCommand_raises (i : Instr) {s : State} {d p code : Nat} (f : State → State)
    (e : ∀ s, exec i s = live (dieOk d && tileOk p) s f) (hheld : s.held = false) (hd : d < 8) (hp : p < 73)
    (hclock : s.clocked d p = true) (h : f s = s.raiseAsync d p code) :
    ∃ t, exec i s = .next t ∧ TileOnly d p s t ∧ t.tile d p = { s.eventRaised d p code with marks := [] } :=
  ownCommand_puts i f e hheld hd hp (h.trans (State.raiseAsync_clocked code hclock))

end Sys2Proof.Machine
end

section
/-!
SETTLES O22. LATEBUS, TOLL, MIGRATE and DOORBELL: the pending event with nothing before it is raised (R306 to R310).
-/
namespace Sys2Proof.Machine

/-- Settles O22: each of the four commands, where its event is due and none before it is, comes to raising it. -/
theorem eventsAreTaken : Obligations.EventsAreTaken := by
  intro s d p hheld hd hp hclock
  simp only [List.forall_mem_cons, List.not_mem_nil, false_implies, implies_true, and_true]
  refine ⟨fun hlate => ?latebus, fun ⟨hlate, htoll⟩ => ?toll, fun ⟨hlate, htoll, hmigr⟩ => ?migrate,
    fun ⟨hlate, htoll, hmigr, hbell⟩ => ?doorbell⟩
  case latebus =>
    exact eventCommand_raises (.latebus d p) (·.takeLate d p) (fun _ => rfl) hheld hd hp hclock (State.takeLate_due hlate)
  case toll =>
    exact eventCommand_raises (.toll d p) (·.takeToll d p) (fun _ => rfl) hheld hd hp hclock (State.takeToll_due hlate htoll)
  case migrate =>
    exact eventCommand_raises (.migrate d p) (·.takeMigr d p) (fun _ => rfl) hheld hd hp hclock
      (State.takeMigr_due hlate htoll hmigr)
  case doorbell =>
    exact eventCommand_raises (.doorbell d p) (·.takeBell d p) (fun _ => rfl) hheld hd hp hclock
      (State.takeBell_due hlate htoll hmigr hbell)

end Sys2Proof.Machine
end

section
/-!
SUPPORT. A write of TILE_TCR from outside its tile (R292): whether the tile is open to it, and what it leaves.
-/
namespace Sys2Proof.Machine

/-! ## What a write finds as it sets out -/

/-- The toll count of a master lies above the field of DIE_PLACE that names a tile: a slot's tile stays. -/
theorem State.phys_setOut (s : State) (m addr d sl : Nat) : (s.setOut m addr).phys d sl = s.phys d sl := by
  unfold State.phys State.rf
  obtain ⟨f, g, e | e⟩ := (s.turnTaken m addr).xrBeats_cases m 1 <;> rw [State.setOut, e]
  · rfl
  · rw [State.rd_of_mark, State.rd_bump]
    split
    · next h => rw [fld_putFld_apart _ _ (by decide), h]; rfl
    · rfl

/-- A tile's partner depends on the images, the places of its die and its own notice to stop. -/
theorem State.partner_congr {s t : State} {d p : Nat} (himg : t.img = s.img)
    (hstop : (t.tile d p).stopAt = (s.tile d p).stopAt) (hphys : ∀ sl, t.phys d sl = s.phys d sl) :
    t.partner d p = s.partner d p := by
  have hslot : t.slotOf d p = s.slotOf d p := by simp only [State.slotOf, State.detoursOn, himg, hphys]
  have himage : t.tileImage d p = s.tileImage d p := by simp only [State.tileImage, himg, hstop]
  have hplaces : t.phys d = s.phys d := funext hphys
  unfold State.partner State.detoursOn
  rw [himage, hslot, himg, hplaces]

/-- So it stays as a transaction sets out. -/
@[simp] theorem State.partner_setOut (s : State) (m addr d p : Nat) : (s.setOut m addr).partner d p = s.partner d p :=
  State.partner_congr (State.xrBeats_img _ m 1) (congrArg Tile.stopAt (s.tile_setOut m addr d p)) (s.phys_setOut m addr d)

/-- The tiles that are open to a write of TCR (R292). -/
theorem State.tcrOpen_iff (s : State) (d p : Nat) : s.tcrOpen d p = true ↔
    (s.tile d p).phase = .halt ∨ ((s.tile d p).placed = false ∧ (s.tileFlag d p = 0 ∨ s.tileFlag d p = 4)) := by
  simp [State.tcrOpen]

/-- A transaction that sets out opens and closes none. -/
@[simp] theorem State.tcrOpen_setOut (s : State) (m addr d p : Nat) : (s.setOut m addr).tcrOpen d p = s.tcrOpen d p := by
  have hflag : (s.setOut m addr).tileFlag d p = s.tileFlag d p := by
    unfold State.tileFlag
    rw [State.setOut, State.xrBeats_pwr]
    rfl
  simp only [State.tcrOpen, State.tile_setOut, hflag]

/-! ## TILE_TCR -/

/-- A permitted write of TILE_TCR reaches the rule of R292. -/
theorem State.tileWrite_tcr {s : State} {m d p named : Nat} (w : Word) (hrow : s.rowOn d p = true)
    (hmay : s.mayWrite m named = true) : s.tileWrite m d p 0 named w false =
      if s.tcrOpen d p = true then (s.setTile d p ((s.tile d p).setTcr (s.partner d p).isSome w), 0)
      else (s.denied m named 0, 3) := by
  have hreg : (tileReg p 0).isNone = false := by rw [tileReg, if_neg (by simp)]; rfl
  unfold State.tileWrite
  rw [if_neg (by simp [hrow]), if_pos (by decide), if_neg (by simp [hreg])]
  simp [State.tileRegWrite, hmay]

/-- The same as the transaction sets out. -/
theorem State.tileWrite_tcr_setOut {s : State} {m d p : Nat} (w : Word) (hd : d < 8) (hs : TileServed m d p s)
    (hmay : s.mayWrite m (aTile d p 0) = true) :
    (s.setOut m (aTile d p 0)).tileWrite m d p 0 (aTile d p 0) w false =
      if s.tcrOpen d p = true then
        ((s.setOut m (aTile d p 0)).setTile d p ((s.tile d p).setTcr (s.partner d p).isSome w), 0)
      else ((s.setOut m (aTile d p 0)).denied m (aTile d p 0) 0, 3) := by
  obtain ⟨-, -, -, -, hrow, -⟩ := hs
  rw [State.tileWrite_tcr w ((s.rowOn_setOut m _ p hd).trans hrow) ((s.mayWrite_setOut ..).trans hmay), s.tcrOpen_setOut,
    s.tile_setOut, s.partner_setOut]

/-- A write denied whole leaves the tiles, and DENIED names the master and the register (R2). -/
theorem AnsweredAs.denied {s t : State} {m a : Nat}
    (k : AnsweredAs m 3 [] (((s.setOut m a).denied m a 0).record m a 3) t) :
    t.tiles = s.tiles ∧ AccessKept s t ∧ t.out = s.out ++ [.resp m 3 []] ∧
      ∃ x, t.marks.getLast? = some x ∧ x.code = 0x010 ∧ x.d0 = wd (masterCode m) ∧ x.d1 = wd a := by
  have h := ((s.setOut_effect m a).trans (State.mark_effect ..)).trans (((s.setOut m a).denied m a 0).record_effect m a 3)
  obtain ⟨regs, hrecord⟩ := ((s.setOut m a).denied m a 0).record_eq m a 3
  refine ⟨?_, h.accessKept k, by rw [k.out, h.out], ?_⟩
  · rw [k.tiles, hrecord]
    exact s.setOut_tiles m a
  · rw [k.marks, hrecord]
    exact ⟨_, List.getLast?_concat, rfl, rfl, rfl⟩

section
variable {s : State} {m d p : Nat} (hm : masterOk m = true) (hd : d < 8) (hp : p < 73) (hs : TileServed m d p s)
  (hmay : s.mayWrite m (aTile d p 0) = true)
include hm hd hp hs

/-- TILE_TCR_WRITE is the write of one word. -/
theorem exec_tileTcrWrite (w : Word) :
    exec (.tileTcrWrite m d p w) s = .next (s.keepQueue (s.doWrite m (aTile d p 0) w)) :=
  live_next (f := (State.doWrite · m (aTile d p 0) w)) hs.1 (by simp [hm, dieOk, tileOk, hd, hp])

include hmay

/-- A served and permitted write of TCR to an open tile holds at once. -/
theorem tcrWrite_open (w : Word) (hopen : s.tcrOpen d p = true) :
    ∃ t, exec (.tileTcrWrite m d p w) s = .next t ∧ TileAnswered m d p [] s t ∧
      t.tile d p = { (s.tile d p).setTcr (s.partner d p).isSome w with marks := [] } := by
  refine ⟨_, exec_tileTcrWrite hm hd hp hs w, ?_⟩
  have hwrite := State.tileWrite_tcr_setOut w hd hs hmay
  rw [if_pos hopen] at hwrite
  rw [State.doWrite_oneTile hm hd hp (by decide) hs hwrite]
  exact AnsweredAs.tileAnswered (State.answeredAs ..)

/-- One to a tile that is not open is discarded and denied (log entry 30). -/
theorem tcrWrite_closed (w : Word) (hclosed : ¬ s.tcrOpen d p = true) :
    ∃ t, exec (.tileTcrWrite m d p w) s = .next t ∧ t.tiles = s.tiles ∧ AccessKept s t ∧
      t.out = s.out ++ [.resp m 3 []] ∧
      ∃ k, t.marks.getLast? = some k ∧ k.code = 0x010 ∧ k.d0 = wd (masterCode m) ∧ k.d1 = wd (aTile d p 0) := by
  refine ⟨_, exec_tileTcrWrite hm hd hp hs w, ?_⟩
  have hwrite := State.tileWrite_tcr_setOut w hd hs hmay
  rw [if_neg hclosed] at hwrite
  rw [State.doWrite_oneTile hm hd hp (by decide) hs hwrite]
  exact AnsweredAs.denied (State.answeredAs ..)

end

end Sys2Proof.Machine
end

section
/-!
SETTLES O15. TILE_TCR_WRITE: discarded unless the tile is halted or not placed and free or retired (R292).
-/
namespace Sys2Proof.Machine

/-- Settles O15: the write of an open tile, and that of any other. -/
theorem tcrWriteFromOutside : Obligations.TcrWriteFromOutside := by
  intro s m d p w hm hd hp hs hmay
  by_cases hopen : s.tcrOpen d p = true
  · obtain ⟨t, he, ⟨-, hothers, hkept, -, hout⟩, ht⟩ := tcrWrite_open hm hd hp hs hmay w hopen
    refine ⟨t, he, hothers, hkept, ?_⟩
    rw [if_pos ((s.tcrOpen_iff d p).mp hopen), ht]
    exact ⟨Tile.ior_iow_self .., fun q hq => (Tile.ior_iow ..).trans (if_neg hq), hout⟩
  · obtain ⟨t, he, htiles, hkept, hout, hmark⟩ := tcrWrite_closed hm hd hp hs hmay w hopen
    refine ⟨t, he, fun e q _ => congrArg (SMap.get _ · _) htiles, hkept, ?_⟩
    rw [if_neg (mt (s.tcrOpen_iff d p).mpr hopen)]
    exact ⟨htiles, hout, hmark⟩

end Sys2Proof.Machine
end

section
/-!
SUPPORT. A command whose code or register names no master of the part.
-/
namespace Sys2Proof.Machine

/-- Out of reset, with nothing configured. -/
def State.released : State := { State.reset with held := false }

/-- Master code 5 stands between the wardens' codes and the host links': no master of the part has it. -/
theorem masterOk_five : masterOk 5 = false := by decide

/-- Yet the model's test of a running master takes code 5 for one. -/
theorem released_isMaster_five : State.released.isMaster 5 = true := by decide +kernel

theorem released_alone (addr : Nat) : Alone addr State.released := by
  intro r hr
  cases hr

/-- The address 0x80000 is past a tile's block, so nobody reaches it. -/
theorem sideOk_pastBlock (s : State) (m d p : Nat) : s.sideOk m d p 0x8_0000 = false := by
  simp [State.sideOk]

/-- A data-side access of a code that is no master's is a fault. -/
theorem exec_dataSideAccess_noMaster {s : State} {m : Nat} (hm : masterOk m = false)
    (d p addr : Nat) (write : Bool) (w : Word) (coin : Bool) :
    exec (.dataSideAccess m d p addr write w coin) s = .fault .noSuchPart :=
  live_fault (ok := masterOk m && dieOk d && tileOk p) (f := (State.sideTurn · m d p addr write w coin)) (by rw [hm]; rfl)

end Sys2Proof.Machine
end

section
/-!
SETTLES O29. DATA_SIDE_ACCESS: the last clause admits a code that no master of the part has.
-/
namespace Sys2Proof.Machine

/-- Refutes O29: its last clause does not ask that the part has the master. With the part out of reset, code 5 passes
`isMaster`, 0x80000 names no address of a tile and no transaction waits, yet the access is a fault. -/
theorem not_dataSideAccess : ¬ Obligations.DataSideAccess := by
  intro h
  obtain ⟨-, hunreached⟩ := h State.released 5 0 0 (by decide) (by decide)
  obtain ⟨t, ht, -⟩ := hunreached 0x8_0000 0 false false rfl released_isMaster_five (released_alone _)
    (sideOk_pastBlock ..) (.dataSideAccess 5 0 0 0x8_0000 false 0 false) (.head _)
  rw [exec_dataSideAccess_noMaster masterOk_five] at ht
  cases ht

end Sys2Proof.Machine
end

section
/-!
SUPPORT. What a write of TILE_POISON does to the tile (R349).
-/
namespace Sys2Proof.Machine
namespace Tile

/-- A write of TILE_POISON with GO = 1 that names a granule of the tile keeps the word in the register and poisons the
granule. -/
theorem poisonWrite_go (t : Tile) {d p : Nat} {w : Word} (hname : granNameOk p w = true) (hgo : bitOf w 17 = true) :
    t.poisonWrite d p w = (t.iow 0x1C (w &&& 0x1FFFF)).poisonGran (fld w 16 14) (fld w 13 0) := by
  rw [poisonWrite, if_pos hname, if_pos hgo]

/-- Registers outside the flip mask's play no part in whether it is armed. -/
theorem flipOn_iow (t : Tile) {q : Nat} (v : Word) (hq : q ≠ 0x1B) (mem idx : Nat) :
    (t.iow q v).flipOn mem idx = t.flipOn mem idx :=
  decide_eq_decide.mpr (by simp only [Tile.iof, ior_iow, if_neg hq.symm])

/-- A store over which no flip mask is armed changes no register. -/
theorem ior_store_of_flipOff {t : Tile} {mem idx : Nat} (g : Gran) (h : t.flipOn mem idx = false) (q : Nat) :
    (t.store mem idx g).ior q = t.ior q := by
  simp only [store, h]
  rfl

end Tile
end Sys2Proof.Machine
end

section
/-!
SETTLES O16. POISON: the granule named holds its data with the poison mark (R349).
-/
namespace Sys2Proof.Machine

/-- Settles O16: the permitted write reaches the tile's register, and with GO = 1 that is one store of the granule. -/
theorem poisonMarksGranule : Obligations.PoisonMarksGranule := by
  intro s m d p w hm hd hp hs hmay hname hgo hflip
  have hok : (masterOk m && dieOk d && tileOk p) = true := by simp [hm, dieOk, tileOk, hd, hp]
  obtain ⟨t, he, hans, ht⟩ := tile_write (i := .poison m d p w) rfl hok hm hd hp (by decide) (by decide) (by decide)
    (by rw [tileReg, if_neg (by simp)]; rfl) hs hmay
  have hflip' : ((s.tile d p).iow 0x1C (w &&& 0x1FFFF)).flipOn (fld w 16 14) (fld w 13 0) = false :=
    ((s.tile d p).flipOn_iow _ (by decide) _ _).trans hflip
  have hwrite : (s.tile d p).regWrite s.tick d p 0x1C 4 w =
      ((s.tile d p).iow 0x1C (w &&& 0x1FFFF)).poisonGran (fld w 16 14) (fld w 13 0) :=
    (s.tile d p).poisonWrite_go hname hgo
  rw [hwrite] at ht
  refine ⟨t, he, hans, ?_⟩
  rw [ht]
  refine ⟨?_, ?_, fun k hk => ?_⟩
  · exact Tile.gr_store_self _ hflip'
  · exact (Tile.ior_store_of_flipOff _ hflip' 0x12).trans (Tile.ior_iow ..)
  · exact Tile.gran_store_of_ne _ _ hk

end Sys2Proof.Machine
end

section
/-!
SUPPORT. Patrol scrub (R350, R351): no access of a tile's memories reaches its own register, TILE_SCRUB.
-/
namespace Sys2Proof.Machine
namespace Tile

/-! ## TILE_SCRUB apart from the accesses of memories -/

theorem ior_scrub_iow (t : Tile) {q : Nat} (v : Word) (hq : q ≠ 0x17) : (t.iow q v).ior 0x17 = t.ior 0x17 := by
  rw [ior_iow, if_neg hq.symm]

theorem ior_scrub_found (t : Tile) (c : Cls3) (fn mem idx syn : Nat) : (t.found c fn mem idx syn).ior 0x17 = t.ior 0x17 := by
  unfold found
  extract_lets lo cls t1 elog
  rw [ior_scrub_iow _ _ (by decide), ior_scrub_iow _ _ (by decide)]
  cases c with
  | corrected => exact ior_scrub_iow t _ (by decide)
  | uncorrectable => exact ior_scrub_iow t _ (by decide)
  | clean => rfl
  | poisoned => rfl

theorem ior_scrub_store (t : Tile) (mem idx : Nat) (g : Gran) : (t.store mem idx g).ior 0x17 = t.ior 0x17 := by
  unfold store flipDone
  dsimp only
  split
  · rw [iowf_eq, ior_scrub_iow _ _ (by decide), ior_scrub_iow _ _ (by decide), ior_scrub_iow _ _ (by decide),
      ior_scrub_iow _ _ (by decide)]
    rfl
  · rfl

theorem ior_scrub_writeWhole (t : Tile) (mem idx : Nat) (d : BitVec 72) :
    (t.writeWhole mem idx d).ior 0x17 = t.ior 0x17 := by
  unfold writeWhole
  dsimp only
  rw [ior_scrub_store]
  split
  · exact ior_scrub_iow t _ (by decide)
  · rfl

theorem ior_scrub_writePart (t : Tile) (fn mem idx : Nat) (mask d : BitVec 72) :
    (t.writePart fn mem idx mask d).ior 0x17 = t.ior 0x17 := by
  unfold writePart
  dsimp only
  generalize eccClass (memCode mem) (t.gr mem idx) = x
  obtain ⟨c, old⟩ := x
  cases c with
  | clean => exact t.ior_scrub_store ..
  | corrected => exact (ior_scrub_store ..).trans (ior_scrub_found ..)
  | poisoned => exact (ior_scrub_iow _ _ (by decide)).trans (ior_scrub_found ..)
  | uncorrectable =>
    exact (ior_scrub_iow _ _ (by decide)).trans ((ior_scrub_store ..).trans (ior_scrub_found ..))

theorem ior_scrub_write (t : Tile) (fn mem idx : Nat) (mask d : BitVec 72) :
    (t.write fn mem idx mask d).ior 0x17 = t.ior 0x17 := by
  unfold write
  split
  · exact t.ior_scrub_writeWhole ..
  · exact t.ior_scrub_writePart ..

theorem ior_scrub_xcol (t : Tile) (off agent : Nat) : (t.xcol off agent).ior 0x17 = t.ior 0x17 := by
  unfold xcol
  extract_lets t1
  have h1 : t1.ior 0x17 = t.ior 0x17 := (ior_scrub_iow _ _ (by decide)).trans (ior_scrub_iow t _ (by decide))
  split
  · exact h1
  · exact (ior_scrub_iow _ _ (by decide)).trans h1

theorem ior_scrub_lostWords (t : Tile) (idx agent : Nat) (lost : BitVec 72) :
    (t.lostWords idx agent lost).ior 0x17 = t.ior 0x17 := by
  have col (u : Tile) (c : Prop) [Decidable c] (off : Nat) : (if c then u.xcol off agent else u).ior 0x17 = u.ior 0x17 := by
    split
    · exact u.ior_scrub_xcol ..
    · rfl
  exact (col _ _ _).trans (col ..)

theorem ior_scrub_bcpFlush (t : Tile) : t.bcpFlush.ior 0x17 = t.ior 0x17 := by
  have fold (j : Nat) (f : Nat × BitVec 72 × BitVec 72 → BitVec 72) (l : List (Nat × BitVec 72 × BitVec 72)) (u : Tile) :
      (l.foldl (fun (t : Tile) x => t.lostWords j x.1 (f x)) u).ior 0x17 = u.ior 0x17 := by
    induction l generalizing u with
    | nil => rfl
    | cons x l ih => exact (ih _).trans (u.ior_scrub_lostWords ..)
  unfold bcpFlush
  cases t.bcp with
  | none => rfl
  | some b =>
    exact (fold _ (fun x => nonetBits b.mask.toNat &&& x.2.1 &&& (x.2.2 ^^^ b.data)) _ _).trans (ior_scrub_write ..)

theorem ior_scrub_bcpYield (t : Tile) (mem idx : Nat) : (t.bcpYield mem idx).ior 0x17 = t.ior 0x17 := by
  unfold bcpYield
  split
  · exact t.ior_scrub_bcpFlush
  · rfl

/-! ## A scrub step -/

/-- A scrub read of a clean granule finds nothing. -/
theorem scrubRead_clean {t : Tile} {mem idx : Nat} (h : eccSyn ((t.bcpYield mem idx).gr mem idx) = 0) :
    t.scrubRead mem idx = t.bcpYield mem idx := by
  unfold scrubRead
  dsimp only
  rw [if_neg (by rw [h]; decide), read_of_clean 3 h]

/-- The tile u, in which the granule at pos was read, with TILE_SCRUB moved on (R351). -/
def scrubbed (u : Tile) (p pos : Nat) : Tile :=
  if pos + 1 < scrubLen p then u.iowf 0x17 14 0 (pos + 1) else (u.iowf 0x17 14 0 0).bump 0x17 35 15 1

/-- A step of an enabled scrub onto a clean granule moves TILE_SCRUB on. -/
theorem scrub_clean {t u : Tile} {pos : Nat} (p : Nat) (hpos : pos = t.iof 0x17 14 0)
    (hu : u = t.bcpYield (scrubAt pos).1 (scrubAt pos).2) (hen : bitOf (t.ior 0x10) 0 = true)
    (h : eccSyn (u.gr (scrubAt pos).1 (scrubAt pos).2) = 0) : t.scrub p = u.scrubbed p pos := by
  subst hpos hu
  unfold scrub scrubbed
  rw [if_pos hen]
  dsimp only
  rw [scrubRead_clean h]

variable (u : Tile) (p pos : Nat)

theorem gran_scrubbed : (u.scrubbed p pos).gran = u.gran := by
  unfold scrubbed
  split <;> rfl

theorem ior_scrubbed_of_ne {q : Nat} (hq : q ≠ 0x17) : (u.scrubbed p pos).ior q = u.ior q := by
  unfold scrubbed
  split
  · rw [ior_iowf, if_neg hq]
  · rw [ior_bump, if_neg hq, ior_iowf, if_neg hq]

/-- Before the last granule POS counts and PASS stays. -/
theorem iof_scrubbed_of_lt (h : pos + 1 < scrubLen p) :
    (u.scrubbed p pos).iof 0x17 14 0 = pos + 1 ∧ (u.scrubbed p pos).iof 0x17 35 15 = u.iof 0x17 35 15 := by
  have hlen : scrubLen p ≤ 29696 := by
    unfold scrubLen
    split <;> decide
  rw [scrubbed, if_pos h, iof, iof, ior_iowf, if_pos rfl]
  refine ⟨?_, fld_putFld_apart _ _ (by decide)⟩
  rw [fld_putFld_self _ _ (by decide)]
  omega

/-- Past the last granule POS is 0 and PASS has counted. -/
theorem iof_scrubbed_of_ge (h : ¬ pos + 1 < scrubLen p) :
    (u.scrubbed p pos).iof 0x17 14 0 = 0 ∧
      (u.scrubbed p pos).iof 0x17 35 15 = min (2 ^ 21 - 1) (u.iof 0x17 35 15 + 1) := by
  have hpass : (u.iowf 0x17 14 0 0).iof 0x17 35 15 = u.iof 0x17 35 15 := by
    rw [iof, ior_iowf, if_pos rfl, fld_putFld_apart _ _ (by decide), iof]
  rw [scrubbed, if_neg h, iof, iof, ior_bump, if_pos rfl, ior_iowf, if_pos rfl, hpass,
    fld_putFld_apart _ _ (by decide), fld_putFld_self _ _ (by decide), fld_putFld_self _ _ (by decide), satAdd]
  omega

end Tile

theorem exec_scrubStep {s : State} {d p : Nat} (hs : s.held = false) (hd : d < 8) (hp : p < 73) :
    exec (.scrubStep d p) s = .next (s.keepQueue
      (if SMap.get (fun _ => 0) s.pwr.tile (tkey d p) = 4 ∨ s.rowOn d p = false then s
       else s.onTile d p (fun t => t.scrub p))) :=
  live_next (ok := dieOk d && tileOk p)
    (f := fun s => if SMap.get (fun _ => 0) s.pwr.tile (tkey d p) = 4 ∨ s.rowOn d p = false then s
      else s.onTile d p (fun t => t.scrub p)) hs (by simp [dieOk, tileOk, hd, hp])

end Sys2Proof.Machine
end

section
/-!
SETTLES O28. SCRUB_STEP: patrol scrub moves on by one granule (R350, R351, R621).
-/
namespace Sys2Proof.Machine

/-- Settles O28: a scrub read of a clean granule leaves the tile as the bcopy write does, so the step is the move of
TILE_SCRUB alone. -/
theorem scrubAdvances : Obligations.ScrubAdvances := by
  intro s d p pos u hs hd hp hpos hu
  refine ⟨fun hret hrow hen hclean => ⟨_, exec_scrubStep hs hd hp, ?_⟩, fun hoff => ?_⟩
  · have hscrub := Tile.scrub_clean p hpos hu hen hclean
    have hword : u.ior 0x17 = (s.tile d p).ior 0x17 := by rw [hu, Tile.ior_scrub_bcpYield]
    have hpass : (s.tile d p).iof 0x17 35 15 = u.iof 0x17 35 15 := by rw [Tile.iof, Tile.iof, hword]
    rw [if_neg (by rw [hrow]; exact not_or.mpr ⟨hret, Bool.noConfusion⟩), State.onTile, hscrub]
    refine ⟨s.setTile_tileOnly d p _, ?_⟩
    rw [State.tile_of_keepQueue, State.tile_setTile_self, hpass]
    refine ⟨u.gran_scrubbed p pos, ?_, fun q hq => u.ior_scrubbed_of_ne p pos hq⟩
    split
    next hlt => exact u.iof_scrubbed_of_lt p pos hlt
    next hge => exact u.iof_scrubbed_of_ge p pos hge
  · rw [exec_scrubStep hs hd hp, if_pos hoff]
    rfl

end Sys2Proof.Machine
end

section
/-!
SUPPORT. Vault wipes (R358 to R360): how one begins, and what its last granule leaves.
-/
namespace Sys2Proof.Machine

/-- A waymark raised last in a tile is the last of the part when the tile is put back. -/
theorem State.getLast_setTile_mark (s : State) (d p : Nat) (t : Tile) (c : Nat) (x y z : Word) :
    (s.setTile d p (t.mark c x y z)).marks.getLast? = some ⟨d, 1, p, c, x, y, z, s.tick, s.tickValid⟩ := by
  simp [State.setTile, Tile.mark, ownMarks, ← List.append_assoc]

/-! ### A tile put back reads as before -/

theorem Tile.ior_marks (t : Tile) (l : List Mark) (q : Nat) : ({ t with marks := l } : Tile).ior q = t.ior q := (rfl)

theorem Tile.gr_marks (t : Tile) (l : List Mark) (mem idx : Nat) :
    ({ t with marks := l } : Tile).gr mem idx = t.gr mem idx := (rfl)

/-! ## The attestation key lost with the vault (R563, R564) -/

theorem State.akLost_seed (s : State) : s.akLost.sec.akSeed = 0 ∧ s.akLost.sec.cert = [] := by
  unfold State.akLost
  dsimp only
  split <;> exact ⟨rfl, rfl⟩

theorem State.akLost_img (s : State) : s.akLost.img = s.img := by
  unfold State.akLost
  dsimp only
  split <;> rfl

/-- Unless the boot counter is used up, AKSTATE reads that there is no key. -/
theorem State.akLost_akState {s : State} (h : s.akState ≠ 3) : s.akLost.akState = 0 := by
  unfold State.akLost
  dsimp only
  rw [if_neg h]
  exact State.rf_wf_self _ _ _ (by decide)

/-! ## The beginning of a wipe -/

/-- The cause kept beside the registers is none of them. -/
theorem Tile.ior_vwipe (t : Tile) (v q : Nat) : ({ t with vwipe := v } : Tile).ior q = t.ior q := (rfl)

/-- The warden once a wipe of the cause has begun. -/
def Tile.wiping (t : Tile) (cause : Nat) : Tile := { (t.bcpFlush.iowf 0x1E 0 0 1) with vwipe := cause + 1 }

theorem State.wipeStart_tileOnly (s : State) (d cause : Nat) : TileOnly d 72 s (s.wipeStart d cause) :=
  s.setTile_tileOnly ..

theorem State.tile_wipeStart (s : State) (d cause : Nat) :
    (s.wipeStart d cause).tile d 72 = { (s.tile d 72).wiping cause with marks := [] } :=
  s.tile_setTile_self ..

theorem State.wipeStart_sec (s : State) (d cause : Nat) : (s.wipeStart d cause).sec = s.sec := rfl

theorem Tile.ior_wiping_of_ne (t : Tile) (cause : Nat) {q : Nat} (h : q ≠ 0x1E) :
    (t.wiping cause).ior q = t.bcpFlush.ior q := by
  rw [Tile.wiping, Tile.ior_vwipe, Tile.ior_iowf, if_neg h]

theorem Tile.bitOf_ior_wiping (t : Tile) (cause : Nat) : bitOf ((t.wiping cause).ior 0x1E) 0 = true := by
  rw [Tile.wiping, Tile.ior_vwipe, Tile.ior_iowf, if_pos rfl, bitOf_putFld_in _ _ (by decide) (by decide)]
  rfl

/-! ## The end of a wipe -/

theorem eccEncode_zero : eccEncode 0 = 0 := by decide +kernel

namespace Tile
variable {t : Tile} (hflip : ∀ i, t.flipOn 4 i = false)
include hflip

/-- With no flip mask armed over the vault the wipe leaves out of the store every granule of the vault, and no other. -/
theorem gran_wipeVault (k : Nat) : SMap.get (fun _ => 0) t.wipeVault.gran k =
    if 0x10000 ≤ k ∧ k < 0x14000 then 0 else SMap.get (fun _ => 0) t.gran k := by
  have hgran : t.wipeVault.gran = SMap.dropIf (fun k => decide (0x10000 ≤ k ∧ k < 0x14000)) t.gran := by
    unfold wipeVault
    dsimp only
    rw [hflip, if_neg Bool.false_ne_true]
  rw [hgran, SMap.get_dropIf]
  simp only [decide_eq_true_eq]

/-- Of the registers it reaches the count of poisoned granules written alone. -/
theorem ior_wipeVault {q : Nat} (hq : q ≠ 0x16) : t.wipeVault.ior q = t.ior q := by
  have hio : ∃ n, t.wipeVault.io = (t.bump 0x16 35 18 n).io := by
    unfold wipeVault
    dsimp only
    rw [hflip, if_neg Bool.false_ne_true]
    exact ⟨_, rfl⟩
  obtain ⟨n, hio⟩ := hio
  have hior : t.wipeVault.ior q = (t.bump 0x16 35 18 n).ior q := by rw [ior, ior, hio]
  rw [hior, ior_bump, if_neg hq]

omit hflip in
theorem gkey_vault (t : Tile) (i : Nat) : t.gkey 4 i = 0x10000 + i := by simp [gkey]

omit hflip in
/-- The warden once the last granule of its vault is written. -/
def wiped (t : Tile) (c : Nat) : Tile :=
  { ((t.wipeVault.iowf 0x1E 0 0 0).bump 0x1E 18 1 1).iowf 0x1E 21 19 c with vwipe := 0 }

/-- TILE_VAULT after a wipe: WIPING 0, NWIPE counted, the cause. -/
theorem ior_wiped (c : Nat) : (t.wiped c).ior 0x1E =
    putFld (putFld (putFld (t.ior 0x1E) 0 0 0) 18 1 (satAdd 18 (t.iof 0x1E 18 1) 1)) 21 19 c := by
  rw [wiped, ior_vwipe, ior_iowf, if_pos rfl, ior_bump, if_pos rfl, iof, ior_iowf, if_pos rfl, ior_wipeVault hflip (by decide),
    fld_putFld_apart _ _ (by decide), iof]

omit hflip in
theorem gran_wiped (t : Tile) (c : Nat) : (t.wiped c).gran = t.wipeVault.gran := (rfl)

/-- WIPING is 0. -/
theorem bitOf_ior_wiped (c : Nat) : bitOf ((t.wiped c).ior 0x1E) 0 = false := by
  rw [ior_wiped hflip, bitOf_putFld_apart _ _ (by decide), bitOf_putFld_apart _ _ (by decide),
    bitOf_putFld_in _ _ (by decide) (by decide)]
  rfl

/-- CAUSE is that of the wipe. -/
theorem iof_wiped_cause {c : Nat} (hc : c < 3) : (t.wiped c).iof 0x1E 21 19 = c := by
  rw [iof, ior_wiped hflip, fld_putFld_self _ _ (by decide)]
  omega

/-- NWIPE has counted. -/
theorem iof_wiped_count (c : Nat) :
    (t.wiped c).iof 0x1E 18 1 = min (2 ^ 18 - 1) (t.iof 0x1E 18 1 + 1) := by
  rw [iof, ior_wiped hflip, fld_putFld_apart _ _ (by decide), fld_putFld_self _ _ (by decide), satAdd]
  omega

theorem gr_wiped (c : Nat) {i : Nat} (hi : i < 2048) : (t.wiped c).gr 4 i = eccEncode 0 := by
  rw [gr, gkey_vault, eccEncode_zero, gran_wiped, gran_wipeVault hflip, if_pos (by omega)]

end Tile

theorem exec_vaultWipe {s : State} {d c : Nat} (hs : s.held = false) (hd : d < 8) (hc : c < 3) :
    exec (.vaultWipe d c) s =
      .next (s.keepQueue ((if c = 0 ∧ d ≠ s.lead then s else s.akLost).wipeStart d c)) := by
  have h : exec (.vaultWipe d c) s = .next (s.keepQueue
      (if 3 ≤ c then s else (if c = 0 ∧ d ≠ s.lead then s else s.akLost).wipeStart d c)) :=
    live_next (ok := dieOk d)
      (f := fun s => if 3 ≤ c then s else (if c = 0 ∧ d ≠ s.lead then s else s.akLost).wipeStart d c) hs (by simp [dieOk, hd])
  rw [h, if_neg (by omega)]

theorem exec_vaultWipeEnd {s : State} {d c : Nat} (hs : s.held = false) (hd : d < 8)
    (hbit : bitOf ((s.tile d 72).ior 0x1E) 0 = true) (hc : (s.tile d 72).vwipe = c + 1) :
    exec (.vaultWipeEnd d) s =
      .next (s.keepQueue (s.setTile d 72 (((s.tile d 72).wiped c).mark 0x043 (wd c) 0 0))) := by
  have h : exec (.vaultWipeEnd d) s = .next (s.keepQueue (s.wipeEnd d)) :=
    live_next (ok := dieOk d) (f := (State.wipeEnd · d)) hs (by simp [dieOk, hd])
  rw [h]
  unfold State.wipeEnd
  dsimp only
  rw [if_pos hbit, hc, Nat.add_sub_cancel]
  rfl

/-- What a wipe event leaves, whichever state s' has the attestation key as it comes to it. -/
theorem State.wipeStart_spec {s s' : State} {d c : Nat} {P : Nat → Prop} (h : RegEffect P s s') (ht : s'.tiles = s.tiles)
    (himg : s'.img = s.img) :
    RegsBut P s (s'.wipeStart d c) ∧ TilesBut (tkey d 72) s (s'.wipeStart d c) ∧ StoresKept s (s'.wipeStart d c) ∧
      (s'.wipeStart d c).tick = s.tick ∧ (s'.wipeStart d c).out = s.out ∧ (s'.wipeStart d c).img = s.img ∧
      (s'.wipeStart d c).tile d 72 = { (s.tile d 72).wiping c with marks := [] } := by
  have htile (e q : Nat) : s'.tile e q = s.tile e q := congrArg (SMap.get _ · _) ht
  obtain ⟨-, hothers, -⟩ := s'.wipeStart_tileOnly d c
  refine ⟨h.regs, fun e q hne => (hothers e q hne).trans (htile e q), h.stores, h.tick, h.out, himg, ?_⟩
  rw [State.tile_wipeStart, htile]

end Sys2Proof.Machine
end

section
/-!
SETTLES O30. VAULT_WIPE and VAULT_WIPE_END: the vault is all zero data after a wipe (R347, R358, R359, R360, R563,
R564).
-/
namespace Sys2Proof.Machine

/-- Settles O30: the beginning of the wipe, of a state that keeps or has lost the attestation key, and its end. -/
theorem vaultWipes : Obligations.VaultWipes := by
  intro s d c hs hd hc
  refine ⟨⟨_, exec_vaultWipe hs hd hc, ?_⟩, fun hbit hcause hflip => ⟨_, exec_vaultWipeEnd hs hd hbit hcause, ?_⟩⟩
  · have tile {w : State} (h : w.tile d 72 = { (s.tile d 72).wiping c with marks := [] }) :
        bitOf ((w.tile d 72).ior 0x1E) 0 = true ∧ (w.tile d 72).gran = (s.tile d 72).bcpFlush.gran ∧
          (w.tile d 72).vwipe = c + 1 ∧ ∀ q, q ≠ 0x1E → (w.tile d 72).ior q = (s.tile d 72).bcpFlush.ior q := by
      rw [h]
      simp only [Tile.ior_marks]
      exact ⟨Tile.bitOf_ior_wiping _ c, rfl, rfl, fun q hq => Tile.ior_wiping_of_ne _ c hq⟩
    split
    next hkeep =>
      have hkept : RegEffect (fun q => q = aSecBoot ∧ (c ≠ 0 ∨ d = s.lead)) s s :=
        ⟨fun _ _ => rfl, ⟨rfl, rfl, rfl, rfl, rfl, rfl, rfl⟩, rfl, rfl⟩
      obtain ⟨hregs, hothers, hstores, htick, hout, himg, htile⟩ := State.wipeStart_spec (d := d) (c := c) hkept rfl rfl
      obtain ⟨hwiping, hgran, hvwipe, hior⟩ := tile htile
      exact ⟨hregs, hothers, hstores, htick, hout, himg, hwiping, hgran, hvwipe, fun _ _ => rfl,
        fun h => absurd h (by omega), hior⟩
    next hlose =>
      have hlose' : c ≠ 0 ∨ d = s.lead := by omega
      obtain ⟨htiles, -⟩ := s.akLost_rest
      obtain ⟨hseed, hcert⟩ := s.akLost_seed
      obtain ⟨hregs, hothers, hstores, htick, hout, himg, htile⟩ := State.wipeStart_spec (d := d) (c := c)
        (s.akLost_effect.mono fun q (hq : q = aSecBoot) => And.intro hq hlose') htiles s.akLost_img
      obtain ⟨hwiping, hgran, hvwipe, hior⟩ := tile htile
      exact ⟨hregs, hothers, hstores, htick, hout, himg, hwiping, hgran, hvwipe, fun h0 hne => absurd ⟨h0, hne⟩ hlose,
        fun _ => ⟨hseed, hcert, State.akLost_akState⟩, hior⟩
  · refine ⟨s.setTile_tileOnly .., ?_⟩
    have hback : (s.setTile d 72 (((s.tile d 72).wiped c).mark 0x043 (wd c) 0 0)).tile d 72 =
        { (s.tile d 72).wiped c with marks := [] } := s.tile_setTile_self ..
    rw [State.tile_of_keepQueue, hback]
    simp only [Tile.ior_marks, Tile.iof_marks, Tile.gr_marks]
    have hothers (k : Nat) (hk : k < 0x10000) :
        SMap.get (fun _ => 0) ((s.tile d 72).wiped c).gran k = SMap.get (fun _ => 0) (s.tile d 72).gran k := by
      rw [Tile.gran_wiped, Tile.gran_wipeVault hflip, if_neg (by omega)]
    exact ⟨Tile.bitOf_ior_wiped hflip c, fun i hi => Tile.gr_wiped hflip c hi, Tile.iof_wiped_cause hflip hc,
      Tile.iof_wiped_count hflip c, hothers, _, s.getLast_setTile_mark .., rfl, rfl, rfl⟩

end Sys2Proof.Machine
end

section
/-!
SUPPORT. The syndrome is linear (R338, R339): flipping stored bits adds their syndromes, whatever the data.
-/
namespace Sys2Proof.Machine

/-! ## The CRC of a sum of two bit strings -/

/-- One step of a CRC register. -/
def crcStep (width poly c : Nat) (b : Bool) : Nat :=
  (c * 2) % 2 ^ width ^^^ bif c.testBit (width - 1) ^^ b then poly else 0

theorem crcBits_eq (width poly init : Nat) (l : List Bool) :
    crcBits width poly init l = l.foldl (crcStep width poly) init := by
  unfold crcBits
  congr 1
  funext c b
  have htop : ((c >>> (width - 1)) % 2 == 1) = c.testBit (width - 1) := by
    rw [Nat.testBit_eq_decide_div_mod_eq, Nat.shiftRight_eq_div_pow]
    rfl
  dsimp only
  rw [htop, crcStep]
  cases c.testBit (width - 1) <;> cases b <;> simp

theorem crcStep_xor (width poly c c' : Nat) (b b' : Bool) :
    crcStep width poly (c ^^^ c') (b ^^ b') = crcStep width poly c b ^^^ crcStep width poly c' b' := by
  have hshift : ((c ^^^ c') * 2) % 2 ^ width = (c * 2) % 2 ^ width ^^^ (c' * 2) % 2 ^ width := by
    have h := Nat.shiftLeft_xor_distrib (i := 1) (a := c) (b := c')
    simp only [Nat.shiftLeft_eq, pow_one] at h
    rw [h, Nat.xor_mod_two_pow]
  have hpoly (x y : Bool) : (bif x ^^ y then poly else 0) = (bif x then poly else 0) ^^^ (bif y then poly else 0) := by
    cases x <;> cases y <;> simp
  have htop : ((c ^^^ c').testBit (width - 1) ^^ (b ^^ b')) =
      ((c.testBit (width - 1) ^^ b) ^^ (c'.testBit (width - 1) ^^ b')) := by
    rw [Nat.testBit_xor, Bool.xor_assoc, Bool.xor_assoc, Bool.xor_left_comm b]
  rw [crcStep, crcStep, crcStep, hshift, htop, hpoly]
  ac_rfl

theorem crcBits_map_xor (width poly : Nat) (f g : Nat → Bool) (l : List Nat) (c c' : Nat) :
    crcBits width poly (c ^^^ c') (l.map fun i => f i ^^ g i) =
      crcBits width poly c (l.map f) ^^^ crcBits width poly c' (l.map g) := by
  simp only [crcBits_eq]
  induction l generalizing c c' with
  | nil => rfl
  | cons i l ih => simp only [List.map_cons, List.foldl_cons, crcStep_xor, ih]

theorem crcBits_bitsMsb_xor (width poly n v v' : Nat) :
    crcBits width poly 0 (bitsMsb n (v ^^^ v')) =
      crcBits width poly 0 (bitsMsb n v) ^^^ crcBits width poly 0 (bitsMsb n v') := by
  have hbit (v i : Nat) : ((v >>> i) % 2 == 1) = v.testBit i := by
    rw [Nat.testBit_eq_decide_div_mod_eq, Nat.shiftRight_eq_div_pow]
    rfl
  simp only [bitsMsb, hbit, Nat.testBit_xor]
  exact crcBits_map_xor width poly _ _ _ 0 0

/-! ## Check bits, data and syndrome of a sum -/

theorem eccCheck_xor (d d' : BitVec 72) : eccCheck (d ^^^ d') = eccCheck d ^^^ eccCheck d' := by
  rw [eccCheck, BitVec.toNat_xor]
  exact crcBits_bitsMsb_xor ..

theorem granData_xor (g g' : Gran) : granData (g ^^^ g') = granData g ^^^ granData g' := by
  unfold granData
  rw [BitVec.toNat_xor]
  exact BitVec.eq_of_toNat_eq (by simp)

theorem fld_xor {n : Nat} (x y : BitVec n) (hi lo : Nat) : fld (x ^^^ y) hi lo = fld x hi lo ^^^ fld y hi lo := by
  unfold fld
  rw [BitVec.toNat_xor, Nat.shiftRight_xor_distrib, Nat.xor_mod_two_pow]

theorem eccSyn_xor (g g' : Gran) : eccSyn (g ^^^ g') = eccSyn g ^^^ eccSyn g' := by
  rw [eccSyn, granData_xor, eccCheck_xor, fld_xor, eccSyn, eccSyn]
  ac_rfl

/-! ## One stored bit -/

/-- The granule with stored bit a alone set. -/
def stored (a : Nat) : Gran := BitVec.ofNat 88 (2 ^ a)

/-- The syndrome that stored bit a adds when it is flipped. -/
def bitSyn (a : Nat) : Nat := eccSyn (stored a)

/-- Does a memory keep stored bit a? Code memories keep no data bits 64 to 71 (R338). -/
def keepsBit (code : Bool) (a : Nat) : Prop := a < 88 ∧ (code = true → a < 64 ∨ 72 ≤ a)

theorem granData_stored (a : Nat) : granData (stored a) = if a < 72 then BitVec.ofNat 72 (2 ^ a) else 0 := by
  have hdata : granData (stored a) = BitVec.ofNat 72 (2 ^ a) := by
    refine BitVec.eq_of_toNat_eq ?_
    rw [granData, stored, BitVec.toNat_ofNat, BitVec.toNat_ofNat, BitVec.toNat_ofNat]
    exact Nat.mod_mod_of_dvd _ (Nat.pow_dvd_pow 2 (by decide))
  rw [hdata]
  split
  next => rfl
  next h =>
    refine BitVec.eq_of_toNat_eq ?_
    rw [BitVec.toNat_ofNat]
    exact Nat.mod_eq_zero_of_dvd (Nat.pow_dvd_pow 2 (by omega))

/-- Flipping the bits of a pattern back adds their data bits, check bits adding none. -/
theorem flipBits_cons (d : BitVec 72) (a : Nat) (l : List Nat) :
    flipBits d (a :: l) = flipBits (d ^^^ granData (stored a)) l := by
  rw [granData_stored, flipBits, flipBits, List.foldl_cons]
  split
  · rfl
  · exact congrArg (flipBits · l) BitVec.xor_zero.symm

/-! ## The poison mark (R343) -/

theorem eccPoison_toNat (d : BitVec 72) : (eccPoison d).toNat = d.toNat + 2 ^ 72 * (eccCheck d ^^^ 7) := by
  have hmark : eccCheck d ^^^ 7 < 2 ^ 16 := Nat.xor_lt_two_pow (eccCheck_lt d) (by decide)
  have := d.isLt
  rw [eccPoison, BitVec.toNat_ofNat, Nat.mod_eq_of_lt (by omega)]

theorem granData_eccPoison (d : BitVec 72) : granData (eccPoison d) = d := by
  refine BitVec.eq_of_toNat_eq ?_
  rw [granData, eccPoison_toNat, BitVec.toNat_ofNat, Nat.add_mul_mod_self_left, Nat.mod_eq_of_lt d.isLt]

theorem eccSyn_eccPoison (d : BitVec 72) : eccSyn (eccPoison d) = 7 := by
  have hcheck : fld (eccPoison d) 87 72 = eccCheck d ^^^ 7 := by
    have hmark : eccCheck d ^^^ 7 < 2 ^ 16 := Nat.xor_lt_two_pow (eccCheck_lt d) (by decide)
    have := d.isLt
    rw [fld, eccPoison_toNat, Nat.shiftRight_eq_div_pow]
    omega
  rw [eccSyn, granData_eccPoison, hcheck, ← Nat.xor_assoc, Nat.xor_self, Nat.zero_xor]

theorem eccClass_eccPoison (code : Bool) (d : BitVec 72) : eccClass code (eccPoison d) = (.poisoned, d) := by
  unfold eccClass
  dsimp only
  rw [eccSyn_eccPoison, if_neg (by decide), if_pos rfl, granData_eccPoison]

end Sys2Proof.Machine
end

section
/-!
SUPPORT. The distance of the code (R338 to R341): no two stored bits, and no two pairs of them, have the same syndrome, and
every single bit's syndrome has an odd number of ones. The finite checks run over the table of the 88 syndromes.
-/
namespace Sys2Proof.Machine

/-! ## Odd syndromes -/

/-- Has a number an odd number of ones among its 16 low bits? -/
def oddOnes (v : Nat) : Bool := (List.range 16).foldl (fun x i => x ^^ v.testBit i) false

theorem oddOnes_xor (u v : Nat) : oddOnes (u ^^^ v) = (oddOnes u ^^ oddOnes v) := by
  have fold (l : List Nat) (x y : Bool) : l.foldl (fun z i => z ^^ (u ^^^ v).testBit i) (x ^^ y) =
      (l.foldl (fun z i => z ^^ u.testBit i) x ^^ l.foldl (fun z i => z ^^ v.testBit i) y) := by
    induction l generalizing x y with
    | nil => rfl
    | cons i l ih =>
      have hstep : ((x ^^ y) ^^ (u ^^^ v).testBit i) = ((x ^^ u.testBit i) ^^ (y ^^ v.testBit i)) := by
        rw [Nat.testBit_xor, Bool.xor_assoc, Bool.xor_assoc, Bool.xor_left_comm y]
      rw [List.foldl_cons, List.foldl_cons, List.foldl_cons, hstep, ih]
  exact fold _ false false

/-! ## The table of the stored bits' syndromes -/

theorem bitSyn_of_mem : ∀ x ∈ eccBits false, x.1 < 88 ∧ x.2 = bitSyn x.1 := by decide +kernel

theorem exists_mem_eccBits : ∀ a < 88, a ∈ (eccBits false).map Prod.fst := by decide +kernel

theorem oddOnes_of_mem : ∀ x ∈ eccBits false, oddOnes x.2 = true := by decide +kernel

/-- No stored bit's syndrome is the poison mark. -/
theorem ne_mark_of_mem : ∀ x ∈ eccBits false, x.2 ≠ 7 := by decide +kernel

/-- A code memory's table leaves out the bits that it does not store. -/
theorem eccBits_true : eccBits true = (eccBits false).filter (fun x => x.1 < 64 ∨ 72 ≤ x.1) := by decide +kernel

theorem mem_eccBits {code : Bool} {x : Nat × Nat} :
    x ∈ eccBits code ↔ keepsBit code x.1 ∧ x.2 = bitSyn x.1 := by
  have hfull : x ∈ eccBits false ↔ x.1 < 88 ∧ x.2 = bitSyn x.1 := by
    refine ⟨bitSyn_of_mem x, fun ⟨hlt, hsyn⟩ => ?_⟩
    obtain ⟨y, hy, hfst⟩ := List.mem_map.mp (exists_mem_eccBits x.1 hlt)
    obtain ⟨-, hsnd⟩ := bitSyn_of_mem y hy
    rwa [show x = y from Prod.ext hfst.symm (by rw [hsyn, hsnd, hfst])]
  cases code with
  | false => simp [hfull, keepsBit]
  | true => simp [eccBits_true, hfull, keepsBit, and_assoc, and_comm]

theorem oddOnes_bitSyn {a : Nat} (ha : a < 88) : oddOnes (bitSyn a) = true :=
  oddOnes_of_mem (a, bitSyn a) (mem_eccBits.mpr ⟨⟨ha, Bool.noConfusion⟩, rfl⟩)

theorem bitSyn_ne_mark {a : Nat} (ha : a < 88) : bitSyn a ≠ 7 :=
  ne_mark_of_mem (a, bitSyn a) (mem_eccBits.mpr ⟨⟨ha, Bool.noConfusion⟩, rfl⟩)

/-! ## Numbers met only once -/

/-- Is no number of the list met twice, nor one whose bit is set in seen? -/
def allNew : List Nat → Nat → Bool
  | [], _ => true
  | v :: l, seen => !(seen.testBit v) && allNew l (seen ||| 2 ^ v)

theorem allNew_spec {l : List Nat} {seen : Nat} (h : allNew l seen = true) :
    l.Nodup ∧ ∀ v ∈ l, seen.testBit v = false := by
  induction l generalizing seen with
  | nil => simp
  | cons v l ih =>
    rw [allNew, Bool.and_eq_true, Bool.not_eq_true'] at h
    obtain ⟨hv, hl⟩ := h
    obtain ⟨hnodup, hseen⟩ := ih hl
    simp only [Nat.testBit_or, Nat.testBit_two_pow, Bool.or_eq_false_iff, decide_eq_false_iff_not] at hseen
    refine ⟨List.nodup_cons.mpr ⟨fun hmem => (hseen v hmem).2 rfl, hnodup⟩, fun u hu => ?_⟩
    obtain rfl | hu := List.mem_cons.mp hu
    · exact hv
    · exact (hseen u hu).1

/-- The pairs of a list's entries, each with a later one. -/
def laterPairs {α : Type} : List α → List (α × α)
  | [] => []
  | x :: l => l.map (x, ·) ++ laterPairs l

theorem mem_laterPairs {α : Type} {l : List α} {x y : α} (hx : x ∈ l) (hy : y ∈ l) (h : x ≠ y) :
    (x, y) ∈ laterPairs l ∨ (y, x) ∈ laterPairs l := by
  induction l with
  | nil => cases hx
  | cons z l ih =>
    simp only [laterPairs, List.mem_append, List.mem_map, Prod.mk.injEq]
    obtain rfl | hxl := List.mem_cons.mp hx
    · exact .inl (.inl ⟨y, (List.mem_cons.mp hy).resolve_left h.symm, rfl, rfl⟩)
    · obtain rfl | hyl := List.mem_cons.mp hy
      · exact .inr (.inl ⟨x, hxl, rfl, rfl⟩)
      · exact (ih hxl hyl).imp .inr .inr

/-- No two stored bits have the same syndrome. -/
theorem bitSyns_allNew : allNew ((eccBits false).map Prod.snd) 0 = true := by decide +kernel

/-- No two pairs of stored bits have the same syndrome: the finite check that the code's distance rests on. -/
theorem pairSyns_allNew : allNew ((laterPairs (eccBits false)).map (fun x => x.1.2 ^^^ x.2.2)) 0 = true := by decide +kernel

/-- A pair of stored bits stands in the list of pairs, in one order or the other. -/
theorem exists_laterPair {a b : Nat} (hab : a < b) (hb : b < 88) : ∃ x ∈ laterPairs (eccBits false),
    x.1.2 ^^^ x.2.2 = bitSyn a ^^^ bitSyn b ∧ (x.1.1 = a ∧ x.2.1 = b ∨ x.1.1 = b ∧ x.2.1 = a) := by
  have mem {i : Nat} (hi : i < 88) : (i, bitSyn i) ∈ eccBits false := mem_eccBits.mpr ⟨⟨hi, Bool.noConfusion⟩, rfl⟩
  obtain h | h := mem_laterPairs (mem (hab.trans hb)) (mem hb) (fun h => hab.ne (congrArg Prod.fst h))
  · exact ⟨_, h, rfl, .inl ⟨rfl, rfl⟩⟩
  · exact ⟨_, h, Nat.xor_comm .., .inr ⟨rfl, rfl⟩⟩

/-- A pair of stored bits is known by its syndrome. -/
theorem pair_of_bitSyn {a b c e : Nat} (hab : a < b) (hb : b < 88) (hce : c < e) (he : e < 88)
    (h : bitSyn a ^^^ bitSyn b = bitSyn c ^^^ bitSyn e) : a = c ∧ b = e := by
  obtain ⟨x, hx, hxs, hxo⟩ := exists_laterPair hab hb
  obtain ⟨y, hy, hys, hyo⟩ := exists_laterPair hce he
  have hxy : x = y := List.inj_on_of_nodup_map (allNew_spec pairSyns_allNew).1 hx hy (hxs.trans (h.trans hys.symm))
  subst hxy
  omega

/-- A stored bit is known by its syndrome. -/
theorem bit_of_bitSyn {a b : Nat} (ha : a < 88) (hb : b < 88) (h : bitSyn a = bitSyn b) : a = b := by
  have mem {i : Nat} (hi : i < 88) : (i, bitSyn i) ∈ eccBits false := mem_eccBits.mpr ⟨⟨hi, Bool.noConfusion⟩, rfl⟩
  exact congrArg Prod.fst (List.inj_on_of_nodup_map (allNew_spec bitSyns_allNew).1 (mem ha) (mem hb) h)

/-! ## What the search for a pattern finds -/

/-- A pattern found is one stored bit or a pair of them with the syndrome. -/
theorem eccPattern_eq_some {code : Bool} {syn : Nat} {l : List Nat} (h : eccPattern code syn = some l) :
    (∃ a, keepsBit code a ∧ bitSyn a = syn ∧ l = [a]) ∨
      ∃ a b, a < b ∧ keepsBit code a ∧ keepsBit code b ∧ bitSyn a ^^^ bitSyn b = syn ∧ l = [a, b] := by
  unfold eccPattern at h
  dsimp only at h
  split at h
  next x hx =>
    obtain ⟨hkeep, hsyn⟩ := mem_eccBits.mp (List.mem_of_find?_eq_some hx)
    have hfound : x.2 = syn := by simpa using List.find?_some hx
    exact .inl ⟨x.1, hkeep, hsyn.symm.trans hfound, (Option.some.inj h).symm⟩
  next =>
    obtain ⟨x, hx, hfind⟩ := List.exists_of_findSome?_eq_some h
    obtain ⟨y, hy, rfl⟩ := Option.map_eq_some_iff.mp hfind
    obtain ⟨hxkeep, hxsyn⟩ := mem_eccBits.mp hx
    obtain ⟨hykeep, hysyn⟩ := mem_eccBits.mp (List.mem_of_find?_eq_some hy)
    obtain ⟨hlt, hsum⟩ : x.1 < y.1 ∧ x.2 ^^^ y.2 = syn := by simpa using List.find?_some hy
    exact .inr ⟨x.1, y.1, hlt, hxkeep, hykeep, by rw [← hxsyn, ← hysyn, hsum], rfl⟩

/-- Where there is none, no stored bit and no pair has the syndrome. -/
theorem eccPattern_eq_none {code : Bool} {syn : Nat} (h : eccPattern code syn = none) :
    (∀ a, keepsBit code a → bitSyn a ≠ syn) ∧
      ∀ a b, a < b → keepsBit code a → keepsBit code b → bitSyn a ^^^ bitSyn b ≠ syn := by
  unfold eccPattern at h
  dsimp only at h
  split at h
  next => cases h
  next hnone =>
    rw [List.find?_eq_none] at hnone
    rw [List.findSome?_eq_none_iff] at h
    refine ⟨fun a ha hsyn => ?_, fun a b hab ha hb hsyn => ?_⟩
    · exact hnone (a, bitSyn a) (mem_eccBits.mpr ⟨ha, rfl⟩) (decide_eq_true hsyn)
    · have hx := h (a, bitSyn a) (mem_eccBits.mpr ⟨ha, rfl⟩)
      rw [Option.map_eq_none_iff, List.find?_eq_none] at hx
      exact hx (b, bitSyn b) (mem_eccBits.mpr ⟨hb, rfl⟩) (decide_eq_true ⟨hab, hsyn⟩)

variable {code : Bool} {a b c : Nat}

/-- The syndrome of one stored bit finds that bit. -/
theorem eccPattern_bit (ha : keepsBit code a) : eccPattern code (bitSyn a) = some [a] := by
  cases hp : eccPattern code (bitSyn a) with
  | none => exact absurd rfl ((eccPattern_eq_none hp).1 a ha)
  | some l =>
    obtain ⟨x, ⟨hx, -⟩, hsyn, rfl⟩ | ⟨x, y, -, ⟨hx, -⟩, ⟨hy, -⟩, hsyn, -⟩ := eccPattern_eq_some hp
    · rw [bit_of_bitSyn hx ha.1 hsyn]
    · have := congrArg oddOnes hsyn
      simp [oddOnes_xor, oddOnes_bitSyn hx, oddOnes_bitSyn hy, oddOnes_bitSyn ha.1] at this

/-- The syndrome of a pair of stored bits finds that pair. -/
theorem eccPattern_pair (hab : a < b) (ha : keepsBit code a) (hb : keepsBit code b) :
    eccPattern code (bitSyn a ^^^ bitSyn b) = some [a, b] := by
  cases hp : eccPattern code (bitSyn a ^^^ bitSyn b) with
  | none => exact absurd rfl ((eccPattern_eq_none hp).2 a b hab ha hb)
  | some l =>
    obtain ⟨x, ⟨hx, -⟩, hsyn, -⟩ | ⟨x, y, hxy, -, ⟨hy, -⟩, hsyn, rfl⟩ := eccPattern_eq_some hp
    · have := congrArg oddOnes hsyn
      simp [oddOnes_xor, oddOnes_bitSyn hx, oddOnes_bitSyn ha.1, oddOnes_bitSyn hb.1] at this
    · obtain ⟨rfl, rfl⟩ := pair_of_bitSyn hxy hy hab hb.1 hsyn
      rfl

/-- The syndrome of three stored bits finds no pattern. -/
theorem eccPattern_three (hab : a < b) (hbc : b < c) (hc : c < 88) :
    eccPattern code (bitSyn a ^^^ bitSyn b ^^^ bitSyn c) = none := by
  cases hp : eccPattern code (bitSyn a ^^^ bitSyn b ^^^ bitSyn c) with
  | none => rfl
  | some l =>
    exfalso
    obtain ⟨x, ⟨hx, -⟩, hsyn, -⟩ | ⟨x, y, -, ⟨hx, -⟩, ⟨hy, -⟩, hsyn, -⟩ := eccPattern_eq_some hp
    · have hpair : bitSyn a ^^^ bitSyn b = bitSyn x ^^^ bitSyn c := by
        rw [hsyn, Nat.xor_assoc, Nat.xor_self, Nat.xor_zero]
      obtain hlt | heq | hgt := Nat.lt_trichotomy x c
      · have := pair_of_bitSyn hab (hbc.trans hc) hlt hc hpair
        omega
      · rw [heq, Nat.xor_self] at hpair
        have := bit_of_bitSyn (hab.trans (hbc.trans hc)) (hbc.trans hc) (Nat.xor_eq_zero_iff.mp hpair)
        omega
      · have := pair_of_bitSyn hab (hbc.trans hc) hgt hx (hpair.trans (Nat.xor_comm ..))
        omega
    · have := congrArg oddOnes hsyn
      simp [oddOnes_xor, oddOnes_bitSyn hx, oddOnes_bitSyn hy, oddOnes_bitSyn (hab.trans (hbc.trans hc)),
        oddOnes_bitSyn (hbc.trans hc), oddOnes_bitSyn hc] at this

/-! ## Classes of a codeword with bits flipped (R341) -/

/-- A granule with a pattern's syndrome is corrected by flipping the pattern back. -/
theorem eccClass_of_pattern {g : Gran} {l : List Nat} (h0 : eccSyn g ≠ 0) (h7 : eccSyn g ≠ 7)
    (h : eccPattern code (eccSyn g) = some l) : eccClass code g = (.corrected, flipBits (granData g) l) := by
  unfold eccClass
  dsimp only
  rw [if_neg h0, if_neg h7, h]

theorem eccClass_flip_one (d : BitVec 72) (ha : keepsBit code a) :
    eccClass code (eccEncode d ^^^ stored a) = (.corrected, d) := by
  have hsyn : eccSyn (eccEncode d ^^^ stored a) = bitSyn a := by
    rw [eccSyn_xor, eccSyn_eccEncode, Nat.zero_xor, bitSyn]
  have hne : bitSyn a ≠ 0 := fun h => absurd (oddOnes_bitSyn ha.1) (by rw [h]; decide)
  rw [eccClass_of_pattern (l := [a]) (by rwa [hsyn]) (by rw [hsyn]; exact bitSyn_ne_mark ha.1)
    (by rw [hsyn, eccPattern_bit ha]), flipBits_cons, granData_xor, granData_eccEncode, BitVec.xor_assoc, BitVec.xor_self,
    BitVec.xor_zero]
  rfl

theorem eccClass_flip_two (d : BitVec 72) (hab : a < b) (ha : keepsBit code a) (hb : keepsBit code b) :
    eccClass code (eccEncode d ^^^ stored a ^^^ stored b) = (.corrected, d) := by
  have hsyn : eccSyn (eccEncode d ^^^ stored a ^^^ stored b) = bitSyn a ^^^ bitSyn b := by
    rw [eccSyn_xor, eccSyn_xor, eccSyn_eccEncode, Nat.zero_xor, bitSyn, bitSyn]
  have heven : oddOnes (bitSyn a ^^^ bitSyn b) = false := by
    rw [oddOnes_xor, oddOnes_bitSyn ha.1, oddOnes_bitSyn hb.1]
    rfl
  have h7 : bitSyn a ^^^ bitSyn b ≠ 7 := fun h => absurd heven (by rw [h]; decide)
  have h0 : bitSyn a ^^^ bitSyn b ≠ 0 := fun h => hab.ne (bit_of_bitSyn ha.1 hb.1 (Nat.xor_eq_zero_iff.mp h))
  have hdata : flipBits (granData (eccEncode d ^^^ stored a ^^^ stored b)) [a, b] = d := by
    rw [flipBits_cons, flipBits_cons, granData_xor, granData_xor, granData_eccEncode]
    calc d ^^^ granData (stored a) ^^^ granData (stored b) ^^^ granData (stored a) ^^^ granData (stored b)
        = d ^^^ (granData (stored a) ^^^ granData (stored a)) ^^^ (granData (stored b) ^^^ granData (stored b)) := by ac_rfl
      _ = d := by simp
  rw [eccClass_of_pattern (l := [a, b]) (by rwa [hsyn]) (by rwa [hsyn]) (by rw [hsyn, eccPattern_pair hab ha hb]), hdata]

theorem eccClass_flip_three (d : BitVec 72) (hab : a < b) (hbc : b < c) (hc : c < 88) :
    (eccClass code (eccEncode d ^^^ stored a ^^^ stored b ^^^ stored c)).1 ∈ [.poisoned, .uncorrectable] := by
  have hsyn : eccSyn (eccEncode d ^^^ stored a ^^^ stored b ^^^ stored c) = bitSyn a ^^^ bitSyn b ^^^ bitSyn c := by
    rw [eccSyn_xor, eccSyn_xor, eccSyn_xor, eccSyn_eccEncode, Nat.zero_xor, bitSyn, bitSyn, bitSyn]
  have hodd : oddOnes (bitSyn a ^^^ bitSyn b ^^^ bitSyn c) = true := by
    rw [oddOnes_xor, oddOnes_xor, oddOnes_bitSyn (hab.trans (hbc.trans hc)), oddOnes_bitSyn (hbc.trans hc), oddOnes_bitSyn hc]
    rfl
  have h0 : bitSyn a ^^^ bitSyn b ^^^ bitSyn c ≠ 0 := fun h => absurd hodd (by rw [h]; decide)
  unfold eccClass
  dsimp only
  rw [hsyn, if_neg h0]
  split
  · exact .head _
  · rw [eccPattern_three hab hbc hc]
    exact .tail _ (.head _)

end Sys2Proof.Machine
end

section
/-!
SETTLES O26. The protection code: clean codewords, one and two flips corrected, three found, the poison mark (R338 to
R343).
-/
namespace Sys2Proof.Machine

/-- Settles O26: a codeword's class with bits flipped is that of the bits' syndromes, since the syndrome is linear; odd
syndromes tell odd patterns from even ones, and the code's distance tells apart the patterns of one and two bits. -/
theorem granuleCode : Obligations.GranuleCode := by
  intro code d _
  refine ⟨eccSyn_eccEncode d, eccClass_eccEncode code d, eccSyn_eccPoison d, eccClass_eccPoison code d, fun a ha hka =>
    ⟨eccClass_flip_one d ⟨ha, hka⟩, fun b hab hb hkb => ⟨eccClass_flip_two d hab ⟨ha, hka⟩ ⟨hb, hkb⟩, fun c hbc hc _ =>
      eccClass_flip_three d hab hbc hc⟩⟩⟩

end Sys2Proof.Machine
end

section
/-!
SUPPORT. A power-up (R358, R629): every vault is wiped, and what the fuses hold stands beside reset.
-/
namespace Sys2Proof.Machine

/-! ## What a run of effects keeps -/

/-- What every effect of a list keeps, the list keeps. -/
theorem foldl_keeps {α β : Type} {f : State → α → State} (g : State → β) (h : ∀ s x, g (f s x) = g s) (l : List α)
    (s : State) : g (l.foldl f s) = g s := by
  induction l generalizing s with
  | nil => rfl
  | cons x l ih => rw [List.foldl_cons, ih, h]

/-- A relation that every effect of a list is in, the list is in. -/
theorem foldl_rel {α : Type} {f : State → α → State} {r : State → State → Prop} (hrefl : ∀ s, r s s)
    (htrans : ∀ s t u, r s t → r t u → r s u) (l : List α) (h : ∀ s, ∀ x ∈ l, r s (f s x)) (s : State) : r s (l.foldl f s) := by
  induction l generalizing s with
  | nil => exact hrefl s
  | cons x l ih =>
    exact htrans _ _ _ (h s x (.head l)) (ih (fun s y hy => h s y (.tail x hy)) _)

/-- What the effect of one entry of a list establishes of a state that still has what the others keep, the list establishes
where no effect undoes it. -/
theorem foldl_reaches {α : Type} {f : State → α → State} {before after : State → Prop} {a : α} {l : List α} (ha : a ∈ l)
    (hbefore : ∀ s, ∀ x ∈ l, x ≠ a → before s → before (f s x)) (hafter : ∀ s, ∀ x ∈ l, after s → after (f s x))
    (hreach : ∀ s, before s → after (f s a)) {s : State} (hs : before s) : after (l.foldl f s) := by
  have stays (l : List α) (h : ∀ s, ∀ x ∈ l, after s → after (f s x)) {s : State} (hs : after s) : after (l.foldl f s) :=
    List.foldlRecOn _ _ hs fun u hu x hx => h u x hx hu
  induction l generalizing s with
  | nil => cases ha
  | cons x l ih =>
    rw [List.foldl_cons]
    by_cases hx : x = a
    · subst hx
      exact stays l (fun s y hy => hafter s y (.tail x hy)) (hreach s hs)
    · exact ih ((List.mem_cons.mp ha).resolve_left (Ne.symm hx)) (fun s y hy => hbefore s y (.tail x hy))
        (fun s y hy => hafter s y (.tail x hy)) (hbefore s x (.head l) hx hs)

/-! ## Every vault -/

/-- The warden of a die is wiping its vault. -/
def State.isWiping (s : State) (d : Nat) : Prop := bitOf ((s.tile d 72).ior 0x1E) 0 = true

theorem State.isWiping_wipeStart_self (s : State) (d cause : Nat) : (s.wipeStart d cause).isWiping d := by
  rw [State.isWiping, State.tile_wipeStart, Tile.ior_marks]
  exact Tile.bitOf_ior_wiping ..

theorem State.isWiping_wipeStart {s : State} {d : Nat} (e cause : Nat) (h : s.isWiping d) : (s.wipeStart e cause).isWiping d := by
  by_cases hde : d = e
  · exact hde ▸ s.isWiping_wipeStart_self d cause
  · obtain ⟨-, hothers, -⟩ := s.wipeStart_tileOnly e cause
    rwa [State.isWiping, hothers d 72 (by unfold tkey; omega)]

/-- A wipe event at every warden. -/
theorem State.isWiping_wipeAll (s : State) (cause : Nat) {d : Nat} (hd : d < 8) : (s.wipeAll cause).isWiping d := by
  unfold State.wipeAll
  exact foldl_reaches (before := fun _ => True) (after := fun s => s.isWiping d) (List.mem_range.mpr hd)
    (fun _ _ _ _ h => h) (fun s e _ h => State.isWiping_wipeStart e cause h)
    (fun s _ => s.isWiping_wipeStart_self d cause) trivial

@[simp] theorem State.wipeAll_flash (s : State) (cause : Nat) : (s.wipeAll cause).flash = s.flash := by
  unfold State.wipeAll
  refine foldl_keeps State.flash ?_ _ _
  exact fun _ _ => rfl

@[simp] theorem State.wipeAll_regs (s : State) (cause : Nat) : (s.wipeAll cause).regs = s.regs := by
  unfold State.wipeAll
  refine foldl_keeps State.regs ?_ _ _
  exact fun _ _ => rfl

@[simp] theorem State.wipeAll_held (s : State) (cause : Nat) : (s.wipeAll cause).held = s.held := by
  unfold State.wipeAll
  refine foldl_keeps State.held ?_ _ _
  exact fun _ _ => rfl

/-! ## The fuses -/

/-- No word is fused beside those of the SEC_ block up to the boot counter and the repairs of the stacks. -/
theorem State.get_fuses {s : State} {k : Nat} (hsec : k < aSec 0 ∨ aSec 0x41 ≤ k) (hdram : ∀ d, k ≠ aDram d 0x15) :
    SMap.get regReset s.fuses k = regReset k := by
  have hkeep : SMap.get regReset (s.regs.filter (fun (e : Nat × Word) => decide (aSec 0 ≤ e.1 ∧ e.1 < aSec 0x20))) k =
      regReset k := by
    have hdrop : s.regs.filter (fun (e : Nat × Word) => decide (aSec 0 ≤ e.1 ∧ e.1 < aSec 0x20)) =
        SMap.dropIf (fun k => !(decide (aSec 0 ≤ k ∧ k < aSec 0x20))) s.regs :=
      List.filter_congr fun e _ => (Bool.not_not _).symm
    have hout : ¬ (aSec 0 ≤ k ∧ k < aSec 0x20) := by unfold aSec at *; omega
    rw [hdrop, SMap.get_dropIf, if_pos (by rw [decide_eq_false hout]; rfl)]
  have repairs (l : List Nat) (m : SMap Word) (f : Nat → Word) :
      SMap.get regReset (l.foldl (fun m d => SMap.set regReset m (aDram d 0x15) (f d)) m) k = SMap.get regReset m k := by
    induction l generalizing m with
    | nil => rfl
    | cons d l ih => rw [List.foldl_cons, ih, SMap.get_set_of_ne _ _ _ (hdram d)]
  have hlc : k ≠ aSec 0 := by unfold aSec at *; omega
  have hcount : k ≠ aSecBoot := by unfold aSecBoot aSec at *; omega
  unfold State.fuses
  extract_lets keep lc boot
  rw [repairs _ _ (fun d => wd (2 ^ 12 * s.rf (aDram d 0x15) 23 12)), SMap.get_set_of_ne _ _ _ hcount]
  unfold lc
  split
  · rw [SMap.get_set_of_ne _ _ _ hlc, hkeep]
  · exact hkeep

/-! ## The part after the rising edge of PORST_N -/

/-- Reset, but for what outlives a power-up, before the vaults' wipe begins. -/
def State.poweredUp (s : State) : State :=
  ({ State.reset with
      pending := s.pending, held := false, regs := s.fuses, flash := s.flash, badSect := s.badSect,
      free := s.free, out := s.out, sec := { State.reset.sec with idSeed := s.sec.idSeed } } : State).wb aTimStat 3 true

theorem State.powerUp_eq (s : State) : s.powerUp = s.poweredUp.wipeAll 0 := rfl

theorem State.rd_powerUp_poweredUp (s : State) (k : Nat) : s.powerUp.rd k = s.poweredUp.rd k := by
  rw [State.rd, State.powerUp_eq, State.wipeAll_regs, State.rd]

/-- A register apart from the fuses and PKG_TIM_STAT reads its reset value. -/
theorem State.rd_powerUp {s : State} {k : Nat} (htim : k ≠ aTimStat) (hsec : k < aSec 0 ∨ aSec 0x41 ≤ k)
    (hdram : ∀ d, k ≠ aDram d 0x15) : s.powerUp.rd k = regReset k := by
  rw [State.rd_powerUp_poweredUp, State.poweredUp, State.rd_wb_of_ne _ htim]
  exact State.get_fuses hsec hdram

/-- No milestone has set the tick number yet. -/
theorem State.tickValid_powerUp (s : State) : s.powerUp.tickValid = false := by
  have hfused : SMap.get regReset s.fuses aTimStat = regReset aTimStat :=
    State.get_fuses (.inl (by decide)) (fun d => by unfold aTimStat aDram aDie; omega)
  rw [State.tickValid, State.rb, State.rd_powerUp_poweredUp, State.poweredUp, State.rd_wb, if_pos rfl,
    bitOf_putFld_apart _ _ (by decide), State.rd, hfused]
  decide +kernel

/-- Phase 0 is in progress. -/
theorem State.phase_powerUp (s : State) : s.powerUp.rf aBoot 3 0 = 0 := by
  rw [State.rf, State.rd_powerUp (by decide) (.inl (by decide)) (fun d => by unfold aBoot aDram aDie; omega)]
  decide +kernel

theorem exec_porstNPulse {s : State} (hs : s.held = false) : exec .porstNPulse s = .next (s.keepQueue s.powerUp) :=
  live_next (ok := true) (f := State.powerUp) hs rfl

/-- A pulse of PORST_N: the first clause of O58. -/
theorem porstNPulse_spec {s : State} (hs : s.held = false) :
    ∃ t, exec .porstNPulse s = .next t ∧ t.held = false ∧ t.rf aBoot 3 0 = 0 ∧ t.tickValid = false ∧ t.tick = 0 ∧
      t.flash = s.flash ∧ t.pending = s.pending ∧ ∀ d, d < 8 → bitOf ((t.tile d 72).ior 0x1E) 0 = true := by
  have hheld : s.powerUp.held = false := by rw [State.powerUp_eq, State.wipeAll_held]; rfl
  have htick : s.powerUp.tick = 0 := by rw [State.powerUp_eq, State.wipeAll_tick]; rfl
  have hflash : s.powerUp.flash = s.flash := by rw [State.powerUp_eq, State.wipeAll_flash]; rfl
  have hwiping (d : Nat) (hd : d < 8) : s.powerUp.isWiping d := by
    rw [State.powerUp_eq]
    exact State.isWiping_wipeAll _ 0 hd
  refine ⟨_, exec_porstNPulse hs, ?_⟩
  simp only [State.keepQueue_held, State.rf, State.tickValid, State.rb, State.rd_of_keepQueue, State.keepQueue_tick,
    State.keepQueue_flash, State.keepQueue_pending, State.tile_of_keepQueue]
  exact ⟨hheld, s.phase_powerUp, s.tickValid_powerUp, htick, hflash, trivial, hwiping⟩

end Sys2Proof.Machine
end

section
/-!
SUPPORT. Effects that write registers and nothing else, and the phases of start-up that are little more (R630, R631, R643).
-/
namespace Sys2Proof.Machine

/-! ## Register writes alone -/

/-- From s to t registers were written, none but those that p names, and nothing else happened. -/
structure RegsAlone (p : Nat → Prop) (s t : State) : Prop where
  regs : RegsBut p s t
  rest : t = { s with regs := t.regs }

namespace RegsAlone
variable {p q : Nat → Prop} {s t u : State}

theorem refl (p : Nat → Prop) (s : State) : RegsAlone p s s := ⟨fun _ _ => rfl, rfl⟩

theorem trans (h : RegsAlone p s t) (k : RegsAlone p t u) : RegsAlone p s u :=
  ⟨fun a ha => (k.regs a ha).trans (h.regs a ha), k.rest.trans (by rw [h.rest])⟩

theorem mono (h : RegsAlone p s t) (hpq : ∀ a, p a → q a) : RegsAlone q s t :=
  ⟨fun a ha => h.regs a (fun e => ha (hpq a e)), h.rest⟩

theorem wr {k : Nat} (h : RegsAlone p s t) (v : Word) (hk : p k) : RegsAlone p s (t.wr k v) :=
  h.trans ⟨fun a ha => State.rd_wr_of_ne t v (by rintro rfl; exact ha hk), rfl⟩

theorem wf {k : Nat} (h : RegsAlone p s t) (hi lo v : Nat) (hk : p k) : RegsAlone p s (t.wf k hi lo v) := h.wr _ hk

theorem bump {k : Nat} (h : RegsAlone p s t) (hi lo n : Nat) (hk : p k) : RegsAlone p s (t.bump k hi lo n) := h.wr _ hk

/-- The writes of a list, one after another. -/
theorem foldl {α : Type} {f : State → α → State} {l : List α} (h : ∀ s, ∀ x ∈ l, RegsAlone p s (f s x)) (s : State) :
    RegsAlone p s (l.foldl f s) :=
  foldl_rel (refl p) (fun _ _ _ => trans) l h s

theorem tiles (h : RegsAlone p s t) : t.tiles = s.tiles := by rw [h.rest]
theorem flash (h : RegsAlone p s t) : t.flash = s.flash := by rw [h.rest]
theorem pwr (h : RegsAlone p s t) : t.pwr = s.pwr := by rw [h.rest]
theorem img (h : RegsAlone p s t) : t.img = s.img := by rw [h.rest]
theorem sec (h : RegsAlone p s t) : t.sec = s.sec := by rw [h.rest]
theorem boot (h : RegsAlone p s t) : t.boot = s.boot := by rw [h.rest]
theorem out (h : RegsAlone p s t) : t.out = s.out := by rw [h.rest]

theorem stores (h : RegsAlone p s t) : StoresKept s t := by
  rw [h.rest]
  exact ⟨rfl, rfl, rfl, rfl, rfl, rfl, rfl⟩

/-- The same writes with another record of the start-up beside them. -/
theorem withBoot (h : RegsAlone p s t) (b : BootSt) : RegsAlone p { s with boot := b } { t with boot := b } :=
  ⟨h.regs, by rw [h.rest]⟩

theorem rf (h : RegsAlone p s t) {k : Nat} (hi lo : Nat) (hk : ¬ p k) : t.rf k hi lo = s.rf k hi lo := by
  rw [State.rf, State.rf, h.regs k hk]

theorem rb (h : RegsAlone p s t) {k : Nat} (i : Nat) (hk : ¬ p k) : t.rb k i = s.rb k i := by
  rw [State.rb, State.rb, h.regs k hk]

end RegsAlone

/-! ## Domains and bytes -/

/-- The words that hold the states of the power domains. -/
def domRegs (q : Nat) : Prop := q = aPwr 0x20 ∨ ∃ e, e < 8 ∧ q = aPwr (0x18 + e)

theorem State.setDom_alone (s : State) {d : Nat} (i v : Nat) (hd : d < 8) : RegsAlone domRegs s (s.setDom d i v) := by
  unfold State.setDom
  split
  · exact (RegsAlone.refl _ s).wf _ _ _ (.inr ⟨d, hd, rfl⟩)
  · exact (RegsAlone.refl _ s).wf _ _ _ (.inl rfl)

theorem State.domainsOn_alone (s : State) (l : List Nat) : RegsAlone domRegs s (s.domainsOn l) :=
  RegsAlone.foldl (fun s _ hd => RegsAlone.foldl (fun s i _ => s.setDom_alone i 2 (List.mem_range.mp hd)) s) s

/-- Domains below 16 have their words to themselves. -/
theorem State.domainsOn_alone_low (s : State) {l : List Nat} (hl : ∀ i ∈ l, i < 16) :
    RegsAlone (fun q => ∃ e, e < 8 ∧ q = aPwr (0x18 + e)) s (s.domainsOn l) := by
  have one (s : State) (d i : Nat) (hd : d < 8) (hi : i < 16) :
      RegsAlone (fun q => ∃ e, e < 8 ∧ q = aPwr (0x18 + e)) s (s.setDom d i 2) := by
    unfold State.setDom
    rw [if_pos hi]
    exact (RegsAlone.refl _ s).wf _ _ _ ⟨d, hd, rfl⟩
  exact RegsAlone.foldl (fun s d hd => RegsAlone.foldl (fun s i hi => one s d i (List.mem_range.mp hd) (hl i hi)) s) s

theorem State.putBytes_alone (s : State) (k n : Nat) (l : List Byte) :
    RegsAlone (fun q => k ≤ q ∧ q < k + n) s (s.putBytes k n l) := by
  induction n generalizing s k l with
  | zero => exact RegsAlone.refl _ s
  | succ n ih =>
    have hfirst : RegsAlone (fun q => k ≤ q ∧ q < k + (n + 1)) s (s.wr k (wd (leBytes (l.take 4)))) :=
      (RegsAlone.refl _ s).wr _ ⟨Nat.le_refl _, by omega⟩
    exact hfirst.trans ((ih _ _ _).mono fun a ha => by omega)

theorem toLe_leBytes (l : List Byte) : toLe l.length (leBytes l) = l := by
  induction l with
  | nil => rfl
  | cons b l ih =>
    have hb := b.isLt
    rw [List.length_cons, leBytes, toLe]
    congr 1
    · exact BitVec.eq_of_toNat_eq (by rw [BitVec.toNat_ofNat]; omega)
    · rw [show (b.toNat + 256 * leBytes l) / 256 = leBytes l by omega, ih]

theorem leBytes_lt (l : List Byte) : leBytes l < 256 ^ l.length := by
  induction l with
  | nil => decide
  | cons b l ih =>
    have hb := b.isLt
    rw [leBytes, List.length_cons, Nat.pow_succ]
    omega

/-- Bytes put into register words are read back from them. -/
theorem State.bytesAt_putBytes (s : State) (k n : Nat) {l : List Byte} (hl : l.length = 4 * n) :
    (s.putBytes k n l).bytesAt k n = l := by
  induction n generalizing s k l with
  | zero => exact (List.eq_nil_of_length_eq_zero hl).symm
  | succ n ih =>
    have hword : ((s.wr k (wd (leBytes (l.take 4)))).putBytes (k + 1) n (l.drop 4)).rd k = wd (leBytes (l.take 4)) := by
      rw [((State.putBytes_alone _ (k + 1) n _).regs k (by omega)), State.rd_wr_self]
    have hfour : (l.take 4).length = 4 := by rw [List.length_take]; omega
    have hlt : leBytes (l.take 4) < 2 ^ 32 := by
      have := leBytes_lt (l.take 4)
      rwa [hfour] at this
    have hhead : toLe 4 (fld (wd (leBytes (l.take 4))) 31 0) = l.take 4 := by
      have hfld : fld (wd (leBytes (l.take 4))) 31 0 = leBytes (l.take 4) := by
        rw [fld, toNat_wd (by omega), Nat.shiftRight_zero, Nat.mod_eq_of_lt (by omega)]
      have hround := toLe_leBytes (l.take 4)
      rwa [hfour, ← hfld] at hround
    have htail := ih (s.wr k (wd (leBytes (l.take 4)))) (k + 1) (l := l.drop 4) (by rw [List.length_drop]; omega)
    rw [State.bytesAt] at htail
    rw [State.bytesAt, List.range_succ_eq_map, List.flatMap_cons, List.flatMap_map]
    simp only [State.putBytes, Nat.add_zero, hword, hhead, Nat.succ_eq_add_one, ← Nat.add_assoc, Nat.add_right_comm k _ 1, htail,
      List.take_append_drop]

/-- Bytes in words that stay are read as before. -/
theorem State.bytesAt_congr {s t : State} {k n : Nat} (h : ∀ i, i < n → t.rd (k + i) = s.rd (k + i)) :
    t.bytesAt k n = s.bytesAt k n :=
  List.flatMap_congr fun i hi => by rw [h i (List.mem_range.mp hi)]

/-! ## STARTUP -/

/-- STARTUP runs the phase in progress to its end; the order of its waymarks aside, that is all (R582, R632). -/
theorem exec_startup {s u : State} {bad : List Nat} (hs : s.held = false) (hu : s.startup bad = u) :
    ∃ l, exec (.startup bad) s = .next { u with pending := s.pending, marks := l } := by
  subst hu
  exact ⟨_, live_next (ok := true) (f := fun s => (s.startup bad).oneCycle s) hs rfl⟩

/-! ### Phase 0 -/

/-- The lowest of the wardens that passed their ROM check. -/
theorem lead_of_rom {bad : List Nat} {d : Nat} (hd : d < 2) (hgood : d ∉ bad) (hlow : ∀ e, e < d → e ∈ bad) :
    ∃ l, (List.range 8).filter (fun d => !(bad.contains d)) = d :: l := by
  have hbit (e : Nat) : bad.contains e = decide (e ∈ bad) := List.contains_eq_mem ..
  obtain rfl | rfl : d = 0 ∨ d = 1 := by omega
  · exact ⟨_, List.filter_cons_of_pos (by simp [hgood])⟩
  · exact ⟨_, (List.filter_cons_of_neg (by simp [hlow 0])).trans (List.filter_cons_of_pos (by simp [hgood]))⟩

theorem publicKey_length (oid seed : Nat) : (publicKey oid seed).length = 4 * 17 := by
  have hbe (n v : Nat) : (toBe n v).length = n := by rw [toBe, List.length_reverse, toLe_length]
  rw [publicKey, List.length_append, hbe, fixLen, List.length_append, List.length_take, List.length_replicate]
  omega

/-- The registers that phase 0 writes: PKG_BOOT, the wardens' domains and, once there are seeds, the identity root. -/
def boot0Regs (s : State) (a : Nat) : Prop :=
  a = aBoot ∨ (∃ e, e < 8 ∧ a = aPwr (0x18 + e)) ∨ (s.lc ≠ 0 ∧ aSec 0x20 ≤ a ∧ a ≤ aSec 0x30)

/-- The part with its lead, before it rebuilds the identity root. -/
def State.withLead (s : State) (rom : List Nat) (d : Nat) : State :=
  ({ s.domainsOn [15] with boot := { s.boot with rom := rom, lead := d } } : State).wf aBoot 10 8 d

theorem State.withLead_alone (s : State) (rom : List Nat) (d : Nat) :
    RegsAlone (boot0Regs s) { s with boot := { s.boot with rom := rom, lead := d } } (s.withLead rom d) := by
  have h := (s.domainsOn_alone_low (l := [15]) (by decide)).mono (q := boot0Regs s) fun a ha => .inr (.inl ha)
  exact (h.withBoot { s.boot with rom := rom, lead := d }).wf 10 8 d (.inl rfl)

theorem State.lc_withLead (s : State) (rom : List Nat) (d : Nat) : (s.withLead rom d).lc = s.lc := by
  refine (s.withLead_alone rom d).rf 2 0 ?_
  rintro (h | ⟨e, -, h⟩ | ⟨-, h, -⟩) <;> revert h <;> unfold aSec <;> (try unfold aBoot) <;> (try unfold aPwr) <;> omega

/-- The identity root is rebuilt from the fused seeds where there are any (R560). -/
theorem State.showIdentity_alone {s : State} (hlc : s.lc ≠ 0) (u : State) : RegsAlone (boot0Regs s) u u.showIdentity :=
  (u.putBytes_alone (aSec 0x20) 17 _).mono fun a ha => .inr (.inr ⟨hlc, ha.1, by unfold aSec at *; omega⟩)

/-- Phase 0 with lead d on die 0 or 1. -/
theorem boot0_eq {s : State} {bad : List Nat} {d : Nat} (hd : d < 2) (hgood : d ∉ bad) (hlow : ∀ e, e < d → e ∈ bad) :
    ∃ rom, s.boot0 bad =
      (if s.lc = 0 then s.withLead rom d else (s.withLead rom d).showIdentity).wf aBoot 3 0 1 := by
  obtain ⟨l, hrom⟩ := lead_of_rom hd hgood hlow
  refine ⟨d :: l, ?_⟩
  unfold State.boot0
  simp only [hrom]
  rw [if_pos hd]
  change (if (s.withLead (d :: l) d).lc = 0 then s.withLead (d :: l) d else (s.withLead (d :: l) d).showIdentity).wf _ _ _ _ = _
  rw [State.lc_withLead]

theorem boot0_spec {s : State} {bad : List Nat} {d : Nat} (hd : d < 2) (hgood : d ∉ bad) (hlow : ∀ e, e < d → e ∈ bad) :
    (s.boot0 bad).rf aBoot 3 0 = 1 ∧ (s.boot0 bad).lead = d ∧ (s.boot0 bad).rf aBoot 10 8 = d ∧
      RegsBut (boot0Regs s) s (s.boot0 bad) ∧
      (s.lc ≠ 0 → (s.boot0 bad).bytesAt (aSec 0x20) 17 = publicKey idOid s.sec.idSeed) ∧
      (s.boot0 bad).tiles = s.tiles ∧ StoresKept s (s.boot0 bad) := by
  obtain ⟨rom, heq⟩ := boot0_eq hd hgood hlow
  rw [heq]
  have hlead := s.withLead_alone rom d
  have hlast {u : State} (h : RegsAlone (boot0Regs s) { s with boot := { s.boot with rom := rom, lead := d } } u) 
      (hfld : u.rf aBoot 10 8 = d) :
      (u.wf aBoot 3 0 1).rf aBoot 3 0 = 1 ∧ (u.wf aBoot 3 0 1).lead = d ∧ (u.wf aBoot 3 0 1).rf aBoot 10 8 = d ∧
        RegsBut (boot0Regs s) s (u.wf aBoot 3 0 1) ∧ (u.wf aBoot 3 0 1).tiles = s.tiles ∧ StoresKept s (u.wf aBoot 3 0 1) := by
    have h' := h.wf 3 0 1 (.inl rfl)
    refine ⟨State.rf_wf_self _ _ _ (by decide), congrArg BootSt.lead h'.boot, ?_, h'.regs, h'.tiles, h'.stores⟩
    rwa [State.rf, State.rd_wf, if_pos rfl, fld_putFld_apart _ _ (by decide)]
  have hfld : (s.withLead rom d).rf aBoot 10 8 = d := by
    rw [State.withLead, State.rf_wf_self _ _ _ (by decide)]
    omega
  split
  next hlc =>
    obtain ⟨h1, h2, h3, h4, h5, h6⟩ := hlast hlead hfld
    exact ⟨h1, h2, h3, h4, fun h => absurd hlc h, h5, h6⟩
  next hlc =>
    have hid := State.showIdentity_alone hlc (s.withLead rom d)
    have hkept : (s.withLead rom d).showIdentity.rf aBoot 10 8 = d := by
      rw [State.rf, State.showIdentity, (State.putBytes_alone _ (aSec 0x20) 17 _).regs aBoot (by decide)]
      exact hfld
    obtain ⟨h1, h2, h3, h4, h5, h6⟩ := hlast (hlead.trans hid) hkept
    refine ⟨h1, h2, h3, h4, fun _ => ?_, h5, h6⟩
    have hread : ((s.withLead rom d).showIdentity.wf aBoot 3 0 1).bytesAt (aSec 0x20) 17 =
        (s.withLead rom d).showIdentity.bytesAt (aSec 0x20) 17 :=
      State.bytesAt_congr fun i _ => State.rd_wr_of_ne _ _ (by unfold aSec aBoot; omega)
    rw [hread, State.showIdentity, State.bytesAt_putBytes _ _ _ (publicKey_length ..), hlead.sec]

/-- Phase 0 of start-up: the second clause of O58. -/
theorem startup_phase0 {s : State} {bad : List Nat} {d : Nat} (hs : s.held = false) (hphase : s.rf aBoot 3 0 = 0) (hd : d < 2)
    (hgood : d ∉ bad) (hlow : ∀ e, e < d → e ∈ bad) :
    ∃ t, exec (.startup bad) s = .next t ∧ t.rf aBoot 3 0 = 1 ∧ t.lead = d ∧ t.rf aBoot 10 8 = d ∧
      RegsBut (boot0Regs s) s t ∧ (s.lc ≠ 0 → t.bytesAt (aSec 0x20) 17 = publicKey idOid s.sec.idSeed) ∧
      t.tiles = s.tiles ∧ StoresKept s t := by
  obtain ⟨l, he⟩ := exec_startup (u := s.boot0 bad) (bad := bad) hs (by simp only [State.startup, hphase])
  exact ⟨_, he, boot0_spec hd hgood hlow⟩

/-! ### Phase 5 -/

/-- The autoarm is the start-up record's alone. -/
theorem State.autoFrom_eq (v : State) :
    ∃ n, v.autoFrom = { v with boot := { v.boot with auto := 1, autoOff := n } } := ⟨_, rfl⟩

/-- The phase after phase 5: the autoarm, or the part is ready (R643). -/
theorem State.boot5_spec (s : State) : (s.boot5).rf aBoot 3 0 = (if s.rb 0xC1 0 then 8 else 7) ∧
    s.boot5.boot.auto = (if s.rb 0xC1 0 then 1 else s.boot.auto) ∧ s.boot5.flash = s.flash ∧ s.boot5.tiles = s.tiles ∧
    RegsBut (fun a => a = aBoot) s s.boot5 := by
  have hms := (RegsAlone.refl (fun a => a = aBoot) s).wf (k := aBoot) 35 20 (min 65535 ((s.sym - s.boot.edge) / symMs)) rfl
  have hauto := hms.rb (k := 0xC1) 0 (by decide)
  unfold State.boot5 State.enterReady
  rw [hauto]
  generalize s.wf aBoot 35 20 (min 65535 ((s.sym - s.boot.edge) / symMs)) = u at hms
  have hset (n : Nat) : RegsAlone (fun a => a = aBoot) s (u.setPhase17 n) := hms.wf 3 0 n rfl
  have hphase (n : Nat) : (u.setPhase17 n).rf aBoot 3 0 = n % 16 := State.rf_wf_self _ _ _ (by decide)
  split
  · obtain ⟨n, hfrom⟩ := State.autoFrom_eq (u.setPhase17 8)
    rw [hfrom]
    exact ⟨hphase 8, rfl, (hset 8).flash, (hset 8).tiles, (hset 8).regs⟩
  · exact ⟨hphase 7, congrArg BootSt.auto (hset 7).boot, (hset 7).flash, (hset 7).tiles, (hset 7).regs⟩

theorem startup_phase5 {s : State} (bad : List Nat) (hs : s.held = false) (hphase : s.rf aBoot 3 0 = 5) :
    ∃ t, exec (.startup bad) s = .next t ∧ t.rf aBoot 3 0 = (if s.rb 0xC1 0 then 8 else 7) ∧
      t.boot.auto = (if s.rb 0xC1 0 then 1 else s.boot.auto) ∧ t.flash = s.flash ∧ t.tiles = s.tiles ∧
      RegsBut (fun a => a = aBoot) s t := by
  obtain ⟨l, he⟩ := exec_startup (u := s.boot5) (bad := bad) hs (by simp only [State.startup, hphase])
  exact ⟨_, he, s.boot5_spec⟩

end Sys2Proof.Machine
end

section
/-!
SUPPORT. Effects that do not reach flash, bottom up (log entry 12).
-/
namespace Sys2Proof.Machine

@[simp] theorem State.wf_flash (s : State) (k hi lo v : Nat) : (s.wf k hi lo v).flash = s.flash := s.wr_flash ..

@[simp] theorem State.bump_flash (s : State) (k hi lo n : Nat) : (s.bump k hi lo n).flash = s.flash := s.wr_flash ..

@[simp] theorem State.onTile_flash (s : State) (d p : Nat) (f : Tile → Tile) : (s.onTile d p f).flash = s.flash :=
  s.setTile_flash ..

@[simp] theorem State.setPcie_flash (s : State) (i : Nat) (x : PcieSt) : (s.setPcie i x).flash = s.flash := by
  unfold State.setPcie
  split <;> rfl

@[simp] theorem State.vector_flash (s : State) (ep v : Nat) : (s.vector ep v).flash = s.flash := by
  unfold State.vector State.land
  dsimp only
  (repeat' split) <;> simp

@[simp] theorem State.msix_flash (s : State) (v : Nat) : (s.msix v).flash = s.flash := by simp [State.msix]

/-! ## The control ports -/

@[simp] theorem State.eachTile_flash (s : State) (f : Tile → Tile) : (s.eachTile f).flash = s.flash := by
  unfold State.eachTile
  exact foldl_keeps State.flash (fun s x => by simp) _ _

@[simp] theorem State.endSteward_flash (s : State) : s.endSteward.flash = s.flash := by
  unfold State.endSteward State.dropStaged
  dsimp only
  split <;> simp

@[simp] theorem State.resetMaster_flash (s : State) (m trans beats lastBeats : Nat) :
    (s.resetMaster m trans beats lastBeats).flash = s.flash := by
  unfold State.resetMaster
  dsimp only
  (repeat' split) <;> simp

/-! ## Security -/

@[simp] theorem State.akLost_flash (s : State) : s.akLost.flash = s.flash := s.akLost_effect.stores.1

@[simp] theorem State.secAbort_flash (s : State) : s.secAbort.flash = s.flash := by
  unfold State.secAbort
  exact foldl_keeps State.flash (fun s x => by simp [State.secStat]) _ _

@[simp] theorem State.leaveService_flash (s : State) : s.leaveService.flash = s.flash := by simp [State.leaveService]

@[simp] theorem State.tamperEvent_flash (s : State) (src : Nat) : (s.tamperEvent src).flash = s.flash := by
  unfold State.tamperEvent
  dsimp only
  (repeat' split) <;> simp

/-! ## Channels and routes -/

@[simp] theorem State.setTxep_flash (s : State) (n old new : Nat) (sw : Tick) : (s.setTxep n old new sw).flash = s.flash := by
  simp [State.setTxep]

@[simp] theorem State.switchChannels_flash (s : State) (x : ImgTile) (old new : Nat) (sw : Tick) :
    (s.switchChannels x old new sw).flash = s.flash := by
  unfold State.switchChannels
  exact foldl_keeps State.flash (fun s x => by split <;> simp) _ _

@[simp] theorem State.singleReceivers_flash (s : State) (im : Image) (lt e : Nat) :
    (s.singleReceivers im lt e).flash = s.flash := by
  unfold State.singleReceivers
  exact foldl_keeps State.flash (fun s x => by dsimp only; split <;> simp) _ _

@[simp] theorem State.setHops_flash (s : State) (bank d0 rid tid : Nat) (keep : Hop → Bool) (l : List (Hop × Nat)) :
    (s.setHops bank d0 rid tid keep l).flash = s.flash := by
  unfold State.setHops
  exact foldl_keeps State.flash (fun s x => by split <;> simp) _ _

@[simp] theorem State.deriveRoute_flash (s : State) (im : Image) (bank : Nat) (r : ImgRoute) (tid : Nat) :
    (s.deriveRoute im bank r tid).flash = s.flash := by simp [State.deriveRoute]

@[simp] theorem State.deriveNet_flash (s : State) (im : Image) : (s.deriveNet im).flash = s.flash := by
  unfold State.deriveNet
  exact foldl_keeps State.flash (fun s x => by simp) _ _

@[simp] theorem State.deriveStandby_flash (s : State) : s.deriveStandby.flash = s.flash := by
  unfold State.deriveStandby
  (repeat' split) <;> simp

@[simp] theorem State.deriveAll_flash (s : State) : s.deriveAll.flash = s.flash := by
  unfold State.deriveAll
  split <;> simp

/-! ## Wardens and their detours -/

@[simp] theorem State.setFlag_flash (s : State) (d p v : Nat) : (s.setFlag d p v).flash = s.flash := rfl

@[simp] theorem State.dropDetour_flash (s : State) (d : Nat) (x : Detour) : (s.dropDetour d x).flash = s.flash := by
  unfold State.dropDetour
  dsimp only
  (repeat' split) <;> simp

@[simp] theorem State.dropDetours_flash (s : State) (d : Nat) : (s.dropDetours d).flash = s.flash := by
  unfold State.dropDetours
  exact foldl_keeps State.flash (fun s x => by simp) _ _

@[simp] theorem State.setHealthy_flash (s : State) (l : List Nat) : (s.setHealthy l).flash = s.flash := by
  unfold State.setHealthy
  exact (foldl_keeps State.flash (fun s x => by simp) _ _).trans (by simp)

@[simp] theorem State.leadFails_flash (s : State) : s.leadFails.flash = s.flash := by
  have hto (d : Nat) : (s.leadTo d).flash = s.flash := by
    unfold State.leadTo
    dsimp only
    split <;> simp
  unfold State.leadFails
  (repeat' split) <;> simp [hto]

/-! ## Links and stacks -/

@[simp] theorem State.linkDown_flash (s : State) (l : Nat) : (s.linkDown l).flash = s.flash := by
  simp [State.linkDown, State.dirFresh, State.ibkBoth]

@[simp] theorem State.stackLost_flash (s : State) (d cause : Nat) : (s.stackLost d cause).flash = s.flash := by
  unfold State.stackLost
  simp [foldl_keeps State.flash, apply_ite State.flash]

@[simp] theorem State.flipAt_flash (s : State) (d lo hi : Nat) : (s.flipAt d lo hi).flash = s.flash := by
  unfold State.flipAt State.dput
  dsimp only
  (repeat' split) <;> simp

@[simp] theorem State.stackReturn_flash (s : State) (d : Nat) : (s.stackReturn d).flash = s.flash := by
  unfold State.stackReturn
  simp [foldl_keeps State.flash, apply_ite State.flash]

end Sys2Proof.Machine
end

section
/-!
SUPPORT. Effects of start-up that do not reach the tiles, or the record of power and aging.
-/
namespace Sys2Proof.Machine

@[simp] theorem State.wf_keeps_tiles (s : State) (k hi lo v : Nat) : (s.wf k hi lo v).tiles = s.tiles := s.wr_tiles ..

@[simp] theorem State.bump_keeps_tiles (s : State) (k hi lo n : Nat) : (s.bump k hi lo n).tiles = s.tiles := s.wr_tiles ..

@[simp] theorem State.wf_keeps_pwr (s : State) (k hi lo v : Nat) : (s.wf k hi lo v).pwr = s.pwr := s.wr_pwr ..

@[simp] theorem State.bump_keeps_pwr (s : State) (k hi lo n : Nat) : (s.bump k hi lo n).pwr = s.pwr := s.wr_pwr ..

/-- MSI-X reaches the endpoints and the outside alone. -/
theorem State.msix_keeps (s : State) (v : Nat) : (s.msix v).tiles = s.tiles ∧ (s.msix v).pwr = s.pwr := by
  have one (s : State) (ep : Nat) : (s.vector ep v).tiles = s.tiles ∧ (s.vector ep v).pwr = s.pwr := by
    unfold State.vector State.land State.setPcie
    dsimp only
    (repeat' split) <;> exact ⟨rfl, rfl⟩
  obtain ⟨h1, h2⟩ := one s 0
  obtain ⟨k1, k2⟩ := one (s.vector 0 v) 1
  exact ⟨k1.trans h1, k2.trans h2⟩

/-! ## Ibrak links -/

/-- A field at both ends of an Ibrak link is written in registers. -/
theorem State.ibkBoth_keeps (s : State) (l hi lo v : Nat) :
    (s.ibkBoth l (fun s a => s.wf a hi lo v)).tiles = s.tiles ∧ (s.ibkBoth l (fun s a => s.wf a hi lo v)).img = s.img :=
  ⟨rfl, rfl⟩

/-- An Ibrak link that goes down takes no tile and no image with it. -/
theorem State.linkDown_keeps (s : State) (l : Nat) : (s.linkDown l).tiles = s.tiles ∧ (s.linkDown l).img = s.img := by
  simp [State.linkDown, State.dirFresh, State.ibkBoth, State.wf]

/-! ## Stacks -/

/-- What a stack is that is lost, and one that is back, stands in no tile and in no record of power and aging. -/
theorem State.stackLost_keeps (s : State) (d cause : Nat) :
    (s.stackLost d cause).tiles = s.tiles ∧ (s.stackLost d cause).pwr = s.pwr := by
  unfold State.stackLost
  split
  · exact ⟨rfl, rfl⟩
  · dsimp only
    rw [(State.msix_keeps _ 5).1, (State.msix_keeps _ 5).2]
    simp [foldl_keeps State.tiles, foldl_keeps State.pwr]

theorem State.flipAt_keeps (s : State) (d lo hi : Nat) :
    (s.flipAt d lo hi).tiles = s.tiles ∧ (s.flipAt d lo hi).pwr = s.pwr := by
  unfold State.flipAt State.dput
  dsimp only
  (repeat' split) <;> simp

theorem State.stackReturn_keeps (s : State) (d : Nat) :
    (s.stackReturn d).tiles = s.tiles ∧ (s.stackReturn d).pwr = s.pwr := by
  unfold State.stackReturn
  split
  · exact ⟨rfl, rfl⟩
  · simp [State.flipAt_keeps, foldl_keeps State.tiles, foldl_keeps State.pwr]

/-! ## Wardens -/

/-- With no detour anywhere the wardens' health changes no tile. -/
theorem State.setHealthy_keeps {s : State} (h : ∀ e, s.detoursOn e = []) (l : List Nat) :
    (s.setHealthy l).tiles = s.tiles ∧ (s.setHealthy l).pwr = s.pwr ∧ (s.setHealthy l).img = s.img := by
  have drop {u : State} (hu : u.img = s.img) (e : Nat) : u.dropDetours e = u := by
    have hnone : u.detoursOn e = [] := by rw [State.detoursOn, hu]; exact h e
    rw [State.dropDetours, hnone]
    rfl
  have fold (es : List Nat) {u : State} (himg : u.img = s.img) (htiles : u.tiles = s.tiles) (hpwr : u.pwr = s.pwr) :
      (es.foldl (fun (s : State) d => s.dropDetours d) u).tiles = s.tiles ∧
        (es.foldl (fun (s : State) d => s.dropDetours d) u).pwr = s.pwr ∧
        (es.foldl (fun (s : State) d => s.dropDetours d) u).img = s.img := by
    induction es with
    | nil => exact ⟨htiles, hpwr, himg⟩
    | cons e es ih => rwa [List.foldl_cons, drop himg]
  exact fold _ rfl rfl rfl

end Sys2Proof.Machine
end

section
/-!
SUPPORT. The phases of start-up in which links and stacks train (R632, R633).
-/
namespace Sys2Proof.Machine

/-! ### Phase 2 -/

/-- Phase 2 leaves flash, and the tiles too where no link's exchange fails and no detour is in force. -/
theorem State.boot2_spec {s : State} (bad : List Nat) (hactive : s.sec.active = []) :
    (s.boot2 bad).rf aBoot 3 0 = 3 ∧ (s.boot2 bad).flash = s.flash ∧
      ((∀ l, l < 10 → 32 + l ∉ bad) → (∀ e, s.detoursOn e = []) → (s.boot2 bad).tiles = s.tiles) := by
  unfold State.boot2
  rw [if_neg (not_not.mpr hactive)]
  extract_lets s1 s2 up
  have hon : RegsAlone domRegs s s1 := s.domainsOn_alone [14]
  refine ⟨State.rf_wf_self _ _ _ (by decide), ?_, fun hok hdet => ?_⟩
  · have htrain : s2.flash = s1.flash := by
      refine foldl_keeps State.flash (fun s l => ?_) _ _
      dsimp only
      (repeat' split) <;> simp [State.ibkBoth]
    rw [State.wf_flash, State.setHealthy_flash, htrain, hon.flash]
  · have htrain : s2.tiles = s1.tiles ∧ s2.img = s1.img := by
      refine List.foldlRecOn (motive := fun (u : State) => u.tiles = s1.tiles ∧ u.img = s1.img) _ _ ⟨rfl, rfl⟩ fun u hu l hl => ?_
      have hexch : bad.contains (32 + l) = false := by
        rw [List.contains_eq_mem, decide_eq_false (hok l (List.mem_range.mp hl))]
      dsimp only
      rw [hexch, if_neg Bool.false_ne_true]
      split
      · rw [(State.linkDown_keeps ..).1, (State.linkDown_keeps ..).2, (State.ibkBoth_keeps ..).1, (State.ibkBoth_keeps ..).2]
        exact hu
      · rw [(State.ibkBoth_keeps ..).1, (State.ibkBoth_keeps ..).2, (State.ibkBoth_keeps ..).1, (State.ibkBoth_keeps ..).2]
        exact hu
    obtain ⟨htiles, himg⟩ := htrain
    have hnone (e : Nat) : s2.detoursOn e = [] := by rw [State.detoursOn, himg, hon.img]; exact hdet e
    rw [State.wf_keeps_tiles, (State.setHealthy_keeps hnone up).1, htiles, hon.tiles]

theorem startup_phase2 {s : State} (bad : List Nat) (hs : s.held = false) (hphase : s.rf aBoot 3 0 = 2)
    (hactive : s.sec.active = []) :
    ∃ t, exec (.startup bad) s = .next t ∧ t.rf aBoot 3 0 = 3 ∧ t.flash = s.flash ∧
      ((∀ l, l < 10 → 32 + l ∉ bad) → (∀ e, s.detoursOn e = []) → t.tiles = s.tiles) := by
  obtain ⟨l, he⟩ := exec_startup (u := s.boot2 bad) (bad := bad) hs (by simp only [State.startup, hphase])
  exact ⟨_, he, State.boot2_spec bad hactive⟩

/-! ### Phase 3 -/

/-- Phase 3 leaves the tiles, and flash too where no row is recorded for repair. -/
theorem State.boot3_spec (s : State) (bad : List Nat) :
    (s.boot3 bad).rf aBoot 3 0 = 4 ∧ (s.boot3 bad).tiles = s.tiles ∧ (s.pwr.rows = [] → (s.boot3 bad).flash = s.flash) := by
  unfold State.boot3
  extract_lets s1 s2
  have hon : RegsAlone domRegs s s1 := s.domainsOn_alone [13, 16]
  have htiles : s2.tiles = s1.tiles := by
    refine foldl_keeps State.tiles (fun s d => ?_) _ _
    dsimp only
    split <;> simp [State.stackLost_keeps, State.stackReturn_keeps]
  have hflash : s2.flash = s1.flash := by
    refine foldl_keeps State.flash (fun s d => ?_) _ _
    dsimp only
    split <;> simp
  refine ⟨State.rf_wf_self _ _ _ (by decide), ?_, fun hrows => ?_⟩
  · rw [State.wf_keeps_tiles]
    split
    · rw [htiles, hon.tiles]
    · obtain ⟨flash, nvWait, hledger, -⟩ := s2.ledgerWrite_eq
      rw [hledger]
      exact htiles.trans hon.tiles
  · have hnone : s1.pwr.rows = [] := by rw [hon.pwr, hrows]
    have hstay : s2.pwr.rows = [] := by
      refine List.foldlRecOn (motive := fun (u : State) => u.pwr.rows = []) _ _ hnone fun u hu d _ => ?_
      dsimp only
      split
      · rw [State.wf_keeps_pwr, (State.stackLost_keeps ..).2, hu]
      · have hpwr (n : Nat) : ((u.stackReturn d).bump (aDram d 0x15) 23 12 n).pwr = u.pwr := by
          rw [State.bump_keeps_pwr, (State.stackReturn_keeps ..).2]
        simp only [State.onStack_pwr, hpwr, hu]
        rfl
    rw [State.wf_flash, if_pos (hstay.trans hnone.symm), hflash, hon.flash]

theorem startup_phase3 {s : State} (bad : List Nat) (hs : s.held = false) (hphase : s.rf aBoot 3 0 = 3) :
    ∃ t, exec (.startup bad) s = .next t ∧ t.rf aBoot 3 0 = 4 ∧ t.tiles = s.tiles ∧ (s.pwr.rows = [] → t.flash = s.flash) := by
  obtain ⟨l, he⟩ := exec_startup (u := s.boot3 bad) (bad := bad) hs (by simp only [State.startup, hphase])
  exact ⟨_, he, s.boot3_spec bad⟩

end Sys2Proof.Machine
end

section
/-!
SUPPORT. Phase 4 of start-up: the self-tests (R633, R637, R638).
-/
namespace Sys2Proof.Machine

/-! ## The buffers of a position -/

/-- The march test of a position's buffers reaches no tile, no register and no store but links, junctions and what waits for
stacks. -/
theorem State.marched_keeps (s : State) (d p : Nat) : (s.marched d p).tiles = s.tiles ∧ (s.marched d p).pwr = s.pwr ∧
    (s.marched d p).regs = s.regs ∧ (s.marched d p).img = s.img ∧ (s.marched d p).flash = s.flash := by
  unfold State.marched State.slotsClear
  dsimp only
  split <;> exact ⟨rfl, rfl, rfl, rfl, rfl⟩

/-! ## One test -/

/-- What the self-test of a tile leaves of the rest (R637). -/
theorem State.tested_keeps (s : State) (d p : Nat) (pass : Bool) : (s.tested d p pass).regs = s.regs ∧
    (s.tested d p pass).flash = s.flash ∧ (s.tested d p pass).img.detours = s.img.detours := by
  obtain ⟨-, -, hregs, himg, hflash⟩ := ((s.setTile d p Tile.reset).unload d p).marched_keeps d p
  have hdetours := congrArg (fun i => i.detours) himg
  exact ⟨hregs, hflash, hdetours⟩

/-- The tile of a test is as reset leaves it, every other stays. -/
theorem State.tile_tested (s : State) (d p : Nat) (pass : Bool) (e q : Nat) :
    (s.tested d p pass).tile e q = if tkey e q = tkey d p then Tile.reset else s.tile e q := by
  have htiles : (s.tested d p pass).tile e q = (s.setTile d p Tile.reset).tile e q :=
    congrArg (SMap.get _ · _) (State.marched_keeps ..).1
  rw [htiles]
  split
  next h => rw [State.tile, h]; exact s.tile_setTile_self d p _
  next h => exact s.tile_setTile_of_ne _ h

/-- Its outcome is free or retired. -/
theorem State.flag_tested (s : State) (d p : Nat) (pass : Bool) (k : Nat) :
    SMap.get (fun _ => 0) (s.tested d p pass).pwr.tile k =
      if k = tkey d p then (if pass then 0 else 4) else SMap.get (fun _ => 0) s.pwr.tile k := by
  have hpwr : (((s.setTile d p Tile.reset).unload d p).marched d p).pwr = s.pwr := (State.marched_keeps ..).2.1
  have htile : (s.tested d p pass).pwr.tile =
      SMap.set (fun _ => 0) (((s.setTile d p Tile.reset).unload d p).marched d p).pwr.tile (tkey d p) (if pass then 0 else 4) := rfl
  rw [htile, hpwr, SMap.get_set]

/-- What the self-test of a warden leaves of the rest (R638). -/
theorem State.wardenTested_keeps (s : State) (d : Nat) : TilesBut (tkey d 72) s (s.wardenTested d) ∧
    (s.wardenTested d).pwr = s.pwr ∧ (s.wardenTested d).img = s.img ∧ (s.wardenTested d).flash = s.flash := by
  obtain ⟨htiles, hpwr, -, himg, hflash⟩ := s.marched_keeps d 72
  refine ⟨fun e q hne => ?_, hpwr, himg, hflash⟩
  exact (State.tile_setTile_of_ne _ _ hne).trans (congrArg (SMap.get _ · _) htiles)

/-! ## The tests of phase 4 -/

/-- The test of a tile in phase 4: none of a retired one, unless RETEST asks for it. -/
def State.testIn4 (bad : List Nat) (s : State) (d p : Nat) : State :=
  if s.tileFlag d p == 4 && !(s.rb 0xC1 29) then s else s.tested d p (!(bad.contains (tkey d p)))

/-- Every tile's. -/
def State.testsIn4 (bad : List Nat) (s : State) : State :=
  (List.range 8).foldl (fun (s : State) d => (List.range 72).foldl (fun (s : State) p => s.testIn4 bad d p) s) s

section
variable (bad : List Nat) (s : State)

theorem State.testIn4_keeps (d p : Nat) : (s.testIn4 bad d p).regs = s.regs ∧ (s.testIn4 bad d p).flash = s.flash ∧
    (s.testIn4 bad d p).img.detours = s.img.detours := by
  unfold State.testIn4
  split
  · exact ⟨rfl, rfl, rfl⟩
  · exact s.tested_keeps ..

theorem State.testsIn4_keeps : (s.testsIn4 bad).flash = s.flash ∧ (s.testsIn4 bad).img.detours = s.img.detours := by
  unfold State.testsIn4
  constructor
  · refine foldl_keeps State.flash (fun s d => ?_) _ _
    exact foldl_keeps State.flash (fun s p => by rw [(s.testIn4_keeps bad d p).2.1]) _ _
  · refine foldl_keeps (fun s => s.img.detours) (fun s d => ?_) _ _
    exact foldl_keeps (fun s => s.img.detours) (fun s p => by rw [(s.testIn4_keeps bad d p).2.2]) _ _

end

/-- The tile is to be tested. -/
def State.toTest (d p : Nat) (s : State) : Prop := s.tileFlag d p ≠ 4 ∨ s.rb 0xC1 29 = true

/-- The tile has been tested, with the result that the list of failures gives. -/
def State.isTested (bad : List Nat) (d p : Nat) (s : State) : Prop :=
  s.tile d p = Tile.reset ∧ s.tileFlag d p = if tkey d p ∈ bad then 4 else 0

section
variable {bad : List Nat} {s : State} {d p : Nat}

theorem State.isTested_tested {e q : Nat} (hkey : tkey d p = tkey e q) :
    (s.tested e q (!(bad.contains (tkey e q)))).isTested bad d p := by
  rw [State.isTested, State.tile_tested, if_pos hkey, State.tileFlag, State.flag_tested, if_pos hkey, ← hkey]
  refine ⟨rfl, ?_⟩
  by_cases hbad : tkey d p ∈ bad <;> simp [hbad]

/-- The test of a tile that is to be tested. -/
theorem State.isTested_testIn4 (h : s.toTest d p) : (s.testIn4 bad d p).isTested bad d p := by
  have hrun : (s.tileFlag d p == 4 && !(s.rb 0xC1 29)) = false := by
    obtain h | h := h <;> simp [h]
  rw [State.testIn4, hrun, if_neg Bool.false_ne_true]
  exact State.isTested_tested rfl

/-- The test of another tile leaves it as it was. -/
theorem State.testIn4_other {e q : Nat} (h : tkey d p ≠ tkey e q) : (s.testIn4 bad e q).tile d p = s.tile d p ∧
    (s.testIn4 bad e q).tileFlag d p = s.tileFlag d p := by
  unfold State.testIn4
  split
  · exact ⟨rfl, rfl⟩
  · rw [State.tile_tested, if_neg h, State.tileFlag, State.flag_tested, if_neg h]
    exact ⟨rfl, rfl⟩

theorem State.toTest_testIn4 {e q : Nat} (hne : tkey d p ≠ tkey e q) (h : s.toTest d p) : (s.testIn4 bad e q).toTest d p := by
  have hregs := (s.testIn4_keeps bad e q).1
  rwa [State.toTest, (State.testIn4_other hne).2, State.rb, State.rd, hregs]

/-- Once tested it stays so, tested again or not. -/
theorem State.isTested_testIn4_any (e q : Nat) (h : s.isTested bad d p) : (s.testIn4 bad e q).isTested bad d p := by
  by_cases hkey : tkey d p = tkey e q
  · unfold State.testIn4
    split
    · exact h
    · exact State.isTested_tested hkey
  · obtain ⟨htile, hflag⟩ := State.testIn4_other (bad := bad) (s := s) hkey
    rwa [State.isTested, htile, hflag]

/-- Phase 4 tests every tile that is to be tested. -/
theorem State.isTested_testsIn4 (hd : d < 8) (hp : p < 72) (h : s.toTest d p) : (s.testsIn4 bad).isTested bad d p := by
  have others (s : State) (e : Nat) (hne : e ≠ d) (h : s.toTest d p) :
      ((List.range 72).foldl (fun (s : State) q => s.testIn4 bad e q) s).toTest d p :=
    List.foldlRecOn _ _ h fun s hs q hq => State.toTest_testIn4 (by
      have := List.mem_range.mp hq
      unfold tkey
      omega) hs
  have kept (s : State) (e : Nat) (h : s.isTested bad d p) :
      ((List.range 72).foldl (fun (s : State) q => s.testIn4 bad e q) s).isTested bad d p :=
    List.foldlRecOn _ _ h fun s hs q _ => State.isTested_testIn4_any e q hs
  have row (s : State) (h : s.toTest d p) :
      ((List.range 72).foldl (fun (s : State) q => s.testIn4 bad d q) s).isTested bad d p :=
    foldl_reaches (List.mem_range.mpr hp)
      (fun s q hq hne hs => State.toTest_testIn4 (by unfold tkey; omega) hs)
      (fun s q _ hs => State.isTested_testIn4_any d q hs) (fun s hs => State.isTested_testIn4 hs) h
  exact foldl_reaches (List.mem_range.mpr hd) (fun s e _ hne hs => others s e hne hs) (fun s e _ hs => kept s e hs) row h

end

/-! ## After the tests -/

theorem State.akLost_pwr (s : State) : s.akLost.pwr = s.pwr := by
  unfold State.akLost
  dsimp only
  split <;> rfl

/-- A new lead takes over with no tile and no flag changed. -/
theorem State.leadFails_keeps (s : State) : s.leadFails.tiles = s.tiles ∧ s.leadFails.pwr = s.pwr := by
  have hto (d : Nat) : (s.leadTo d).tiles = s.tiles ∧ (s.leadTo d).pwr = s.pwr := by
    unfold State.leadTo
    dsimp only
    split
    · exact ⟨rfl, rfl⟩
    · exact ⟨(State.akLost_rest _).1, State.akLost_pwr _⟩
  unfold State.leadFails
  split
  · exact ⟨rfl, rfl⟩
  · split
    · exact hto _
    · exact ⟨rfl, rfl⟩

/-- The wardens' tests of phase 4. -/
def State.wardenTests (s : State) : State := (List.range 8).foldl (fun (s : State) d => s.wardenTested d) s

theorem State.wardenTests_keeps (s : State) : (∀ d p, p < 72 → s.wardenTests.tile d p = s.tile d p) ∧
    s.wardenTests.pwr = s.pwr ∧ s.wardenTests.img = s.img ∧ s.wardenTests.flash = s.flash := by
  unfold State.wardenTests
  exact ⟨fun d p hp => foldl_keeps (fun s => s.tile d p)
      (fun s e => by rw [(s.wardenTested_keeps e).1 d p (by unfold tkey; omega)]) _ _,
    foldl_keeps State.pwr (fun s d => by rw [(s.wardenTested_keeps d).2.1]) _ _,
    foldl_keeps State.img (fun s d => by rw [(s.wardenTested_keeps d).2.2.1]) _ _,
    foldl_keeps State.flash (fun s d => by rw [(s.wardenTested_keeps d).2.2.2]) _ _⟩

theorem State.boot4_eq (s : State) (bad : List Nat) : ∃ u l, RegsAlone domRegs s u ∧
    s.boot4 bad = ((((u.testsIn4 bad).wardenTests).setHealthy l).leadFails).wf aBoot 3 0 5 :=
  ⟨_, _, s.domainsOn_alone [0, 1, 2, 3, 4, 5, 6, 7, 8, 9, 10, 11, 12], rfl⟩

/-- The part t once phase 4 has ended: flash is as it was in s, and with no detour anywhere a tile that was to be tested is as
reset leaves it, free or retired. -/
def State.Phase4Over (s : State) (bad : List Nat) (t : State) : Prop :=
  t.rf aBoot 3 0 = 5 ∧ t.flash = s.flash ∧
    ((∀ e, s.detoursOn e = []) → ∀ d p, d < 8 → p < 72 → s.tileFlag d p ≠ 4 ∨ s.rb 0xC1 29 = true →
      t.tile d p = Tile.reset ∧ t.tileFlag d p = if tkey d p ∈ bad then 4 else 0)

theorem State.boot4_over (s : State) (bad : List Nat) : s.Phase4Over bad (s.boot4 bad) := by
  obtain ⟨u, l, hon, heq⟩ := s.boot4_eq bad
  rw [heq]
  obtain ⟨hflash, hdetours⟩ := State.testsIn4_keeps bad u
  obtain ⟨wtile, wpwr, wimg, wflash⟩ := (u.testsIn4 bad).wardenTests_keeps
  refine ⟨State.rf_wf_self _ _ _ (by decide), ?_, fun hnone d p hd hp htest => ?_⟩
  · rw [State.wf_flash, State.leadFails_flash, State.setHealthy_flash, wflash, hflash, hon.flash]
  · have hnone' (e : Nat) : (u.testsIn4 bad).wardenTests.detoursOn e = [] := by
      rw [State.detoursOn, wimg, hdetours, hon.img]
      exact hnone e
    have htest' : u.toTest d p := by
      have hrb : u.rb 0xC1 29 = s.rb 0xC1 29 := hon.rb 29 (by unfold domRegs aPwr; omega)
      rwa [State.toTest, State.tileFlag, hon.pwr, hrb]
    obtain ⟨htile, hflag⟩ := State.isTested_testsIn4 (bad := bad) hd hp htest'
    obtain ⟨htiles, hpwr, -⟩ := State.setHealthy_keeps hnone' l
    constructor
    · rw [State.tile, State.wf_keeps_tiles, (State.leadFails_keeps _).1, htiles]
      exact (wtile d p hp).trans htile
    · rw [State.tileFlag, State.wf_keeps_pwr, (State.leadFails_keeps _).2, hpwr, wpwr]
      exact hflag

/-- Waymarks put in order and commands queued are no part of it. -/
theorem State.Phase4Over.keeps {s t : State} {bad : List Nat} (h : s.Phase4Over bad t) (p : List Instr) (l : List Mark) :
    s.Phase4Over bad { t with pending := p, marks := l } := h

theorem startup_phase4 {s : State} (bad : List Nat) (hs : s.held = false) (hphase : s.rf aBoot 3 0 = 4) :
    ∃ t, exec (.startup bad) s = .next t ∧ s.Phase4Over bad t := by
  obtain ⟨l, he⟩ := exec_startup (u := s.boot4 bad) (bad := bad) hs (by simp only [State.startup, hphase])
  exact ⟨_, he, (s.boot4_over bad).keeps _ _⟩

end Sys2Proof.Machine
end

section
/-!
SUPPORT. PKG_BOOTCFG and its copy in the flash header (R647, log entry 12).
-/
namespace Sys2Proof.Machine

/-! ## Bytes programmed are read back -/

theorem State.flashBytes_program (s : State) (a : Nat) {l : List Byte} {i n : Nat} (h : i + n ≤ l.length) :
    (s.program a l).flashBytes (a + i) n = (l.drop i).take n := by
  refine List.ext_getElem (by simp [State.flashBytes]; omega) fun k hk hk' => ?_
  have hkn : k < n := by simpa [State.flashBytes] using hk
  simp only [State.flashBytes, List.getElem_map, List.getElem_range, List.getElem_take, List.getElem_drop]
  rw [State.flashByte_program, if_pos (by omega), List.getD_eq_getElem _ _ (by omega)]
  congr 1
  omega

theorem hashBytes_length (l : List Byte) : (hashBytes l).length = 32 := by
  rw [hashBytes, toBe, List.length_reverse, toLe_length]

/-- The flash header holds 13 bytes and a keyed digest of them. -/
theorem State.header_lengths (s : State) : s.headerBytes.length = 13 ∧ (s.keyed s.headerBytes).length = 32 := by
  refine ⟨?_, hashBytes_length _⟩
  rw [State.headerBytes, List.length_append, toLe_length]
  rfl

/-! ## The header of flash -/

/-- PKG_BOOTCFG as a header that holds it gives it back. -/
theorem State.headerWord_of_bytes {s t : State} (hseed : t.sec.idSeed = s.sec.idSeed)
    (hbytes : t.flashBytes 0 13 = s.headerBytes) (hdigest : t.flashBytes 13 32 = s.keyed s.headerBytes) :
    t.headerWord = s.rd 0xC1 := by
  have hkeyed : t.keyed s.headerBytes = s.keyed s.headerBytes := by rw [State.keyed, State.keyed, hseed]
  have hword : wd (leBytes (toLe 5 (s.rd 0xC1).toNat)) = s.rd 0xC1 := by
    have := (s.rd 0xC1).isLt
    rw [leBytes_toLe, Nat.mod_eq_of_lt (by omega), wd, BitVec.ofNat_toNat, BitVec.setWidth_eq]
  have hmagic : s.headerBytes.take 8 = ascii [0x54, 0x47, 0x46, 0x4C, 0x41, 0x53, 0x48, 0x31] := List.take_left' rfl
  have hrest : s.headerBytes.drop 8 = toLe 5 (s.rd 0xC1).toNat := List.drop_left' rfl
  unfold State.headerWord
  simp only [hbytes, hdigest, hkeyed, hmagic, hrest, beq_self_eq_true, Bool.and_self, if_true, hword]

/-- With flash reached the header holds PKG_BOOTCFG, and nothing past its sector changes; else the write waits. -/
theorem State.saveBoot_spec (s : State) :
    if s.flashReach = true then s.saveBoot.headerWord = s.rd 0xC1 ∧ ∀ a, 0x1_0000 ≤ a → s.saveBoot.flashByte a = s.flashByte a
    else s.saveBoot.flash = s.flash ∧ 1 ∈ s.saveBoot.nvWait := by
  obtain ⟨hlen, hdig⟩ := s.header_lengths
  unfold State.saveBoot
  split
  next hreach =>
    refine ⟨State.headerWord_of_bytes ?_ ?_ ?_, fun a ha => ?_⟩
    · obtain ⟨flash, heq⟩ := (s.erase 0 0x1_0000).program_eq (s.headerBytes ++ s.keyed s.headerBytes) 0
      rw [heq]
      rfl
    · have h := (s.erase 0 0x1_0000).flashBytes_program 0 (l := s.headerBytes ++ s.keyed s.headerBytes) (i := 0) (n := 13)
        (by rw [List.length_append]; omega)
      exact h.trans (List.take_left' hlen)
    · have h := (s.erase 0 0x1_0000).flashBytes_program 0 (l := s.headerBytes ++ s.keyed s.headerBytes) (i := 13) (n := 32)
        (by rw [List.length_append]; omega)
      rw [List.drop_left' hlen] at h
      exact h.trans (List.take_of_length_le hdig.le)
    · rw [State.flashByte_program, if_neg (by rw [List.length_append]; omega), State.flashByte_erase, if_neg (by omega)]
  next => exact ⟨rfl, .head _⟩

/-- The copy is flash's, or waits. -/
theorem State.saveBoot_eq (s : State) : ∃ flash nvWait, s.saveBoot = { s with flash := flash, nvWait := nvWait } := by
  unfold State.saveBoot
  split
  · obtain ⟨flash, heq⟩ := (s.erase 0 0x1_0000).program_eq (s.headerBytes ++ s.keyed s.headerBytes) 0
    exact ⟨flash, s.nvWait, heq⟩
  · exact ⟨s.flash, _, rfl⟩

/-! ## The controller's reach beside a register access -/

/-- What flash's controller is reached by does not turn on PKG_BOOTCFG, nor on a master's toll count. -/
theorem State.flashReach_bootcfg (s : State) (m : Nat) (v : Word) :
    ((s.setOut m 0xC1).wr 0xC1 v).flashReach = s.flashReach := by
  have hrd (q : Nat) (hq : q ≠ 0xC1) (hq' : q ≠ aToll m) : ((s.setOut m 0xC1).wr 0xC1 v).rd q = s.rd q :=
    (State.rd_wr_of_ne _ v hq).trans ((s.setOut_effect m 0xC1).regs q hq')
  have hend (l : Nat) : 0x110 + 4 * (linkEnds l).1.2 < 0x120 := by
    unfold linkEnds
    (repeat' split) <;> simp
  have hoos (l : Nat) : ((s.setOut m 0xC1).wr 0xC1 v).ibkOos l = s.ibkOos l := by
    have hreg : ((s.setOut m 0xC1).wr 0xC1 v).rd (aIbk (linkEnds l).1) = s.rd (aIbk (linkEnds l).1) :=
      hrd _ (by unfold aIbk aDie; omega) (ne_aToll_off (by have := hend l; omega) (.inl (hend l)))
    have hibl : ((s.setOut m 0xC1).wr 0xC1 v).ibl = s.ibl := by simp [State.setOut, State.turnTaken]
    rw [State.ibkOos, State.ibkOos, State.rb, State.rb, hreg, State.ibLink, State.ibLink, hibl]
  have hlc : ((s.setOut m 0xC1).wr 0xC1 v).lc = s.lc :=
    congrArg (fld · 2 0) (hrd (aSec 0) (by decide) (ne_aToll_low (by decide)))
  have htap : ((s.setOut m 0xC1).wr 0xC1 v).tap = s.tap := by simp [State.setOut, State.turnTaken]
  have himg : ((s.setOut m 0xC1).wr 0xC1 v).img = s.img := by simp [State.setOut, State.turnTaken]
  have hboot : ((s.setOut m 0xC1).wr 0xC1 v).boot = s.boot := by simp [State.setOut, State.turnTaken]
  have hpath (a b : Nat) : ((s.setOut m 0xC1).wr 0xC1 v).pathUsed a b = s.pathUsed a b := by
    rw [State.pathUsed, funext hoos]
    rfl
  have hclamped : ((s.setOut m 0xC1).wr 0xC1 v).clamped = s.clamped := by
    simp only [State.clamped, State.extestOk, State.armed, hlc, htap, himg]
  have hlead : ((s.setOut m 0xC1).wr 0xC1 v).lead = s.lead := congrArg BootSt.lead hboot
  have hzero : ((s.setOut m 0xC1).wr 0xC1 v).healthy 0 = s.healthy 0 :=
    congrArg (fun b : BootSt => b.healthy.contains 0) hboot
  rw [State.flashReach, hclamped, hlead, hzero, State.xrReach, hpath]
  rfl

/-! ## The write -/

/-- The word that a permitted write with AUTODLY from 16 on leaves in PKG_BOOTCFG. -/
def bootcfgWord (old w : Word) : Word := putFld (w &&& 0x3FFFFFFF) 30 30 (fld old 30 30)

theorem bootcfgWord_fields (old w : Word) : fld (bootcfgWord old w) 28 0 = fld w 28 0 ∧
    bitOf (bootcfgWord old w) 29 = bitOf w 29 ∧ bitOf (bootcfgWord old w) 30 = bitOf old 30 := by
  have hmask (i : Nat) : (w &&& 0x3FFFFFFF).getLsbD i = (decide (i < 30) && w.getLsbD i) := by
    have hones : (0x3FFFFFFF : Word).getLsbD i = decide (i < 30) := by
      rw [show (0x3FFFFFFF : Word) = BitVec.ofNat 36 (2 ^ 30 - 1) from rfl, BitVec.getLsbD_ofNat,
        Nat.testBit_two_pow_sub_one]
      by_cases hi : i < 30 <;> simp [hi]
      omega
    rw [BitVec.getLsbD_and, hones, Bool.and_comm]
  refine ⟨?_, ?_, ?_⟩
  · rw [bootcfgWord, fld_putFld_apart _ _ (by decide)]
    refine Nat.eq_of_testBit_eq fun i => ?_
    rw [testBit_fld, testBit_fld, hmask]
    by_cases hi : i < 29 <;> simp [hi]
    omega
  · rw [bootcfgWord, bitOf_putFld_apart _ _ (by decide), bitOf, hmask]
    rfl
  · rw [bootcfgWord, bitOf_putFld_in _ _ (by decide) (by decide), testBit_fld]
    rfl

/-- A write with AUTODLY from 16 on: the word in force, and its copy. -/
theorem State.bootcfgWrite_eq (s : State) {w : Word} (hw : 16 ≤ fld w 28 13) :
    s.bootcfgWrite w = (s.wr 0xC1 (bootcfgWord (s.rd 0xC1) w)).saveBoot := by
  unfold State.bootcfgWrite
  rw [if_neg (by omega), if_neg (by omega)]
  rfl

/-- The end of a transaction reaches no more than the queues of the links crossed, the answer and JTAG's register. -/
theorem State.answered_eq (s u s0 : State) (m addr out back c : Nat) (l : List Word) : ∃ ibk free tap,
    s.keepQueue ((u.xrCross s0 m addr out back).answer m c l) =
      { u with pending := s.pending, ibk := ibk, free := free, out := u.out ++ [.resp m c l], tap := tap } := by
  obtain ⟨⟨ibk, free, hqueued⟩, -⟩ := u.xrCross_queued s0 m addr out back
  obtain ⟨tap, hanswer⟩ := (u.xrCross s0 m addr out back).answer_eq m c l
  exact ⟨ibk, free, tap, by rw [hanswer, hqueued]; rfl⟩

theorem pkgBootcfgWrite_spec {s : State} {m : Nat} {w : Word} (hm : masterOk m = true) (hp : Permitted m 0xC1 s)
    (hw : 16 ≤ fld w 28 13) :
    ∃ t, exec (.pkgBootcfgWrite m w) s = .next t ∧ t.rf 0xC1 28 0 = fld w 28 0 ∧ t.rb 0xC1 29 = bitOf w 29 ∧
      t.rb 0xC1 30 = s.rb 0xC1 30 ∧
      (if s.flashReach = true then t.headerWord = t.rd 0xC1 ∧ ∀ a, 0x1_0000 ≤ a → t.flashByte a = s.flashByte a
        else t.flash = s.flash ∧ 1 ∈ t.nvWait) ∧
      RegsBut (fun a => a = 0xC1 ∨ a = aToll m) s t ∧ t.tiles = s.tiles := by
  obtain ⟨r, hr, hpm⟩ : ∃ r, regAt m 0xC1 = some (.pkg, r, 0xC1) ∧ r.perMaster = false := ⟨_, rfl, rfl⟩
  have hexec : exec (.pkgBootcfgWrite m w) s = .next (s.keepQueue (s.doWrite m 0xC1 w)) :=
    live_next (ok := masterOk m) (f := (State.doWrite · m 0xC1 w)) hp.outOfReset hm
  have hput : (s.setOut m 0xC1).regPut m 0xC1 .pkg r 0xC1 w = (s.setOut m 0xC1).bootcfgWrite w := rfl
  have hwrite : s.doWrite m 0xC1 w =
      (((s.setOut m 0xC1).bootcfgWrite w).xrCross (s.turnTaken m 0xC1) m 0xC1 1 0).answer m 0 [] :=
    State.doWrite_reg w hm (by decide) hp hr hpm rfl
  have hold : (s.setOut m 0xC1).rd 0xC1 = s.rd 0xC1 := (s.setOut_effect m 0xC1).regs _ (ne_aToll_low (by decide))
  have hsaved := ((s.setOut m 0xC1).wr 0xC1 (bootcfgWord (s.rd 0xC1) w)).saveBoot_spec
  rw [State.flashReach_bootcfg] at hsaved
  rw [hwrite, State.bootcfgWrite_eq _ hw, hold] at hexec
  obtain ⟨flash, nvWait, hsave⟩ := ((s.setOut m 0xC1).wr 0xC1 (bootcfgWord (s.rd 0xC1) w)).saveBoot_eq
  obtain ⟨hlow, h29, h30⟩ := bootcfgWord_fields (s.rd 0xC1) w
  have hsame : ((s.setOut m 0xC1).wr 0xC1 (bootcfgWord (s.rd 0xC1) w)).flash = s.flash := by
    rw [State.wr_flash]
    exact (s.setOut_effect m 0xC1).stores.1
  have hregs : RegsBut (fun a => a = 0xC1 ∨ a = aToll m) s ((s.setOut m 0xC1).wr 0xC1 (bootcfgWord (s.rd 0xC1) w)) :=
    fun q hq => (State.rd_wr_of_ne _ _ fun h => hq (.inl h)).trans ((s.setOut_effect m 0xC1).regs q fun h => hq (.inr h))
  have hword : ((s.setOut m 0xC1).wr 0xC1 (bootcfgWord (s.rd 0xC1) w)).rd 0xC1 = bootcfgWord (s.rd 0xC1) w :=
    State.rd_wr_self ..
  have htiles : ((s.setOut m 0xC1).wr 0xC1 (bootcfgWord (s.rd 0xC1) w)).tiles = s.tiles := by simp
  rw [hsave] at hexec hsaved
  generalize (s.setOut m 0xC1).wr 0xC1 (bootcfgWord (s.rd 0xC1) w) = u at *
  obtain ⟨ibk, free, tap, hdone⟩ := s.answered_eq { u with flash := flash, nvWait := nvWait } (s.turnTaken m 0xC1) m 0xC1 1 0 0 []
  rw [hdone] at hexec
  have hread (hi lo : Nat) : u.rf 0xC1 hi lo = fld (bootcfgWord (s.rd 0xC1) w) hi lo := by rw [State.rf, hword]
  have hbit (i : Nat) : u.rb 0xC1 i = bitOf (bootcfgWord (s.rd 0xC1) w) i := by rw [State.rb, hword]
  refine ⟨_, hexec, (hread 28 0).trans hlow, (hbit 29).trans h29, (hbit 30).trans h30, ?_, hregs, htiles⟩
  split
  next hreach =>
    rw [if_pos hreach] at hsaved
    obtain ⟨hheader, hbytes⟩ := hsaved
    exact ⟨hheader, fun a ha => (hbytes a ha).trans (congrArg (SMap.get _ · a) hsame)⟩
  next hreach =>
    rw [if_neg hreach] at hsaved
    obtain ⟨hflash, hwait⟩ := hsaved
    exact ⟨hflash.trans hsame, hwait⟩

end Sys2Proof.Machine
end

section
/-!
SUPPORT. Links that retrain as an EXTEST-class instruction ends (R653): what the end of a frame being taken in reaches.
-/
namespace Sys2Proof.Machine

/-- From s to t nothing changed that the test access port meets. -/
structure TapKept (s t : State) : Prop where
  tap : t.tap = s.tap
  sec : t.sec = s.sec
  out : t.out = s.out
  held : t.held = s.held
  pfwLow : t.pfwLow = s.pfwLow

theorem TapKept.refl (s : State) : TapKept s s := ⟨rfl, rfl, rfl, rfl, rfl⟩

theorem TapKept.trans {s t u : State} (h : TapKept s t) (g : TapKept t u) : TapKept s u :=
  ⟨g.tap.trans h.tap, g.sec.trans h.sec, g.out.trans h.out, g.held.trans h.held, g.pfwLow.trans h.pfwLow⟩

/-- From s to t a frame of link k has ended or gone on: of the registers no more than the link's counts of frames, and nothing
that the test access port meets. -/
structure FrameOnly (k : Nat) (s t : State) : Prop where
  regs : RegsBut (fun q => q = aLink k 8 ∨ q = aLink k 9) s t
  kept : TapKept s t

namespace FrameOnly
variable {k : Nat} {s t u : State}

theorem refl (k : Nat) (s : State) : FrameOnly k s s := ⟨fun _ _ => rfl, .refl s⟩

theorem trans (h : FrameOnly k s t) (g : FrameOnly k t u) : FrameOnly k s u :=
  ⟨fun q hq => (g.regs q hq).trans (h.regs q hq), h.kept.trans g.kept⟩

theorem onLink (h : FrameOnly k s t) (n : Nat) (f : LinkSt → LinkSt) : FrameOnly k s (t.onLink n f) :=
  h.trans ⟨fun _ _ => rfl, rfl, rfl, rfl, rfl, rfl⟩

theorem onTile (h : FrameOnly k s t) (d p : Nat) (f : Tile → Tile) : FrameOnly k s (t.onTile d p f) :=
  h.trans ⟨fun _ _ => rfl, rfl, rfl, rfl, rfl, rfl⟩

theorem bump (h : FrameOnly k s t) {q : Nat} (hi lo n : Nat) (hq : q = aLink k 8 ∨ q = aLink k 9) :
    FrameOnly k s (t.bump q hi lo n) :=
  h.trans ⟨fun a ha => State.rd_wr_of_ne t _ (by rintro rfl; exact ha hq), rfl, rfl, rfl, rfl, rfl⟩

theorem depositFrom (h : FrameOnly k s t) (n : Nat) (tick : Tick) (i : Nat) (words : List Word) (coin : Bool) :
    FrameOnly k s (t.depositFrom n tick i words coin) := by
  unfold State.depositFrom
  exact h.trans (foldl_rel (refl k) (fun _ _ _ => trans) _ (fun s x _ => (refl k s).onTile ..) t)

theorem noFrame (h : FrameOnly k s t) (tick : Tick) (coin : Bool) : FrameOnly k s (t.noFrame k tick coin) := by
  refine h.trans ?_
  unfold State.noFrame
  dsimp only
  have hput (c : Bool) : FrameOnly k t (if c then t.deposit k tick (List.replicate (t.linkW k) (t.rd (aLink k 1))) coin else t) := by
    split
    · exact (refl k t).depositFrom ..
    · exact refl k t
  split
  · exact refl k t
  · split
    · exact ((hput true).onLink ..).bump _ _ _ (.inl rfl)
    · exact (refl k t).onLink ..

theorem frameEnd (h : FrameOnly k s t) (f : RxFrame) (coin : Bool) : FrameOnly k s (t.frameEnd k f coin) := by
  refine h.trans ?_
  unfold State.frameEnd
  dsimp only
  split
  · exact refl k t
  · split
    · exact (refl k t).noFrame ..
    · split
      · have hcount (c : Prop) [Decidable c] : FrameOnly k t (if c then t else t.bump (aLink k 9) 35 18 1) := by
          split
          · exact refl k t
          · exact (refl k t).bump _ _ _ (.inr rfl)
        split
        · exact (hcount _).noFrame ..
        · exact hcount _
      · split
        · exact ((refl k t).depositFrom ..).onLink ..
        · exact (((refl k t).depositFrom ..).onLink ..).bump _ _ _ (.inl rfl)

theorem tickEnd (h : FrameOnly k s t) (tick : Tick) (f : RxFrame) (coin : Bool) :
    FrameOnly k s (t.tickEnd k tick (some f) coin) := by
  unfold State.tickEnd
  split
  · exact h.frameEnd ..
  · split
    · exact h
    · exact h.onLink ..

theorem framePut (h : FrameOnly k s t) (f : RxFrame) (coin : Bool) : FrameOnly k s (t.framePut k f coin).1 := by
  unfold State.framePut
  dsimp only
  split
  · exact h.depositFrom ..
  · exact h

/-- A frame being taken in ends or goes on. -/
theorem frameCut (h : FrameOnly k s t) : FrameOnly k s (t.frameCut k) := by
  refine h.trans ?_
  unfold State.frameCut
  split
  next hframe =>
    obtain ⟨f, hf⟩ := Option.isSome_iff_exists.mp hframe
    have hstart : t.frameStart k 0 0 = (t, some f) := by
      unfold State.frameStart
      simp only [hf]
    unfold State.frameStep
    rw [hstart]
    dsimp only
    split
    · exact (((refl k t).onLink ..).onLink ..).tickEnd ..
    · exact (((refl k t).onLink ..).framePut ..).onLink ..
  next => exact refl k t

end FrameOnly

/-! ## A link retrains -/

/-- Retraining a link writes its LINK_STAT and its counts of frames. -/
theorem State.retrainLink_frameOnly (s : State) (k : Nat) (rate : Bool) :
    FrameOnly k (s.wf (aLink k 3) 0 0 0) (s.retrainLink k rate) :=
  ((FrameOnly.refl k _).onLink ..).frameCut

theorem State.retrainLink_kept (s : State) (k : Nat) (rate : Bool) : TapKept s (s.retrainLink k rate) := by
  have hstat : TapKept s (s.wf (aLink k 3) 0 0 0) := ⟨rfl, rfl, rfl, rfl, rfl⟩
  exact hstat.trans (s.retrainLink_frameOnly k rate).kept

/-- A link that retrains has no lock, and no other link loses or gains it. -/
theorem State.lock_retrainLink (s : State) (k : Nat) (rate : Bool) (n : Nat) :
    (s.retrainLink k rate).rb (aLink n 3) 0 = if aLink n 3 = aLink k 3 then false else s.rb (aLink n 3) 0 := by
  have hrd : (s.retrainLink k rate).rd (aLink n 3) = (s.wf (aLink k 3) 0 0 0).rd (aLink n 3) :=
    (s.retrainLink_frameOnly k rate).regs _ (by unfold aLink aDie; omega)
  rw [State.rb, hrd, State.rd_wf]
  split
  next h => rw [bitOf_putFld_in _ _ (by decide) (by decide)]; rfl
  next => rfl

/-! ## A new TAP instruction (R648, R653) -/

/-- The part with an instruction in each die's register. -/
def State.withIrs (s : State) (l : List Nat) : State :=
  { s with tap := { s.tap with ir := l, clamped := l.any holdsLands } }

/-- With the lands not released nothing else happens. -/
theorem State.tapIrs_eq {s : State} {l : List Nat} (h : (s.tap.clamped && !(l.any holdsLands)) = false) :
    s.tapIrs l = s.withIrs l := by
  unfold State.tapIrs
  dsimp only
  rw [h, if_neg Bool.false_ne_true]
  rfl

/-- Whether or not links retrain, the instruction stands, and what else the port meets is as before. -/
theorem State.tapIrs_kept (s : State) (l : List Nat) : TapKept (s.withIrs l) (s.tapIrs l) := by
  unfold State.tapIrs
  dsimp only
  split
  · exact foldl_rel TapKept.refl (fun _ _ _ => TapKept.trans) _ (fun s n _ => s.retrainLink_kept n false) _
  · exact TapKept.refl _

/-- As the lands are released every link loses lock. -/
theorem State.lock_tapIrs {s : State} {l : List Nat} (hclamped : s.tap.clamped = true) (hl : l.any holdsLands = false) {n : Nat}
    (hn : n < 512) : (s.tapIrs l).rb (aLink n 3) 0 = false := by
  unfold State.tapIrs
  dsimp only
  rw [hclamped, hl, if_pos (by rfl)]
  refine foldl_reaches (before := fun _ => True) (after := fun s => s.rb (aLink n 3) 0 = false) (List.mem_range.mpr hn)
    (fun _ _ _ _ h => h) (fun s k _ h => ?_) (fun s _ => ?_) trivial
  · rw [State.lock_retrainLink, h, ite_self]
  · rw [State.lock_retrainLink, if_pos rfl]

end Sys2Proof.Machine
end

section
/-!
SUPPORT. The instructions of the test access port beside CRACCESS (R648 to R653).
-/
namespace Sys2Proof.Machine

theorem any_replicate_holdsLands (ir : Nat) : (List.replicate 8 ir).any holdsLands = holdsLands ir := by
  cases h : holdsLands ir <;> simp [h]

/-- The part with the same instruction on all eight dies. -/
theorem State.tapIr_tap (s : State) (ir : Nat) :
    (s.tapIr ir).tap = { s.tap with ir := List.replicate 8 ir, clamped := holdsLands ir } := by
  rw [State.tapIr, (s.tapIrs_kept _).tap, State.withIrs, any_replicate_holdsLands]

/-- An instruction that holds the lands, or one that finds them free, does no more than stand in the registers. -/
theorem State.tapIr_eq {s : State} {ir : Nat} (h : holdsLands ir = true ∨ s.tap.clamped = false) :
    s.tapIr ir = s.withIrs (List.replicate 8 ir) := by
  refine State.tapIrs_eq ?_
  rw [any_replicate_holdsLands]
  obtain h | h := h <;> simp [h]

/-! ## Bits shifted out -/

theorem State.keepQueue_emit (s u : State) (e : Emit) :
    s.keepQueue (u.emit e) = { u with pending := s.pending, out := u.out ++ [e] } := rfl

section
variable {s : State} {i : Instr} {ir : Nat} {bits : List Bool}
  (hexec : exec i s = .next (s.keepQueue ((s.tapIr ir).emit (.tdo bits))))
include hexec

/-- An instruction that shifts bits out and does not hold the lands. -/
theorem tapShift_free (hir : holdsLands ir = false) :
    ∃ t, exec i s = .next t ∧ t.tap.ir = List.replicate 8 ir ∧ t.tap.clamped = false ∧ t.out = s.out ++ [.tdo bits] ∧
      (s.tap.clamped = false → t.tiles = s.tiles ∧ StoresKept s t) ∧
      (s.tap.clamped = true → ∀ n, n < 512 → t.rb (aLink n 3) 0 = false) := by
  have htap := s.tapIr_tap ir
  have hout : (s.tapIr ir).out = s.out := (s.tapIrs_kept _).out
  have hlock (h : s.tap.clamped = true) (n : Nat) (hn : n < 512) : (s.tapIr ir).rb (aLink n 3) 0 = false :=
    State.lock_tapIrs h (by rw [any_replicate_holdsLands, hir]) hn
  have hfree (h : s.tap.clamped = false) := State.tapIr_eq (ir := ir) (.inr h)
  have htiles (h : s.tap.clamped = false) : (s.tapIr ir).tiles = s.tiles ∧ StoresKept s (s.tapIr ir) := by
    rw [hfree h]
    exact ⟨rfl, rfl, rfl, rfl, rfl, rfl, rfl, rfl⟩
  rw [State.keepQueue_emit] at hexec
  generalize s.tapIr ir = u at *
  refine ⟨_, hexec, congrArg TapSt.ir htap, (congrArg TapSt.clamped htap).trans hir, ?_, htiles, hlock⟩
  dsimp only
  rw [hout]

/-- An instruction that shifts bits out and holds the lands. -/
theorem tapShift_holds (hir : holdsLands ir = true) :
    ∃ t, exec i s = .next t ∧ t.tap.ir = List.replicate 8 ir ∧ t.tap.clamped = true ∧ t.regs = s.regs ∧ t.tiles = s.tiles ∧
      StoresKept s t ∧ t.out = s.out ++ [.tdo bits] := by
  rw [State.tapIr_eq (.inl hir), State.keepQueue_emit] at hexec
  exact ⟨_, hexec, rfl, (any_replicate_holdsLands ir).trans hir, rfl, rfl, ⟨rfl, rfl, rfl, rfl, rfl, rfl, rfl⟩, rfl⟩

end

/-! ## The boundary register (R651) -/

theorem chainCells_length : chainCells.length = 1627 := by decide +kernel

theorem State.capture_length (s : State) : s.capture.2.length = 1627 := by
  simp [State.capture, chainCells_length]

/-- What a cell of the chain captures. -/
theorem State.capture_getElem? (s : State) {i : Nat} {x : Land × BCell} (h : chainCells[i]? = some x) :
    s.capture.2[i]? = some (s.cellIn x (Config.freeScan (s.free + i))) := by
  have hi : i < 1627 := by
    rw [← chainCells_length]
    exact (List.getElem?_eq_some_iff.mp h).1
  have hzip : ((List.range 1627).zip chainCells)[i]? = some (i, x) := by
    rw [List.getElem?_zip_eq_some]
    exact ⟨List.getElem?_range hi, h⟩
  rw [State.capture, List.getElem?_map, hzip]
  rfl

/-- The lands whose level the part knows: PORST_N high, PFW_N and TAMP_N as their sources say. -/
theorem State.capture_known (s : State) (hs : s.held = false) (i : Nat) (c : BCell) :
    (chainCells[i]? = some (.porstN, c) → s.capture.2[i]? = some true) ∧
      (chainCells[i]? = some (.pfwN, c) → s.capture.2[i]? = some (!s.pfwLow)) ∧
      (chainCells[i]? = some (.tampN, c) → s.capture.2[i]? = some (!(s.sec.active.contains 3))) := by
  refine ⟨fun h => ?_, fun h => s.capture_getElem? h, fun h => s.capture_getElem? h⟩
  rw [s.capture_getElem? h, State.cellIn, hs]
  rfl

/-- A scan: what the lands capture, and as many bits out as in. -/
theorem State.tapScan_eq (s : State) (ir : Nat) (tdi : List Bool) : s.tapScan ir tdi =
    ({ s.tapIr ir with free := (s.tapIr ir).free + 1627,
                       tap := { (s.tapIr ir).tap with bsr := ((s.tapIr ir).capture.2 ++ tdi).drop tdi.length } } : State).emit
      (.tdo (((s.tapIr ir).capture.2 ++ tdi).take tdi.length)) := rfl

end Sys2Proof.Machine
end

section
/-!
SUPPORT. Scans of the boundary register and CRACCESS (R651, R652).
-/
namespace Sys2Proof.Machine

/-! ## Scans of the boundary register -/

section
variable {s : State} {i : Instr} {ir : Nat} {tdi : List Bool} (hexec : exec i s = .next (s.keepQueue (s.tapScan ir tdi)))
include hexec

/-- A scan by an instruction that does not hold the lands. -/
theorem tapScan_free (hs : s.held = false) (hir : holdsLands ir = false) :
    ∃ t b, exec i s = .next t ∧ t.tap.ir = List.replicate 8 ir ∧ t.tap.clamped = false ∧ b.length = 1627 ∧
      (∀ (k : Nat) (c : BCell), (chainCells[k]? = some (.porstN, c) → b[k]? = some true) ∧
        (chainCells[k]? = some (.pfwN, c) → b[k]? = some (!s.pfwLow)) ∧
        (chainCells[k]? = some (.tampN, c) → b[k]? = some (!(s.sec.active.contains 3)))) ∧
      t.tap.bsr = (b ++ tdi).drop tdi.length ∧ t.out = s.out ++ [.tdo ((b ++ tdi).take tdi.length)] ∧
      (s.tap.clamped = false → t.tiles = s.tiles ∧ StoresKept s t) := by
  have htap := s.tapIr_tap ir
  obtain ⟨-, hsec, hout, hheld, hpfw⟩ : TapKept _ (s.tapIr ir) := s.tapIrs_kept (List.replicate 8 ir)
  have hknown := (s.tapIr ir).capture_known (hheld.trans hs)
  have hlength := (s.tapIr ir).capture_length
  have hfree (h : s.tap.clamped = false) : (s.tapIr ir).tiles = s.tiles ∧ StoresKept s (s.tapIr ir) := by
    rw [State.tapIr_eq (.inr h)]
    exact ⟨rfl, rfl, rfl, rfl, rfl, rfl, rfl, rfl⟩
  rw [hsec, hpfw] at hknown
  rw [State.tapScan_eq, State.keepQueue_emit] at hexec
  generalize s.tapIr ir = u at *
  refine ⟨_, u.capture.2, hexec, congrArg TapSt.ir htap, (congrArg TapSt.clamped htap).trans hir, hlength, hknown, rfl, ?_, hfree⟩
  dsimp only
  rw [hout]
  rfl

/-- A scan by an instruction that holds the lands. -/
theorem tapScan_holds (hir : holdsLands ir = true) :
    ∃ t b, exec i s = .next t ∧ t.tap.ir = List.replicate 8 ir ∧ t.tap.clamped = true ∧ b.length = 1627 ∧
      t.tap.bsr = (b ++ tdi).drop tdi.length ∧ t.regs = s.regs ∧ t.tiles = s.tiles ∧ StoresKept s t ∧
      t.out = s.out ++ [.tdo ((b ++ tdi).take tdi.length)] := by
  rw [State.tapScan_eq, State.keepQueue_emit, State.tapIr_eq (.inl hir)] at hexec
  exact ⟨_, (s.withIrs (List.replicate 8 ir)).capture.2, hexec, rfl, (any_replicate_holdsLands ir).trans hir,
    State.capture_length _, rfl, rfl, rfl, ⟨rfl, rfl, rfl, rfl, rfl, rfl, rfl⟩, rfl⟩

end

/-! ## CRACCESS (R652) -/

/-- The part after a scan of CRACCESS with the lands free: the register shifted out, and what came in for it. -/
def State.scanned (s : State) (cr dr : BitVec 76) : State :=
  { s with tap := { s.tap with ir := 0x10 :: List.replicate 7 0x3F, clamped := false, cr := dr },
           out := s.out ++ [.tdo (List.replicate 7 false ++ tapBits 76 cr.toNat)] }

/-- The instructions of CRACCESS on the eight dies hold no land. -/
theorem State.tapIrs_craccess {s : State} (h : s.tap.clamped = false) :
    s.tapIrs (0x10 :: List.replicate 7 0x3F) = s.withIrs (0x10 :: List.replicate 7 0x3F) :=
  State.tapIrs_eq (by rw [h, Bool.false_and])

/-- A scan while a transaction pends (log entry 75). -/
theorem State.craccess_pends {s : State} (dr : BitVec 76) (hservice : s.service = true) (hpends : s.scanPends = true)
    (h : s.tap.clamped = false) : s.craccess dr = s.scanned (putFld s.tap.cr 75 73 7) s.tap.cr := by
  unfold State.craccess
  dsimp only
  rw [hservice, hpends, State.tapIrs_craccess h]
  rfl

/-- A scan that issues a transaction. -/
theorem State.craccess_issues {s : State} (dr : BitVec 76) (hservice : s.service = true) (hpends : s.scanPends = false)
    (h : s.tap.clamped = false) : s.craccess dr = (s.scanned s.tap.cr dr).issue
      ⟨4, fld dr 71 36, 0, bitOf dr 72, [wd (fld dr 35 0)], false⟩ (decide (s.atPort (s.portOf (fld dr 71 36)) ≠ 0)) := by
  unfold State.craccess
  dsimp only
  rw [hservice, hpends, State.tapIrs_craccess h]
  rfl

/-- A port where no other transaction waits is free. -/
theorem Alone.atPort {s : State} {addr : Nat} (h : Alone addr s) : s.atPort (s.portOf addr) = 0 := by
  rw [State.atPort, List.length_eq_zero_iff, List.filter_eq_nil_iff]
  intro r hr
  simpa using h r hr

/-- The data that come with a read are not looked at. -/
theorem State.issue_read {s : State} {m addr : Nat} (l : List Word) (hm : s.isMaster m = true) (ha : Alone addr s)
    (h8 : addr / 0x1_0000_0000 % 16 < 8) : s.issue ⟨m, addr, 0, false, l, false⟩ false = s.doRead m addr := by
  rw [State.doRead, State.issue_alone _ _ _ hm ha h8, State.issue_alone _ _ _ hm ha h8]
  simp [State.perform, State.transact]

/-- A served read of PKG_ID leaves the part as it set out (Table 19.2). -/
theorem State.doRead_pkgId {s : State} {m : Nat} (hm : masterOk m = true) (hs : Served m 0 s) :
    s.doRead m 0 = ((s.setOut m 0).xrCross (s.turnTaken m 0) m 0 0 1).answer m 0 [s.rd 0] := by
  obtain ⟨r, hr⟩ : ∃ r, regAt m 0 = some (.pkg, r, 0) := ⟨_, rfl⟩
  have hshown (w : Word) : r.shown w = w := by cases hr; rfl
  have hid : (s.setOut m 0).rd 0 = s.rd 0 := (s.setOut_effect m 0).regs 0 (ne_aToll_low (by decide))
  refine State.doRead_reg hm (by decide) hs hr ?_
  rw [← hid, ← hshown ((s.setOut m 0).rd 0)]
  rfl

/-- The port's own state meets the crossroads only in the answer. -/
theorem State.xrCross_setOut_tap (s : State) (m addr out back : Nat) :
    ((s.setOut m addr).xrCross (s.turnTaken m addr) m addr out back).tap = s.tap := by
  obtain ⟨⟨ibk, free, h⟩, -⟩ := (s.setOut m addr).xrCross_queued (s.turnTaken m addr) m addr out back
  rw [h]
  exact State.xrBeats_tap ..

/-- The answer OK to a read of CRACCESS stands in its register for the next scan. -/
theorem State.answer_tap_read (s : State) (w : Word) :
    (s.answer 4 0 [w]).tap = { s.tap with cr := putFld (putFld s.tap.cr 75 73 0) 35 0 w.toNat } := rfl

/-- The register of CRACCESS with the answer to a read. -/
theorem fld_crRead (cr : BitVec 76) (w : Word) :
    fld (putFld (putFld cr 75 73 0) 35 0 w.toNat) 75 73 = 0 ∧ fld (putFld (putFld cr 75 73 0) 35 0 w.toNat) 35 0 = w.toNat := by
  constructor
  · rw [fld_putFld_apart _ _ (by omega), fld_putFld_self _ _ (by omega), Nat.zero_mod]
  · rw [fld_putFld_self _ _ (by omega)]
    exact Nat.mod_eq_of_lt w.isLt

/-- CRACCESS reads PKG_ID. -/
theorem craccess_pkgId {s : State} (hs : s.held = false) (dr : BitVec 76) (hservice : s.service = true) (hserved : Served 4 0 s)
    (hpends : s.scanPends = false) (hfree : s.tap.clamped = false) (hread : bitOf dr 72 = false) (haddr : fld dr 71 36 = 0) :
    ∃ t, exec (.craccess dr) s = .next t ∧ t.tap.ir = 0x10 :: List.replicate 7 0x3F ∧ fld t.tap.cr 75 73 = 0 ∧
      fld t.tap.cr 35 0 = (s.rd 0).toNat ∧ t.tiles = s.tiles ∧ AccessKept s t ∧
      t.out = s.out ++ [.tdo (List.replicate 7 false ++ tapBits 76 s.tap.cr.toNat), .resp 4 0 [s.rd 0]] := by
  have hserved' : Served 4 0 (s.scanned s.tap.cr dr) := hserved
  obtain ⟨⟨-, hmaster, -⟩, halone⟩ := id hserved'
  have hbusy : decide (s.atPort (s.portOf 0) ≠ 0) = false := by
    obtain ⟨-, h⟩ := hserved
    simp [h.atPort]
  have hexec : exec (.craccess dr) s = .next (s.keepQueue (s.craccess dr)) := live_next (f := (State.craccess · dr)) hs rfl
  rw [State.craccess_issues dr hservice hpends hfree, haddr, hread, hbusy, State.issue_read _ hmaster halone (by decide),
    State.doRead_pkgId (by decide) hserved'] at hexec
  refine ⟨_, hexec, ?_⟩
  have hrd : (s.scanned s.tap.cr dr).rd 0 = s.rd 0 := rfl
  have htap := (s.scanned s.tap.cr dr).xrCross_setOut_tap 4 0 0 1
  have heffect := (s.scanned s.tap.cr dr).setOut_effect 4 0
  have htiles := (s.scanned s.tap.cr dr).setOut_tiles 4 0
  have hanswered := State.answeredAs s ((s.scanned s.tap.cr dr).setOut 4 0) ((s.scanned s.tap.cr dr).turnTaken 4 0) 4 0 0 1 0 [s.rd 0]
  have hkept : AccessKept s _ := heffect.accessKept hanswered
  have hout := hanswered.out.trans (congrArg (· ++ [Emit.resp 4 0 [s.rd 0]]) heffect.out)
  have hcr := fld_crRead dr (s.rd 0)
  rw [hrd]
  refine ⟨?_, ?_, ?_, hanswered.tiles.trans htiles, hkept, ?_⟩
  · rw [State.keepQueue_tap, State.answer_tap_read, htap]
    rfl
  · rw [State.keepQueue_tap, State.answer_tap_read, htap]
    exact hcr.1
  · rw [State.keepQueue_tap, State.answer_tap_read, htap]
    exact hcr.2
  · rw [hout]
    simp [State.scanned]

/-- CRACCESS while a transaction pends. -/
theorem craccess_pending {s : State} (hs : s.held = false) (dr : BitVec 76) (hservice : s.service = true)
    (hpends : s.scanPends = true) (hfree : s.tap.clamped = false) :
    ∃ t, exec (.craccess dr) s = .next t ∧ t.xrq = s.xrq ∧ t.parked = s.parked ∧ t.regs = s.regs ∧ t.tap.cr = s.tap.cr ∧
      t.out = s.out ++ [.tdo (List.replicate 7 false ++ tapBits 76 (putFld s.tap.cr 75 73 7).toNat)] := by
  have hexec : exec (.craccess dr) s = .next (s.keepQueue (s.craccess dr)) := live_next (f := (State.craccess · dr)) hs rfl
  rw [State.craccess_pends dr hservice hpends hfree] at hexec
  exact ⟨_, hexec, rfl, rfl, rfl, rfl, rfl⟩

/-- Outside SERVICE it is BYPASS. -/
theorem State.craccess_bypass {s : State} (dr : BitVec 76) (h : s.service = false) : s.craccess dr = s.tapBypass := by
  unfold State.craccess
  rw [h]
  rfl

end Sys2Proof.Machine
end

section
/-!
SETTLES O58: a pulse of PORST_N, the phases of start-up, a write of PKG_BOOTCFG, and the instructions of the test access port.
-/
namespace Sys2Proof.Machine

/-- IDCODE, BOOTSTAT and BYPASS. -/
theorem tapShifts_spec {s : State} (hs : s.held = false) : ∀ x ∈ ([(.idcode, 2, (List.range 8).flatMap (fun _ => tapBits 32 0x1851276F)),
      (.bootstat, 0x11, (List.range 8).flatMap (fun _ => tapBits 36 (s.rd aBoot).toNat)),
      (.bypass, 0x3F, List.replicate 8 false)] : List (Instr × Nat × List Bool)),
    ∃ t, exec x.1 s = .next t ∧ t.tap.ir = List.replicate 8 x.2.1 ∧ t.tap.clamped = false ∧ t.out = s.out ++ [.tdo x.2.2] ∧
      (s.tap.clamped = false → t.tiles = s.tiles ∧ StoresKept s t) ∧
      (s.tap.clamped = true → ∀ n, n < 512 → t.rb (aLink n 3) 0 = false) := by
  intro x hx
  simp only [List.mem_cons, List.not_mem_nil, or_false] at hx
  obtain rfl | rfl | rfl := hx
  · exact tapShift_free (live_next (f := fun s => (s.tapIr 2).emit (.tdo _)) hs rfl) rfl
  · exact tapShift_free (live_next
      (f := fun s => (s.tapIr 0x11).emit (.tdo ((List.range 8).flatMap (fun _ => tapBits 36 (s.rd aBoot).toNat)))) hs rfl) rfl
  · exact tapShift_free (live_next (f := State.tapBypass) hs rfl) rfl

/-- The part after INTSCAN in BLANK: a bit of the internal scan chains is shifted out. -/
def State.intscanned (s : State) : State :=
  ({ s.tapIr 0x20 with free := s.free + 1 } : State).emit (.tdo [Config.freeScan s.free])

/-- INTSCAN in BLANK. -/
theorem intscan_spec {s : State} (hs : s.held = false) (hlc : s.lc = 0) :
    ∃ t b, exec .intscan s = .next t ∧ t.tap.ir = List.replicate 8 0x20 ∧ t.out = s.out ++ [.tdo [b]] ∧
      (s.tap.clamped = false → t.tiles = s.tiles ∧ StoresKept s t) := by
  have hexec : exec .intscan s = .next (s.keepQueue (if s.lc = 0 then s.intscanned else s.tapBypass)) :=
    live_next (f := fun s => if s.lc = 0 then s.intscanned else s.tapBypass) hs rfl
  have htap := s.tapIr_tap 0x20
  have hout : (s.tapIr 0x20).out = s.out := (s.tapIrs_kept _).out
  have hfree (h : s.tap.clamped = false) : (s.tapIr 0x20).tiles = s.tiles ∧ StoresKept s (s.tapIr 0x20) := by
    rw [State.tapIr_eq (.inr h)]
    exact ⟨rfl, rfl, rfl, rfl, rfl, rfl, rfl, rfl⟩
  rw [if_pos hlc, State.intscanned, State.keepQueue_emit] at hexec
  generalize s.tapIr 0x20 = u at *
  refine ⟨_, Config.freeScan s.free, hexec, congrArg TapSt.ir htap, ?_, hfree⟩
  dsimp only
  rw [hout]

section
variable {s : State} {i : Instr} {f : State → State}

/-- An instruction of the EXTEST class does its work where the life cycle permits it. -/
theorem exec_extestOk (hi : exec i s = live true s (fun s => if s.extestOk then f s else s.tapBypass)) (hs : s.held = false)
    (hok : s.extestOk = true) : exec i s = .next (s.keepQueue (f s)) := by
  rw [hi, live_next hs rfl, if_pos hok]

/-- One that is not permitted is BYPASS. -/
theorem exec_extestRefused (hi : exec i s = live true s (fun s => if s.extestOk then f s else s.tapBypass)) (hs : s.held = false)
    (hok : s.extestOk = false) : exec i s = exec .bypass s := by
  have hbypass : exec .bypass s = .next (s.keepQueue s.tapBypass) := live_next (f := State.tapBypass) hs rfl
  rw [hi, hbypass, live_next hs rfl, if_neg (by rw [hok]; exact Bool.false_ne_true)]

end

/-- EXTEST, EXTEST_PULSE and EXTEST_TRAIN. -/
theorem extestScans_spec {s : State} (hs : s.held = false) (tdi : List Bool) :
    ∀ x ∈ ([(.extest tdi, 0), (.extestPulse tdi, 5), (.extestTrain tdi, 6)] : List (Instr × Nat)),
      (s.extestOk = true → ∃ t b, exec x.1 s = .next t ∧ t.tap.ir = List.replicate 8 x.2 ∧ t.tap.clamped = true ∧
        b.length = 1627 ∧ t.tap.bsr = (b ++ tdi).drop tdi.length ∧ t.regs = s.regs ∧ t.tiles = s.tiles ∧ StoresKept s t ∧
        t.out = s.out ++ [.tdo ((b ++ tdi).take tdi.length)]) ∧
      (s.extestOk = false → exec x.1 s = exec .bypass s) := by
  have hscan {i : Instr} {ir : Nat} (hir : holdsLands ir = true)
      (hi : exec i s = live true s (fun s => if s.extestOk then s.tapScan ir tdi else s.tapBypass)) :=
    And.intro (fun hok => tapScan_holds (exec_extestOk (f := (State.tapScan · ir tdi)) hi hs hok) hir)
      (exec_extestRefused (f := (State.tapScan · ir tdi)) hi hs)
  intro x hx
  simp only [List.mem_cons, List.not_mem_nil, or_false] at hx
  obtain rfl | rfl | rfl := hx
  · exact hscan rfl rfl
  · exact hscan rfl rfl
  · exact hscan rfl rfl

/-- CLAMP and HIGHZ. -/
theorem clampHighz_spec {s : State} (hs : s.held = false) : ∀ x ∈ ([(.tapClamp, 3), (.highz, 4)] : List (Instr × Nat)),
    (s.extestOk = true → ∃ t, exec x.1 s = .next t ∧ t.tap.ir = List.replicate 8 x.2 ∧ t.tap.clamped = true ∧ t.regs = s.regs ∧
      t.tiles = s.tiles ∧ StoresKept s t ∧ t.out = s.out ++ [.tdo (List.replicate 8 false)]) ∧
    (s.extestOk = false → exec x.1 s = exec .bypass s) := by
  have hshift {i : Instr} {ir : Nat} (hir : holdsLands ir = true) (hi : exec i s = live true s
      (fun s => if s.extestOk then (s.tapIr ir).emit (.tdo (List.replicate 8 false)) else s.tapBypass)) :=
    And.intro (fun hok => tapShift_holds (exec_extestOk (f := fun s => (s.tapIr ir).emit _) hi hs hok) hir)
      (exec_extestRefused (f := fun s => (s.tapIr ir).emit _) hi hs)
  intro x hx
  simp only [List.mem_cons, List.not_mem_nil, or_false] at hx
  obtain rfl | rfl := hx
  · exact hshift rfl rfl
  · exact hshift rfl rfl

/-- Outside SERVICE CRACCESS is BYPASS. -/
theorem exec_craccess_bypass {s : State} (hs : s.held = false) (dr : BitVec 76) (h : s.service = false) :
    exec (.craccess dr) s = exec .bypass s := by
  have hcraccess : exec (.craccess dr) s = .next (s.keepQueue (s.craccess dr)) := live_next (f := (State.craccess · dr)) hs rfl
  have hbypass : exec .bypass s = .next (s.keepQueue s.tapBypass) := live_next (f := State.tapBypass) hs rfl
  rw [hcraccess, hbypass, State.craccess_bypass dr h]

/-- Settles O58, phase by phase and instruction by instruction. -/
theorem startupAndTap : Obligations.StartupAndTap := by
  intro s hs
  refine ⟨porstNPulse_spec hs, fun bad => ⟨?_, fun h => startup_phase2 bad hs h, fun h => startup_phase3 bad hs h,
      fun h => startup_phase4 bad hs h, fun h => startup_phase5 bad hs h⟩,
    fun m w hm hp hw => pkgBootcfgWrite_spec hm hp hw, tapShifts_spec hs, fun tdi => ?_, intscan_spec hs, extestScans_spec hs,
    clampHighz_spec hs, fun dr => ⟨?_, craccess_pending hs dr, exec_craccess_bypass hs dr⟩⟩
  · intro hphase d hd hgood hlow
    exact startup_phase0 hs hphase hd hgood hlow
  · exact tapScan_free (live_next (f := (State.tapScan · 1 tdi)) hs rfl) hs rfl
  · exact craccess_pkgId hs dr

end Sys2Proof.Machine
end
